-- ==== Sys2Proof/Word.lean ====
section
/-! DEFINITION. The word types of the Luweind 960 and their plainest arithmetic. -/

namespace Sys2Proof

/-- A byte (R9). -/
abbrev Byte := BitVec 8
/-- A scalar register, CSR or address (R32, R44). -/
abbrev W64 := BitVec 64
/-- An instruction word (R71) or a tile cell (R201). -/
abbrev W32 := BitVec 32
/-- A register number (R73). -/
abbrev Reg := BitVec 5

end Sys2Proof
end

