-- ==== Sys2Proof/Syntax.lean ====
section
/-! DEFINITION. The instructions, operations and events of the Luweind 960: one constructor for each row of the
opcode table, and the plain data that the rows without a word carry. -/

namespace Sys2Proof

/-- The three writing CSR operations (R83, R135). -/
inductive CsrOp where
  | wr | set | clr
  deriving DecidableEq, Repr

/-- Where one hart of a gang is placed (R331): the lowest physical cluster of its grant, and the first
quarter for a quarter grant (0 otherwise; for a 64-cluster grant, the second die). -/
structure Place where
  cluster : Nat
  quarter : Nat
  deriving DecidableEq, Repr

/-- Why the pre-emption of a gang is requested (R336). -/
inductive PreemptWhy where
  | higherPriority | yield | systemCore
  deriving DecidableEq, Repr

/-- One arriving element of a remote command (R252, R384, R387).  `xctl` is the command's XCTL (R238),
`first` the destination of element 0, `seq` the sender's sequence number, `ctx` its engine context, and `life` tells the harts apart
that the context has been bound to, whose identifiers start again (R233, R234; logged as assumption 50). -/
structure RemoteElem where
  pkg   : Nat
  ctx   : Nat
  life  : Nat
  seq   : Nat
  cmd   : Nat
  index : Nat
  last  : Bool
  first : BitVec 64
  addr  : BitVec 64
  bytes : Nat
  data  : List (BitVec 8)
  xctl  : BitVec 64
  deriving DecidableEq, Repr

/-- What a destination acknowledges (R251, R388): how many elements stand applied, the data a GET read,
and the error code of R243 (0 for none). -/
structure RemoteAck where
  applied : Nat
  data    : List (BitVec 8)
  code    : Nat
  deriving DecidableEq, Repr

/-- The six activity classes of R339, in the order of the budget registers (R340). -/
inductive BudClass where
  | d | e | a | m | t | x
  deriving DecidableEq, Repr

/-- What a request is for: nothing that waits for its data, a scalar register (R129), a fetch (R305, R401), the block table (R148), the
queued instruction that has read it from a cluster (R155), element `i` of a command of the copy engines (R403), the oldest trace line of a cluster,
which the granted request writes (R366), or the class that an advice placement gives to a line (R292, R296). -/
inductive DataTo where
  | nothing
  | reg (r : Nat)
  | fetch
  | table
  | queued (cluster : Nat)
  | elem (id i : Nat)
  | drain (cluster : Nat)
  | place (cls : Nat)
  deriving DecidableEq, Repr

/-- A request of a class for a granule (R339, R341, R355): the hart it is made for, in whose MEMRETRY a retry counts, the channel of
that hart's copy-engine command, where its data goes, the ck in which it was made, and whether the line store held the line then.  Its controller and
bank follow from these and the granule (R344, R347, R349). -/
structure MemReq where
  granule : Nat
  cls     : BudClass
  write   : Bool
  hart    : Option Nat
  chan    : Option Nat
  dest    : DataTo
  issued  : Nat
  hit     : Bool
  deriving DecidableEq, Repr

/-- The retirement of a 64 KiB page that holds live data (R361): the old and new page, the address of
the leaf entry to rewrite, the hart whose MEMERR caused it, and the reason of R360. -/
structure Retirement where
  old     : Nat
  new     : Nat
  leaf    : Nat
  hart    : Option Nat
  reason  : Nat
  deriving DecidableEq, Repr

/-- The header of a control message (R397), and the host that sent it. -/
structure MsgHead where
  host   : Nat
  type   : BitVec 16
  status : BitVec 16
  seq    : BitVec 32
  length : BitVec 32
  res    : BitVec 32
  deriving DecidableEq, Repr

/-- The payload of an IMGLOAD (R119, R397): the host window that holds the two files and where each lies in it (an advice file of no bytes: none
is supplied), the page table root of the program, and the address the loader gives .marks. -/
structure ImagePair where
  window   : Nat
  semantic : Nat × Nat
  advice   : Nat × Nat
  ptroot   : BitVec 64
  marks    : BitVec 64
  deriving DecidableEq, Repr

/-- One entry of the remote registration table or of the host windows (R383, R389). -/
structure Registration where
  low    : BitVec 64
  high   : BitVec 64
  ptroot : BitVec 64
  owner  : BitVec 64
  ctl    : BitVec 64
  deriving DecidableEq, Repr


/-- One constructor for each row of the opcode table: the instructions of the semantic half, those of the
advice half (`adv…`), and the operations and events that have no word.  A constructor's fields are the
fields of the word, at the width the table gives them. -/
inductive Instr where
  /-- SYS_ECALL (R137) -/
  | sysEcall
  /-- SYS_EBREAK (R137) -/
  | sysEbreak
  /-- SYS_ERET (R313) -/
  | sysEret
  /-- SYS_WFI (R140) -/
  | sysWfi
  /-- SYS_REFSYNC (R141) -/
  | sysRefsync (a : BitVec 5)
  /-- ALU_ADD (R122) -/
  | aluAdd (d : BitVec 5) (a : BitVec 5) (b : BitVec 5)
  /-- ALU_SUB (R122) -/
  | aluSub (d : BitVec 5) (a : BitVec 5) (b : BitVec 5)
  /-- ALU_AND (R122) -/
  | aluAnd (d : BitVec 5) (a : BitVec 5) (b : BitVec 5)
  /-- ALU_OR (R122) -/
  | aluOr (d : BitVec 5) (a : BitVec 5) (b : BitVec 5)
  /-- ALU_XOR (R122) -/
  | aluXor (d : BitVec 5) (a : BitVec 5) (b : BitVec 5)
  /-- ALU_SLL (R122) -/
  | aluSll (d : BitVec 5) (a : BitVec 5) (b : BitVec 5)
  /-- ALU_SRL (R122) -/
  | aluSrl (d : BitVec 5) (a : BitVec 5) (b : BitVec 5)
  /-- ALU_SRA (R122) -/
  | aluSra (d : BitVec 5) (a : BitVec 5) (b : BitVec 5)
  /-- ALU_SLT (R122) -/
  | aluSlt (d : BitVec 5) (a : BitVec 5) (b : BitVec 5)
  /-- ALU_SLTU (R122) -/
  | aluSltu (d : BitVec 5) (a : BitVec 5) (b : BitVec 5)
  /-- ALU_MIN (R122) -/
  | aluMin (d : BitVec 5) (a : BitVec 5) (b : BitVec 5)
  /-- ALU_MAX (R122) -/
  | aluMax (d : BitVec 5) (a : BitVec 5) (b : BitVec 5)
  /-- ALU_MINU (R122) -/
  | aluMinu (d : BitVec 5) (a : BitVec 5) (b : BitVec 5)
  /-- ALU_MAXU (R122) -/
  | aluMaxu (d : BitVec 5) (a : BitVec 5) (b : BitVec 5)
  /-- ALU_CLZ (R122) -/
  | aluClz (d : BitVec 5) (a : BitVec 5)
  /-- ALU_POPC (R122) -/
  | aluPopc (d : BitVec 5) (a : BitVec 5)
  /-- MULDIV_MUL (R123) -/
  | muldivMul (d : BitVec 5) (a : BitVec 5) (b : BitVec 5)
  /-- MULDIV_MULH (R123) -/
  | muldivMulh (d : BitVec 5) (a : BitVec 5) (b : BitVec 5)
  /-- MULDIV_MULHU (R123) -/
  | muldivMulhu (d : BitVec 5) (a : BitVec 5) (b : BitVec 5)
  /-- MULDIV_DIV (R123) -/
  | muldivDiv (d : BitVec 5) (a : BitVec 5) (b : BitVec 5)
  /-- MULDIV_DIVU (R123) -/
  | muldivDivu (d : BitVec 5) (a : BitVec 5) (b : BitVec 5)
  /-- MULDIV_REM (R123) -/
  | muldivRem (d : BitVec 5) (a : BitVec 5) (b : BitVec 5)
  /-- MULDIV_REMU (R123) -/
  | muldivRemu (d : BitVec 5) (a : BitVec 5) (b : BitVec 5)
  /-- FPS_ADD (R133) -/
  | fpsAdd (d : BitVec 5) (a : BitVec 5) (b : BitVec 5) (p : BitVec 1)
  /-- FPS_SUB (R133) -/
  | fpsSub (d : BitVec 5) (a : BitVec 5) (b : BitVec 5) (p : BitVec 1)
  /-- FPS_MUL (R133) -/
  | fpsMul (d : BitVec 5) (a : BitVec 5) (b : BitVec 5) (p : BitVec 1)
  /-- FPS_DIV (R133) -/
  | fpsDiv (d : BitVec 5) (a : BitVec 5) (b : BitVec 5) (p : BitVec 1)
  /-- FPS_SQRT (R133) -/
  | fpsSqrt (d : BitVec 5) (a : BitVec 5) (p : BitVec 1)
  /-- FPS_FMA (R133) -/
  | fpsFma (d : BitVec 5) (a : BitVec 5) (b : BitVec 5) (p : BitVec 1)
  /-- FPS_MIN (R133) -/
  | fpsMin (d : BitVec 5) (a : BitVec 5) (b : BitVec 5) (p : BitVec 1)
  /-- FPS_MAX (R133) -/
  | fpsMax (d : BitVec 5) (a : BitVec 5) (b : BitVec 5) (p : BitVec 1)
  /-- FPS_CVT_OTHER (R133) -/
  | fpsCvtOther (d : BitVec 5) (a : BitVec 5) (p : BitVec 1)
  /-- FPS_CVT_FROMINT (R133) -/
  | fpsCvtFromint (d : BitVec 5) (a : BitVec 5) (p : BitVec 1)
  /-- FPS_CVT_FROMUINT (R133) -/
  | fpsCvtFromuint (d : BitVec 5) (a : BitVec 5) (p : BitVec 1)
  /-- FPS_CVT_TOINT (R133) -/
  | fpsCvtToint (d : BitVec 5) (a : BitVec 5) (p : BitVec 1)
  /-- FPS_CVT_TOUINT (R133) -/
  | fpsCvtTouint (d : BitVec 5) (a : BitVec 5) (p : BitVec 1)
  /-- FPS_CMP_EQ (R133) -/
  | fpsCmpEq (d : BitVec 5) (a : BitVec 5) (b : BitVec 5) (p : BitVec 1)
  /-- FPS_CMP_LT (R133) -/
  | fpsCmpLt (d : BitVec 5) (a : BitVec 5) (b : BitVec 5) (p : BitVec 1)
  /-- FPS_CMP_LE (R133) -/
  | fpsCmpLe (d : BitVec 5) (a : BitVec 5) (b : BitVec 5) (p : BitVec 1)
  /-- FPS_CLASS (R134) -/
  | fpsClass (d : BitVec 5) (a : BitVec 5) (p : BitVec 1)
  /-- FPS_MV_COPY (R133) -/
  | fpsMvCopy (d : BitVec 5) (a : BitVec 5) (p : BitVec 1)
  /-- FPS_MV_NEG (R133) -/
  | fpsMvNeg (d : BitVec 5) (a : BitVec 5) (p : BitVec 1)
  /-- FPS_MV_ABS (R133) -/
  | fpsMvAbs (d : BitVec 5) (a : BitVec 5) (p : BitVec 1)
  /-- ADDI (R124) -/
  | addi (d : BitVec 5) (a : BitVec 5) (i : BitVec 16)
  /-- ANDI (R124) -/
  | andi (d : BitVec 5) (a : BitVec 5) (i : BitVec 16)
  /-- ORI (R124) -/
  | ori (d : BitVec 5) (a : BitVec 5) (i : BitVec 16)
  /-- XORI (R124) -/
  | xori (d : BitVec 5) (a : BitVec 5) (i : BitVec 16)
  /-- SLTI (R124) -/
  | slti (d : BitVec 5) (a : BitVec 5) (i : BitVec 16)
  /-- SLTIU (R124) -/
  | sltiu (d : BitVec 5) (a : BitVec 5) (i : BitVec 16)
  /-- SHI_SLLI (R124) -/
  | shiSlli (d : BitVec 5) (a : BitVec 5) (s : BitVec 6)
  /-- SHI_SRLI (R124) -/
  | shiSrli (d : BitVec 5) (a : BitVec 5) (s : BitVec 6)
  /-- SHI_SRAI (R124) -/
  | shiSrai (d : BitVec 5) (a : BitVec 5) (s : BitVec 6)
  /-- LUI (R125) -/
  | lui (d : BitVec 5) (w : BitVec 21)
  /-- AUIPC (R125) -/
  | auipc (d : BitVec 5) (w : BitVec 21)
  /-- LDS_B (R126) -/
  | ldsB (d : BitVec 5) (a : BitVec 5) (o : BitVec 13)
  /-- LDS_H (R126) -/
  | ldsH (d : BitVec 5) (a : BitVec 5) (o : BitVec 13)
  /-- LDS_W (R126) -/
  | ldsW (d : BitVec 5) (a : BitVec 5) (o : BitVec 13)
  /-- LDS_D (R126) -/
  | ldsD (d : BitVec 5) (a : BitVec 5) (o : BitVec 13)
  /-- LDS_BU (R126) -/
  | ldsBu (d : BitVec 5) (a : BitVec 5) (o : BitVec 13)
  /-- LDS_HU (R126) -/
  | ldsHu (d : BitVec 5) (a : BitVec 5) (o : BitVec 13)
  /-- LDS_WU (R126) -/
  | ldsWu (d : BitVec 5) (a : BitVec 5) (o : BitVec 13)
  /-- STS_B (R126) -/
  | stsB (d : BitVec 5) (a : BitVec 5) (o : BitVec 13)
  /-- STS_H (R126) -/
  | stsH (d : BitVec 5) (a : BitVec 5) (o : BitVec 13)
  /-- STS_W (R126) -/
  | stsW (d : BitVec 5) (a : BitVec 5) (o : BitVec 13)
  /-- STS_D (R126) -/
  | stsD (d : BitVec 5) (a : BitVec 5) (o : BitVec 13)
  /-- BRC_EQ (R130) -/
  | brcEq (d : BitVec 5) (a : BitVec 5) (o : BitVec 13)
  /-- BRC_NE (R130) -/
  | brcNe (d : BitVec 5) (a : BitVec 5) (o : BitVec 13)
  /-- BRC_LT (R130) -/
  | brcLt (d : BitVec 5) (a : BitVec 5) (o : BitVec 13)
  /-- BRC_GE (R130) -/
  | brcGe (d : BitVec 5) (a : BitVec 5) (o : BitVec 13)
  /-- BRC_LTU (R130) -/
  | brcLtu (d : BitVec 5) (a : BitVec 5) (o : BitVec 13)
  /-- BRC_GEU (R130) -/
  | brcGeu (d : BitVec 5) (a : BitVec 5) (o : BitVec 13)
  /-- JAL (R131) -/
  | jal (d : BitVec 5) (w : BitVec 21)
  /-- JALR (R131) -/
  | jalr (d : BitVec 5) (a : BitVec 5) (i : BitVec 16)
  /-- MARK (R142) -/
  | mark (a : BitVec 5) (i : BitVec 16)
  /-- FENCE_SV (R170) -/
  | fenceSv
  /-- FENCE_VS (R171) -/
  | fenceVs
  /-- FENCE_VV (R169) -/
  | fenceVv
  /-- FENCE_ALL (R171) -/
  | fenceAll
  /-- CSR_RD (R135) -/
  | csrRd (d : BitVec 5) (c : BitVec 12)
  /-- CSR_WR (R135) -/
  | csrWr (d : BitVec 5) (a : BitVec 5) (c : BitVec 12)
  /-- CSR_SET (R135) -/
  | csrSet (d : BitVec 5) (a : BitVec 5) (c : BitVec 12)
  /-- CSR_CLR (R135) -/
  | csrClr (d : BitVec 5) (a : BitVec 5) (c : BitVec 12)
  /-- VCFG_SETVL (R146) -/
  | vcfgSetvl (d : BitVec 5) (a : BitVec 5) (b : BitVec 5)
  /-- VCFG_SETVLRUN (R148) -/
  | vcfgSetvlrun (d : BitVec 5) (a : BitVec 5) (b : BitVec 5) (k : BitVec 2)
  /-- SETVLI (R146) -/
  | setvli (d : BitVec 5) (a : BitVec 5) (v : BitVec 11)
  /-- VINT_ADD (R177) -/
  | vintAdd (d : BitVec 5) (a : BitVec 5) (b : BitVec 5) (m : BitVec 3)
  /-- VINT_SUB (R177) -/
  | vintSub (d : BitVec 5) (a : BitVec 5) (b : BitVec 5) (m : BitVec 3)
  /-- VINT_MUL (R177) -/
  | vintMul (d : BitVec 5) (a : BitVec 5) (b : BitVec 5) (m : BitVec 3)
  /-- VINT_MULH (R177) -/
  | vintMulh (d : BitVec 5) (a : BitVec 5) (b : BitVec 5) (m : BitVec 3)
  /-- VINT_MULHU (R177) -/
  | vintMulhu (d : BitVec 5) (a : BitVec 5) (b : BitVec 5) (m : BitVec 3)
  /-- VINT_DIV (R177) -/
  | vintDiv (d : BitVec 5) (a : BitVec 5) (b : BitVec 5) (m : BitVec 3)
  /-- VINT_DIVU (R177) -/
  | vintDivu (d : BitVec 5) (a : BitVec 5) (b : BitVec 5) (m : BitVec 3)
  /-- VINT_REM (R177) -/
  | vintRem (d : BitVec 5) (a : BitVec 5) (b : BitVec 5) (m : BitVec 3)
  /-- VINT_REMU (R177) -/
  | vintRemu (d : BitVec 5) (a : BitVec 5) (b : BitVec 5) (m : BitVec 3)
  /-- VINT_AND (R177) -/
  | vintAnd (d : BitVec 5) (a : BitVec 5) (b : BitVec 5) (m : BitVec 3)
  /-- VINT_OR (R177) -/
  | vintOr (d : BitVec 5) (a : BitVec 5) (b : BitVec 5) (m : BitVec 3)
  /-- VINT_XOR (R177) -/
  | vintXor (d : BitVec 5) (a : BitVec 5) (b : BitVec 5) (m : BitVec 3)
  /-- VINT_SLL (R177) -/
  | vintSll (d : BitVec 5) (a : BitVec 5) (b : BitVec 5) (m : BitVec 3)
  /-- VINT_SRL (R177) -/
  | vintSrl (d : BitVec 5) (a : BitVec 5) (b : BitVec 5) (m : BitVec 3)
  /-- VINT_SRA (R177) -/
  | vintSra (d : BitVec 5) (a : BitVec 5) (b : BitVec 5) (m : BitVec 3)
  /-- VINT_MIN (R177) -/
  | vintMin (d : BitVec 5) (a : BitVec 5) (b : BitVec 5) (m : BitVec 3)
  /-- VINT_MINU (R177) -/
  | vintMinu (d : BitVec 5) (a : BitVec 5) (b : BitVec 5) (m : BitVec 3)
  /-- VINT_MAX (R177) -/
  | vintMax (d : BitVec 5) (a : BitVec 5) (b : BitVec 5) (m : BitVec 3)
  /-- VINT_MAXU (R177) -/
  | vintMaxu (d : BitVec 5) (a : BitVec 5) (b : BitVec 5) (m : BitVec 3)
  /-- VINT_SADD (R177) -/
  | vintSadd (d : BitVec 5) (a : BitVec 5) (b : BitVec 5) (m : BitVec 3)
  /-- VINT_SADDU (R177) -/
  | vintSaddu (d : BitVec 5) (a : BitVec 5) (b : BitVec 5) (m : BitVec 3)
  /-- VINT_SSUB (R177) -/
  | vintSsub (d : BitVec 5) (a : BitVec 5) (b : BitVec 5) (m : BitVec 3)
  /-- VINT_SSUBU (R177) -/
  | vintSsubu (d : BitVec 5) (a : BitVec 5) (b : BitVec 5) (m : BitVec 3)
  /-- VINT_MACC (R177) -/
  | vintMacc (d : BitVec 5) (a : BitVec 5) (b : BitVec 5) (m : BitVec 3)
  /-- VINT_MERGE (R178) -/
  | vintMerge (d : BitVec 5) (a : BitVec 5) (b : BitVec 5) (m : BitVec 3)
  /-- VINT_MV (R177) -/
  | vintMv (d : BitVec 5) (a : BitVec 5) (m : BitVec 3)
  /-- VINTX_ADD (R177) -/
  | vintxAdd (d : BitVec 5) (a : BitVec 5) (b : BitVec 5) (m : BitVec 3)
  /-- VINTX_SUB (R177) -/
  | vintxSub (d : BitVec 5) (a : BitVec 5) (b : BitVec 5) (m : BitVec 3)
  /-- VINTX_RSUB (R177) -/
  | vintxRsub (d : BitVec 5) (a : BitVec 5) (b : BitVec 5) (m : BitVec 3)
  /-- VINTX_MUL (R177) -/
  | vintxMul (d : BitVec 5) (a : BitVec 5) (b : BitVec 5) (m : BitVec 3)
  /-- VINTX_MULH (R177) -/
  | vintxMulh (d : BitVec 5) (a : BitVec 5) (b : BitVec 5) (m : BitVec 3)
  /-- VINTX_MULHU (R177) -/
  | vintxMulhu (d : BitVec 5) (a : BitVec 5) (b : BitVec 5) (m : BitVec 3)
  /-- VINTX_DIV (R177) -/
  | vintxDiv (d : BitVec 5) (a : BitVec 5) (b : BitVec 5) (m : BitVec 3)
  /-- VINTX_DIVU (R177) -/
  | vintxDivu (d : BitVec 5) (a : BitVec 5) (b : BitVec 5) (m : BitVec 3)
  /-- VINTX_REM (R177) -/
  | vintxRem (d : BitVec 5) (a : BitVec 5) (b : BitVec 5) (m : BitVec 3)
  /-- VINTX_REMU (R177) -/
  | vintxRemu (d : BitVec 5) (a : BitVec 5) (b : BitVec 5) (m : BitVec 3)
  /-- VINTX_AND (R177) -/
  | vintxAnd (d : BitVec 5) (a : BitVec 5) (b : BitVec 5) (m : BitVec 3)
  /-- VINTX_OR (R177) -/
  | vintxOr (d : BitVec 5) (a : BitVec 5) (b : BitVec 5) (m : BitVec 3)
  /-- VINTX_XOR (R177) -/
  | vintxXor (d : BitVec 5) (a : BitVec 5) (b : BitVec 5) (m : BitVec 3)
  /-- VINTX_SLL (R177) -/
  | vintxSll (d : BitVec 5) (a : BitVec 5) (b : BitVec 5) (m : BitVec 3)
  /-- VINTX_SRL (R177) -/
  | vintxSrl (d : BitVec 5) (a : BitVec 5) (b : BitVec 5) (m : BitVec 3)
  /-- VINTX_SRA (R177) -/
  | vintxSra (d : BitVec 5) (a : BitVec 5) (b : BitVec 5) (m : BitVec 3)
  /-- VINTX_MIN (R177) -/
  | vintxMin (d : BitVec 5) (a : BitVec 5) (b : BitVec 5) (m : BitVec 3)
  /-- VINTX_MINU (R177) -/
  | vintxMinu (d : BitVec 5) (a : BitVec 5) (b : BitVec 5) (m : BitVec 3)
  /-- VINTX_MAX (R177) -/
  | vintxMax (d : BitVec 5) (a : BitVec 5) (b : BitVec 5) (m : BitVec 3)
  /-- VINTX_MAXU (R177) -/
  | vintxMaxu (d : BitVec 5) (a : BitVec 5) (b : BitVec 5) (m : BitVec 3)
  /-- VINTX_SADD (R177) -/
  | vintxSadd (d : BitVec 5) (a : BitVec 5) (b : BitVec 5) (m : BitVec 3)
  /-- VINTX_SADDU (R177) -/
  | vintxSaddu (d : BitVec 5) (a : BitVec 5) (b : BitVec 5) (m : BitVec 3)
  /-- VINTX_SSUB (R177) -/
  | vintxSsub (d : BitVec 5) (a : BitVec 5) (b : BitVec 5) (m : BitVec 3)
  /-- VINTX_SSUBU (R177) -/
  | vintxSsubu (d : BitVec 5) (a : BitVec 5) (b : BitVec 5) (m : BitVec 3)
  /-- VINTX_MACC (R177) -/
  | vintxMacc (d : BitVec 5) (a : BitVec 5) (b : BitVec 5) (m : BitVec 3)
  /-- VINTX_MERGE (R178) -/
  | vintxMerge (d : BitVec 5) (a : BitVec 5) (b : BitVec 5) (m : BitVec 3)
  /-- VINTX_MV (R177) -/
  | vintxMv (d : BitVec 5) (b : BitVec 5) (m : BitVec 3)
  /-- VINTI_ADD (R177) -/
  | vintiAdd (d : BitVec 5) (a : BitVec 5) (i : BitVec 5) (m : BitVec 3)
  /-- VINTI_RSUB (R177) -/
  | vintiRsub (d : BitVec 5) (a : BitVec 5) (i : BitVec 5) (m : BitVec 3)
  /-- VINTI_AND (R177) -/
  | vintiAnd (d : BitVec 5) (a : BitVec 5) (i : BitVec 5) (m : BitVec 3)
  /-- VINTI_OR (R177) -/
  | vintiOr (d : BitVec 5) (a : BitVec 5) (i : BitVec 5) (m : BitVec 3)
  /-- VINTI_XOR (R177) -/
  | vintiXor (d : BitVec 5) (a : BitVec 5) (i : BitVec 5) (m : BitVec 3)
  /-- VINTI_SLL (R177) -/
  | vintiSll (d : BitVec 5) (a : BitVec 5) (i : BitVec 5) (m : BitVec 3)
  /-- VINTI_SRL (R177) -/
  | vintiSrl (d : BitVec 5) (a : BitVec 5) (i : BitVec 5) (m : BitVec 3)
  /-- VINTI_SRA (R177) -/
  | vintiSra (d : BitVec 5) (a : BitVec 5) (i : BitVec 5) (m : BitVec 3)
  /-- VINTI_SADD (R177) -/
  | vintiSadd (d : BitVec 5) (a : BitVec 5) (i : BitVec 5) (m : BitVec 3)
  /-- VINTI_SADDU (R177) -/
  | vintiSaddu (d : BitVec 5) (a : BitVec 5) (i : BitVec 5) (m : BitVec 3)
  /-- VINTI_MERGE (R178) -/
  | vintiMerge (d : BitVec 5) (a : BitVec 5) (i : BitVec 5) (m : BitVec 3)
  /-- VINTI_MV (R177) -/
  | vintiMv (d : BitVec 5) (i : BitVec 5) (m : BitVec 3)
  /-- VFP_ADD (R180) -/
  | vfpAdd (d : BitVec 5) (a : BitVec 5) (b : BitVec 5) (m : BitVec 3)
  /-- VFP_SUB (R180) -/
  | vfpSub (d : BitVec 5) (a : BitVec 5) (b : BitVec 5) (m : BitVec 3)
  /-- VFP_MUL (R180) -/
  | vfpMul (d : BitVec 5) (a : BitVec 5) (b : BitVec 5) (m : BitVec 3)
  /-- VFP_DIV (R180) -/
  | vfpDiv (d : BitVec 5) (a : BitVec 5) (b : BitVec 5) (m : BitVec 3)
  /-- VFP_SQRT (R180) -/
  | vfpSqrt (d : BitVec 5) (a : BitVec 5) (m : BitVec 3)
  /-- VFP_MIN (R180) -/
  | vfpMin (d : BitVec 5) (a : BitVec 5) (b : BitVec 5) (m : BitVec 3)
  /-- VFP_MAX (R180) -/
  | vfpMax (d : BitVec 5) (a : BitVec 5) (b : BitVec 5) (m : BitVec 3)
  /-- VFP_MACC (R180) -/
  | vfpMacc (d : BitVec 5) (a : BitVec 5) (b : BitVec 5) (m : BitVec 3)
  /-- VFP_NMACC (R180) -/
  | vfpNmacc (d : BitVec 5) (a : BitVec 5) (b : BitVec 5) (m : BitVec 3)
  /-- VFP_EXP2 (R180) -/
  | vfpExp2 (d : BitVec 5) (a : BitVec 5) (m : BitVec 3)
  /-- VFP_SGNJ (R180) -/
  | vfpSgnj (d : BitVec 5) (a : BitVec 5) (b : BitVec 5) (m : BitVec 3)
  /-- VFP_SGNJN (R180) -/
  | vfpSgnjn (d : BitVec 5) (a : BitVec 5) (b : BitVec 5) (m : BitVec 3)
  /-- VFP_SGNJX (R180) -/
  | vfpSgnjx (d : BitVec 5) (a : BitVec 5) (b : BitVec 5) (m : BitVec 3)
  /-- VFP_CLASS (R180) -/
  | vfpClass (d : BitVec 5) (a : BitVec 5) (m : BitVec 3)
  /-- VFP_MV (R180) -/
  | vfpMv (d : BitVec 5) (a : BitVec 5) (m : BitVec 3)
  /-- VFPX_ADD (R180) -/
  | vfpxAdd (d : BitVec 5) (a : BitVec 5) (b : BitVec 5) (m : BitVec 3)
  /-- VFPX_SUB (R180) -/
  | vfpxSub (d : BitVec 5) (a : BitVec 5) (b : BitVec 5) (m : BitVec 3)
  /-- VFPX_MUL (R180) -/
  | vfpxMul (d : BitVec 5) (a : BitVec 5) (b : BitVec 5) (m : BitVec 3)
  /-- VFPX_DIV (R180) -/
  | vfpxDiv (d : BitVec 5) (a : BitVec 5) (b : BitVec 5) (m : BitVec 3)
  /-- VFPX_MIN (R180) -/
  | vfpxMin (d : BitVec 5) (a : BitVec 5) (b : BitVec 5) (m : BitVec 3)
  /-- VFPX_MAX (R180) -/
  | vfpxMax (d : BitVec 5) (a : BitVec 5) (b : BitVec 5) (m : BitVec 3)
  /-- VFPX_MACC (R180) -/
  | vfpxMacc (d : BitVec 5) (a : BitVec 5) (b : BitVec 5) (m : BitVec 3)
  /-- VFPX_NMACC (R180) -/
  | vfpxNmacc (d : BitVec 5) (a : BitVec 5) (b : BitVec 5) (m : BitVec 3)
  /-- VFPX_SGNJ (R180) -/
  | vfpxSgnj (d : BitVec 5) (a : BitVec 5) (b : BitVec 5) (m : BitVec 3)
  /-- VFPX_SGNJN (R180) -/
  | vfpxSgnjn (d : BitVec 5) (a : BitVec 5) (b : BitVec 5) (m : BitVec 3)
  /-- VFPX_SGNJX (R180) -/
  | vfpxSgnjx (d : BitVec 5) (a : BitVec 5) (b : BitVec 5) (m : BitVec 3)
  /-- VFPX_MV (R180) -/
  | vfpxMv (d : BitVec 5) (b : BitVec 5) (m : BitVec 3)
  /-- VCVT_FF (R184) -/
  | vcvtFf (d : BitVec 5) (a : BitVec 5) (m : BitVec 3) (s : BitVec 1) (t : BitVec 3)
  /-- VCVT_IF (R184) -/
  | vcvtIf (d : BitVec 5) (a : BitVec 5) (m : BitVec 3) (s : BitVec 1) (t : BitVec 3)
  /-- VCVT_FI (R184) -/
  | vcvtFi (d : BitVec 5) (a : BitVec 5) (m : BitVec 3) (t : BitVec 3)
  /-- VCVT_NARROW (R184) -/
  | vcvtNarrow (d : BitVec 5) (a : BitVec 5) (m : BitVec 3) (t : BitVec 3)
  /-- VCVT_WIDEN (R184) -/
  | vcvtWiden (d : BitVec 5) (a : BitVec 5) (m : BitVec 3) (t : BitVec 3)
  /-- VCVT_DEQ (R185) -/
  | vcvtDeq (d : BitVec 5) (a : BitVec 5) (m : BitVec 3) (t : BitVec 3)
  /-- VCVT_QUANT (R185) -/
  | vcvtQuant (d : BitVec 5) (a : BitVec 5) (m : BitVec 3) (s : BitVec 1) (t : BitVec 3)
  /-- VCVT_QMV (R186) -/
  | vcvtQmv (d : BitVec 3) (a : BitVec 5) (m : BitVec 3)
  /-- VCVT_QRD (R186) -/
  | vcvtQrd (d : BitVec 5) (a : BitVec 3) (m : BitVec 3)
  /-- VCVT_DS8E (R187) -/
  | vcvtDs8e (d : BitVec 5) (a : BitVec 5) (m : BitVec 3) (t : BitVec 3)
  /-- VCVT_DS8D (R187) -/
  | vcvtDs8d (d : BitVec 5) (a : BitVec 5) (m : BitVec 3)
  /-- VRED_SUM (R189) -/
  | vredSum (d : BitVec 5) (a : BitVec 5) (b : BitVec 5) (m : BitVec 3) (q : BitVec 1)
  /-- VRED_MIN (R189) -/
  | vredMin (d : BitVec 5) (a : BitVec 5) (b : BitVec 5) (m : BitVec 3) (q : BitVec 1)
  /-- VRED_MINU (R189) -/
  | vredMinu (d : BitVec 5) (a : BitVec 5) (b : BitVec 5) (m : BitVec 3) (q : BitVec 1)
  /-- VRED_MAX (R189) -/
  | vredMax (d : BitVec 5) (a : BitVec 5) (b : BitVec 5) (m : BitVec 3) (q : BitVec 1)
  /-- VRED_MAXU (R189) -/
  | vredMaxu (d : BitVec 5) (a : BitVec 5) (b : BitVec 5) (m : BitVec 3) (q : BitVec 1)
  /-- VRED_AND (R189) -/
  | vredAnd (d : BitVec 5) (a : BitVec 5) (b : BitVec 5) (m : BitVec 3) (q : BitVec 1)
  /-- VRED_OR (R189) -/
  | vredOr (d : BitVec 5) (a : BitVec 5) (b : BitVec 5) (m : BitVec 3) (q : BitVec 1)
  /-- VRED_XOR (R189) -/
  | vredXor (d : BitVec 5) (a : BitVec 5) (b : BitVec 5) (m : BitVec 3) (q : BitVec 1)
  /-- VRED_FSUMO (R67) -/
  | vredFsumo (d : BitVec 5) (a : BitVec 5) (b : BitVec 5) (m : BitVec 3) (q : BitVec 1)
  /-- VRED_FSUMT (R68) -/
  | vredFsumt (d : BitVec 5) (a : BitVec 5) (b : BitVec 5) (m : BitVec 3) (q : BitVec 1)
  /-- VRED_FMIN (R189) -/
  | vredFmin (d : BitVec 5) (a : BitVec 5) (b : BitVec 5) (m : BitVec 3) (q : BitVec 1)
  /-- VRED_FMAX (R189) -/
  | vredFmax (d : BitVec 5) (a : BitVec 5) (b : BitVec 5) (m : BitVec 3) (q : BitVec 1)
  /-- VPERM_SLUP (R192) -/
  | vpermSlup (d : BitVec 5) (a : BitVec 5) (b : BitVec 5) (m : BitVec 3)
  /-- VPERM_SLDN (R192) -/
  | vpermSldn (d : BitVec 5) (a : BitVec 5) (b : BitVec 5) (m : BitVec 3)
  /-- VPERM_GATHER (R192) -/
  | vpermGather (d : BitVec 5) (a : BitVec 5) (b : BitVec 5) (m : BitVec 3)
  /-- VPERM_COMPRESS (R193) -/
  | vpermCompress (d : BitVec 5) (a : BitVec 5) (m : BitVec 3)
  /-- VPERM_EXPAND (R193) -/
  | vpermExpand (d : BitVec 5) (a : BitVec 5) (m : BitVec 3)
  /-- VPERM_XCHG (R194) -/
  | vpermXchg (d : BitVec 5) (a : BitVec 5) (b : BitVec 5) (m : BitVec 3)
  /-- VPERM_MVXS (R195) -/
  | vpermMvxs (d : BitVec 5) (a : BitVec 5) (b : BitVec 5)
  /-- VPERM_MVSX (R192) -/
  | vpermMvsx (d : BitVec 5) (b : BitVec 5) (m : BitVec 3)
  /-- VPERM_BCAST (R192) -/
  | vpermBcast (d : BitVec 5) (a : BitVec 5) (b : BitVec 5) (m : BitVec 3)
  /-- VMASK_EQ (R196) -/
  | vmaskEq (d : BitVec 3) (a : BitVec 5) (b : BitVec 5) (m : BitVec 3) (x : BitVec 1)
  /-- VMASK_NE (R196) -/
  | vmaskNe (d : BitVec 3) (a : BitVec 5) (b : BitVec 5) (m : BitVec 3) (x : BitVec 1)
  /-- VMASK_LT (R196) -/
  | vmaskLt (d : BitVec 3) (a : BitVec 5) (b : BitVec 5) (m : BitVec 3) (x : BitVec 1)
  /-- VMASK_LTU (R196) -/
  | vmaskLtu (d : BitVec 3) (a : BitVec 5) (b : BitVec 5) (m : BitVec 3) (x : BitVec 1)
  /-- VMASK_LE (R196) -/
  | vmaskLe (d : BitVec 3) (a : BitVec 5) (b : BitVec 5) (m : BitVec 3) (x : BitVec 1)
  /-- VMASK_LEU (R196) -/
  | vmaskLeu (d : BitVec 3) (a : BitVec 5) (b : BitVec 5) (m : BitVec 3) (x : BitVec 1)
  /-- VMASK_GT (R196) -/
  | vmaskGt (d : BitVec 3) (a : BitVec 5) (b : BitVec 5) (m : BitVec 3) (x : BitVec 1)
  /-- VMASK_FEQ (R196) -/
  | vmaskFeq (d : BitVec 3) (a : BitVec 5) (b : BitVec 5) (m : BitVec 3) (x : BitVec 1)
  /-- VMASK_FLT (R196) -/
  | vmaskFlt (d : BitVec 3) (a : BitVec 5) (b : BitVec 5) (m : BitVec 3) (x : BitVec 1)
  /-- VMASK_FLE (R196) -/
  | vmaskFle (d : BitVec 3) (a : BitVec 5) (b : BitVec 5) (m : BitVec 3) (x : BitVec 1)
  /-- VMASK_AND (R197) -/
  | vmaskAnd (d : BitVec 3) (a : BitVec 3) (b : BitVec 3)
  /-- VMASK_OR (R197) -/
  | vmaskOr (d : BitVec 3) (a : BitVec 3) (b : BitVec 3)
  /-- VMASK_XOR (R197) -/
  | vmaskXor (d : BitVec 3) (a : BitVec 3) (b : BitVec 3)
  /-- VMASK_ANDN (R197) -/
  | vmaskAndn (d : BitVec 3) (a : BitVec 3) (b : BitVec 3)
  /-- VMASK_POPC (R198) -/
  | vmaskPopc (d : BitVec 5) (a : BitVec 3) (m : BitVec 3)
  /-- VMASK_FIRST (R198) -/
  | vmaskFirst (d : BitVec 5) (a : BitVec 3) (m : BitVec 3)
  /-- VMASK_CONFL (R199) -/
  | vmaskConfl (d : BitVec 3) (a : BitVec 5) (m : BitVec 3)
  /-- VIDX (R200) -/
  | vidx (d : BitVec 5) (s : BitVec 11) (t : BitVec 10)
  /-- VLD_UNIT (R155) -/
  | vldUnit (d : BitVec 5) (a : BitVec 5) (m : BitVec 3)
  /-- VLD_STR (R156) -/
  | vldStr (d : BitVec 5) (a : BitVec 5) (b : BitVec 5) (m : BitVec 3)
  /-- VLD_IDX (R156) -/
  | vldIdx (d : BitVec 5) (a : BitVec 5) (b : BitVec 5) (m : BitVec 3) (w : BitVec 2)
  /-- VLD_SEG (R156) -/
  | vldSeg (d : BitVec 5) (a : BitVec 5) (m : BitVec 3) (n : BitVec 3)
  /-- VLD_FF (R160) -/
  | vldFf (d : BitVec 5) (a : BitVec 5) (m : BitVec 3)
  /-- VLD_TENS (R162) -/
  | vldTens (d : BitVec 5) (a : BitVec 5) (t : BitVec 4) (m : BitVec 3)
  /-- VLD_QLD (R158) -/
  | vldQld (d : BitVec 3) (a : BitVec 5)
  /-- VST_UNIT (R155) -/
  | vstUnit (d : BitVec 5) (a : BitVec 5) (m : BitVec 3)
  /-- VST_STR (R156) -/
  | vstStr (d : BitVec 5) (a : BitVec 5) (b : BitVec 5) (m : BitVec 3)
  /-- VST_IDX (R157) -/
  | vstIdx (d : BitVec 5) (a : BitVec 5) (b : BitVec 5) (m : BitVec 3) (w : BitVec 2)
  /-- VST_SEG (R156) -/
  | vstSeg (d : BitVec 5) (a : BitVec 5) (m : BitVec 3) (n : BitVec 3)
  /-- VST_TENS (R162) -/
  | vstTens (d : BitVec 5) (a : BitVec 5) (t : BitVec 4) (m : BitVec 3)
  /-- VST_RED (R164) -/
  | vstRed (d : BitVec 5) (a : BitVec 5) (b : BitVec 5) (m : BitVec 3) (x : BitVec 1) (o : BitVec 3)
  /-- VXCL_G (R166) -/
  | vxclG (d : BitVec 5) (b : BitVec 5) (m : BitVec 3)
  /-- VXCL_S (R166) -/
  | vxclS (d : BitVec 5) (b : BitVec 5) (m : BitVec 3)
  /-- MOP_OP (R209) -/
  | mopOp (d : BitVec 3) (a : BitVec 5) (b : BitVec 5) (m : BitVec 3) (r : BitVec 3) (f : BitVec 4)
  /-- MOP_OPN (R209) -/
  | mopOpn (d : BitVec 3) (a : BitVec 5) (b : BitVec 5) (m : BitVec 3) (r : BitVec 3) (f : BitVec 4)
  /-- ZOP_CFG (R202) -/
  | zopCfg (d : BitVec 3) (a : BitVec 5)
  /-- ZOP_ENABLE (R204) -/
  | zopEnable
  /-- ZOP_DISABLE (R204) -/
  | zopDisable
  /-- ZOP_ZERO (R217) -/
  | zopZero (d : BitVec 3)
  /-- ZOP_RD (R213) -/
  | zopRd (d : BitVec 3) (a : BitVec 5) (b : BitVec 5) (m : BitVec 3) (s : BitVec 1) (c : BitVec 1) (l : BitVec 1)
  /-- ZOP_WR (R213) -/
  | zopWr (d : BitVec 3) (a : BitVec 5) (b : BitVec 5) (m : BitVec 3) (c : BitVec 1) (l : BitVec 1)
  /-- ZOP_PATCH (R214) -/
  | zopPatch (d : BitVec 3) (a : BitVec 5) (b : BitVec 5) (m : BitVec 3) (x : BitVec 1) (c : BitVec 1) (l : BitVec 1)
  /-- ZOP_SCALE (R216) -/
  | zopScale (d : BitVec 3) (a : BitVec 5) (m : BitVec 3)
  /-- ZOP_MASK (R230) -/
  | zopMask (d : BitVec 3) (a : BitVec 5) (k : BitVec 2) (z : BitVec 1)
  /-- MSK_LD (R223) -/
  | mskLd (k : BitVec 2) (a : BitVec 5)
  /-- MSK_CLS (R228) -/
  | mskCls (d : BitVec 5) (a : BitVec 5) (k : BitVec 2)
  /-- MSK_GEN (R229) -/
  | mskGen (d : BitVec 3) (a : BitVec 5) (k : BitVec 2)
  /-- MSK_CNT (R231) -/
  | mskCnt (d : BitVec 5) (s : BitVec 2)
  /-- TAMW (R161) -/
  | tamw (k : BitVec 4) (a : BitVec 5)
  /-- ENG_CPY (R244) -/
  | engCpy (d : BitVec 5) (a : BitVec 5) (b : BitVec 5) (k : BitVec 3) (x : BitVec 1) (j : BitVec 3)
  /-- ENG_TCOPY (R245) -/
  | engTcopy (d : BitVec 5) (a : BitVec 5) (b : BitVec 5) (k : BitVec 3) (x : BitVec 1) (j : BitVec 3)
  /-- ENG_RGATH (R247) -/
  | engRgath (d : BitVec 5) (a : BitVec 5) (b : BitVec 5) (k : BitVec 3) (x : BitVec 1) (j : BitVec 3)
  /-- ENG_RCOPY (R248) -/
  | engRcopy (d : BitVec 5) (a : BitVec 5) (b : BitVec 5) (k : BitVec 3) (x : BitVec 1) (j : BitVec 3)
  /-- ENG_PUT (R244) -/
  | engPut (d : BitVec 5) (a : BitVec 5) (b : BitVec 5) (k : BitVec 3) (x : BitVec 1) (j : BitVec 3)
  /-- ENG_GET (R244) -/
  | engGet (d : BitVec 5) (a : BitVec 5) (b : BitVec 5) (k : BitVec 3) (x : BitVec 1) (j : BitVec 3)
  /-- ENG_SIG (R249) -/
  | engSig (d : BitVec 5) (a : BitVec 5) (b : BitVec 5) (k : BitVec 3) (x : BitVec 1) (j : BitVec 3)
  /-- ENG_LAUNCH (R250) -/
  | engLaunch (d : BitVec 5) (a : BitVec 5) (b : BitVec 5) (k : BitVec 3) (x : BitVec 1) (j : BitVec 3)
  /-- SYNC_TLWAIT (R255) -/
  | syncTlwait (a : BitVec 5) (k : BitVec 3)
  /-- SYNC_TLWAIT_IC (R255) -/
  | syncTlwaitIc (a : BitVec 5) (b : BitVec 5)
  /-- SYNC_TLREAD (R257) -/
  | syncTlread (d : BitVec 5) (k : BitVec 3)
  /-- SYNC_TLREAD_IC (R257) -/
  | syncTlreadIc (d : BitVec 5) (b : BitVec 5)
  /-- SYNC_GBAR (R258) -/
  | syncGbar
  /-- SYNC_QDRAIN (R259) -/
  | syncQdrain (q : BitVec 4)
  /-- SYNC_SHEAF (R260) -/
  | syncSheaf
  /-- SYNC_BTINV (R150) -/
  | syncBtinv
  /-- DBG_TRMARK (R143) -/
  | dbgTrmark (a : BitVec 5)
  /-- DBG_WPREL (R322) -/
  | dbgWprel (a : BitVec 5)
  /-- ADV_AWAIT (R291) -/
  | advAwait (i : BitVec 16)
  /-- ADV_BR (R291) -/
  | advBr (d : BitVec 4) (a : BitVec 4) (c : BitVec 3) (o : BitVec 13)
  /-- ADV_LOOP (R291) -/
  | advLoop (d : BitVec 4) (o : BitVec 13)
  /-- ADV_SET (R291) -/
  | advSet (d : BitVec 4) (w : BitVec 21)
  /-- ADV_INS (R291) -/
  | advIns (d : BitVec 4) (w : BitVec 21)
  /-- ADV_ADD (R291) -/
  | advAdd (d : BitVec 4) (a : BitVec 4) (b : BitVec 4)
  /-- ADV_ADDI (R291) -/
  | advAddi (d : BitVec 4) (a : BitVec 4) (i : BitVec 16)
  /-- ADV_MV (R291) -/
  | advMv (d : BitVec 4) (a : BitVec 4)
  /-- ADV_MV_ARG (R291) -/
  | advMvArg (d : BitVec 4)
  /-- ADV_MV_ID (R291) -/
  | advMvId (d : BitVec 4)
  /-- ADV_PF (R294) -/
  | advPf (a : BitVec 4) (b : BitVec 4)
  /-- ADV_PFX (R295) -/
  | advPfx (a : BitVec 4) (b : BitVec 4) (w : BitVec 2)
  /-- ADV_PLACE (R296) -/
  | advPlace (a : BitVec 4) (b : BitVec 4) (c : BitVec 2)
  /-- ADV_PRIO (R297) -/
  | advPrio (a : BitVec 4)
  /-- ADV_ORDER (R298) -/
  | advOrder (a : BitVec 4)
  /-- ADV_ORDER_SHARE (R298) -/
  | advOrderShare (a : BitVec 4)
  /-- ADV_HALT (R291) -/
  | advHalt
  /-- FCSR_WRITE (R136) -/
  | fcsrWrite (op : CsrOp) (d a : BitVec 5)
  /-- FCSR_READ (R30) -/
  | fcsrRead (d : BitVec 5)
  /-- SRSEED_WRITE (R58) -/
  | srseedWrite (op : CsrOp) (d a : BitVec 5)
  /-- SRSEED_READ (R60) -/
  | srseedRead (d : BitVec 5)
  /-- BTCFG_WRITE (R43) -/
  | btcfgWrite (t : BitVec 2) (op : CsrOp) (d a : BitVec 5)
  /-- MSKSHAPE_WRITE (R225) -/
  | mskshapeWrite (op : CsrOp) (d a : BitVec 5)
  /-- DOCN_WRITE (R225) -/
  | docnWrite (op : CsrOp) (d a : BitVec 5)
  /-- ZSTATE_WRITE (R42) -/
  | zstateWrite (op : CsrOp) (d a : BitVec 5)
  /-- ZSTATE_LOAD (R42) -/
  | zstateLoad (h : Nat)
  /-- ZSTATE_ZCLR (R42) -/
  | zstateZclr (h : Nat)
  /-- HSTATUS_WRITE (R310) -/
  | hstatusWrite (op : CsrOp) (d a : BitVec 5)
  /-- WPCTL_WRITE (R320) -/
  | wpctlWrite (w : BitVec 4) (op : CsrOp) (d a : BitVec 5)
  /-- COMMIT_SLICE_ACQUIRE (R271) -/
  | commitSliceAcquire (h : Nat)
  /-- SHEAF_COMMIT (R271) -/
  | sheafCommit (h : Nat)
  /-- SOLO_TOKEN_GRANT (R276) -/
  | soloTokenGrant
  /-- TRAP_LANDING (R311) -/
  | trapLanding (h : Nat)
  /-- HOLD_STOP (R321) -/
  | holdStop (h : Nat)
  /-- TLWAIT_RESUME (R255) -/
  | tlwaitResume (h : Nat)
  /-- BARRIER_RELEASE (R258) -/
  | barrierRelease (g : Nat)
  /-- QDRAIN_DONE (R259) -/
  | qdrainDone (h : Nat)
  /-- WFI_WAKE (R140) -/
  | wfiWake (h : Nat)
  /-- QDEAD_TIMEOUT (R338) -/
  | qdeadTimeout (h : Nat)
  /-- LOAD_DATA_DELIVERY (R129) -/
  | loadDataDelivery (h : Nat)
  /-- HART_END (R138) -/
  | hartEnd (h : Nat)
  /-- LQTAIL_WRITE (R329) -/
  | lqtailWrite (die k : Nat) (v : BitVec 64)
  /-- LQCFG_WRITE (R329) -/
  | lqcfgWrite (die k : Nat) (v : BitVec 64)
  /-- DISPATCH_PACKET (R330) -/
  | dispatchPacket (die k : Nat)
  /-- GANG_PLACE (R332) -/
  | gangPlace (die k : Nat) (at_ : List Place)
  /-- GANG_RESTORE (R318) -/
  | gangRestore (g : Nat) (at_ : List Place)
  /-- GRANT_POST (R334) -/
  | grantPost (h vlen : Nat) (at_ : Place)
  /-- PREEMPT_REQUEST (R336) -/
  | preemptRequest (g : Nat) (why : PreemptWhy)
  /-- PREEMPT_STARVATION_TIMEOUT (R336) -/
  | preemptStarvationTimeout (g : Nat)
  /-- PREEMPT_SPLIT_TIMEOUT (R265) -/
  | preemptSplitTimeout (h : Nat)
  /-- PREEMPTION_LANDING (R318) -/
  | preemptionLanding (h : Nat)
  /-- CHANNEL_BIND (R233) -/
  | channelBind (h ch : Nat)
  /-- ENGINE_COMMAND_START (R241) -/
  | engineCommandStart (e : Nat)
  /-- ENGINE_ELEMENT_APPLY (R243) -/
  | engineElementApply (h ch id : Nat)
  /-- REMOTE_ACKNOWLEDGE (R251) -/
  | remoteAcknowledge (h ch id : Nat) (ack : RemoteAck)
  /-- REMOTE_PUT_ARRIVAL (R384) -/
  | remotePutArrival (r : RemoteElem)
  /-- REMOTE_GET_ARRIVAL (R384) -/
  | remoteGetArrival (r : RemoteElem)
  /-- REMOTE_RCOPY_ARRIVAL (R384) -/
  | remoteRcopyArrival (r : RemoteElem)
  /-- REMOTE_SIG_ARRIVAL (R249) -/
  | remoteSigArrival (r : RemoteElem)
  /-- COMMAND_SEAL (R388) -/
  | commandSeal (src cmd : Nat)
  /-- PACKAGE_DOWN (R388) -/
  | packageDown (pkg : Nat)
  /-- REQUEST_ARRIVAL (R355) -/
  | requestArrival (q : MemReq)
  /-- REQUEST_GRANT (R341) -/
  | requestGrant (c : Nat)
  /-- BUDGET_PERIOD_START (R341) -/
  | budgetPeriodStart
  /-- REFRESH_TICK (R352) -/
  | refreshTick (p : Nat)
  /-- REFRESH_END (R353) -/
  | refreshEnd (p : Nat)
  /-- SCRUB_PASS (R357) -/
  | scrubPass (c : Nat)
  /-- CORRECTED_ERROR (R357) -/
  | correctedError (src g : Nat)
  /-- UNCORRECTABLE_ERROR (R358) -/
  | uncorrectableError (src g : Nat)
  /-- PAGE_RETIREMENT (R361) -/
  | pageRetirement (r : Retirement)
  /-- ADVICE_LINE_FETCH (R305) -/
  | adviceLineFetch (h : Nat)
  /-- PREFETCH_ACTION (R294) -/
  | prefetchAction (h : Nat)
  /-- INDEXED_PREFETCH_ACTION (R295) -/
  | indexedPrefetchAction (h : Nat)
  /-- PLACEMENT_ACTION (R296) -/
  | placementAction (h : Nat)
  /-- PRIORITY_ACTION (R297) -/
  | priorityAction (h : Nat)
  /-- CHANNEL_ORDER_ACTION (R298) -/
  | channelOrderAction (h : Nat)
  /-- RDMA_WRITE (R390) -/
  | rdmaWrite (key : Nat) (addr : BitVec 64) (bytes : List (BitVec 8))
  /-- RDMA_WRITE_IMM (R390) -/
  | rdmaWriteImm (key : Nat) (addr : BitVec 64) (bytes : List (BitVec 8)) (imm : BitVec 32)
  /-- RDMA_READ (R389) -/
  | rdmaRead (key : Nat) (addr : BitVec 64) (n : Nat)
  /-- RDMA_UNSUPPORTED (R389) -/
  | rdmaUnsupported (key : Nat)
  /-- MREAD (R397) -/
  | mread (msg : MsgHead) (addr count : Nat)
  /-- MWRITE (R397) -/
  | mwrite (msg : MsgHead) (addr : Nat) (data : List (BitVec 64))
  /-- IMGLOAD (R119) -/
  | imgload (msg : MsgHead) (img : ImagePair)
  /-- LAUNCH (R328) -/
  | launch (msg : MsgHead) (die : Nat) (packet : List (BitVec 8))
  /-- CHARACTERISATION_LAUNCH (R362) -/
  | characterisationLaunch (msg : MsgHead) (cluster : Nat) (packet : List (BitVec 8))
  /-- MANAGEMENT_WRITE (R393) -/
  | managementWrite (addr : Nat) (v : BitVec 64)
  /-- SHOOTDOWN_GO (R316) -/
  | shootdownGo
  /-- SHOOTDOWN_DONE (R316) -/
  | shootdownDone
  /-- DUMPREL_WRITE (R394) -/
  | dumprelWrite (v : BitVec 64)
  /-- GRSPLIT_WRITE (R348) -/
  | grsplitWrite (die : Nat) (v : BitVec 64)
  /-- PKGNUM_WRITE (R381) -/
  | pkgnumWrite (v : BitVec 64)
  /-- PODCFG_WRITE (R381) -/
  | podcfgWrite (v : BitVec 64)
  /-- BUDGET_REGISTER_WRITE (R340) -/
  | budgetRegisterWrite (die cls : Nat) (v : BitVec 64)
  /-- REGISTRATION_WRITE (R383) -/
  | registrationWrite (i : Nat) (r : Registration)
  /-- REVOCATION_DONE (R385) -/
  | revocationDone (i : Nat)
  /-- TRSTATE_WRITE (R376) -/
  | trstateWrite (cluster : Nat) (v : BitVec 64)
  /-- TRDBASE_WRITE (R376) -/
  | trdbaseWrite (cluster : Nat) (v : BitVec 64)
  /-- TRDTAIL_WRITE (R376) -/
  | trdtailWrite (cluster : Nat) (v : BitVec 64)
  /-- TRACE_DRAIN_LINE (R366) -/
  | traceDrainLine (cluster : Nat)
  /-- TRIGGER_START (R377) -/
  | triggerStart (die k : Nat)
  /-- TRIGGER_FREEZE (R377) -/
  | triggerFreeze (die k : Nat)
  /-- THROTTLE_ON (R398) -/
  | throttleOn
  /-- THROTTLE_CLEAR (R398) -/
  | throttleClear
  /-- CLUSTER_FORCED_GATE (R379) -/
  | clusterForcedGate (cluster : Nat)
  /-- CLUSTER_GATE (R378) -/
  | clusterGate (cluster : Nat)
  /-- CLUSTER_UNGATE_DONE (R399) -/
  | clusterUngateDone (cluster : Nat)
  /-- FATAL_ERROR (R324): `cause` mod 4 is 0 for an error in state that no squash restores, 1 for a panic and 2 for a forced thermal shutdown;
  `cause` div 4 is the die. -/
  | fatalError (cause : Nat)
  /-- BOUNDARY_RETRAIN (R380) -/
  | boundaryRetrain (b : Nat)
  /-- DAWN (R395) -/
  | dawn
  /-- MORNING (R395) -/
  | morning
  /-- NOON (R395) -/
  | noon
  /-- ILLEGAL_INSTRUCTION_WORD (R96) -/
  | illegalInstructionWord (w : BitVec 32)
  /-- QUEUED_INSTRUCTION_COMPLETION (R22) -/
  | queuedInstructionCompletion (h : Nat)
  /-- INSTRUCTION_FETCH_RETURN (R401) -/
  | instructionFetchReturn (h : Nat)
  /-- SYSTEM_CORE_ANSWER (R312) -/
  | systemCoreAnswer (h : Nat) (v : BitVec 64)
  /-- SYSTEM_CORE_WRITE (R275) -/
  | systemCoreWrite (pa : Nat) (bytes : List (BitVec 8))
  /-- PAGE_ALLOCATION (R344) -/
  | pageAllocation (pa size : Nat) (il : Bool) (lsbase lsk : Nat)
  /-- DEBUGGER_ATTACH (R310) -/
  | debuggerAttach (h : Nat)
  /-- DEBUGGER_DETACH (R310) -/
  | debuggerDetach (h : Nat)
  /-- CLUSTER_UNGATE (R399) -/
  | clusterUngate (cluster : Nat)
  deriving DecidableEq, Repr

end Sys2Proof
end

