-- ==== Sys2Proof/WellFormed.lean ====
section
/-! DEFINITION. The checks of an instruction word that its fixed bits do not make: codes no table lists, register
pairs, registers that cannot be written, and reserved fields that depend on another field (R76 to R78,
R90 to R96, R181, R206, R289, R290).  Each check has a name. -/

namespace Sys2Proof

/-- Why a word is not an instruction (R96, R289).  Every one of them traps ILL when the word executes. -/
inductive Reject where
  | reservedOpcode          -- R96 item 1
  | unlistedFunction        -- R96 item 2
  | reservedField           -- R96 item 3, R76
  | unlistedFormat          -- R181, R182, R187: a format code marked res or not admitted
  | satNotAllowed           -- R87, R181, R211
  | maskZeroDestination     -- R90, R229
  | badReduceOperation      -- R91
  | unusedIndexField        -- R91: B with F[7] = 0
  | tileOutOfRange          -- R92
  | operandOutOfRange       -- R92, R206
  | badPair                 -- R77, R236, R290
  | unusedChannelField      -- R94
  | emptyQueueList          -- R84
  | badCondition            -- R289
  deriving DecidableEq, Repr

/-- A register pair field (R77): even and not 0. -/
def pairOk (r : BitVec 5) : Bool := decide (r.toNat % 2 = 0) && decide (r.toNat ≠ 0)

/-- An advice register pair (R290): even. -/
def advPairOk (r : BitVec 4) : Bool := decide (r.toNat % 2 = 0)

/-- The check of an ENG word (R77, R94). -/
def engCheck (a b : BitVec 5) (x : BitVec 1) (j : BitVec 3) : Option Reject :=
  if pairOk a && pairOk b then
    if decide (x = 0#1) && decide (j ≠ 0#3) then some .unusedChannelField else none
  else some .badPair

/-- The check of a MOP word (R92, R206): `r` is REP − 1. -/
def mopCheck (d : BitVec 3) (a b : BitVec 5) (r : BitVec 3) (f : BitVec 4) : Option Reject :=
  if 7 < d.toNat + r.toNat then some .tileOutOfRange
  else if 31 < a.toNat + r.toNat then some .operandOutOfRange
  else if 13 ≤ f.toNat ∧ b.toNat = 31 then some .operandOutOfRange
  else if 14 ≤ f.toNat ∧ 31 < a.toNat + 2 * (r.toNat + 1) - 1 then some .operandOutOfRange
  else none

/-- A destination mask register (R90): m0 cannot be written. -/
def maskCheck (d : BitVec 3) : Option Reject := if d = 0#3 then some .maskZeroDestination else none

/-- A format code of a conversion (R181), of which the first `n` are listed. -/
def codeCheck (t : BitVec 3) (n : Nat) : Option Reject := if t.toNat < n then none else some .unlistedFormat

/-- What is wrong with an instruction's fields, if anything. -/
def Instr.check : Instr → Option Reject
  | .vcvtFf _ _ _ _ t => codeCheck t 7
  | .vcvtFi _ _ _ t => codeCheck t 7
  | .vcvtNarrow _ _ _ t => codeCheck t 5
  | .vcvtWiden _ _ _ t => codeCheck t 5
  | .vcvtDeq _ _ _ t => codeCheck t 7
  | .vcvtQuant _ _ _ s t =>
    if 6 < t.toNat then some .unlistedFormat
    else if s = 1#1 ∧ 2 < t.toNat then some .satNotAllowed else none
  | .vcvtDs8e _ _ _ t => if t.toNat = 0 ∨ 3 < t.toNat then some .unlistedFormat else none
  | .vmaskEq d _ _ _ _ => maskCheck d
  | .vmaskNe d _ _ _ _ => maskCheck d
  | .vmaskLt d _ _ _ _ => maskCheck d
  | .vmaskLtu d _ _ _ _ => maskCheck d
  | .vmaskLe d _ _ _ _ => maskCheck d
  | .vmaskLeu d _ _ _ _ => maskCheck d
  | .vmaskGt d _ _ _ _ => maskCheck d
  | .vmaskFeq d _ _ _ _ => maskCheck d
  | .vmaskFlt d _ _ _ _ => maskCheck d
  | .vmaskFle d _ _ _ _ => maskCheck d
  | .vmaskAnd d _ _ => maskCheck d
  | .vmaskOr d _ _ => maskCheck d
  | .vmaskXor d _ _ => maskCheck d
  | .vmaskAndn d _ _ => maskCheck d
  | .vmaskConfl d _ _ => maskCheck d
  | .vstRed _ _ b _ x o =>
    if 5 < o.toNat then some .badReduceOperation
    else if x = 0#1 ∧ b ≠ 0#5 then some .unusedIndexField else none
  | .mopOp d a b _ r f => mopCheck d a b r f
  | .mopOpn d a b _ r f => mopCheck d a b r f
  | .zopRd _ _ _ _ s c _ => if s = 1#1 ∧ c = 0#1 then some .satNotAllowed else none
  | .mskGen d _ _ => maskCheck d
  | .engCpy _ a b _ x j => engCheck a b x j
  | .engTcopy _ a b _ x j => engCheck a b x j
  | .engRgath _ a b _ x j => engCheck a b x j
  | .engRcopy _ a b _ x j => engCheck a b x j
  | .engPut _ a b _ x j => engCheck a b x j
  | .engGet _ a b _ x j => engCheck a b x j
  | .engSig _ a b _ x j => engCheck a b x j
  | .engLaunch _ a b _ x j => engCheck a b x j
  | .syncQdrain q => if q = 0#4 then some .emptyQueueList else none
  | .advBr d a c _ =>
    if 4 < c.toNat then some .badCondition
    else if c = 4#3 ∧ ¬ (d = 0#4 ∧ a = 0#4) then some .reservedField else none
  | .advPfx a b _ => if advPairOk a && advPairOk b then none else some .badPair
  | _ => none

/-- An instruction whose fields pass every check. -/
def Instr.wf (i : Instr) : Bool := i.check.isNone

end Sys2Proof
end

