-- ==== Sys2Proof/Decode.lean ====
section
/-! DEFINITION. Decoding of instruction words, semantic (R71 to R97) and advice (R289, R290): a total function from
a word to an instruction or a named reason why it is none; and the encoder written from the same tables. -/

namespace Sys2Proof

-- Lean's compiled code limits the number of constructors with fields, so decoding is evaluated by the kernel alone.
noncomputable section

/-- The fields of a word (R73, R74). -/
def opOf (w : BitVec 32) : BitVec 6 := w.extractLsb' 26 6
def dOf (w : BitVec 32) : BitVec 5 := w.extractLsb' 21 5
def aOf (w : BitVec 32) : BitVec 5 := w.extractLsb' 16 5
def bOf (w : BitVec 32) : BitVec 5 := w.extractLsb' 11 5
def mOf (w : BitVec 32) : BitVec 3 := w.extractLsb' 8 3
def fOf (w : BitVec 32) : BitVec 8 := w.extractLsb' 0 8
def immOf (w : BitVec 32) : BitVec 16 := w.extractLsb' 0 16
def cOf (w : BitVec 32) : BitVec 3 := w.extractLsb' 13 3
def offOf (w : BitVec 32) : BitVec 13 := w.extractLsb' 0 13
def wOf (w : BitVec 32) : BitVec 21 := w.extractLsb' 0 21

/-- The five formats, laid out from bit 31 down (R74); L and B have one layout. -/
def packR (op : BitVec 6) (d a b : BitVec 5) (m : BitVec 3) (f : BitVec 8) : BitVec 32 := op ++ d ++ a ++ b ++ m ++ f
def packI (op : BitVec 6) (d a : BitVec 5) (imm : BitVec 16) : BitVec 32 := op ++ d ++ a ++ imm
def packL (op : BitVec 6) (d a : BitVec 5) (c : BitVec 3) (off : BitVec 13) : BitVec 32 := op ++ d ++ a ++ c ++ off
def packW (op : BitVec 6) (d : BitVec 5) (w : BitVec 21) : BitVec 32 := op ++ d ++ w

/-- The instruction when its reserved bits hold what R76 and R96 item 3 require. -/
def need (p : Prop) [Decidable p] (i : Instr) : Except Reject Instr :=
  if p then .ok i else .error .reservedField

/-- Major 0x00 of the semantic half (R79 to R94, R289). -/
def decodeOp00 (d : BitVec 5) (a : BitVec 5) (b : BitVec 5) (m : BitVec 3) (f : BitVec 8) : Except Reject Instr :=
  if f = 1#8 then need (d = 0#5 ∧ a = 0#5 ∧ b = 0#5 ∧ m = 0#3) (.sysEcall)
  else if f = 2#8 then need (d = 0#5 ∧ a = 0#5 ∧ b = 0#5 ∧ m = 0#3) (.sysEbreak)
  else if f = 3#8 then need (d = 0#5 ∧ a = 0#5 ∧ b = 0#5 ∧ m = 0#3) (.sysEret)
  else if f = 4#8 then need (d = 0#5 ∧ a = 0#5 ∧ b = 0#5 ∧ m = 0#3) (.sysWfi)
  else if f = 5#8 then need (d = 0#5 ∧ b = 0#5 ∧ m = 0#3) (.sysRefsync a)
  else .error .unlistedFunction

/-- Major 0x01 of the semantic half (R79 to R94, R289). -/
def decodeOp01 (d : BitVec 5) (a : BitVec 5) (b : BitVec 5) (m : BitVec 3) (f : BitVec 8) : Except Reject Instr :=
  if f = 0#8 then need (m = 0#3) (.aluAdd d a b)
  else if f = 1#8 then need (m = 0#3) (.aluSub d a b)
  else if f = 2#8 then need (m = 0#3) (.aluAnd d a b)
  else if f = 3#8 then need (m = 0#3) (.aluOr d a b)
  else if f = 4#8 then need (m = 0#3) (.aluXor d a b)
  else if f = 5#8 then need (m = 0#3) (.aluSll d a b)
  else if f = 6#8 then need (m = 0#3) (.aluSrl d a b)
  else if f = 7#8 then need (m = 0#3) (.aluSra d a b)
  else if f = 8#8 then need (m = 0#3) (.aluSlt d a b)
  else if f = 9#8 then need (m = 0#3) (.aluSltu d a b)
  else if f = 10#8 then need (m = 0#3) (.aluMin d a b)
  else if f = 11#8 then need (m = 0#3) (.aluMax d a b)
  else if f = 12#8 then need (m = 0#3) (.aluMinu d a b)
  else if f = 13#8 then need (m = 0#3) (.aluMaxu d a b)
  else if f = 14#8 then need (b = 0#5 ∧ m = 0#3) (.aluClz d a)
  else if f = 15#8 then need (b = 0#5 ∧ m = 0#3) (.aluPopc d a)
  else .error .unlistedFunction

/-- Major 0x02 of the semantic half (R79 to R94, R289). -/
def decodeOp02 (d : BitVec 5) (a : BitVec 5) (b : BitVec 5) (m : BitVec 3) (f : BitVec 8) : Except Reject Instr :=
  if f = 0#8 then need (m = 0#3) (.muldivMul d a b)
  else if f = 1#8 then need (m = 0#3) (.muldivMulh d a b)
  else if f = 2#8 then need (m = 0#3) (.muldivMulhu d a b)
  else if f = 3#8 then need (m = 0#3) (.muldivDiv d a b)
  else if f = 4#8 then need (m = 0#3) (.muldivDivu d a b)
  else if f = 5#8 then need (m = 0#3) (.muldivRem d a b)
  else if f = 6#8 then need (m = 0#3) (.muldivRemu d a b)
  else .error .unlistedFunction

/-- Major 0x03 of the semantic half (R79 to R94, R289). -/
def decodeOp03 (d : BitVec 5) (a : BitVec 5) (b : BitVec 5) (m : BitVec 3) (f : BitVec 8) : Except Reject Instr :=
  if f &&& 0x7F#8 = 0x0#8 then need (m = 0#3) (.fpsAdd d a b (f.extractLsb' 7 1))
  else if f &&& 0x7F#8 = 0x1#8 then need (m = 0#3) (.fpsSub d a b (f.extractLsb' 7 1))
  else if f &&& 0x7F#8 = 0x2#8 then need (m = 0#3) (.fpsMul d a b (f.extractLsb' 7 1))
  else if f &&& 0x7F#8 = 0x3#8 then need (m = 0#3) (.fpsDiv d a b (f.extractLsb' 7 1))
  else if f &&& 0x7F#8 = 0x4#8 then need (b = 0#5 ∧ m = 0#3) (.fpsSqrt d a (f.extractLsb' 7 1))
  else if f &&& 0x7F#8 = 0x5#8 then need (m = 0#3) (.fpsFma d a b (f.extractLsb' 7 1))
  else if f &&& 0x7F#8 = 0x6#8 then need (m = 0#3) (.fpsMin d a b (f.extractLsb' 7 1))
  else if f &&& 0x7F#8 = 0x7#8 then need (m = 0#3) (.fpsMax d a b (f.extractLsb' 7 1))
  else if f &&& 0x7F#8 = 0x8#8 then need (b = 0#5 ∧ m = 0#3) (.fpsCvtOther d a (f.extractLsb' 7 1))
  else if f &&& 0x7F#8 = 0x18#8 then need (b = 0#5 ∧ m = 0#3) (.fpsCvtFromint d a (f.extractLsb' 7 1))
  else if f &&& 0x7F#8 = 0x28#8 then need (b = 0#5 ∧ m = 0#3) (.fpsCvtFromuint d a (f.extractLsb' 7 1))
  else if f &&& 0x7F#8 = 0x38#8 then need (b = 0#5 ∧ m = 0#3) (.fpsCvtToint d a (f.extractLsb' 7 1))
  else if f &&& 0x7F#8 = 0x48#8 then need (b = 0#5 ∧ m = 0#3) (.fpsCvtTouint d a (f.extractLsb' 7 1))
  else if f &&& 0x7F#8 = 0x9#8 then need (m = 0#3) (.fpsCmpEq d a b (f.extractLsb' 7 1))
  else if f &&& 0x7F#8 = 0x19#8 then need (m = 0#3) (.fpsCmpLt d a b (f.extractLsb' 7 1))
  else if f &&& 0x7F#8 = 0x29#8 then need (m = 0#3) (.fpsCmpLe d a b (f.extractLsb' 7 1))
  else if f &&& 0x7F#8 = 0xA#8 then need (b = 0#5 ∧ m = 0#3) (.fpsClass d a (f.extractLsb' 7 1))
  else if f &&& 0x7F#8 = 0xB#8 then need (b = 0#5 ∧ m = 0#3) (.fpsMvCopy d a (f.extractLsb' 7 1))
  else if f &&& 0x7F#8 = 0x1B#8 then need (b = 0#5 ∧ m = 0#3) (.fpsMvNeg d a (f.extractLsb' 7 1))
  else if f &&& 0x7F#8 = 0x2B#8 then need (b = 0#5 ∧ m = 0#3) (.fpsMvAbs d a (f.extractLsb' 7 1))
  else .error .unlistedFunction

/-- Major 0x04 of the semantic half (R79 to R94, R289). -/
def decodeOp04 (d : BitVec 5) (a : BitVec 5) (imm : BitVec 16) : Except Reject Instr :=
  .ok (.addi d a imm)

/-- Major 0x05 of the semantic half (R79 to R94, R289). -/
def decodeOp05 (d : BitVec 5) (a : BitVec 5) (imm : BitVec 16) : Except Reject Instr :=
  .ok (.andi d a imm)

/-- Major 0x06 of the semantic half (R79 to R94, R289). -/
def decodeOp06 (d : BitVec 5) (a : BitVec 5) (imm : BitVec 16) : Except Reject Instr :=
  .ok (.ori d a imm)

/-- Major 0x07 of the semantic half (R79 to R94, R289). -/
def decodeOp07 (d : BitVec 5) (a : BitVec 5) (imm : BitVec 16) : Except Reject Instr :=
  .ok (.xori d a imm)

/-- Major 0x08 of the semantic half (R79 to R94, R289). -/
def decodeOp08 (d : BitVec 5) (a : BitVec 5) (imm : BitVec 16) : Except Reject Instr :=
  .ok (.slti d a imm)

/-- Major 0x09 of the semantic half (R79 to R94, R289). -/
def decodeOp09 (d : BitVec 5) (a : BitVec 5) (imm : BitVec 16) : Except Reject Instr :=
  .ok (.sltiu d a imm)

/-- Major 0x0A of the semantic half (R79 to R94, R289). -/
def decodeOp0A (d : BitVec 5) (a : BitVec 5) (imm : BitVec 16) : Except Reject Instr :=
  if imm &&& 0xFFC0#16 = 0x0#16 then .ok (.shiSlli d a (imm.extractLsb' 0 6))
  else if imm &&& 0xFFC0#16 = 0x40#16 then .ok (.shiSrli d a (imm.extractLsb' 0 6))
  else if imm &&& 0xFFC0#16 = 0x80#16 then .ok (.shiSrai d a (imm.extractLsb' 0 6))
  else .error .unlistedFunction

/-- Major 0x0B of the semantic half (R79 to R94, R289). -/
def decodeOp0B (d : BitVec 5) (w : BitVec 21) : Except Reject Instr :=
  .ok (.lui d w)

/-- Major 0x0C of the semantic half (R79 to R94, R289). -/
def decodeOp0C (d : BitVec 5) (w : BitVec 21) : Except Reject Instr :=
  .ok (.auipc d w)

/-- Major 0x0D of the semantic half (R79 to R94, R289). -/
def decodeOp0D (d : BitVec 5) (a : BitVec 5) (c : BitVec 3) (off : BitVec 13) : Except Reject Instr :=
  if c = 0#3 then .ok (.ldsB d a off)
  else if c = 1#3 then .ok (.ldsH d a off)
  else if c = 2#3 then .ok (.ldsW d a off)
  else if c = 3#3 then .ok (.ldsD d a off)
  else if c = 4#3 then .ok (.ldsBu d a off)
  else if c = 5#3 then .ok (.ldsHu d a off)
  else if c = 6#3 then .ok (.ldsWu d a off)
  else .error .unlistedFunction

/-- Major 0x0E of the semantic half (R79 to R94, R289). -/
def decodeOp0E (d : BitVec 5) (a : BitVec 5) (c : BitVec 3) (off : BitVec 13) : Except Reject Instr :=
  if c = 0#3 then .ok (.stsB d a off)
  else if c = 1#3 then .ok (.stsH d a off)
  else if c = 2#3 then .ok (.stsW d a off)
  else if c = 3#3 then .ok (.stsD d a off)
  else .error .unlistedFunction

/-- Major 0x0F of the semantic half (R79 to R94, R289). -/
def decodeOp0F (d : BitVec 5) (a : BitVec 5) (c : BitVec 3) (off : BitVec 13) : Except Reject Instr :=
  if c = 0#3 then .ok (.brcEq d a off)
  else if c = 1#3 then .ok (.brcNe d a off)
  else if c = 2#3 then .ok (.brcLt d a off)
  else if c = 3#3 then .ok (.brcGe d a off)
  else if c = 4#3 then .ok (.brcLtu d a off)
  else if c = 5#3 then .ok (.brcGeu d a off)
  else .error .unlistedFunction

/-- Major 0x10 of the semantic half (R79 to R94, R289). -/
def decodeOp10 (d : BitVec 5) (w : BitVec 21) : Except Reject Instr :=
  .ok (.jal d w)

/-- Major 0x11 of the semantic half (R79 to R94, R289). -/
def decodeOp11 (d : BitVec 5) (a : BitVec 5) (imm : BitVec 16) : Except Reject Instr :=
  .ok (.jalr d a imm)

/-- Major 0x12 of the semantic half (R79 to R94, R289). -/
def decodeOp12 (d : BitVec 5) (a : BitVec 5) (imm : BitVec 16) : Except Reject Instr :=
  need (d = 0#5) (.mark a imm)

/-- Major 0x13 of the semantic half (R79 to R94, R289). -/
def decodeOp13 (d : BitVec 5) (a : BitVec 5) (b : BitVec 5) (m : BitVec 3) (f : BitVec 8) : Except Reject Instr :=
  if f = 0#8 then need (d = 0#5 ∧ a = 0#5 ∧ b = 0#5 ∧ m = 0#3) (.fenceSv)
  else if f = 1#8 then need (d = 0#5 ∧ a = 0#5 ∧ b = 0#5 ∧ m = 0#3) (.fenceVs)
  else if f = 2#8 then need (d = 0#5 ∧ a = 0#5 ∧ b = 0#5 ∧ m = 0#3) (.fenceVv)
  else if f = 3#8 then need (d = 0#5 ∧ a = 0#5 ∧ b = 0#5 ∧ m = 0#3) (.fenceAll)
  else .error .unlistedFunction

/-- Major 0x14 of the semantic half (R79 to R94, R289). -/
def decodeOp14 (d : BitVec 5) (a : BitVec 5) (imm : BitVec 16) : Except Reject Instr :=
  if imm &&& 0xF000#16 = 0x0#16 then need (a = 0#5) (.csrRd d (imm.extractLsb' 0 12))
  else if imm &&& 0xF000#16 = 0x1000#16 then .ok (.csrWr d a (imm.extractLsb' 0 12))
  else if imm &&& 0xF000#16 = 0x2000#16 then .ok (.csrSet d a (imm.extractLsb' 0 12))
  else if imm &&& 0xF000#16 = 0x3000#16 then .ok (.csrClr d a (imm.extractLsb' 0 12))
  else .error .unlistedFunction

/-- Major 0x20 of the semantic half (R79 to R94, R289). -/
def decodeOp20 (d : BitVec 5) (a : BitVec 5) (b : BitVec 5) (m : BitVec 3) (f : BitVec 8) : Except Reject Instr :=
  if f = 0#8 then need (m = 0#3) (.vcfgSetvl d a b)
  else if f = 1#8 then need (m &&& 0x4#3 = 0x0#3) (.vcfgSetvlrun d a b (m.extractLsb' 0 2))
  else .error .unlistedFunction

/-- Major 0x21 of the semantic half (R79 to R94, R289). -/
def decodeOp21 (d : BitVec 5) (a : BitVec 5) (imm : BitVec 16) : Except Reject Instr :=
  need (imm &&& 0xF800#16 = 0x0#16) (.setvli d a (imm.extractLsb' 0 11))

/-- Major 0x22 of the semantic half (R79 to R94, R289). -/
def decodeOp22 (d : BitVec 5) (a : BitVec 5) (b : BitVec 5) (m : BitVec 3) (f : BitVec 8) : Except Reject Instr :=
  if f = 0#8 then .ok (.vintAdd d a b m)
  else if f = 1#8 then .ok (.vintSub d a b m)
  else if f = 3#8 then .ok (.vintMul d a b m)
  else if f = 4#8 then .ok (.vintMulh d a b m)
  else if f = 5#8 then .ok (.vintMulhu d a b m)
  else if f = 6#8 then .ok (.vintDiv d a b m)
  else if f = 7#8 then .ok (.vintDivu d a b m)
  else if f = 8#8 then .ok (.vintRem d a b m)
  else if f = 9#8 then .ok (.vintRemu d a b m)
  else if f = 10#8 then .ok (.vintAnd d a b m)
  else if f = 11#8 then .ok (.vintOr d a b m)
  else if f = 12#8 then .ok (.vintXor d a b m)
  else if f = 13#8 then .ok (.vintSll d a b m)
  else if f = 14#8 then .ok (.vintSrl d a b m)
  else if f = 15#8 then .ok (.vintSra d a b m)
  else if f = 16#8 then .ok (.vintMin d a b m)
  else if f = 17#8 then .ok (.vintMinu d a b m)
  else if f = 18#8 then .ok (.vintMax d a b m)
  else if f = 19#8 then .ok (.vintMaxu d a b m)
  else if f = 20#8 then .ok (.vintSadd d a b m)
  else if f = 21#8 then .ok (.vintSaddu d a b m)
  else if f = 22#8 then .ok (.vintSsub d a b m)
  else if f = 23#8 then .ok (.vintSsubu d a b m)
  else if f = 24#8 then .ok (.vintMacc d a b m)
  else if f = 25#8 then .ok (.vintMerge d a b m)
  else if f = 26#8 then need (b = 0#5) (.vintMv d a m)
  else .error .unlistedFunction

/-- Major 0x23 of the semantic half (R79 to R94, R289). -/
def decodeOp23 (d : BitVec 5) (a : BitVec 5) (b : BitVec 5) (m : BitVec 3) (f : BitVec 8) : Except Reject Instr :=
  if f = 0#8 then .ok (.vintxAdd d a b m)
  else if f = 1#8 then .ok (.vintxSub d a b m)
  else if f = 2#8 then .ok (.vintxRsub d a b m)
  else if f = 3#8 then .ok (.vintxMul d a b m)
  else if f = 4#8 then .ok (.vintxMulh d a b m)
  else if f = 5#8 then .ok (.vintxMulhu d a b m)
  else if f = 6#8 then .ok (.vintxDiv d a b m)
  else if f = 7#8 then .ok (.vintxDivu d a b m)
  else if f = 8#8 then .ok (.vintxRem d a b m)
  else if f = 9#8 then .ok (.vintxRemu d a b m)
  else if f = 10#8 then .ok (.vintxAnd d a b m)
  else if f = 11#8 then .ok (.vintxOr d a b m)
  else if f = 12#8 then .ok (.vintxXor d a b m)
  else if f = 13#8 then .ok (.vintxSll d a b m)
  else if f = 14#8 then .ok (.vintxSrl d a b m)
  else if f = 15#8 then .ok (.vintxSra d a b m)
  else if f = 16#8 then .ok (.vintxMin d a b m)
  else if f = 17#8 then .ok (.vintxMinu d a b m)
  else if f = 18#8 then .ok (.vintxMax d a b m)
  else if f = 19#8 then .ok (.vintxMaxu d a b m)
  else if f = 20#8 then .ok (.vintxSadd d a b m)
  else if f = 21#8 then .ok (.vintxSaddu d a b m)
  else if f = 22#8 then .ok (.vintxSsub d a b m)
  else if f = 23#8 then .ok (.vintxSsubu d a b m)
  else if f = 24#8 then .ok (.vintxMacc d a b m)
  else if f = 25#8 then .ok (.vintxMerge d a b m)
  else if f = 26#8 then need (a = 0#5) (.vintxMv d b m)
  else .error .unlistedFunction

/-- Major 0x24 of the semantic half (R79 to R94, R289). -/
def decodeOp24 (d : BitVec 5) (a : BitVec 5) (b : BitVec 5) (m : BitVec 3) (f : BitVec 8) : Except Reject Instr :=
  if f = 0#8 then .ok (.vintiAdd d a b m)
  else if f = 2#8 then .ok (.vintiRsub d a b m)
  else if f = 10#8 then .ok (.vintiAnd d a b m)
  else if f = 11#8 then .ok (.vintiOr d a b m)
  else if f = 12#8 then .ok (.vintiXor d a b m)
  else if f = 13#8 then .ok (.vintiSll d a b m)
  else if f = 14#8 then .ok (.vintiSrl d a b m)
  else if f = 15#8 then .ok (.vintiSra d a b m)
  else if f = 20#8 then .ok (.vintiSadd d a b m)
  else if f = 21#8 then .ok (.vintiSaddu d a b m)
  else if f = 25#8 then .ok (.vintiMerge d a b m)
  else if f = 26#8 then need (a = 0#5) (.vintiMv d b m)
  else .error .unlistedFunction

/-- Major 0x25 of the semantic half (R79 to R94, R289). -/
def decodeOp25 (d : BitVec 5) (a : BitVec 5) (b : BitVec 5) (m : BitVec 3) (f : BitVec 8) : Except Reject Instr :=
  if f = 0#8 then .ok (.vfpAdd d a b m)
  else if f = 1#8 then .ok (.vfpSub d a b m)
  else if f = 2#8 then .ok (.vfpMul d a b m)
  else if f = 3#8 then .ok (.vfpDiv d a b m)
  else if f = 4#8 then need (b = 0#5) (.vfpSqrt d a m)
  else if f = 5#8 then .ok (.vfpMin d a b m)
  else if f = 6#8 then .ok (.vfpMax d a b m)
  else if f = 7#8 then .ok (.vfpMacc d a b m)
  else if f = 8#8 then .ok (.vfpNmacc d a b m)
  else if f = 9#8 then need (b = 0#5) (.vfpExp2 d a m)
  else if f = 10#8 then .ok (.vfpSgnj d a b m)
  else if f = 74#8 then .ok (.vfpSgnjn d a b m)
  else if f = 138#8 then .ok (.vfpSgnjx d a b m)
  else if f = 11#8 then need (b = 0#5) (.vfpClass d a m)
  else if f = 12#8 then need (b = 0#5) (.vfpMv d a m)
  else .error .unlistedFunction

/-- Major 0x26 of the semantic half (R79 to R94, R289). -/
def decodeOp26 (d : BitVec 5) (a : BitVec 5) (b : BitVec 5) (m : BitVec 3) (f : BitVec 8) : Except Reject Instr :=
  if f = 0#8 then .ok (.vfpxAdd d a b m)
  else if f = 1#8 then .ok (.vfpxSub d a b m)
  else if f = 2#8 then .ok (.vfpxMul d a b m)
  else if f = 3#8 then .ok (.vfpxDiv d a b m)
  else if f = 5#8 then .ok (.vfpxMin d a b m)
  else if f = 6#8 then .ok (.vfpxMax d a b m)
  else if f = 7#8 then .ok (.vfpxMacc d a b m)
  else if f = 8#8 then .ok (.vfpxNmacc d a b m)
  else if f = 10#8 then .ok (.vfpxSgnj d a b m)
  else if f = 74#8 then .ok (.vfpxSgnjn d a b m)
  else if f = 138#8 then .ok (.vfpxSgnjx d a b m)
  else if f = 12#8 then need (a = 0#5) (.vfpxMv d b m)
  else .error .unlistedFunction

/-- Major 0x27 of the semantic half (R79 to R94, R289). -/
def decodeOp27 (d : BitVec 5) (a : BitVec 5) (b : BitVec 5) (m : BitVec 3) (f : BitVec 8) : Except Reject Instr :=
  if f &&& 0xF#8 = 0x0#8 then need (b = 0#5) (.vcvtFf d a m (f.extractLsb' 7 1) (f.extractLsb' 4 3))
  else if f &&& 0xF#8 = 0x1#8 then need (b = 0#5) (.vcvtIf d a m (f.extractLsb' 7 1) (f.extractLsb' 4 3))
  else if f &&& 0x8F#8 = 0x2#8 then need (b = 0#5) (.vcvtFi d a m (f.extractLsb' 4 3))
  else if f &&& 0x8F#8 = 0x3#8 then need (b = 0#5) (.vcvtNarrow d a m (f.extractLsb' 4 3))
  else if f &&& 0x8F#8 = 0x4#8 then need (b = 0#5) (.vcvtWiden d a m (f.extractLsb' 4 3))
  else if f &&& 0x8F#8 = 0x5#8 then need (b = 0#5) (.vcvtDeq d a m (f.extractLsb' 4 3))
  else if f &&& 0xF#8 = 0x6#8 then need (b = 0#5) (.vcvtQuant d a m (f.extractLsb' 7 1) (f.extractLsb' 4 3))
  else if f = 7#8 then need (d &&& 0x18#5 = 0x0#5 ∧ b = 0#5) (.vcvtQmv (d.extractLsb' 0 3) a m)
  else if f = 8#8 then need (a &&& 0x18#5 = 0x0#5 ∧ b = 0#5) (.vcvtQrd d (a.extractLsb' 0 3) m)
  else if f &&& 0x8F#8 = 0x9#8 then need (b = 0#5) (.vcvtDs8e d a m (f.extractLsb' 4 3))
  else if f = 10#8 then need (b = 0#5) (.vcvtDs8d d a m)
  else .error .unlistedFunction

/-- Major 0x28 of the semantic half (R79 to R94, R289). -/
def decodeOp28 (d : BitVec 5) (a : BitVec 5) (b : BitVec 5) (m : BitVec 3) (f : BitVec 8) : Except Reject Instr :=
  if f &&& 0x7F#8 = 0x0#8 then .ok (.vredSum d a b m (f.extractLsb' 7 1))
  else if f &&& 0x7F#8 = 0x1#8 then .ok (.vredMin d a b m (f.extractLsb' 7 1))
  else if f &&& 0x7F#8 = 0x2#8 then .ok (.vredMinu d a b m (f.extractLsb' 7 1))
  else if f &&& 0x7F#8 = 0x3#8 then .ok (.vredMax d a b m (f.extractLsb' 7 1))
  else if f &&& 0x7F#8 = 0x4#8 then .ok (.vredMaxu d a b m (f.extractLsb' 7 1))
  else if f &&& 0x7F#8 = 0x5#8 then .ok (.vredAnd d a b m (f.extractLsb' 7 1))
  else if f &&& 0x7F#8 = 0x6#8 then .ok (.vredOr d a b m (f.extractLsb' 7 1))
  else if f &&& 0x7F#8 = 0x7#8 then .ok (.vredXor d a b m (f.extractLsb' 7 1))
  else if f &&& 0x7F#8 = 0x8#8 then .ok (.vredFsumo d a b m (f.extractLsb' 7 1))
  else if f &&& 0x7F#8 = 0x9#8 then .ok (.vredFsumt d a b m (f.extractLsb' 7 1))
  else if f &&& 0x7F#8 = 0xA#8 then .ok (.vredFmin d a b m (f.extractLsb' 7 1))
  else if f &&& 0x7F#8 = 0xB#8 then .ok (.vredFmax d a b m (f.extractLsb' 7 1))
  else .error .unlistedFunction

/-- Major 0x29 of the semantic half (R79 to R94, R289). -/
def decodeOp29 (d : BitVec 5) (a : BitVec 5) (b : BitVec 5) (m : BitVec 3) (f : BitVec 8) : Except Reject Instr :=
  if f = 0#8 then .ok (.vpermSlup d a b m)
  else if f = 1#8 then .ok (.vpermSldn d a b m)
  else if f = 2#8 then .ok (.vpermGather d a b m)
  else if f = 3#8 then need (b = 0#5) (.vpermCompress d a m)
  else if f = 4#8 then need (b = 0#5) (.vpermExpand d a m)
  else if f = 5#8 then .ok (.vpermXchg d a b m)
  else if f = 6#8 then need (m = 0#3) (.vpermMvxs d a b)
  else if f = 7#8 then need (a = 0#5) (.vpermMvsx d b m)
  else if f = 8#8 then .ok (.vpermBcast d a b m)
  else .error .unlistedFunction

/-- Major 0x2A of the semantic half (R79 to R94, R289). -/
def decodeOp2A (d : BitVec 5) (a : BitVec 5) (b : BitVec 5) (m : BitVec 3) (f : BitVec 8) : Except Reject Instr :=
  if f &&& 0x7F#8 = 0x0#8 then need (d &&& 0x18#5 = 0x0#5) (.vmaskEq (d.extractLsb' 0 3) a b m (f.extractLsb' 7 1))
  else if f &&& 0x7F#8 = 0x1#8 then need (d &&& 0x18#5 = 0x0#5) (.vmaskNe (d.extractLsb' 0 3) a b m (f.extractLsb' 7 1))
  else if f &&& 0x7F#8 = 0x2#8 then need (d &&& 0x18#5 = 0x0#5) (.vmaskLt (d.extractLsb' 0 3) a b m (f.extractLsb' 7 1))
  else if f &&& 0x7F#8 = 0x3#8 then need (d &&& 0x18#5 = 0x0#5) (.vmaskLtu (d.extractLsb' 0 3) a b m (f.extractLsb' 7 1))
  else if f &&& 0x7F#8 = 0x4#8 then need (d &&& 0x18#5 = 0x0#5) (.vmaskLe (d.extractLsb' 0 3) a b m (f.extractLsb' 7 1))
  else if f &&& 0x7F#8 = 0x5#8 then need (d &&& 0x18#5 = 0x0#5) (.vmaskLeu (d.extractLsb' 0 3) a b m (f.extractLsb' 7 1))
  else if f &&& 0x7F#8 = 0x6#8 then need (d &&& 0x18#5 = 0x0#5) (.vmaskGt (d.extractLsb' 0 3) a b m (f.extractLsb' 7 1))
  else if f &&& 0x7F#8 = 0x7#8 then need (d &&& 0x18#5 = 0x0#5) (.vmaskFeq (d.extractLsb' 0 3) a b m (f.extractLsb' 7 1))
  else if f &&& 0x7F#8 = 0x8#8 then need (d &&& 0x18#5 = 0x0#5) (.vmaskFlt (d.extractLsb' 0 3) a b m (f.extractLsb' 7 1))
  else if f &&& 0x7F#8 = 0x9#8 then need (d &&& 0x18#5 = 0x0#5) (.vmaskFle (d.extractLsb' 0 3) a b m (f.extractLsb' 7 1))
  else if f = 10#8 then need (d &&& 0x18#5 = 0x0#5 ∧ a &&& 0x18#5 = 0x0#5 ∧ b &&& 0x18#5 = 0x0#5 ∧ m = 0#3) (.vmaskAnd (d.extractLsb' 0 3) (a.extractLsb' 0 3) (b.extractLsb' 0 3))
  else if f = 11#8 then need (d &&& 0x18#5 = 0x0#5 ∧ a &&& 0x18#5 = 0x0#5 ∧ b &&& 0x18#5 = 0x0#5 ∧ m = 0#3) (.vmaskOr (d.extractLsb' 0 3) (a.extractLsb' 0 3) (b.extractLsb' 0 3))
  else if f = 12#8 then need (d &&& 0x18#5 = 0x0#5 ∧ a &&& 0x18#5 = 0x0#5 ∧ b &&& 0x18#5 = 0x0#5 ∧ m = 0#3) (.vmaskXor (d.extractLsb' 0 3) (a.extractLsb' 0 3) (b.extractLsb' 0 3))
  else if f = 13#8 then need (d &&& 0x18#5 = 0x0#5 ∧ a &&& 0x18#5 = 0x0#5 ∧ b &&& 0x18#5 = 0x0#5 ∧ m = 0#3) (.vmaskAndn (d.extractLsb' 0 3) (a.extractLsb' 0 3) (b.extractLsb' 0 3))
  else if f = 14#8 then need (a &&& 0x18#5 = 0x0#5 ∧ b = 0#5) (.vmaskPopc d (a.extractLsb' 0 3) m)
  else if f = 15#8 then need (a &&& 0x18#5 = 0x0#5 ∧ b = 0#5) (.vmaskFirst d (a.extractLsb' 0 3) m)
  else if f = 16#8 then need (d &&& 0x18#5 = 0x0#5 ∧ b = 0#5) (.vmaskConfl (d.extractLsb' 0 3) a m)
  else .error .unlistedFunction

/-- Major 0x2B of the semantic half (R79 to R94, R289). -/
def decodeOp2B (d : BitVec 5) (w : BitVec 21) : Except Reject Instr :=
  .ok (.vidx d (w.extractLsb' 10 11) (w.extractLsb' 0 10))

/-- Major 0x2C of the semantic half (R79 to R94, R289). -/
def decodeOp2C (d : BitVec 5) (a : BitVec 5) (b : BitVec 5) (m : BitVec 3) (f : BitVec 8) : Except Reject Instr :=
  if f = 0#8 then need (b = 0#5) (.vldUnit d a m)
  else if f = 1#8 then .ok (.vldStr d a b m)
  else if f &&& 0xCF#8 = 0x2#8 then .ok (.vldIdx d a b m (f.extractLsb' 4 2))
  else if f &&& 0x8F#8 = 0x3#8 then need (b = 0#5) (.vldSeg d a m (f.extractLsb' 4 3))
  else if f = 4#8 then need (b = 0#5) (.vldFf d a m)
  else if f = 5#8 then need (b &&& 0x10#5 = 0x0#5) (.vldTens d a (b.extractLsb' 0 4) m)
  else if f = 6#8 then need (d &&& 0x18#5 = 0x0#5 ∧ b = 0#5 ∧ m = 0#3) (.vldQld (d.extractLsb' 0 3) a)
  else .error .unlistedFunction

/-- Major 0x2D of the semantic half (R79 to R94, R289). -/
def decodeOp2D (d : BitVec 5) (a : BitVec 5) (b : BitVec 5) (m : BitVec 3) (f : BitVec 8) : Except Reject Instr :=
  if f = 0#8 then need (b = 0#5) (.vstUnit d a m)
  else if f = 1#8 then .ok (.vstStr d a b m)
  else if f &&& 0xCF#8 = 0x2#8 then .ok (.vstIdx d a b m (f.extractLsb' 4 2))
  else if f &&& 0x8F#8 = 0x3#8 then need (b = 0#5) (.vstSeg d a m (f.extractLsb' 4 3))
  else if f = 5#8 then need (b &&& 0x10#5 = 0x0#5) (.vstTens d a (b.extractLsb' 0 4) m)
  else if f &&& 0xF#8 = 0x7#8 then .ok (.vstRed d a b m (f.extractLsb' 7 1) (f.extractLsb' 4 3))
  else .error .unlistedFunction

/-- Major 0x2E of the semantic half (R79 to R94, R289). -/
def decodeOp2E (d : BitVec 5) (a : BitVec 5) (b : BitVec 5) (m : BitVec 3) (f : BitVec 8) : Except Reject Instr :=
  if f = 0#8 then need (a = 0#5) (.vxclG d b m)
  else if f = 1#8 then need (a = 0#5) (.vxclS d b m)
  else .error .unlistedFunction

/-- Major 0x30 of the semantic half (R79 to R94, R289). -/
def decodeOp30 (d : BitVec 5) (a : BitVec 5) (b : BitVec 5) (m : BitVec 3) (f : BitVec 8) : Except Reject Instr :=
  if f &&& 0x10#8 = 0x0#8 then need (d &&& 0x18#5 = 0x0#5) (.mopOp (d.extractLsb' 0 3) a b m (f.extractLsb' 5 3) (f.extractLsb' 0 4))
  else if f &&& 0x10#8 = 0x10#8 then need (d &&& 0x18#5 = 0x0#5) (.mopOpn (d.extractLsb' 0 3) a b m (f.extractLsb' 5 3) (f.extractLsb' 0 4))
  else .error .unlistedFunction

/-- Major 0x31 of the semantic half (R79 to R94, R289). -/
def decodeOp31 (d : BitVec 5) (a : BitVec 5) (b : BitVec 5) (m : BitVec 3) (f : BitVec 8) : Except Reject Instr :=
  if f = 0#8 then need (d &&& 0x18#5 = 0x0#5 ∧ b = 0#5 ∧ m = 0#3) (.zopCfg (d.extractLsb' 0 3) a)
  else if f = 1#8 then need (d = 0#5 ∧ a = 0#5 ∧ b = 0#5 ∧ m = 0#3) (.zopEnable)
  else if f = 2#8 then need (d = 0#5 ∧ a = 0#5 ∧ b = 0#5 ∧ m = 0#3) (.zopDisable)
  else if f = 3#8 then need (d &&& 0x18#5 = 0x0#5 ∧ a = 0#5 ∧ b = 0#5 ∧ m = 0#3) (.zopZero (d.extractLsb' 0 3))
  else if f &&& 0x8F#8 = 0x4#8 then need (d &&& 0x18#5 = 0x0#5) (.zopRd (d.extractLsb' 0 3) a b m (f.extractLsb' 6 1) (f.extractLsb' 5 1) (f.extractLsb' 4 1))
  else if f &&& 0xCF#8 = 0x5#8 then need (d &&& 0x18#5 = 0x0#5) (.zopWr (d.extractLsb' 0 3) a b m (f.extractLsb' 5 1) (f.extractLsb' 4 1))
  else if f &&& 0x4F#8 = 0x6#8 then need (d &&& 0x18#5 = 0x0#5) (.zopPatch (d.extractLsb' 0 3) a b m (f.extractLsb' 7 1) (f.extractLsb' 5 1) (f.extractLsb' 4 1))
  else if f = 7#8 then need (d &&& 0x18#5 = 0x0#5 ∧ b = 0#5) (.zopScale (d.extractLsb' 0 3) a m)
  else if f &&& 0xEF#8 = 0x8#8 then need (d &&& 0x18#5 = 0x0#5 ∧ b &&& 0x1C#5 = 0x0#5 ∧ m = 0#3) (.zopMask (d.extractLsb' 0 3) a (b.extractLsb' 0 2) (f.extractLsb' 4 1))
  else .error .unlistedFunction

/-- Major 0x32 of the semantic half (R79 to R94, R289). -/
def decodeOp32 (d : BitVec 5) (a : BitVec 5) (b : BitVec 5) (m : BitVec 3) (f : BitVec 8) : Except Reject Instr :=
  if f = 0#8 then need (d &&& 0x1C#5 = 0x0#5 ∧ b = 0#5 ∧ m = 0#3) (.mskLd (d.extractLsb' 0 2) a)
  else if f = 1#8 then need (b &&& 0x1C#5 = 0x0#5 ∧ m = 0#3) (.mskCls d a (b.extractLsb' 0 2))
  else if f = 2#8 then need (d &&& 0x18#5 = 0x0#5 ∧ b &&& 0x1C#5 = 0x0#5 ∧ m = 0#3) (.mskGen (d.extractLsb' 0 3) a (b.extractLsb' 0 2))
  else if f = 3#8 then need (a = 0#5 ∧ b &&& 0x1C#5 = 0x0#5 ∧ m = 0#3) (.mskCnt d (b.extractLsb' 0 2))
  else .error .unlistedFunction

/-- Major 0x33 of the semantic half (R79 to R94, R289). -/
def decodeOp33 (d : BitVec 5) (a : BitVec 5) (b : BitVec 5) (m : BitVec 3) (f : BitVec 8) : Except Reject Instr :=
  need (d &&& 0x10#5 = 0x0#5 ∧ b = 0#5 ∧ m = 0#3 ∧ f = 0#8) (.tamw (d.extractLsb' 0 4) a)

/-- Major 0x34 of the semantic half (R79 to R94, R289). -/
def decodeOp34 (d : BitVec 5) (a : BitVec 5) (b : BitVec 5) (m : BitVec 3) (f : BitVec 8) : Except Reject Instr :=
  if f &&& 0xF#8 = 0x0#8 then .ok (.engCpy d a b m (f.extractLsb' 7 1) (f.extractLsb' 4 3))
  else if f &&& 0xF#8 = 0x1#8 then .ok (.engTcopy d a b m (f.extractLsb' 7 1) (f.extractLsb' 4 3))
  else if f &&& 0xF#8 = 0x2#8 then .ok (.engRgath d a b m (f.extractLsb' 7 1) (f.extractLsb' 4 3))
  else if f &&& 0xF#8 = 0x3#8 then .ok (.engRcopy d a b m (f.extractLsb' 7 1) (f.extractLsb' 4 3))
  else if f &&& 0xF#8 = 0x4#8 then .ok (.engPut d a b m (f.extractLsb' 7 1) (f.extractLsb' 4 3))
  else if f &&& 0xF#8 = 0x5#8 then .ok (.engGet d a b m (f.extractLsb' 7 1) (f.extractLsb' 4 3))
  else if f &&& 0xF#8 = 0x6#8 then .ok (.engSig d a b m (f.extractLsb' 7 1) (f.extractLsb' 4 3))
  else if f &&& 0xF#8 = 0x7#8 then .ok (.engLaunch d a b m (f.extractLsb' 7 1) (f.extractLsb' 4 3))
  else .error .unlistedFunction

/-- Major 0x35 of the semantic half (R79 to R94, R289). -/
def decodeOp35 (d : BitVec 5) (a : BitVec 5) (b : BitVec 5) (m : BitVec 3) (f : BitVec 8) : Except Reject Instr :=
  if d = 0#5 ∧ f = 0#8 then need (b = 0#5) (.syncTlwait a m)
  else if d = 1#5 ∧ f = 0#8 then need (m = 0#3) (.syncTlwaitIc a b)
  else if a = 0#5 ∧ f = 1#8 then need (b = 0#5) (.syncTlread d m)
  else if a = 1#5 ∧ f = 1#8 then need (m = 0#3) (.syncTlreadIc d b)
  else if d = 0#5 ∧ a = 0#5 ∧ f = 2#8 then need (b = 0#5 ∧ m = 0#3) (.syncGbar)
  else if d &&& 0x10#5 = 0x0#5 ∧ a = 0#5 ∧ f = 3#8 then need (b = 0#5 ∧ m = 0#3) (.syncQdrain (d.extractLsb' 0 4))
  else if d = 0#5 ∧ a = 0#5 ∧ f = 4#8 then need (b = 0#5 ∧ m = 0#3) (.syncSheaf)
  else if d = 0#5 ∧ a = 0#5 ∧ f = 5#8 then need (b = 0#5 ∧ m = 0#3) (.syncBtinv)
  else .error .unlistedFunction

/-- Major 0x36 of the semantic half (R79 to R94, R289). -/
def decodeOp36 (d : BitVec 5) (a : BitVec 5) (b : BitVec 5) (m : BitVec 3) (f : BitVec 8) : Except Reject Instr :=
  if f = 0#8 then need (d = 0#5 ∧ b = 0#5 ∧ m = 0#3) (.dbgTrmark a)
  else if f = 1#8 then need (d = 0#5 ∧ b = 0#5 ∧ m = 0#3) (.dbgWprel a)
  else .error .unlistedFunction

/-- The instruction of a word of the semantic half by its fields, before the checks of R77, R92 and the like. -/
def decodeRaw (w : BitVec 32) : Except Reject Instr :=
  match (opOf w).toNat with
  | 0x00 => decodeOp00 (dOf w) (aOf w) (bOf w) (mOf w) (fOf w)
  | 0x01 => decodeOp01 (dOf w) (aOf w) (bOf w) (mOf w) (fOf w)
  | 0x02 => decodeOp02 (dOf w) (aOf w) (bOf w) (mOf w) (fOf w)
  | 0x03 => decodeOp03 (dOf w) (aOf w) (bOf w) (mOf w) (fOf w)
  | 0x04 => decodeOp04 (dOf w) (aOf w) (immOf w)
  | 0x05 => decodeOp05 (dOf w) (aOf w) (immOf w)
  | 0x06 => decodeOp06 (dOf w) (aOf w) (immOf w)
  | 0x07 => decodeOp07 (dOf w) (aOf w) (immOf w)
  | 0x08 => decodeOp08 (dOf w) (aOf w) (immOf w)
  | 0x09 => decodeOp09 (dOf w) (aOf w) (immOf w)
  | 0x0A => decodeOp0A (dOf w) (aOf w) (immOf w)
  | 0x0B => decodeOp0B (dOf w) (wOf w)
  | 0x0C => decodeOp0C (dOf w) (wOf w)
  | 0x0D => decodeOp0D (dOf w) (aOf w) (cOf w) (offOf w)
  | 0x0E => decodeOp0E (dOf w) (aOf w) (cOf w) (offOf w)
  | 0x0F => decodeOp0F (dOf w) (aOf w) (cOf w) (offOf w)
  | 0x10 => decodeOp10 (dOf w) (wOf w)
  | 0x11 => decodeOp11 (dOf w) (aOf w) (immOf w)
  | 0x12 => decodeOp12 (dOf w) (aOf w) (immOf w)
  | 0x13 => decodeOp13 (dOf w) (aOf w) (bOf w) (mOf w) (fOf w)
  | 0x14 => decodeOp14 (dOf w) (aOf w) (immOf w)
  | 0x20 => decodeOp20 (dOf w) (aOf w) (bOf w) (mOf w) (fOf w)
  | 0x21 => decodeOp21 (dOf w) (aOf w) (immOf w)
  | 0x22 => decodeOp22 (dOf w) (aOf w) (bOf w) (mOf w) (fOf w)
  | 0x23 => decodeOp23 (dOf w) (aOf w) (bOf w) (mOf w) (fOf w)
  | 0x24 => decodeOp24 (dOf w) (aOf w) (bOf w) (mOf w) (fOf w)
  | 0x25 => decodeOp25 (dOf w) (aOf w) (bOf w) (mOf w) (fOf w)
  | 0x26 => decodeOp26 (dOf w) (aOf w) (bOf w) (mOf w) (fOf w)
  | 0x27 => decodeOp27 (dOf w) (aOf w) (bOf w) (mOf w) (fOf w)
  | 0x28 => decodeOp28 (dOf w) (aOf w) (bOf w) (mOf w) (fOf w)
  | 0x29 => decodeOp29 (dOf w) (aOf w) (bOf w) (mOf w) (fOf w)
  | 0x2A => decodeOp2A (dOf w) (aOf w) (bOf w) (mOf w) (fOf w)
  | 0x2B => decodeOp2B (dOf w) (wOf w)
  | 0x2C => decodeOp2C (dOf w) (aOf w) (bOf w) (mOf w) (fOf w)
  | 0x2D => decodeOp2D (dOf w) (aOf w) (bOf w) (mOf w) (fOf w)
  | 0x2E => decodeOp2E (dOf w) (aOf w) (bOf w) (mOf w) (fOf w)
  | 0x30 => decodeOp30 (dOf w) (aOf w) (bOf w) (mOf w) (fOf w)
  | 0x31 => decodeOp31 (dOf w) (aOf w) (bOf w) (mOf w) (fOf w)
  | 0x32 => decodeOp32 (dOf w) (aOf w) (bOf w) (mOf w) (fOf w)
  | 0x33 => decodeOp33 (dOf w) (aOf w) (bOf w) (mOf w) (fOf w)
  | 0x34 => decodeOp34 (dOf w) (aOf w) (bOf w) (mOf w) (fOf w)
  | 0x35 => decodeOp35 (dOf w) (aOf w) (bOf w) (mOf w) (fOf w)
  | 0x36 => decodeOp36 (dOf w) (aOf w) (bOf w) (mOf w) (fOf w)
  | _ => .error .reservedOpcode

/-- Major 0x01 of the advice half (R79 to R94, R289). -/
def decodeAdvOp01 (d : BitVec 5) (a : BitVec 5) (imm : BitVec 16) : Except Reject Instr :=
  need (d = 0#5 ∧ a = 0#5) (.advAwait imm)

/-- Major 0x02 of the advice half (R79 to R94, R289). -/
def decodeAdvOp02 (d : BitVec 5) (a : BitVec 5) (c : BitVec 3) (off : BitVec 13) : Except Reject Instr :=
  need (d &&& 0x10#5 = 0x0#5 ∧ a &&& 0x10#5 = 0x0#5) (.advBr (d.extractLsb' 0 4) (a.extractLsb' 0 4) c off)

/-- Major 0x03 of the advice half (R79 to R94, R289). -/
def decodeAdvOp03 (d : BitVec 5) (a : BitVec 5) (c : BitVec 3) (off : BitVec 13) : Except Reject Instr :=
  need (d &&& 0x10#5 = 0x0#5 ∧ a = 0#5 ∧ c = 0#3) (.advLoop (d.extractLsb' 0 4) off)

/-- Major 0x04 of the advice half (R79 to R94, R289). -/
def decodeAdvOp04 (d : BitVec 5) (w : BitVec 21) : Except Reject Instr :=
  need (d &&& 0x10#5 = 0x0#5) (.advSet (d.extractLsb' 0 4) w)

/-- Major 0x05 of the advice half (R79 to R94, R289). -/
def decodeAdvOp05 (d : BitVec 5) (w : BitVec 21) : Except Reject Instr :=
  need (d &&& 0x10#5 = 0x0#5) (.advIns (d.extractLsb' 0 4) w)

/-- Major 0x06 of the advice half (R79 to R94, R289). -/
def decodeAdvOp06 (d : BitVec 5) (a : BitVec 5) (b : BitVec 5) (m : BitVec 3) (f : BitVec 8) : Except Reject Instr :=
  need (d &&& 0x10#5 = 0x0#5 ∧ a &&& 0x10#5 = 0x0#5 ∧ b &&& 0x10#5 = 0x0#5 ∧ m = 0#3 ∧ f = 0#8) (.advAdd (d.extractLsb' 0 4) (a.extractLsb' 0 4) (b.extractLsb' 0 4))

/-- Major 0x07 of the advice half (R79 to R94, R289). -/
def decodeAdvOp07 (d : BitVec 5) (a : BitVec 5) (imm : BitVec 16) : Except Reject Instr :=
  need (d &&& 0x10#5 = 0x0#5 ∧ a &&& 0x10#5 = 0x0#5) (.advAddi (d.extractLsb' 0 4) (a.extractLsb' 0 4) imm)

/-- Major 0x08 of the advice half (R79 to R94, R289). -/
def decodeAdvOp08 (d : BitVec 5) (a : BitVec 5) (b : BitVec 5) (m : BitVec 3) (f : BitVec 8) : Except Reject Instr :=
  if f = 0#8 then need (d &&& 0x10#5 = 0x0#5 ∧ a &&& 0x10#5 = 0x0#5 ∧ b = 0#5 ∧ m = 0#3) (.advMv (d.extractLsb' 0 4) (a.extractLsb' 0 4))
  else if f = 1#8 then need (d &&& 0x10#5 = 0x0#5 ∧ a = 0#5 ∧ b = 0#5 ∧ m = 0#3) (.advMvArg (d.extractLsb' 0 4))
  else if f = 2#8 then need (d &&& 0x10#5 = 0x0#5 ∧ a = 0#5 ∧ b = 0#5 ∧ m = 0#3) (.advMvId (d.extractLsb' 0 4))
  else .error .unlistedFunction

/-- Major 0x09 of the advice half (R79 to R94, R289). -/
def decodeAdvOp09 (d : BitVec 5) (a : BitVec 5) (b : BitVec 5) (m : BitVec 3) (f : BitVec 8) : Except Reject Instr :=
  need (d = 0#5 ∧ a &&& 0x10#5 = 0x0#5 ∧ b &&& 0x10#5 = 0x0#5 ∧ m = 0#3 ∧ f = 0#8) (.advPf (a.extractLsb' 0 4) (b.extractLsb' 0 4))

/-- Major 0x0A of the advice half (R79 to R94, R289). -/
def decodeAdvOp0A (d : BitVec 5) (a : BitVec 5) (b : BitVec 5) (m : BitVec 3) (f : BitVec 8) : Except Reject Instr :=
  need (d = 0#5 ∧ a &&& 0x10#5 = 0x0#5 ∧ b &&& 0x10#5 = 0x0#5 ∧ m = 0#3 ∧ f &&& 0xFC#8 = 0x0#8) (.advPfx (a.extractLsb' 0 4) (b.extractLsb' 0 4) (f.extractLsb' 0 2))

/-- Major 0x0B of the advice half (R79 to R94, R289). -/
def decodeAdvOp0B (d : BitVec 5) (a : BitVec 5) (b : BitVec 5) (m : BitVec 3) (f : BitVec 8) : Except Reject Instr :=
  need (d = 0#5 ∧ a &&& 0x10#5 = 0x0#5 ∧ b &&& 0x10#5 = 0x0#5 ∧ m = 0#3 ∧ f &&& 0xFC#8 = 0x0#8) (.advPlace (a.extractLsb' 0 4) (b.extractLsb' 0 4) (f.extractLsb' 0 2))

/-- Major 0x0C of the advice half (R79 to R94, R289). -/
def decodeAdvOp0C (d : BitVec 5) (a : BitVec 5) (b : BitVec 5) (m : BitVec 3) (f : BitVec 8) : Except Reject Instr :=
  need (d = 0#5 ∧ a &&& 0x10#5 = 0x0#5 ∧ b = 0#5 ∧ m = 0#3 ∧ f = 0#8) (.advPrio (a.extractLsb' 0 4))

/-- Major 0x0D of the advice half (R79 to R94, R289). -/
def decodeAdvOp0D (d : BitVec 5) (a : BitVec 5) (b : BitVec 5) (m : BitVec 3) (f : BitVec 8) : Except Reject Instr :=
  if f = 0#8 then need (d = 0#5 ∧ a &&& 0x10#5 = 0x0#5 ∧ b = 0#5 ∧ m = 0#3) (.advOrder (a.extractLsb' 0 4))
  else if f = 1#8 then need (d = 0#5 ∧ a &&& 0x10#5 = 0x0#5 ∧ b = 0#5 ∧ m = 0#3) (.advOrderShare (a.extractLsb' 0 4))
  else .error .unlistedFunction

/-- Major 0x0E of the advice half (R79 to R94, R289). -/
def decodeAdvOp0E (d : BitVec 5) (a : BitVec 5) (b : BitVec 5) (m : BitVec 3) (f : BitVec 8) : Except Reject Instr :=
  need (d = 0#5 ∧ a = 0#5 ∧ b = 0#5 ∧ m = 0#3 ∧ f = 0#8) (.advHalt)

/-- The instruction of an advice word by its fields (R289). -/
def decodeAdviceRaw (w : BitVec 32) : Except Reject Instr :=
  match (opOf w).toNat with
  | 0x01 => decodeAdvOp01 (dOf w) (aOf w) (immOf w)
  | 0x02 => decodeAdvOp02 (dOf w) (aOf w) (cOf w) (offOf w)
  | 0x03 => decodeAdvOp03 (dOf w) (aOf w) (cOf w) (offOf w)
  | 0x04 => decodeAdvOp04 (dOf w) (wOf w)
  | 0x05 => decodeAdvOp05 (dOf w) (wOf w)
  | 0x06 => decodeAdvOp06 (dOf w) (aOf w) (bOf w) (mOf w) (fOf w)
  | 0x07 => decodeAdvOp07 (dOf w) (aOf w) (immOf w)
  | 0x08 => decodeAdvOp08 (dOf w) (aOf w) (bOf w) (mOf w) (fOf w)
  | 0x09 => decodeAdvOp09 (dOf w) (aOf w) (bOf w) (mOf w) (fOf w)
  | 0x0A => decodeAdvOp0A (dOf w) (aOf w) (bOf w) (mOf w) (fOf w)
  | 0x0B => decodeAdvOp0B (dOf w) (aOf w) (bOf w) (mOf w) (fOf w)
  | 0x0C => decodeAdvOp0C (dOf w) (aOf w) (bOf w) (mOf w) (fOf w)
  | 0x0D => decodeAdvOp0D (dOf w) (aOf w) (bOf w) (mOf w) (fOf w)
  | 0x0E => decodeAdvOp0E (dOf w) (aOf w) (bOf w) (mOf w) (fOf w)
  | _ => .error .reservedOpcode

/-- The checks beyond the fixed bits (R77, R92, R96). -/
def checked : Except Reject Instr → Except Reject Instr
  | .ok i => match i.check with
    | none => .ok i
    | some r => .error r
  | .error r => .error r

/-- The instruction of a word of the semantic half, or why it is none (R96). -/
def decode (w : BitVec 32) : Except Reject Instr := checked (decodeRaw w)

/-- The instruction of a word of the advice half, or why it is none (R288, R289). -/
def decodeAdvice (w : BitVec 32) : Except Reject Instr := checked (decodeAdviceRaw w)

/-- A word from its four bytes, the first at the lowest address (R71). -/
def wordOfBytes (b0 b1 b2 b3 : BitVec 8) : BitVec 32 := b3 ++ b2 ++ b1 ++ b0

/-- The bytes of a word, the first at the lowest address (R71). -/
def byteOfWord (w : BitVec 32) (i : Nat) : BitVec 8 := w.extractLsb' (8 * i) 8

/-- The bits `w` of an instruction, numbered as the opcode table numbers them, laid out in memory and given
to the decoder of the semantic half, which reads every word a hart fetches (R79). -/
def decodeTableWord (nbits w : Nat) : Option Instr :=
  let x := BitVec.ofNat 32 (w % 2 ^ nbits)
  match decode (wordOfBytes (byteOfWord x 0) (byteOfWord x 1) (byteOfWord x 2) (byteOfWord x 3)) with
  | .ok i => some i
  | .error _ => none


/-- The word of an instruction, built from the encoding tables (R73, R74, R80 to R94, R145, R236, R254, R289);
none for an operation or event, which has no word. -/
def encode : Instr → Option (BitVec 32)
  | .sysEcall => some (packR 0#6 0#5 0#5 0#5 0#3 1#8)
  | .sysEbreak => some (packR 0#6 0#5 0#5 0#5 0#3 2#8)
  | .sysEret => some (packR 0#6 0#5 0#5 0#5 0#3 3#8)
  | .sysWfi => some (packR 0#6 0#5 0#5 0#5 0#3 4#8)
  | .sysRefsync a => some (packR 0#6 0#5 a 0#5 0#3 5#8)
  | .aluAdd d a b => some (packR 1#6 d a b 0#3 0#8)
  | .aluSub d a b => some (packR 1#6 d a b 0#3 1#8)
  | .aluAnd d a b => some (packR 1#6 d a b 0#3 2#8)
  | .aluOr d a b => some (packR 1#6 d a b 0#3 3#8)
  | .aluXor d a b => some (packR 1#6 d a b 0#3 4#8)
  | .aluSll d a b => some (packR 1#6 d a b 0#3 5#8)
  | .aluSrl d a b => some (packR 1#6 d a b 0#3 6#8)
  | .aluSra d a b => some (packR 1#6 d a b 0#3 7#8)
  | .aluSlt d a b => some (packR 1#6 d a b 0#3 8#8)
  | .aluSltu d a b => some (packR 1#6 d a b 0#3 9#8)
  | .aluMin d a b => some (packR 1#6 d a b 0#3 10#8)
  | .aluMax d a b => some (packR 1#6 d a b 0#3 11#8)
  | .aluMinu d a b => some (packR 1#6 d a b 0#3 12#8)
  | .aluMaxu d a b => some (packR 1#6 d a b 0#3 13#8)
  | .aluClz d a => some (packR 1#6 d a 0#5 0#3 14#8)
  | .aluPopc d a => some (packR 1#6 d a 0#5 0#3 15#8)
  | .muldivMul d a b => some (packR 2#6 d a b 0#3 0#8)
  | .muldivMulh d a b => some (packR 2#6 d a b 0#3 1#8)
  | .muldivMulhu d a b => some (packR 2#6 d a b 0#3 2#8)
  | .muldivDiv d a b => some (packR 2#6 d a b 0#3 3#8)
  | .muldivDivu d a b => some (packR 2#6 d a b 0#3 4#8)
  | .muldivRem d a b => some (packR 2#6 d a b 0#3 5#8)
  | .muldivRemu d a b => some (packR 2#6 d a b 0#3 6#8)
  | .fpsAdd d a b p => some (packR 3#6 d a b 0#3 (p ++ 0#7))
  | .fpsSub d a b p => some (packR 3#6 d a b 0#3 (p ++ 1#7))
  | .fpsMul d a b p => some (packR 3#6 d a b 0#3 (p ++ 2#7))
  | .fpsDiv d a b p => some (packR 3#6 d a b 0#3 (p ++ 3#7))
  | .fpsSqrt d a p => some (packR 3#6 d a 0#5 0#3 (p ++ 4#7))
  | .fpsFma d a b p => some (packR 3#6 d a b 0#3 (p ++ 5#7))
  | .fpsMin d a b p => some (packR 3#6 d a b 0#3 (p ++ 6#7))
  | .fpsMax d a b p => some (packR 3#6 d a b 0#3 (p ++ 7#7))
  | .fpsCvtOther d a p => some (packR 3#6 d a 0#5 0#3 (p ++ 8#7))
  | .fpsCvtFromint d a p => some (packR 3#6 d a 0#5 0#3 (p ++ 24#7))
  | .fpsCvtFromuint d a p => some (packR 3#6 d a 0#5 0#3 (p ++ 40#7))
  | .fpsCvtToint d a p => some (packR 3#6 d a 0#5 0#3 (p ++ 56#7))
  | .fpsCvtTouint d a p => some (packR 3#6 d a 0#5 0#3 (p ++ 72#7))
  | .fpsCmpEq d a b p => some (packR 3#6 d a b 0#3 (p ++ 9#7))
  | .fpsCmpLt d a b p => some (packR 3#6 d a b 0#3 (p ++ 25#7))
  | .fpsCmpLe d a b p => some (packR 3#6 d a b 0#3 (p ++ 41#7))
  | .fpsClass d a p => some (packR 3#6 d a 0#5 0#3 (p ++ 10#7))
  | .fpsMvCopy d a p => some (packR 3#6 d a 0#5 0#3 (p ++ 11#7))
  | .fpsMvNeg d a p => some (packR 3#6 d a 0#5 0#3 (p ++ 27#7))
  | .fpsMvAbs d a p => some (packR 3#6 d a 0#5 0#3 (p ++ 43#7))
  | .addi d a i => some (packI 4#6 d a i)
  | .andi d a i => some (packI 5#6 d a i)
  | .ori d a i => some (packI 6#6 d a i)
  | .xori d a i => some (packI 7#6 d a i)
  | .slti d a i => some (packI 8#6 d a i)
  | .sltiu d a i => some (packI 9#6 d a i)
  | .shiSlli d a s => some (packI 10#6 d a (0#10 ++ s))
  | .shiSrli d a s => some (packI 10#6 d a (1#10 ++ s))
  | .shiSrai d a s => some (packI 10#6 d a (2#10 ++ s))
  | .lui d w => some (packW 11#6 d w)
  | .auipc d w => some (packW 12#6 d w)
  | .ldsB d a o => some (packL 13#6 d a 0#3 o)
  | .ldsH d a o => some (packL 13#6 d a 1#3 o)
  | .ldsW d a o => some (packL 13#6 d a 2#3 o)
  | .ldsD d a o => some (packL 13#6 d a 3#3 o)
  | .ldsBu d a o => some (packL 13#6 d a 4#3 o)
  | .ldsHu d a o => some (packL 13#6 d a 5#3 o)
  | .ldsWu d a o => some (packL 13#6 d a 6#3 o)
  | .stsB d a o => some (packL 14#6 d a 0#3 o)
  | .stsH d a o => some (packL 14#6 d a 1#3 o)
  | .stsW d a o => some (packL 14#6 d a 2#3 o)
  | .stsD d a o => some (packL 14#6 d a 3#3 o)
  | .brcEq d a o => some (packL 15#6 d a 0#3 o)
  | .brcNe d a o => some (packL 15#6 d a 1#3 o)
  | .brcLt d a o => some (packL 15#6 d a 2#3 o)
  | .brcGe d a o => some (packL 15#6 d a 3#3 o)
  | .brcLtu d a o => some (packL 15#6 d a 4#3 o)
  | .brcGeu d a o => some (packL 15#6 d a 5#3 o)
  | .jal d w => some (packW 16#6 d w)
  | .jalr d a i => some (packI 17#6 d a i)
  | .mark a i => some (packI 18#6 0#5 a i)
  | .fenceSv => some (packR 19#6 0#5 0#5 0#5 0#3 0#8)
  | .fenceVs => some (packR 19#6 0#5 0#5 0#5 0#3 1#8)
  | .fenceVv => some (packR 19#6 0#5 0#5 0#5 0#3 2#8)
  | .fenceAll => some (packR 19#6 0#5 0#5 0#5 0#3 3#8)
  | .csrRd d c => some (packI 20#6 d 0#5 (0#4 ++ c))
  | .csrWr d a c => some (packI 20#6 d a (1#4 ++ c))
  | .csrSet d a c => some (packI 20#6 d a (2#4 ++ c))
  | .csrClr d a c => some (packI 20#6 d a (3#4 ++ c))
  | .vcfgSetvl d a b => some (packR 32#6 d a b 0#3 0#8)
  | .vcfgSetvlrun d a b k => some (packR 32#6 d a b (0#1 ++ k) 1#8)
  | .setvli d a v => some (packI 33#6 d a (0#5 ++ v))
  | .vintAdd d a b m => some (packR 34#6 d a b m 0#8)
  | .vintSub d a b m => some (packR 34#6 d a b m 1#8)
  | .vintMul d a b m => some (packR 34#6 d a b m 3#8)
  | .vintMulh d a b m => some (packR 34#6 d a b m 4#8)
  | .vintMulhu d a b m => some (packR 34#6 d a b m 5#8)
  | .vintDiv d a b m => some (packR 34#6 d a b m 6#8)
  | .vintDivu d a b m => some (packR 34#6 d a b m 7#8)
  | .vintRem d a b m => some (packR 34#6 d a b m 8#8)
  | .vintRemu d a b m => some (packR 34#6 d a b m 9#8)
  | .vintAnd d a b m => some (packR 34#6 d a b m 10#8)
  | .vintOr d a b m => some (packR 34#6 d a b m 11#8)
  | .vintXor d a b m => some (packR 34#6 d a b m 12#8)
  | .vintSll d a b m => some (packR 34#6 d a b m 13#8)
  | .vintSrl d a b m => some (packR 34#6 d a b m 14#8)
  | .vintSra d a b m => some (packR 34#6 d a b m 15#8)
  | .vintMin d a b m => some (packR 34#6 d a b m 16#8)
  | .vintMinu d a b m => some (packR 34#6 d a b m 17#8)
  | .vintMax d a b m => some (packR 34#6 d a b m 18#8)
  | .vintMaxu d a b m => some (packR 34#6 d a b m 19#8)
  | .vintSadd d a b m => some (packR 34#6 d a b m 20#8)
  | .vintSaddu d a b m => some (packR 34#6 d a b m 21#8)
  | .vintSsub d a b m => some (packR 34#6 d a b m 22#8)
  | .vintSsubu d a b m => some (packR 34#6 d a b m 23#8)
  | .vintMacc d a b m => some (packR 34#6 d a b m 24#8)
  | .vintMerge d a b m => some (packR 34#6 d a b m 25#8)
  | .vintMv d a m => some (packR 34#6 d a 0#5 m 26#8)
  | .vintxAdd d a b m => some (packR 35#6 d a b m 0#8)
  | .vintxSub d a b m => some (packR 35#6 d a b m 1#8)
  | .vintxRsub d a b m => some (packR 35#6 d a b m 2#8)
  | .vintxMul d a b m => some (packR 35#6 d a b m 3#8)
  | .vintxMulh d a b m => some (packR 35#6 d a b m 4#8)
  | .vintxMulhu d a b m => some (packR 35#6 d a b m 5#8)
  | .vintxDiv d a b m => some (packR 35#6 d a b m 6#8)
  | .vintxDivu d a b m => some (packR 35#6 d a b m 7#8)
  | .vintxRem d a b m => some (packR 35#6 d a b m 8#8)
  | .vintxRemu d a b m => some (packR 35#6 d a b m 9#8)
  | .vintxAnd d a b m => some (packR 35#6 d a b m 10#8)
  | .vintxOr d a b m => some (packR 35#6 d a b m 11#8)
  | .vintxXor d a b m => some (packR 35#6 d a b m 12#8)
  | .vintxSll d a b m => some (packR 35#6 d a b m 13#8)
  | .vintxSrl d a b m => some (packR 35#6 d a b m 14#8)
  | .vintxSra d a b m => some (packR 35#6 d a b m 15#8)
  | .vintxMin d a b m => some (packR 35#6 d a b m 16#8)
  | .vintxMinu d a b m => some (packR 35#6 d a b m 17#8)
  | .vintxMax d a b m => some (packR 35#6 d a b m 18#8)
  | .vintxMaxu d a b m => some (packR 35#6 d a b m 19#8)
  | .vintxSadd d a b m => some (packR 35#6 d a b m 20#8)
  | .vintxSaddu d a b m => some (packR 35#6 d a b m 21#8)
  | .vintxSsub d a b m => some (packR 35#6 d a b m 22#8)
  | .vintxSsubu d a b m => some (packR 35#6 d a b m 23#8)
  | .vintxMacc d a b m => some (packR 35#6 d a b m 24#8)
  | .vintxMerge d a b m => some (packR 35#6 d a b m 25#8)
  | .vintxMv d b m => some (packR 35#6 d 0#5 b m 26#8)
  | .vintiAdd d a i m => some (packR 36#6 d a i m 0#8)
  | .vintiRsub d a i m => some (packR 36#6 d a i m 2#8)
  | .vintiAnd d a i m => some (packR 36#6 d a i m 10#8)
  | .vintiOr d a i m => some (packR 36#6 d a i m 11#8)
  | .vintiXor d a i m => some (packR 36#6 d a i m 12#8)
  | .vintiSll d a i m => some (packR 36#6 d a i m 13#8)
  | .vintiSrl d a i m => some (packR 36#6 d a i m 14#8)
  | .vintiSra d a i m => some (packR 36#6 d a i m 15#8)
  | .vintiSadd d a i m => some (packR 36#6 d a i m 20#8)
  | .vintiSaddu d a i m => some (packR 36#6 d a i m 21#8)
  | .vintiMerge d a i m => some (packR 36#6 d a i m 25#8)
  | .vintiMv d i m => some (packR 36#6 d 0#5 i m 26#8)
  | .vfpAdd d a b m => some (packR 37#6 d a b m 0#8)
  | .vfpSub d a b m => some (packR 37#6 d a b m 1#8)
  | .vfpMul d a b m => some (packR 37#6 d a b m 2#8)
  | .vfpDiv d a b m => some (packR 37#6 d a b m 3#8)
  | .vfpSqrt d a m => some (packR 37#6 d a 0#5 m 4#8)
  | .vfpMin d a b m => some (packR 37#6 d a b m 5#8)
  | .vfpMax d a b m => some (packR 37#6 d a b m 6#8)
  | .vfpMacc d a b m => some (packR 37#6 d a b m 7#8)
  | .vfpNmacc d a b m => some (packR 37#6 d a b m 8#8)
  | .vfpExp2 d a m => some (packR 37#6 d a 0#5 m 9#8)
  | .vfpSgnj d a b m => some (packR 37#6 d a b m 10#8)
  | .vfpSgnjn d a b m => some (packR 37#6 d a b m 74#8)
  | .vfpSgnjx d a b m => some (packR 37#6 d a b m 138#8)
  | .vfpClass d a m => some (packR 37#6 d a 0#5 m 11#8)
  | .vfpMv d a m => some (packR 37#6 d a 0#5 m 12#8)
  | .vfpxAdd d a b m => some (packR 38#6 d a b m 0#8)
  | .vfpxSub d a b m => some (packR 38#6 d a b m 1#8)
  | .vfpxMul d a b m => some (packR 38#6 d a b m 2#8)
  | .vfpxDiv d a b m => some (packR 38#6 d a b m 3#8)
  | .vfpxMin d a b m => some (packR 38#6 d a b m 5#8)
  | .vfpxMax d a b m => some (packR 38#6 d a b m 6#8)
  | .vfpxMacc d a b m => some (packR 38#6 d a b m 7#8)
  | .vfpxNmacc d a b m => some (packR 38#6 d a b m 8#8)
  | .vfpxSgnj d a b m => some (packR 38#6 d a b m 10#8)
  | .vfpxSgnjn d a b m => some (packR 38#6 d a b m 74#8)
  | .vfpxSgnjx d a b m => some (packR 38#6 d a b m 138#8)
  | .vfpxMv d b m => some (packR 38#6 d 0#5 b m 12#8)
  | .vcvtFf d a m s t => some (packR 39#6 d a 0#5 m (s ++ t ++ 0#4))
  | .vcvtIf d a m s t => some (packR 39#6 d a 0#5 m (s ++ t ++ 1#4))
  | .vcvtFi d a m t => some (packR 39#6 d a 0#5 m (0#1 ++ t ++ 2#4))
  | .vcvtNarrow d a m t => some (packR 39#6 d a 0#5 m (0#1 ++ t ++ 3#4))
  | .vcvtWiden d a m t => some (packR 39#6 d a 0#5 m (0#1 ++ t ++ 4#4))
  | .vcvtDeq d a m t => some (packR 39#6 d a 0#5 m (0#1 ++ t ++ 5#4))
  | .vcvtQuant d a m s t => some (packR 39#6 d a 0#5 m (s ++ t ++ 6#4))
  | .vcvtQmv d a m => some (packR 39#6 (0#2 ++ d) a 0#5 m 7#8)
  | .vcvtQrd d a m => some (packR 39#6 d (0#2 ++ a) 0#5 m 8#8)
  | .vcvtDs8e d a m t => some (packR 39#6 d a 0#5 m (0#1 ++ t ++ 9#4))
  | .vcvtDs8d d a m => some (packR 39#6 d a 0#5 m 10#8)
  | .vredSum d a b m q => some (packR 40#6 d a b m (q ++ 0#7))
  | .vredMin d a b m q => some (packR 40#6 d a b m (q ++ 1#7))
  | .vredMinu d a b m q => some (packR 40#6 d a b m (q ++ 2#7))
  | .vredMax d a b m q => some (packR 40#6 d a b m (q ++ 3#7))
  | .vredMaxu d a b m q => some (packR 40#6 d a b m (q ++ 4#7))
  | .vredAnd d a b m q => some (packR 40#6 d a b m (q ++ 5#7))
  | .vredOr d a b m q => some (packR 40#6 d a b m (q ++ 6#7))
  | .vredXor d a b m q => some (packR 40#6 d a b m (q ++ 7#7))
  | .vredFsumo d a b m q => some (packR 40#6 d a b m (q ++ 8#7))
  | .vredFsumt d a b m q => some (packR 40#6 d a b m (q ++ 9#7))
  | .vredFmin d a b m q => some (packR 40#6 d a b m (q ++ 10#7))
  | .vredFmax d a b m q => some (packR 40#6 d a b m (q ++ 11#7))
  | .vpermSlup d a b m => some (packR 41#6 d a b m 0#8)
  | .vpermSldn d a b m => some (packR 41#6 d a b m 1#8)
  | .vpermGather d a b m => some (packR 41#6 d a b m 2#8)
  | .vpermCompress d a m => some (packR 41#6 d a 0#5 m 3#8)
  | .vpermExpand d a m => some (packR 41#6 d a 0#5 m 4#8)
  | .vpermXchg d a b m => some (packR 41#6 d a b m 5#8)
  | .vpermMvxs d a b => some (packR 41#6 d a b 0#3 6#8)
  | .vpermMvsx d b m => some (packR 41#6 d 0#5 b m 7#8)
  | .vpermBcast d a b m => some (packR 41#6 d a b m 8#8)
  | .vmaskEq d a b m x => some (packR 42#6 (0#2 ++ d) a b m (x ++ 0#7))
  | .vmaskNe d a b m x => some (packR 42#6 (0#2 ++ d) a b m (x ++ 1#7))
  | .vmaskLt d a b m x => some (packR 42#6 (0#2 ++ d) a b m (x ++ 2#7))
  | .vmaskLtu d a b m x => some (packR 42#6 (0#2 ++ d) a b m (x ++ 3#7))
  | .vmaskLe d a b m x => some (packR 42#6 (0#2 ++ d) a b m (x ++ 4#7))
  | .vmaskLeu d a b m x => some (packR 42#6 (0#2 ++ d) a b m (x ++ 5#7))
  | .vmaskGt d a b m x => some (packR 42#6 (0#2 ++ d) a b m (x ++ 6#7))
  | .vmaskFeq d a b m x => some (packR 42#6 (0#2 ++ d) a b m (x ++ 7#7))
  | .vmaskFlt d a b m x => some (packR 42#6 (0#2 ++ d) a b m (x ++ 8#7))
  | .vmaskFle d a b m x => some (packR 42#6 (0#2 ++ d) a b m (x ++ 9#7))
  | .vmaskAnd d a b => some (packR 42#6 (0#2 ++ d) (0#2 ++ a) (0#2 ++ b) 0#3 10#8)
  | .vmaskOr d a b => some (packR 42#6 (0#2 ++ d) (0#2 ++ a) (0#2 ++ b) 0#3 11#8)
  | .vmaskXor d a b => some (packR 42#6 (0#2 ++ d) (0#2 ++ a) (0#2 ++ b) 0#3 12#8)
  | .vmaskAndn d a b => some (packR 42#6 (0#2 ++ d) (0#2 ++ a) (0#2 ++ b) 0#3 13#8)
  | .vmaskPopc d a m => some (packR 42#6 d (0#2 ++ a) 0#5 m 14#8)
  | .vmaskFirst d a m => some (packR 42#6 d (0#2 ++ a) 0#5 m 15#8)
  | .vmaskConfl d a m => some (packR 42#6 (0#2 ++ d) a 0#5 m 16#8)
  | .vidx d s t => some (packW 43#6 d (s ++ t))
  | .vldUnit d a m => some (packR 44#6 d a 0#5 m 0#8)
  | .vldStr d a b m => some (packR 44#6 d a b m 1#8)
  | .vldIdx d a b m w => some (packR 44#6 d a b m (0#2 ++ w ++ 2#4))
  | .vldSeg d a m n => some (packR 44#6 d a 0#5 m (0#1 ++ n ++ 3#4))
  | .vldFf d a m => some (packR 44#6 d a 0#5 m 4#8)
  | .vldTens d a t m => some (packR 44#6 d a (0#1 ++ t) m 5#8)
  | .vldQld d a => some (packR 44#6 (0#2 ++ d) a 0#5 0#3 6#8)
  | .vstUnit d a m => some (packR 45#6 d a 0#5 m 0#8)
  | .vstStr d a b m => some (packR 45#6 d a b m 1#8)
  | .vstIdx d a b m w => some (packR 45#6 d a b m (0#2 ++ w ++ 2#4))
  | .vstSeg d a m n => some (packR 45#6 d a 0#5 m (0#1 ++ n ++ 3#4))
  | .vstTens d a t m => some (packR 45#6 d a (0#1 ++ t) m 5#8)
  | .vstRed d a b m x o => some (packR 45#6 d a b m (x ++ o ++ 7#4))
  | .vxclG d b m => some (packR 46#6 d 0#5 b m 0#8)
  | .vxclS d b m => some (packR 46#6 d 0#5 b m 1#8)
  | .mopOp d a b m r f => some (packR 48#6 (0#2 ++ d) a b m (r ++ 0#1 ++ f))
  | .mopOpn d a b m r f => some (packR 48#6 (0#2 ++ d) a b m (r ++ 1#1 ++ f))
  | .zopCfg d a => some (packR 49#6 (0#2 ++ d) a 0#5 0#3 0#8)
  | .zopEnable => some (packR 49#6 0#5 0#5 0#5 0#3 1#8)
  | .zopDisable => some (packR 49#6 0#5 0#5 0#5 0#3 2#8)
  | .zopZero d => some (packR 49#6 (0#2 ++ d) 0#5 0#5 0#3 3#8)
  | .zopRd d a b m s c l => some (packR 49#6 (0#2 ++ d) a b m (0#1 ++ s ++ c ++ l ++ 4#4))
  | .zopWr d a b m c l => some (packR 49#6 (0#2 ++ d) a b m (0#2 ++ c ++ l ++ 5#4))
  | .zopPatch d a b m x c l => some (packR 49#6 (0#2 ++ d) a b m (x ++ 0#1 ++ c ++ l ++ 6#4))
  | .zopScale d a m => some (packR 49#6 (0#2 ++ d) a 0#5 m 7#8)
  | .zopMask d a k z => some (packR 49#6 (0#2 ++ d) a (0#3 ++ k) 0#3 (0#3 ++ z ++ 8#4))
  | .mskLd k a => some (packR 50#6 (0#3 ++ k) a 0#5 0#3 0#8)
  | .mskCls d a k => some (packR 50#6 d a (0#3 ++ k) 0#3 1#8)
  | .mskGen d a k => some (packR 50#6 (0#2 ++ d) a (0#3 ++ k) 0#3 2#8)
  | .mskCnt d s => some (packR 50#6 d 0#5 (0#3 ++ s) 0#3 3#8)
  | .tamw k a => some (packR 51#6 (0#1 ++ k) a 0#5 0#3 0#8)
  | .engCpy d a b k x j => some (packR 52#6 d a b k (x ++ j ++ 0#4))
  | .engTcopy d a b k x j => some (packR 52#6 d a b k (x ++ j ++ 1#4))
  | .engRgath d a b k x j => some (packR 52#6 d a b k (x ++ j ++ 2#4))
  | .engRcopy d a b k x j => some (packR 52#6 d a b k (x ++ j ++ 3#4))
  | .engPut d a b k x j => some (packR 52#6 d a b k (x ++ j ++ 4#4))
  | .engGet d a b k x j => some (packR 52#6 d a b k (x ++ j ++ 5#4))
  | .engSig d a b k x j => some (packR 52#6 d a b k (x ++ j ++ 6#4))
  | .engLaunch d a b k x j => some (packR 52#6 d a b k (x ++ j ++ 7#4))
  | .syncTlwait a k => some (packR 53#6 0#5 a 0#5 k 0#8)
  | .syncTlwaitIc a b => some (packR 53#6 1#5 a b 0#3 0#8)
  | .syncTlread d k => some (packR 53#6 d 0#5 0#5 k 1#8)
  | .syncTlreadIc d b => some (packR 53#6 d 1#5 b 0#3 1#8)
  | .syncGbar => some (packR 53#6 0#5 0#5 0#5 0#3 2#8)
  | .syncQdrain q => some (packR 53#6 (0#1 ++ q) 0#5 0#5 0#3 3#8)
  | .syncSheaf => some (packR 53#6 0#5 0#5 0#5 0#3 4#8)
  | .syncBtinv => some (packR 53#6 0#5 0#5 0#5 0#3 5#8)
  | .dbgTrmark a => some (packR 54#6 0#5 a 0#5 0#3 0#8)
  | .dbgWprel a => some (packR 54#6 0#5 a 0#5 0#3 1#8)
  | .advAwait i => some (packI 1#6 0#5 0#5 i)
  | .advBr d a c o => some (packL 2#6 (0#1 ++ d) (0#1 ++ a) c o)
  | .advLoop d o => some (packL 3#6 (0#1 ++ d) 0#5 0#3 o)
  | .advSet d w => some (packW 4#6 (0#1 ++ d) w)
  | .advIns d w => some (packW 5#6 (0#1 ++ d) w)
  | .advAdd d a b => some (packR 6#6 (0#1 ++ d) (0#1 ++ a) (0#1 ++ b) 0#3 0#8)
  | .advAddi d a i => some (packI 7#6 (0#1 ++ d) (0#1 ++ a) i)
  | .advMv d a => some (packR 8#6 (0#1 ++ d) (0#1 ++ a) 0#5 0#3 0#8)
  | .advMvArg d => some (packR 8#6 (0#1 ++ d) 0#5 0#5 0#3 1#8)
  | .advMvId d => some (packR 8#6 (0#1 ++ d) 0#5 0#5 0#3 2#8)
  | .advPf a b => some (packR 9#6 0#5 (0#1 ++ a) (0#1 ++ b) 0#3 0#8)
  | .advPfx a b w => some (packR 10#6 0#5 (0#1 ++ a) (0#1 ++ b) 0#3 (0#6 ++ w))
  | .advPlace a b c => some (packR 11#6 0#5 (0#1 ++ a) (0#1 ++ b) 0#3 (0#6 ++ c))
  | .advPrio a => some (packR 12#6 0#5 (0#1 ++ a) 0#5 0#3 0#8)
  | .advOrder a => some (packR 13#6 0#5 (0#1 ++ a) 0#5 0#3 0#8)
  | .advOrderShare a => some (packR 13#6 0#5 (0#1 ++ a) 0#5 0#3 1#8)
  | .advHalt => some (packR 14#6 0#5 0#5 0#5 0#3 0#8)
  | .fcsrWrite _ _ _ | .fcsrRead _ | .srseedWrite _ _ _ | .srseedRead _ | .btcfgWrite _ _ _ _ | .mskshapeWrite _ _ _ => none
  | .docnWrite _ _ _ | .zstateWrite _ _ _ | .zstateLoad _ | .zstateZclr _ | .hstatusWrite _ _ _ | .wpctlWrite _ _ _ _ => none
  | .commitSliceAcquire _ | .sheafCommit _ | .soloTokenGrant | .trapLanding _ | .holdStop _ | .tlwaitResume _ => none
  | .barrierRelease _ | .qdrainDone _ | .wfiWake _ | .qdeadTimeout _ | .loadDataDelivery _ | .hartEnd _ => none
  | .lqtailWrite _ _ _ | .lqcfgWrite _ _ _ | .dispatchPacket _ _ | .gangPlace _ _ _ | .gangRestore _ _ | .grantPost _ _ _ => none
  | .preemptRequest _ _ | .preemptStarvationTimeout _ | .preemptSplitTimeout _ | .preemptionLanding _ | .channelBind _ _ | .engineCommandStart _ => none
  | .engineElementApply _ _ _ | .remoteAcknowledge _ _ _ _ | .remotePutArrival _ | .remoteGetArrival _ | .remoteRcopyArrival _ | .remoteSigArrival _ => none
  | .commandSeal _ _ | .packageDown _ | .requestArrival _ | .requestGrant _ | .budgetPeriodStart | .refreshTick _ => none
  | .refreshEnd _ | .scrubPass _ | .correctedError _ _ | .uncorrectableError _ _ | .pageRetirement _ | .adviceLineFetch _ => none
  | .prefetchAction _ | .indexedPrefetchAction _ | .placementAction _ | .priorityAction _ | .channelOrderAction _ | .rdmaWrite _ _ _ => none
  | .rdmaWriteImm _ _ _ _ | .rdmaRead _ _ _ | .rdmaUnsupported _ | .mread _ _ _ | .mwrite _ _ _ | .imgload _ _ => none
  | .launch _ _ _ | .characterisationLaunch _ _ _ | .managementWrite _ _ | .shootdownGo | .shootdownDone | .dumprelWrite _ => none
  | .grsplitWrite _ _ | .pkgnumWrite _ | .podcfgWrite _ | .budgetRegisterWrite _ _ _ | .registrationWrite _ _ | .revocationDone _ => none
  | .trstateWrite _ _ | .trdbaseWrite _ _ | .trdtailWrite _ _ | .traceDrainLine _ | .triggerStart _ _ | .triggerFreeze _ _ => none
  | .throttleOn | .throttleClear | .clusterForcedGate _ | .clusterGate _ | .clusterUngateDone _ | .fatalError _ => none
  | .boundaryRetrain _ | .dawn | .morning | .noon | .illegalInstructionWord _ | .queuedInstructionCompletion _ => none
  | .instructionFetchReturn _ | .systemCoreAnswer _ _ | .systemCoreWrite _ _ | .pageAllocation _ _ _ _ _ | .debuggerAttach _ | .debuggerDetach _ => none
  | .clusterUngate _ => none

end

end Sys2Proof
end

