-- ==== Sys2Proof/Config.lean ====
section
/-! DEFINITION. What a part fixes and the free values: constants without a body stand for what the manual leaves
open, so no proof can rest on a particular value of one. -/

namespace Sys2Proof.Config

/-- The n-th free choice between two permitted outcomes: a byte seen old or new (R128, R169, R170), which
write of an unordered pair is left (R169).  Logged as assumption 2. -/
opaque coin : Nat → Bool

/-- The bits of a tile cell whose contents are not preserved (R204).  Logged as assumption 2. -/
opaque freeCell : Nat → BitVec 32

/-- The fused serial number of the package (R119, R394).  Logged as assumption 7. -/
opaque serial : BitVec 64

/-- The phase of each refresh sequencer at Noon, taken modulo 586 (R352).  Logged as assumption 6. -/
opaque refreshPhase : Nat → Nat

/-- The outcomes of calibration and memory initialisation at Dawn and Morning: 0 for none failed, else the
CODE of PKGSTAT (R394, R395).  Logged as assumption 9. -/
opaque bringUpFailure : Nat

/-- The parts of the fatal dump whose layout the manual does not give (R324): the header of 4 KiB from the cause, the
commit stamp, the count of hart entries and TRUNC; the state of a die's arbiter slice from its die, holder, requests and the
token; and the header of an entry from its thread and the lengths of its parts.  Byte `n` of each.  Logged as
assumption 10. -/
opaque dumpHeader : Nat → Nat → Nat → Bool → Nat → BitVec 8
opaque dumpArbiter : List Nat → List (BitVec 8)
opaque dumpEntry : Nat → List Nat → Nat → BitVec 8

/-- Number of dies, clusters, pseudo-channels and granary banks of the package (R1, R6) and of a 960-D (R3). -/
def dies (bare : Bool) : Nat := if bare then 1 else 4
def clusters (bare : Bool) : Nat := if bare then 32 else 128
def pseudoChannels (bare : Bool) : Nat := if bare then 192 else 768
def banks (bare : Bool) : Nat := if bare then 256 else 1024
/-- Bytes of HBM4E of the part (R342). -/
def hbmBytes (bare : Bool) : Nat := if bare then 0x20_0000_0000 else 0x80_0000_0000

end Sys2Proof.Config
end

