-- ==== Sys2Proof/Machine/FMap.lean ====
section
/-! DEFINITION. The one sparse store of the model: a list of key and value pairs in canonical form, keys strictly
rising and no entry equal to what an unlisted key reads as.  Memory, register files, tiles and the
tables of the package are all held in it. -/

namespace Sys2Proof.Machine

/-- A sparse store: pairs of a key and a value, keys strictly rising. -/
abbrev FMap (β : Type) := List (Nat × β)

/-- The value listed at a key. -/
def ffind {β : Type} : FMap β → Nat → Option β
  | [], _ => none
  | (k, v) :: r, n => if n = k then some v else ffind r n

/-- The value at a key, where an unlisted key reads as `d`. -/
def fget {β : Type} (d : β) (m : FMap β) (n : Nat) : β := (ffind m n).getD d

/-- Lists the value at a key. -/
def fins {β : Type} : FMap β → Nat → β → FMap β
  | [], n, v => [(n, v)]
  | (k, w) :: r, n, v =>
    if n = k then (n, v) :: r else if n < k then (n, v) :: (k, w) :: r else (k, w) :: fins r n v

/-- Removes the entry at a key. -/
def fdel {β : Type} (m : FMap β) (n : Nat) : FMap β := m.filter (fun e => !decide (e.1 = n))

/-- Writes a value at a key, keeping the canonical form for the default `d`. -/
def fset {β : Type} [DecidableEq β] (d : β) (m : FMap β) (n : Nat) (v : β) : FMap β :=
  if v = d then fdel m n else fins m n v

/-- Removes every entry whose key lies in `lo` to `lo + len − 1`: that range reads as the default. -/
def fclear {β : Type} (m : FMap β) (lo len : Nat) : FMap β :=
  m.filter (fun e => !(decide (lo ≤ e.1) && decide (e.1 < lo + len)))

/-- Writes a list of values at consecutive keys. -/
def fsetMany {β : Type} [DecidableEq β] (d : β) (m : FMap β) (n : Nat) : List β → FMap β
  | [] => m
  | v :: vs => fsetMany d (fset d m n v) (n + 1) vs

/-- The values at `len` consecutive keys. -/
def fgetMany {β : Type} (d : β) (m : FMap β) (n : Nat) : Nat → List β
  | 0 => []
  | len + 1 => fget d m n :: fgetMany d m (n + 1) len

/-- Keys strictly rising, all at least `lo`. -/
def fsorted {β : Type} : Nat → FMap β → Bool
  | _, [] => true
  | lo, (k, _) :: r => decide (lo ≤ k) && fsorted (k + 1) r

/-- The canonical form: keys strictly rising and no entry equal to the default. -/
def fwf {β : Type} [DecidableEq β] (d : β) (m : FMap β) : Bool :=
  fsorted 0 m && m.all (fun e => !decide (e.2 = d))

/-- Places an element in a sorted list, before the first element it may stand before. -/
def insertBy {β : Type} (r : β → β → Bool) (x : β) : List β → List β
  | [] => [x]
  | y :: ys => if r x y then x :: y :: ys else y :: insertBy r x ys

/-- A list sorted by an order; elements the order does not separate keep their order. -/
def sortBy {β : Type} (r : β → β → Bool) (l : List β) : List β := l.foldr (insertBy r) []

/-- The little-endian number of a list of bytes (R9). -/
def leNat : List Byte → Nat
  | [] => 0
  | b :: bs => b.toNat + 256 * leNat bs

/-- The `n` bytes of a number, little-endian (R9). -/
def leBytes : Nat → Nat → List Byte
  | 0, _ => []
  | n + 1, x => BitVec.ofNat 8 x :: leBytes n (x / 256)

/-- Bits `hi` down to `lo` of a number (R8). -/
def bits (x hi lo : Nat) : Nat := x / 2 ^ lo % 2 ^ (hi + 1 - lo)

/-- Bit `i` of a number. -/
def bit (x i : Nat) : Bool := Nat.testBit x i

/-- `ceil(a / b)`. -/
def ceilDiv (a b : Nat) : Nat := (a + b - 1) / b

/-- The two's complement reading of the low `w` bits of a number (R53). -/
def toSigned (w x : Nat) : Int :=
  let y := x % 2 ^ w
  if 2 * y < 2 ^ w then (y : Int) else (y : Int) - (2 ^ w : Nat)

/-- A number wrapped to `w` bits (R53). -/
def wrap (w : Nat) (x : Int) : Nat := (x % ((2 ^ w : Nat) : Int)).toNat

/-- A number clamped to `lo` to `hi`. -/
def clampInt (x lo hi : Int) : Int := if x < lo then lo else if hi < x then hi else x

end Sys2Proof.Machine
end

