-- ==== Sys2Proof/Machine/State.lean ====
section
/-! DEFINITION. The state of the package and its harts as plain data, the reasons a step can stop, and the state
right after power-on. -/

namespace Sys2Proof.Machine

/-- Why the machine stops. -/
inductive Fault where
  /-- Raised by every instruction of the semantic half when the package runs no hart that could execute it.
  Safe: no instruction executes without a hart (R14, R22). -/
  | noHart
  deriving DecidableEq, Repr

/-- Why an instruction has no meaning here. -/
inductive Refusal where
  /-- Raised by an arm of `exec` that has no meaning yet.  Safe: the machine stops. -/
  | notModelled (mnemonic : String)
  deriving DecidableEq, Repr

/-! ### Grants and the checkpointed state of a hart -/

/-- The grant of a hart (R16, R17, R331): 1 or 2 quarters, or 4 for a cluster grant of `clusters` clusters; the
lowest physical cluster, the first quarter, and the dies held. -/
structure Grant where
  quarters : Nat
  clusters : Nat
  base     : Nat
  quarter  : Nat
  dies     : List Nat
  deriving DecidableEq, Repr

/-- The state of a hart that a sheaf checkpoints and a squash restores (R27, R32, R45).  Registers are
sparse: `v` and `q` hold byte b of register n at n × 2^17 + b, `m` holds bit e of mn at n × 2^21 + e, `z` the cell
(row, col) of tile n at (n × 64 + row) × 8192 + col, `tam` and `mp` byte b of register n at n × 128 + b
and n × 72 + b.  An unlisted place reads 0, but for m0 and x0, which are not held. -/
structure Arch where
  pc    : W64
  x     : FMap W64
  v     : FMap Byte
  m     : FMap Bool
  q     : FMap Byte
  z     : FMap W32
  tam   : FMap Byte
  mp    : FMap Byte
  csr   : FMap W64
  grant : Grant
  stripPc   : W64                -- the last strip-opening instruction, or the entry PC (R308)
  nextSplit : Nat                -- split index of the next sheaf that no strip-opening instruction opens (R266)
  bySplit   : Bool               -- that sheaf begins at a forced split point (R307)
  deriving DecidableEq, Repr

/-! ### Traps and queued work -/

/-- A trap before it lands (R307, R308).  `seq` is the place of its instruction in its sheaf; `opener` says that the
instruction is strip-opening (R147). -/
structure Trap where
  cause   : Nat
  kind    : Nat
  tpc     : W64
  telem   : W64
  tlane   : W64
  tval    : W64
  seq     : Nat
  opener  : Bool
  deriving DecidableEq, Repr

/-- The integer element operations of VINT, VINTX and VINTI (R177, R178). -/
inductive IntFn where
  | add | sub | rsub | mul | mulh | mulhu | div | divu | rem | remu | and | or | xor | sll | srl | sra
  | min | minu | max | maxu | sadd | saddu | ssub | ssubu | macc | merge | mv
  deriving DecidableEq, Repr

/-- The floating element operations of VFP and VFPX (R180). -/
inductive FpFn where
  | add | sub | mul | div | sqrt | min | max | macc | nmacc | exp2 | sgnj | sgnjn | sgnjx | class_ | mv
  deriving DecidableEq, Repr

/-- The conversions (R181 to R187). -/
inductive CvtFn where
  | ff | int | fi | narrow | widen | deq | quant | qmv | qrd | ds8e | ds8d
  deriving DecidableEq, Repr

/-- The reductions to a scalar (R189). -/
inductive RedFn where
  | sum | min | minu | max | maxu | and | or | xor | fsumo | fsumt | fmin | fmax
  deriving DecidableEq, Repr

/-- The permutations (R191 to R195). -/
inductive PermFn where
  | slup | sldn | gather | compress | expand | xchg | mvxs | mvsx | bcast
  deriving DecidableEq, Repr

/-- The compares (R196). -/
inductive CmpFn where
  | eq | ne | lt | ltu | le | leu | gt | feq | flt | fle
  deriving DecidableEq, Repr

/-- The mask logic (R197). -/
inductive MaskFn where
  | and | or | xor | andn
  deriving DecidableEq, Repr

/-- The operations of reductions at memory (R91, R238). -/
inductive AluOp where
  | add | min | max | and | or | xor
  deriving DecidableEq, Repr

/-- The element types of reductions at memory (R164, R248). -/
inductive AluType where
  | int32 (signed : Bool) | int64 (signed : Bool) | fp32 | bf16
  deriving DecidableEq, Repr

/-- The B operand of a vector instruction: a register, or a scalar or immediate it carries (R23). -/
inductive VSrc where
  | vec (n : Nat) | scal (x : W64) | imm (i : Int)
  deriving DecidableEq, Repr

/-- The addressing forms of vector memory accesses (R156, R162, R164). -/
inductive MemForm where
  | unit | str (stride : W64) | idx (vb ow : Nat) | seg (nf : Nat) | ff | tens (tam : Nat)
  deriving DecidableEq, Repr

/-- What an instruction in the VIQ or MQ does, with the scalar operands it carries (R22, R23). -/
inductive VOp where
  | strip
  | int (f : IntFn) (d a : Nat) (b : VSrc) (m : Nat)
  | fp (f : FpFn) (d a : Nat) (b : VSrc) (m : Nat)
  | cvt (f : CvtFn) (d a m s t : Nat)
  | red (f : RedFn) (d a b m q : Nat)
  | perm (f : PermFn) (d a b : Nat) (x : W64) (m : Nat)
  | cmp (f : CmpFn) (d a : Nat) (b : VSrc) (m : Nat)
  | mlogic (f : MaskFn) (d a b : Nat)
  | popc (a m : Nat)
  | first (a m : Nat)
  | confl (d a m : Nat)
  | vidx (d : Nat) (start : Int) (step : Int)
  | load (f : MemForm) (d : Nat) (base : W64) (m : Nat)
  | store (f : MemForm) (d : Nat) (base : W64) (m : Nat)
  | qld (d : Nat) (base : W64)
  | redst (o : Nat) (idx : Option Nat) (d : Nat) (base : W64) (m : Nat)
  | vxcl (store : Bool) (d b m : Nat)
  | tamw (k : Nat) (base : W64)
  | mop (neg : Bool) (d a b m r f : Nat)
  | zcfg (d : Nat) (val : W64)
  | zenable
  | zdisable
  | zzero (d : Nat)
  | zrd (d a : Nat) (start : W64) (m s c l : Nat)
  | zwr (d a : Nat) (start : W64) (m c l : Nat)
  | zpatch (d a : Nat) (start : W64) (m x c l : Nat)
  | zscale (d a m : Nat)
  | zmask (d : Nat) (pos : W64) (k z : Nat)
  | mskld (k : Nat) (base : W64)
  | mskcls (pos : W64) (k : Nat)
  | mskgen (d : Nat) (pos : W64) (k : Nat)
  | mskcnt (sel : Nat)
  | trmark (x : W64)
  deriving DecidableEq, Repr

/-- The two in-order instruction queues (R22).  Their entries stand in one list in program order. -/
inductive QUnit where
  | viq | mq
  deriving DecidableEq, Repr

/-- A queued instruction with the values it carries (R22, R23): `x`, `csr` and `grant` as they stand at its place in
program order, the fence epochs, whether its sheaf is the younger one, what its sheaf had reserved once it was placed (R263, R321), whether the
supervisor's open sheaf made it (R322), the register a BQ result goes to, and, once it has asked for what it reads, the granules on their way with the ck in which it asked (R347). -/
structure QEntry where
  unit  : QUnit
  op    : VOp
  word  : W32
  pc    : W64
  young : Bool
  seq   : Nat
  nSV   : Nat
  nVS   : Nat
  nVV   : Nat
  x     : FMap W64
  csr   : FMap W64
  grant : Grant
  sup   : Bool
  resv  : FMap Nat
  fresh : Bool
  bq    : Option Nat
  out   : Option (List (Nat × Nat))
  deriving DecidableEq, Repr

/-- An outstanding BQ result: its register and whether the value has arrived (R24). -/
structure BqEntry where
  d    : Nat
  here : Bool
  deriving DecidableEq, Repr

/-! ### Sheaves -/

/-- The agents of a hart that write memory in a sheaf (R128, R169). -/
inductive Agent where
  | scalar | vec | idx
  deriving DecidableEq, Repr

/-- One buffered write of a byte: its value, its agent, its place in the sheaf and the fences before it. -/
structure WRec where
  val   : Byte
  agent : Agent
  seq   : Nat
  nSV   : Nat
  nVS   : Nat
  nVV   : Nat
  deriving DecidableEq, Repr

/-- A pending reduction of a sheaf (R164, R165): home address, type, operation and value. -/
structure Red where
  home : Nat
  ty   : AluType
  op   : AluOp
  val  : W64
  deriving DecidableEq, Repr

/-- A recorded set (R268): up to eight ranges, the two halves of the signature, as bit sets, and the granules that went into the
signature, for their home dies (R271). -/
structure RecSet where
  ranges : List (Nat × Nat)
  sa     : Nat
  sb     : Nat
  spill  : List Nat
  deriving DecidableEq, Repr

/-- The functions of ENG (R94). -/
inductive EngFn where
  | cpy | tcopy | rgath | rcopy | put | get | sig | launch
  deriving DecidableEq, Repr

/-- A command of the copy engines with what it captured (R239): its identifier, the AFTER condition, the four
operands, the mode it was issued in, and the bytes of the three tensor maps a TCOPY names. -/
structure Cmd where
  fn    : EngFn
  ch    : Nat
  id    : Nat
  after : Option (Nat × W64)
  xa    : W64
  xa1   : W64
  xb    : W64
  xb1   : W64
  sup   : Bool
  smap  : List Byte
  dmap  : List Byte
  mmap  : List Byte
  deriving DecidableEq, Repr

/-- How a sheaf that takes no further instruction ends (R264, R373). -/
inductive Ending where
  | ordinary | split
  deriving DecidableEq, Repr

/-- A HOLD hit in instruction I (R321): the watchpoint, what the record says of I, and the scalar registers, the CSRs, the fences and the
reservation of the sheaf just after I. -/
structure Hit where
  wp   : Nat
  trap : Trap
  x    : FMap W64
  csr  : FMap W64
  nSV  : Nat
  nVS  : Nat
  nVV  : Nat
  resv : FMap Nat
  deriving DecidableEq, Repr

/-- An open sheaf (R26, R27, R262, R266): its checkpoint, where it started, its strip, and what it has done. -/
structure Sheaf where
  cp       : Arch
  startPc  : W64
  strip    : W64
  stripPc  : W64
  split    : Nat
  byStrip  : Bool
  bySplit  : Bool
  vl       : W64                 -- the VL granted by its strip (R373)
  openedAt : Nat
  seq      : Nat
  nSV      : Nat
  nVS      : Nat
  nVV      : Nat
  writes   : FMap (List WRec)
  reds     : List Red
  rset     : RecSet
  wset     : RecSet
  dset     : RecSet
  resv     : FMap Nat
  cmds     : List Cmd
  asks     : List (Nat × Option Nat)  -- granules that the running instruction has read, and the cluster that did; none: the lowest (R339)
  puts     : List (Nat × Option Nat)  -- granules whose writes and reductions it buffers, and the cluster that does; none: the lowest (R347)
  grant    : Grant                -- the grant it runs with (R334, R368)
  closed   : Option Ending
  trap     : Option Trap
  held     : Option (Nat × Trap)  -- HOLD stop: the watchpoint and what the record says of I (R321)
  want     : Option Hit           -- HOLD hit whose stop waits for the sheaf to be the oldest (R321)
  sup      : Bool
  deriving DecidableEq, Repr

/-! ### Channels of a hart -/

/-- A started command (R241, R243): the elements applied or acknowledged, the elements sent to another package or to the
dispatcher, the elements whose requests have issued, source elements read ahead of their turn, the requests on their way for the data of each element
(R403), the granules that the next element writes and whose requests have not issued, how many of its write requests have not come back, where they have
been made (R403), the metadata byte of each group of a structured-sparse TCOPY that has been read (R246), and the gang of a LAUNCH. -/
structure Run where
  cmd     : Cmd
  applied : Nat
  sent    : Nat
  asked   : Nat
  early   : FMap (List Byte)
  due     : FMap Nat
  writes  : List Nat
  wdue    : Option Nat
  metas   : FMap Nat
  gang    : Option Nat
  deriving DecidableEq, Repr

/-- The first error of a channel (R243, R256). -/
structure ChanErr where
  id      : Nat
  applied : Nat
  code    : Nat
  deriving DecidableEq, Repr

/-- A channel (R233 to R243): the copy-engine context it is bound to, commands issued and not started, started
commands, identifiers completed above TL, TL, and the error. -/
structure Chan where
  ctx     : Option (Nat × Nat)
  waiting : List Cmd
  running : List Run
  done    : List Nat
  tl      : Nat
  err     : Option ChanErr
  deriving DecidableEq, Repr

/-! ### The advice sequencer -/

/-- MODE of the sequencer (R286). -/
inductive AdvMode where
  | run | await (m : Nat) | idle
  deriving DecidableEq, Repr

/-- An action of the action queue (R292). -/
inductive AdvAct where
  | pf (base len : W64)
  | pfx (arr cnt base row : W64) (w : Nat)
  | place (base len : W64) (cls : Nat)
  | prio (r : W64)
  | order (x : W64)
  | share (x : W64)
  deriving DecidableEq, Repr

/-- A placement window (R296). -/
structure PlaceWin where
  base : Nat
  len  : Nat
  cls  : Nat
  deriving DecidableEq, Repr

/-- The advice sequencer of a hart launched with ADVICE (R286, R296 to R298, R305): beside its own state, the size of its .advice section
and where that begins (R116, R120), the ck from which its next word may execute, the fetch under way, as its ck, the address of its line and where that lies, and the ck
since which the action at the head of its queue stands there. -/
structure Adv where
  p       : FMap W64
  apc     : Nat
  mode    : AdvMode
  lastId  : Nat
  lastArg : W64
  queue   : List AdvAct
  line    : Option (Nat × List Byte)
  windows : List PlaceWin
  prefer  : List Nat
  weight  : Nat
  request : Option Nat
  base    : Nat
  size    : Nat
  runFrom : Nat
  asked   : Option (Nat × Nat × Nat)
  headAt  : Nat
  deriving DecidableEq, Repr

/-! ### Harts and gangs -/

/-- A register whose load data has not arrived (R129): when the load issued, and whether it belongs to the younger sheaf. -/
structure Pending where
  reg    : Nat
  issued : Nat
  young  : Bool
  deriving DecidableEq, Repr

/-- What the scalar side of a hart waits for. -/
inductive Wait where
  | none
  | tlwait (ch : Nat) (v pc : W64)      -- R255, channel form
  | icwait (n : Nat) (v pc : W64)       -- R255, counter form
  | gbar (gen : Nat) (arrived : Bool)   -- R258
  | wfi (until_ : Nat)                  -- R140
  | qdrain (q : Nat)                    -- R259
  | refsync (p from_ : Nat)             -- R141: the pseudo-channel, and the ck in which its first stage ended
  | synced                              -- R141: its tick has fallen
  | fetch (pa : Nat)                    -- R401: the word at this physical address is on its way
  | table (pa : Nat)                    -- R148: the block-table entry at this physical address is on its way
  | split (cause : Nat)                 -- R137: until every sheaf before it has committed
  | answer (asked : Bool)               -- R312: SYS.ECALL of the supervisor; the system cores have it
  | zaction (load : Bool)               -- R42
  deriving DecidableEq, Repr

/-- The hart's own copy of a landing (R311, R313). -/
structure Landing where
  arch    : Arch
  cap     : Nat
  squash  : Nat
  deriving DecidableEq, Repr

/-- A hart. -/
structure Hart where
  gang     : Nat
  index    : Nat
  size     : Nat
  arch     : Arch
  cnt      : FMap W64            -- counters a squash does not restore, by CSR number (R45)
  sheaves  : List Sheaf
  queue    : List QEntry
  bq       : List BqEntry
  pend     : List Pending        -- registers whose load data has not arrived (R129)
  wait     : Wait
  blocked  : Bool                -- the last instruction stalled
  onLoad   : List Nat            -- the registers whose load data it still waits for (R129)
  overBq   : Bool                -- it would hold a seventeenth BQ result (R25)
  atOpener : Bool                -- it is strip-opening (R147)
  cap      : Nat                 -- strip-trim cap, 0 for none (R159)
  squash   : Nat                 -- consecutive squashes (R276)
  ibuf     : Option (Nat × FMap W32)   -- the instruction buffer: a 4 KiB block of addresses and its words (R363)
  btcache  : FMap W32            -- table × 2^64 + block -> entry (R149)
  tableAt  : Option Nat          -- physical address of the entry that has come for it (R148)
  landing  : Option Landing
  held     : Option Nat          -- watchpoint of a held HOLD stop (R321)
  chans    : List Chan
  adv      : Option Adv
  ic       : FMap W64            -- inbound counters (R253)
  effPrio  : Nat                 -- effective priority (R297, R335)
  dc       : Int                 -- deficit counter (R335)
  issued   : Nat                 -- instructions issued at the vector sequencer (R372)
  issueAt  : Nat                 -- ck in which the last of them did, plus 1 (model's own: one of a hart in a ck)
  posted   : Option Grant        -- posted elastic grant (R334)
  vlen     : Nat                 -- VLEN that the launch requested (R334)
  preempt  : Nat                 -- pre-emption: 0 none, 1 requested, 2 due to land (R265, R336)
  noProg   : Nat                 -- ck since which the QDEAD count runs, plus 1; 0 where it does not (R338)
  parked   : Bool                -- pre-empted, waiting for a restore (R318)
  gone     : Bool                -- ended; its commands go on until its contexts are freed (R138, R312)
  charac   : Bool                -- characterisation launch (R362)
  ahead    : Bool                -- model's own: queued work, commits and load data wait for events
  deriving DecidableEq, Repr

/-- A gang (R14, R23, R258, R332, R336). -/
structure Gang where
  ident    : Nat                 -- launch identity (R383)
  size     : Nat
  live     : List Nat            -- harts that have not ended
  gen      : Nat
  arrived  : List Nat
  prio     : Nat
  die      : Nat
  queue    : Nat
  eng      : Option (Nat × Nat × Nat)   -- hart, channel and identifier of an ENG.LAUNCH (R250)
  normal   : Nat                 -- harts ended through ECALL service 0
  placedAt : Nat
  deriving DecidableEq, Repr

/-- An accepted advice image (R119, R120): the root of its program, the address of .marks, where .advice begins and its size (R116), and
SEMHASH. -/
structure AdvImage where
  root  : W64
  marks : W64
  base  : Nat
  size  : Nat
  hash  : Nat
  deriving DecidableEq, Repr

/-- A packet taken by a dispatcher and waiting to be placed, or a pre-empted gang waiting for its restore
(R328, R333). -/
structure Packet where
  die    : Nat
  queue  : Nat
  bytes  : List Byte
  prio   : Nat
  ptroot : W64
  eng    : Option (Nat × Nat × Nat)
  charac : Option Nat
  since  : Nat
  advice : Option AdvImage       -- the image that ADVICE named when the packet was accepted (R120)
  deriving DecidableEq, Repr

/-! ### The package -/

/-- The recorded interleave of an allocated HBM4E page (R344). -/
structure Page where
  size   : Nat
  il     : Bool
  lsbase : Nat
  lsk    : Nat
  deriving DecidableEq, Repr

/-- A TLB entry (R316): the cluster, PTROOT, the virtual page and the leaf it holds. -/
structure Tlb where
  cluster : Nat
  ptroot  : W64
  vbase   : Nat
  size    : Nat
  leaf    : W64
  deriving DecidableEq, Repr

/-- The class of a line of the line store, the hart it belongs to, and when it was used last (R296, R350). -/
structure Line where
  cls   : Nat
  owner : Option Nat
  used  : Nat
  deriving DecidableEq, Repr

/-- A pseudo-channel's refresh sequencer and its controller (R341, R352 to R355), or a granary bank's controller. -/
structure Ctl where
  period  : Nat                  -- the budget period that `use` counts
  tick    : Nat
  due     : Nat                  -- ck of the next tick; 0 where there is none
  owed    : List Nat
  busy    : List (Nat × Nat)     -- bank -> ck at which its refresh ends
  arrival : List (Nat × Nat)     -- bank group and ck of each arrival of the last 1,024 ck
  waiting : List (Nat × Nat × Sys2Proof.MemReq)   -- requests with the ck of arrival and the bank
  use     : List Nat             -- slots granted per class, in the order D E A M T X
  granted : Nat                  -- ck of the last grant, plus 1
  scrubs  : Nat                  -- scrub accesses made (R357)
  rescrub : Nat                  -- ck in which one that met a refresh arrives again (R355); 0 where none does
  deriving DecidableEq, Repr

/-- One trace buffer and its registers (R365, R366, R376). -/
structure TraceBuf where
  state   : Nat
  dbase   : W64
  dcfg    : W64
  dhead   : Nat
  dtail   : Nat
  recs    : Nat
  lossc   : Nat
  lines   : List (List W64)      -- complete lines that have not drained, oldest first
  open_   : List W64             -- words of the line being written
  wpoint  : Nat                  -- lines begun, for the TSYNC of each 1 KiB (R370)
  last    : Nat                  -- time of the last timestamped record
  lost    : Nat                  -- records lost since the last LOSS record
  fresh   : Bool                 -- capture has just started
  asked   : Bool                 -- the request that drains the oldest line is on its way (R366)
  deriving DecidableEq, Repr

/-- A trace record whose ck has not passed (R370): the cluster and the hart it counts for, its ck, its place among the records of that ck, whether it
was due before that ck began, and its words but for DELTA.  A TSYNC stands for the one that follows a start (R377), a PAD for the closing of the line
(R366). -/
structure TraceRec where
  cluster : Nat
  hart    : Option Nat
  ck      : Nat
  place   : Nat
  late    : Bool
  head    : Nat
  rest    : List W64
  deriving DecidableEq, Repr

/-- The power gate of a cluster (R378, R399). -/
structure Gate where
  gated   : Bool
  readyAt : Nat                  -- ck at which ungating ends; 0 where none is under way
  deriving DecidableEq, Repr

/-- The registers of a die's dispatcher region (R329, R340, R348, R359). -/
structure DieRegs where
  lqbase : FMap W64
  lqcfg  : FMap W64
  lqtail : FMap Nat
  lqhead : FMap Nat
  lqdone : FMap Nat
  lqerr  : FMap W64
  budget : List W64              -- BUDD, BUDE, BUDA, BUDM, BUDT, BUDX in force
  budNext : List W64             -- the values the next period takes
  budAt   : Nat                  -- the period in which they were written
  ab     : Nat
  faq    : List (Nat × Nat × Nat × Nat)   -- granule, count, source, kind
  faqHead : Nat
  faqTail : Nat
  faqLost : Nat
  trig   : List (W64 × Nat)
  rr     : Nat
  deriving DecidableEq, Repr

/-- The package register block (R394). -/
structure PkgRegs where
  phase    : Nat
  ready    : Bool
  fail     : Bool
  code     : Nat
  throt    : Bool
  dumpBit  : Bool
  pkgnum   : W64
  podcfg   : W64
  sdroot   : W64
  sdlow    : W64
  sdhigh   : W64
  sddone   : Bool
  pwrcap   : W64
  dumpbase : W64
  deriving DecidableEq, Repr

/-- A remote command as its destination sees it (R385, R387, R388): the elements applied, the registrations that accepted
elements of it, the hart whose counter its end raises (R253), and whether it takes no further element: complete, refused or
sealed. -/
structure Remote where
  pkg     : Nat
  ctx     : Nat
  life    : Nat
  cmd     : Nat
  applied : Nat
  regs    : List Nat
  raises  : Option Nat
  sealed  : Bool
  deriving DecidableEq, Repr

/-- A semantic image that is loaded (R119, R120): its root, SEMHASH, and the ranges of its loaded sections. -/
structure Loaded where
  root  : W64
  hash  : Nat
  spans : List (Nat × Nat)
  deriving DecidableEq, Repr

/-- A host window (R389): an entry of the layout of R383 and the remote key that it names. -/
structure Window where
  entry : Sys2Proof.Registration
  key   : W32
  deriving DecidableEq, Repr

/-- One move of the schedule: what happens next (model's own).  An operation or event of the opcode table; `n` ck pass; the scalar
side of a hart runs next; the advice sequencer of a hart executes a word; a hart's queued work, commits and load data
wait for events from now on, or no longer; an engine reads a source element early (R243); a TLB of a cluster takes
the leaf of an address, or drops entry `n` (R316); an instruction cache of a cluster takes the word at a physical address, or
drops it (R72, R401); accesses make requests at the memory controllers, or none (R339); queued instructions of
a hart complete so that for each pair in `seen` the load at its first place in the queue sees what the store at its second writes (R169); the sensors report the package's mean power in W or the temperature of a cluster in 1/16 °C (R394, R398). -/
inductive Move where
  | event (i : Sys2Proof.Instr)
  | advance (n : Nat)
  | select (h : Nat)
  | advice (h : Nat)
  | runAhead (h : Nat) (on : Bool)
  | engineRead (h ch id i : Nat)
  | tlbFill (cluster : Nat) (ptroot va : W64)
  | tlbDrop (cluster : Nat) (n : Nat)
  | codeFill (cluster pa : Nat)
  | codeDrop (cluster pa : Nat)
  | timed (on : Bool)
  | storeEarly (h : Nat) (seen : List (Nat × Nat))
  | power (w : Nat)
  | heat (cluster t : Nat)
  deriving DecidableEq, Repr

/-- The commit arbiter and the solo token (R271, R276): the hart that holds each die's slice, requests for slices
(die and hart, oldest first), the holder of the token, requests for it, and writes held at their destinations while it protects
them, each with its home address. -/
structure Arbiter where
  slices  : FMap (Option Nat)
  slicesQ : List (Nat × Nat)
  token   : Option Nat
  tokenQ  : List Nat
  heldWrites : List (Nat × List Byte)
  deriving DecidableEq, Repr

/-- Launching (R328 to R333): packets in the internal queues lq8, packets taken and waiting to be placed, pre-empted gangs waiting for a restore and since
when, the dispatcher registers of each die, characterisation launches waiting (R362), the hart that holds the turn of
each band of each cluster's vector sequencer, keyed cluster × 8 + band (R335), and the hart runtime's
values for TVEC, SUPSCR and the save areas (R332). -/
structure Dispatch where
  inner   : List Packet
  packets : List Packet
  restore : List (Nat × Nat)
  dieRegs : List DieRegs
  charQ   : List Packet
  turns   : FMap (Option Nat)
  tvec    : W64
  supscr  : W64
  saveptr : W64
  deriving DecidableEq, Repr

/-- Fabric and remote packages: engine -> context that last started a command, ck in which it did, plus 1, and the command that last
issued an element's request, as context × 2^64 + identifier (R241); registrations and revocations
under way (R383, R385), host windows (R389), sequence numbers seen, keyed (package × 2^64 + context) × 2^64 + sequence
(R387), remote commands (R388), packages not present (R388), retrainings at a reduced width of the four UCIe boundaries (R380); on the
loopback path, elements with the function of their command and the acknowledgements coming back, and how many elements it has carried (R382). -/
structure Fabric where
  engines : FMap Nat
  started : FMap Nat
  elems   : FMap Nat
  regs    : FMap (Option Sys2Proof.Registration)
  revoked : FMap Bool
  windows : FMap (Option Window)
  dup     : FMap Nat
  remotes : List Remote
  down    : List Nat
  bounds  : List Nat
  loop    : List (EngFn × Sys2Proof.RemoteElem)
  acks    : List (Nat × Nat × Nat × Sys2Proof.RemoteAck)
  carried : Nat
  deriving DecidableEq, Repr

/-- The memory system beyond its contents: recorded pages (R344), bad-page list (R360), TLB entries (R316), controllers of
pseudo-channels 0 to 767 and, from 1024 on, granary banks (R341, R352), lines of the line store by granule (R350),
corrections of a granule (R359), words held in instruction caches, keyed cluster × 2^52 + address (R72, R401), and the
requests and data on their way. -/
structure MemSys where
  pages : FMap (Option Page)
  bad   : List (Nat × Nat)
  tlbs  : List Tlb
  ctls  : FMap (Option Ctl)
  lines : FMap (Option Line)
  ecc   : FMap (List Nat)
  code  : FMap W32
  timed   : Bool                           -- model's own: accesses make requests
  flights : List (Nat × Sys2Proof.MemReq)  -- requests on their way, with the ck of arrival (R347, R363)
  returns : List (Nat × Sys2Proof.MemReq)  -- data on its way, with the ck of its delivery (R363)
  upTo    : Nat                            -- the ck up to which the controllers have acted
  deriving DecidableEq, Repr

/-- The package's own management (R394 to R399): the register block, the dump, whether every hart and engine is stopped
(R324), kept replies (host, SEQ, reply), messages and reports sent, accepted advice images, the newest first (R120), the semantic images that are
loaded, the power gate of each cluster, what the sensors report, and the ck in which throttling was last called for, plus 1
(R398). -/
structure Manage where
  pkg     : PkgRegs
  withheld : Bool                -- the dump region is withheld from allocation (R395)
  flash   : FMap Byte            -- the first 1 MiB of the last dump, in on-package flash (R324)
  stopped : Bool
  replies : List (Nat × Nat × List W64)
  outbox  : List (Nat × List W64)
  images  : List AdvImage
  loaded  : List Loaded
  gates   : List Gate
  power   : Nat
  heat    : FMap Nat
  hotAt   : Nat
  deriving DecidableEq, Repr

/-- The state of the machine: the part (a 960-D is `bare`, R3), package time (R369), the schedule, the count of free values
taken, the hart whose scalar side runs when the schedule is empty, harts and gangs by number, the commit stamp
(R271), memory and poisoned granules (R342, R358), mask unit counters (cluster × 3 + class, R228), trace records of the running ck (R370), and the rest by group. -/
structure State where
  bare     : Bool
  now      : Nat
  agenda   : List Move
  free     : Nat
  cur      : Nat
  harts    : FMap Hart
  nextHart : Nat
  gangs    : FMap Gang
  nextGang : Nat
  stamp    : Nat
  mem      : FMap Byte
  poison   : FMap Bool
  mskcnt   : FMap W64
  arb      : Arbiter
  disp     : Dispatch
  fab      : Fabric
  ms       : MemSys
  traces   : List TraceBuf
  due      : List TraceRec
  mg       : Manage
  deriving DecidableEq, Repr

/-! ### After reset -/

/-- The defaults of R340: CAP and FLOOR of the classes D, E, A, M, T, X. -/
def budgetDefaults : List W64 :=
  [24 + 64 * 256, 12 + 64 * 256, 0 + 8 * 256, 4 + 16 * 256, 1 + 8 * 256, 4 + 48 * 256].map (BitVec.ofNat 64)

/-- The dispatcher region of a die at power-on (R329, R340, R348, R359, R377). -/
def DieRegs.reset : DieRegs :=
  { lqbase := [], lqcfg := [], lqtail := [], lqhead := [], lqdone := [], lqerr := [], budget := budgetDefaults,
    budNext := budgetDefaults, budAt := 0, ab := 8, faq := [], faqHead := 0, faqTail := 0, faqLost := 0,
    trig := List.replicate 4 (0#64, 0), rr := 0 }

/-- A trace buffer at power-on (R376). -/
def TraceBuf.reset : TraceBuf :=
  { state := 0, dbase := 0, dcfg := 0, dhead := 0, dtail := 0, recs := 0, lossc := 0, lines := [], open_ := [], wpoint := 0,
    last := 0, lost := 0, fresh := false, asked := false }

/-- The package block at power-on (R394): phase Dawn, DONE set, every other field 0. -/
def PkgRegs.reset : PkgRegs :=
  { phase := 0, ready := false, fail := false, code := 0, throt := false, dumpBit := false, pkgnum := 0, podcfg := 0,
    sdroot := 0, sdlow := 0, sdhigh := 0, sddone := true, pwrcap := 0, dumpbase := 0 }

/-- A part right after power-on (R395): phase Dawn, no hart, nothing listed in memory.  A 960-D has the registers of its one die and its 32
clusters, and no UCIe boundary (R3, R4). -/
def State.resetOf (bare : Bool) : State :=
  { bare := bare, now := 0, agenda := [], free := 0, cur := 0, harts := [], nextHart := 0, gangs := [], nextGang := 0,
    stamp := 0, mem := [], poison := [], mskcnt := [],
    arb := { slices := [], slicesQ := [], token := none, tokenQ := [], heldWrites := [] },
    disp := { inner := [], packets := [], restore := [], dieRegs := List.replicate (Config.dies bare) DieRegs.reset, charQ := [], turns := [],
              tvec := 0, supscr := 0, saveptr := 0 },
    fab := { engines := [], started := [], elems := [], regs := [], revoked := [], windows := [], dup := [], remotes := [], down := [],
             bounds := List.replicate (if bare then 0 else 4) 0, loop := [], acks := [], carried := 0 },
    ms := { pages := [], bad := [], tlbs := [], ctls := [], lines := [], ecc := [], code := [], timed := false, flights := [], returns := [],
            upTo := 0 },
    traces := List.replicate (Config.clusters bare) TraceBuf.reset, due := [],
    mg := { pkg := PkgRegs.reset, withheld := false, flash := [], stopped := false, replies := [], outbox := [], images := [], loaded := [],
            gates := List.replicate (Config.clusters bare) { gated := false, readyAt := 0 }, power := 0, heat := [], hotAt := 0 } }

/-- The package right after power-on (R395). -/
def State.reset : State := State.resetOf false

/-- A 960-D right after power-on (R3, R4, R395). -/
def State.resetBare : State := State.resetOf true

end Sys2Proof.Machine
end

