-- ==== Sys2Proof/Machine/Ops.lean ====
section
/-! DEFINITION. The named operations over registers, grants, harts, committed memory and package time that every
meaning is built from. -/

namespace Sys2Proof.Machine

/-! ### Registers -/

/-- A scalar register: x0 reads 0 (R32, R34). -/
def Arch.rx (a : Arch) (r : Nat) : W64 := if r = 0 then 0 else fget 0 a.x r

/-- Writing a scalar register: a write to x0 is discarded (R32, R34, R121). -/
def Arch.wx (a : Arch) (r : Nat) (v : W64) : Arch := if r = 0 then a else { a with x := fset 0 a.x r v }

/-- A stored CSR. -/
def Arch.rcsr (a : Arch) (n : Nat) : W64 := fget 0 a.csr n

/-- Setting a stored CSR. -/
def Arch.wcsr (a : Arch) (n : Nat) (v : W64) : Arch := { a with csr := fset 0 a.csr n v }

/-- An address that the pc takes from a register of the supervisor or from its memory: its two low bits read 0, for the pc is always a multiple of
4 (R71, logged as assumption 89). -/
def alignPc (v : W64) : W64 := v &&& ~~~3#64

/-- The next instruction in line. -/
def Arch.next (a : Arch) : Arch := { a with pc := a.pc + 4 }

/-! ### Grants (R17, R20, R331) -/

/-- VLENB of a grant (R17). -/
def Grant.vlenb (g : Grant) : Nat := if g.clusters = 0 then 256 * g.quarters else 1024 * g.clusters

/-- The physical cluster of the grant's cluster `i` (R20). -/
def Grant.cluster (g : Grant) (i : Nat) : Nat :=
  if g.dies.length ≤ 1 then g.base + i else 32 * (g.dies.getD (i / 32) 0) + i % 32

/-- The physical clusters of a grant, in ascending order. -/
def Grant.clusterList (g : Grant) : List Nat :=
  if g.clusters = 0 then [g.base] else (List.range g.clusters).map g.cluster

/-- The place of granule `i` of a register: physical cluster and quarter (R20). -/
def Grant.place (g : Grant) (i : Nat) : Nat × Nat :=
  if g.clusters = 0 then (g.base, g.quarter + i % g.quarters)
  else if g.clusters ≤ 32 then (g.cluster (i % g.clusters), i / g.clusters % 4)
  else (g.cluster (32 * (i / 512) + i % 32), i % 512 / 32 % 4)

/-- The quarter index, physical cluster × 4 + quarter, that holds byte `b` of a register (R20). -/
def Grant.quarterOf (g : Grant) (b : Nat) : Nat := let p := g.place (b / 64); p.1 * 4 + p.2

/-- TLANE of byte `b` of a register (R153). -/
def Grant.tlane (g : Grant) (b : Nat) : Nat :=
  let p := g.place (b / 64); p.1 * 64 + p.2 * 16 + b % 64 / 4

/-- Bytes of the scratchpad of a grant (R152, R346). -/
def Grant.scratch (g : Grant) : Nat := if g.clusters = 0 then 0x8_0000 * g.quarters else 0x20_0000 * g.clusters

/-- The home address of the byte at physical offset `p` of cluster `c`'s scratchpad (R268). -/
def scratchHome (c p : Nat) : Nat := 0xF_0000_0000_0000 + c * 0x20_0000 + p

/-- The granules of 64 bytes that `n` bytes at `a` meet, where `n` is not 0 (R267). -/
def granules (a n : Nat) : List Nat := (List.range ((a + n - 1) / 64 + 1 - a / 64)).map (fun i => a / 64 + i)

/-- The home address of the byte at window offset `o` (R152, R268). -/
def Grant.windowHome (g : Grant) (o : Nat) : Nat :=
  let i := o / 64
  if g.clusters = 0 then
    scratchHome g.base ((g.quarter + i % g.quarters) * 0x8_0000 + i / g.quarters * 64 + o % 64)
  else scratchHome (g.cluster (i % g.clusters)) (i / g.clusters * 64 + o % 64)

/-- The hardware thread of a running hart (R16, R323). -/
def Grant.thread (g : Grant) : Nat := g.base * 8 + g.quarter

/-- The quarters of the package that a grant covers, as cluster × 4 + quarter. -/
def Grant.lanes (g : Grant) : List Nat :=
  if g.clusters = 0 then (List.range g.quarters).map (fun q => g.base * 4 + g.quarter + q)
  else g.clusterList.flatMap (fun c => (List.range 4).map (fun q => c * 4 + q))

/-- The GRANT CSR (R40). -/
def Grant.csr (g : Grant) (elastic : Bool) : W64 :=
  BitVec.ofNat 64 (g.clusters + g.quarters * 2 ^ 16 + (g.dies.foldl (fun n d => n + 2 ^ (20 + d)) 0)
    + (if elastic then 2 ^ 24 else 0))

/-- The grant of the row of R17 with VLENB `n` at a place; for 64 clusters the place's quarter is the second die
(R331). -/
def grantAt (vlen : Nat) (p : Sys2Proof.Place) : Grant :=
  if vlen < 8192 then
    { quarters := vlen / 2048, clusters := 0, base := p.cluster, quarter := p.quarter, dies := [p.cluster / 32] }
  else
    let c := vlen / 8192
    let ds := if c ≤ 32 then [p.cluster / 32] else if c = 64 then [p.cluster / 32, p.quarter] else [0, 1, 2, 3]
    { quarters := 4, clusters := c, base := p.cluster, quarter := 0, dies := ds }

/-! ### VTYPE (R35 to R37) -/

/-- log2 of SEW, less 2. -/
def vtSew (vt : W64) : Nat := bits vt.toNat 2 0
/-- SEW in bits. -/
def vtBits (vt : W64) : Nat := 4 * 2 ^ vtSew vt
/-- The element class: 0 signed, 1 unsigned, 2 float, 3 DS8. -/
def vtCls (vt : W64) : Nat := bits vt.toNat 4 3
/-- LMUL. -/
def vtLmul (vt : W64) : Nat := 2 ^ bits vt.toNat 6 5
/-- The scale block, in elements. -/
def vtBlk (vt : W64) : Nat := 16 * 2 ^ bits vt.toNat 8 7
def vtScen (vt : W64) : Bool := bit vt.toNat 9
def vtAlt (vt : W64) : Bool := bit vt.toNat 10
def vtSigned (vt : W64) : Bool := decide (vtCls vt = 0)
def vtFloat (vt : W64) : Bool := decide (vtCls vt = 2)

/-- A legal VTYPE operand (R36). -/
def vtLegal (vt : W64) : Bool :=
  let n := vt.toNat
  decide (vtSew vt ≤ 4) && decide (bits n 8 7 ≤ 2) && decide (n / 2 ^ 11 = 0)
  && (!vtAlt vt || ((decide (vtSew vt = 1) || decide (vtSew vt = 2)) && vtFloat vt))
  && (decide (vtCls vt ≠ 3) || decide (vtSew vt = 1))
  && (!vtScen vt || decide (vtSew vt ≤ 1))

/-- VLMAX (R37). -/
def vlmax (g : Grant) (vt : W64) : Nat := g.vlenb * 8 * vtLmul vt / vtBits vt

/-! ### CSR numbers (R44) -/

def cVL := 0x000
def cVTYPE := 0x001
def cVLENB := 0x002
def cGRANT := 0x003
def cVCP := 0x004
def cSTRIP := 0x005
def cFCSR := 0x006
def cRUNBASE := 0x007
def cSRSEED := 0x008
def cHARTINFO := 0x009
def cZCFG := 0x100
def cZSTATE := 0x108
def cDOCB := 0x110
def cDOCN := 0x111
def cMSKSHAPE := 0x112
def cTID := 0x208
def cTCAUSE := 0x300
def cTPC := 0x301
def cTVEC := 0x308
def cSUPSCR := 0x309
def cSAVEPTR := 0x30A
def cPTROOT := 0x30B
def cHSTATUS := 0x30C
def cADVPTR := 0x310
def cWPHIT := 0x430
def cTRCTL := 0x440
def cTRLOSS := 0x441
def cBNDTAB := 0x450
def cCYCLE := 0x500
def cINSTRET := 0x501
def cLATSTALL := 0x502
def cMEMRETRY := 0x503
def cSQUASHES := 0x504
def cSPLITS := 0x505
def cADVDROP := 0x510
def cADVREALIGN := 0x511
def cADVCLAMP := 0x512
def cADVIDLE := 0x513

/-- The current VL as a number. -/
def vlOf (csr : FMap W64) : Nat := (fget 0 csr cVL).toNat
/-- The current VTYPE. -/
def vtOf (csr : FMap W64) : W64 := fget 0 csr cVTYPE

/-- HSTATUS.MODE: supervisor (R310). -/
def Arch.sup (a : Arch) : Bool := bit (a.rcsr cHSTATUS).toNat 0
/-- HSTATUS.UNCHK, ELASTIC, ZT and MU (R310). -/
def unchk (csr : FMap W64) : Bool := bit (fget 0 csr cHSTATUS).toNat 7
def elastic (csr : FMap W64) : Bool := bit (fget 0 csr cHSTATUS).toNat 8
def needsZ (csr : FMap W64) : Bool := bit (fget 0 csr cHSTATUS).toNat 9
def needsMask (csr : FMap W64) : Bool := bit (fget 0 csr cHSTATUS).toNat 10

/-- Sets bits `hi` to `lo` of a word to the low bits of a number. -/
def setBits (w : W64) (hi lo n : Nat) : W64 :=
  BitVec.ofNat 64 (w.toNat - bits w.toNat hi lo * 2 ^ lo + n % 2 ^ (hi + 1 - lo) * 2 ^ lo)

/-! ### Vector, mask, scale and tile registers (R32) -/

/-- Byte `b` of the group based at vn, in a grant of `vb` bytes a register. -/
def vKey (vb n b : Nat) : Nat := (n + b / vb) * 131072 + b % vb

/-- Element `e` of width `w` bits of the group based at vn (R21, R54). -/
def getElem (a : Arch) (vb w n e : Nat) : Nat :=
  if w = 4 then
    let b := (fget 0 a.v (vKey vb n (e / 2))).toNat
    if e % 2 = 0 then b % 16 else b / 16
  else
    let k := w / 8
    leNat (fgetMany 0 a.v (vKey vb n (e * k)) k)

/-- Writes element `e` of width `w` bits of the group based at vn. -/
def setElem (a : Arch) (vb w n e val : Nat) : Arch :=
  if w = 4 then
    let key := vKey vb n (e / 2)
    let b := (fget 0 a.v key).toNat
    let b' := if e % 2 = 0 then b / 16 * 16 + val % 16 else val % 16 * 16 + b % 16
    { a with v := fset 0 a.v key (BitVec.ofNat 8 b') }
  else
    let k := w / 8
    { a with v := fsetMany 0 a.v (vKey vb n (e * k)) (leBytes k val) }

/-- Bit `e` of mask register mn: m0 reads all ones (R32). -/
def getMask (a : Arch) (n e : Nat) : Bool := if n = 0 then true else fget false a.m (n * 2097152 + e)

/-- Writes bit `e` of mask register mn: m0 ignores writes. -/
def setMask (a : Arch) (n e : Nat) (v : Bool) : Arch :=
  if n = 0 then a else { a with m := fset false a.m (n * 2097152 + e) v }

/-- Scale `j` of qn (R32). -/
def getScale (a : Arch) (n j : Nat) : Nat := (fget 0 a.q (n * 131072 + j)).toNat
def setScale (a : Arch) (n j val : Nat) : Arch := { a with q := fset 0 a.q (n * 131072 + j) (BitVec.ofNat 8 val) }

/-- The key of cell (row, col) of tile zn (R201). -/
def zKey (n row col : Nat) : Nat := (n * 64 + row) * 8192 + col
def getCell (a : Arch) (n row col : Nat) : W32 := fget 0 a.z (zKey n row col)
def setCell (a : Arch) (n row col : Nat) (v : W32) : Arch := { a with z := fset 0 a.z (zKey n row col) v }

/-! ### Committed memory (R9) -/

/-- The number held by `n` committed bytes at a home address. -/
def memNat (s : State) (a n : Nat) : Nat := leNat (fgetMany 0 s.mem a n)

/-- Committed bytes at a home address. -/
def memBytes (s : State) (a n : Nat) : List Byte := fgetMany 0 s.mem a n

/-- Writes bytes of memory at a home address. -/
def State.store (s : State) (a : Nat) (bs : List Byte) : State := { s with mem := fsetMany 0 s.mem a bs }

/-- Whether the granule of a home address is poisoned (R358). -/
def poisoned (s : State) (a : Nat) : Bool := fget false s.poison (a / 64)

/-! ### Harts -/

/-- The hart of a number, if it exists. -/
def State.hart (s : State) (h : Nat) : Option Hart := ffind s.harts h

/-- Replaces a hart. -/
def State.setHart (s : State) (h : Nat) (x : Hart) : State := { s with harts := fins s.harts h x }

/-- Applies a function to a hart, if it exists. -/
def State.updHart (s : State) (h : Nat) (f : Hart → Hart) : State :=
  match s.hart h with
  | some x => s.setHart h (f x)
  | none => s

/-- Adds to a counter that no squash restores (R45). -/
def Hart.count (x : Hart) (n : Nat) (k : Nat) : Hart :=
  { x with cnt := fset 0 x.cnt n (fget 0 x.cnt n + BitVec.ofNat 64 k) }

/-- The advice sequencer idles or awaits (R302). -/
def Adv.idling (a : Adv) : Bool := match a.mode with | .run => false | _ => true

/-- What `n` ck do to a hart that holds its grant: CYCLE, LATSTALL while it stalls on load data, and ADVIDLE (R44, R129, R302). -/
def Hart.tick (n : Nat) (x : Hart) : Hart :=
  if x.parked || x.gone then x else
    let y := x.count cCYCLE n
    let y := if x.blocked && !x.onLoad.isEmpty then y.count cLATSTALL n else y
    match x.adv with
    | some a => if a.idling then y.count cADVIDLE n else y
    | none => y

/-- Package time advances by `n` ck. -/
def State.tick (s : State) (n : Nat) : State :=
  { s with now := s.now + n, harts := s.harts.map (fun e => (e.1, e.2.tick n)) }

/-- The youngest open sheaf, to which the scalar side's instructions belong. -/
def Hart.cur (x : Hart) : Option Sheaf := x.sheaves.getLast?

/-- Replaces the youngest open sheaf. -/
def Hart.setCur (x : Hart) (sh : Sheaf) : Hart := { x with sheaves := x.sheaves.dropLast ++ [sh] }

/-- Replaces the architectural state. -/
def Hart.withArch (x : Hart) (a : Arch) : Hart := { x with arch := a }

/-- The free choice the model takes next, and the state after taking it. -/
def freeBit (n : Nat) : Bool := Config.coin n

/-- The number below 2^k that the free choices from `n` on make. -/
def freeNat (n : Nat) : Nat → Nat
  | 0 => 0
  | k + 1 => freeNat n k + (if freeBit (n + k) then 2 ^ k else 0)

/-- Load data for a scalar register has not arrived (R129): x0 waits for none. -/
def Hart.loads (x : Hart) (r : Nat) : Bool := decide (r ≠ 0) && x.pend.any (fun p => decide (p.reg = r))

/-- A scalar register of a hart is waiting for load data or a BQ result (R24, R129). -/
def Hart.waitsOn (x : Hart) (r : Nat) : Bool :=
  x.loads r || x.bq.any (fun b => decide (b.d = r) && !b.here)

/-- The BQ entries left when register `r` is read or written: its result is consumed, and those pushed before it
(R24). -/
def consume (r : Nat) (q : List BqEntry) : List BqEntry :=
  if q.any (fun b => decide (b.d = r)) then consume.go r q else q
where
  go (r : Nat) : List BqEntry → List BqEntry
    | [] => []
    | b :: bs => if bs.any (fun c => decide (c.d = r)) then go r bs
                 else if b.d = r then bs else b :: go r bs

/-- Load data has arrived, and that of the loads `p` has not (R129): a stall on load data ends once none that it waits for is left. -/
def Hart.arrived (x : Hart) (p : List Pending) : Hart :=
  let l := x.onLoad.filter (fun r => p.any (fun q => decide (q.reg = r)))
  { x with pend := p, onLoad := l, blocked := x.blocked && (x.onLoad.isEmpty || !l.isEmpty) }

/-- The QDEAD count runs from this ck on, unless it runs already, a pre-emption waits to land, or the hart is parked in a HOLD stop (R321, R338). -/
def Hart.startDead (x : Hart) (now : Nat) : Hart :=
  if x.noProg = 0 ∧ x.preempt = 0 ∧ x.held.isNone then { x with noProg := now + 1 } else x

/-- The QDEAD limit has passed (R25, R338). -/
def Hart.dead (x : Hart) (now : Nat) : Bool := decide (x.noProg ≠ 0) && decide (x.noProg + 2 ^ 20 ≤ now + 1)

/-- A message to the system cores or the host (R314, R397). -/
def State.report (s : State) (kind : Nat) (ws : List W64) : State :=
  { s with mg := { s.mg with outbox := s.mg.outbox ++ [(kind, ws)] } }

end Sys2Proof.Machine
end

