-- ==== Sys2Proof/Machine/Float.lean ====
section
/-! DEFINITION. Number formats and rounding (chapter "Number formats and arithmetic rules"): exact values, Round under every
mode with its flags, sums, products, quotients, square roots, powers of two, comparisons and DS8. -/

namespace Sys2Proof.Machine

/-- A floating-point format (R47, R48).  `kind`: 0 with infinities and NaNs, 1 E4M3, 2 FP4 E2M1. -/
structure Fmt where
  w    : Nat
  fb   : Nat
  bias : Nat
  kind : Nat
  deriving DecidableEq, Repr

def fp64 : Fmt := { w := 64, fb := 52, bias := 1023, kind := 0 }
def fp32 : Fmt := { w := 32, fb := 23, bias := 127, kind := 0 }
def fp16 : Fmt := { w := 16, fb := 10, bias := 15, kind := 0 }
def bf16 : Fmt := { w := 16, fb := 7, bias := 127, kind := 0 }
def e5m2 : Fmt := { w := 8, fb := 2, bias := 15, kind := 0 }
def e4m3 : Fmt := { w := 8, fb := 3, bias := 7, kind := 1 }
def fp4 : Fmt := { w := 4, fb := 1, bias := 1, kind := 2 }

/-- The format that a float VTYPE selects (R35, R36). -/
def fmtOf (vt : W64) : Fmt :=
  match vtSew vt with
  | 0 => fp4
  | 1 => if vtAlt vt then e5m2 else e4m3
  | 2 => if vtAlt vt then bf16 else fp16
  | 3 => fp32
  | _ => fp64

/-- An exact value: a NaN (signalling or not), an infinity, or (−1)^neg × (m + δ) × 2^e, where δ = 0 unless `st`,
and otherwise 0 < δ < 1. -/
inductive FV where
  | nan (sig : Bool)
  | inf (neg : Bool)
  | fin (neg : Bool) (m : Nat) (e : Int) (st : Bool)
  deriving DecidableEq, Repr

def FV.zero (neg : Bool) : FV := .fin neg 0 0 false

/-- The flags in the layout of FCSR.FLG (R39). -/
def fNV : Nat := 16
def fDZ : Nat := 8
def fOF : Nat := 4
def fUF : Nat := 2
def fNX : Nat := 1
/-- The union of two flag sets. -/
def fOr (a b : Nat) : Nat := a ||| b

/-- The largest finite value of a format, as a significand and exponent (R48). -/
def Fmt.maxM (f : Fmt) : Nat := if f.kind = 1 then 14 else 2 ^ (f.fb + 1) - 1
def Fmt.maxE (f : Fmt) : Int := if f.kind = 1 then 5 else if f.kind = 2 then 1 else (f.bias : Int) - f.fb
/-- Exponent of the subnormal spacing. -/
def Fmt.minQ (f : Fmt) : Int := 1 - (f.bias : Int) - f.fb
/-- The code of the largest finite magnitude. -/
def Fmt.maxCode (f : Fmt) : Nat :=
  if f.kind = 1 then 0x7E else if f.kind = 2 then 7 else 2 ^ (f.w - 1) - 2 ^ f.fb - 1
def Fmt.infCode (f : Fmt) : Nat := 2 ^ (f.w - 1) - 2 ^ f.fb
/-- The canonical NaN (R49). -/
def Fmt.nanCode (f : Fmt) : Nat :=
  if f.kind = 1 then 0x7F else if f.kind = 2 then 0 else f.infCode + 2 ^ (f.fb - 1)
def Fmt.withSign (f : Fmt) (neg : Bool) (mag : Nat) : Nat := if neg then mag + 2 ^ (f.w - 1) else mag

/-- The value of a code (R47 to R49). -/
def Fmt.decode (f : Fmt) (x : Nat) : FV :=
  let neg := bit x (f.w - 1)
  let mag := x % 2 ^ (f.w - 1)
  let E := mag / 2 ^ f.fb
  let F := mag % 2 ^ f.fb
  if f.kind = 1 ∧ mag = 0x7F then .nan false
  else if f.kind = 0 ∧ f.infCode ≤ mag then
    if F = 0 then .inf neg else .nan (decide (16 ≤ f.w) && !bit F (f.fb - 1))
  else if E = 0 then .fin neg F f.minQ false
  else .fin neg (2 ^ f.fb + F) (f.minQ + E - 1) false

/-- The number of binary digits of a number, by halving (`n` bounds them). -/
def bitLen (x : Nat) : Nat := if x = 0 then 0 else Nat.log2 x + 1

/-- The chosen multiple of 2^q for (m + δ) × 2^e, as its significand, and whether it differs from the exact value
(R57, R59).  A mode above 4, for which R57 has no row and which only SYS.ERET or a restore can load from a save area, rounds as SR with the draw 0,
takes no draw, and overflows as RNE does (logged as assumption 100). -/
def roundAt (mode u : Nat) (neg : Bool) (m : Nat) (e : Int) (st : Bool) (q : Int) : Nat × Bool :=
  if q ≤ e then (m * 2 ^ (e - q).toNat, st)
  else
    let d := 2 ^ (q - e).toNat
    let lo := m / d
    let rem := m % d
    let inexact := decide (rem ≠ 0) || st
    if !inexact then (lo, false)
    else
      let up : Bool := match mode with
        | 0 => decide (d < 2 * rem) || (decide (2 * rem = d) && (st || decide (lo % 2 = 1)))
        | 1 => false
        | 2 => neg
        | 3 => !neg
        | _ =>
          if neg then
            let n := if st then ((d - rem) * 2 ^ 32 - 1) / d else (d - rem) * 2 ^ 32 / d
            !decide (u < n)
          else decide (u < rem * 2 ^ 32 / d)
      (if up then lo + 1 else lo, true)

/-- One step of the stochastic rounding generator (R58). -/
def srStep (s : W64) : W64 :=
  let a := s ^^^ (s <<< 13)
  let b := a ^^^ (a >>> 7)
  b ^^^ (b <<< 17)

/-- The draw a rounding step takes under SR and the generator after it (R58, R60). -/
def draw (mode : Nat) (seed : W64) : Nat × W64 :=
  if mode = 4 then let s := srStep seed; (s.toNat / 2 ^ 32, s) else (0, seed)

/-- The result of an overflow (R64): code and flags. -/
def overflowCode (f : Fmt) (mode : Nat) (sat : Bool) (neg : Bool) : Nat :=
  let toMax := f.kind = 2 ∨ (f.w = 8 ∧ sat) ∨ mode = 1 ∨ (mode = 2 ∧ !neg) ∨ (mode = 3 ∧ neg)
  if toMax then f.withSign neg f.maxCode
  else if f.kind = 1 then f.withSign neg 0x7F
  else f.withSign neg f.infCode

/-- Round of an exact value to a format: code and flags (R57, R61, R64).  `u` is the draw. -/
def roundTo (f : Fmt) (mode : Nat) (sat : Bool) (u : Nat) : FV → Nat × Nat
  | .nan _ => (f.nanCode, if f.kind = 2 then fNV else 0)
  | .inf neg =>
    if f.kind = 2 ∨ (f.w = 8 ∧ sat) then (f.withSign neg f.maxCode, fOF + fNX)
    else if f.kind = 1 then (0x7F, fNV)
    else (f.withSign neg f.infCode, 0)
  | .fin neg m e st =>
    if m = 0 then (f.withSign neg 0, 0)
    else
      let top : Int := e + (bitLen m - 1 : Nat)
      let q := max (top - f.fb) f.minQ
      let r := roundAt mode u neg m e st q
      -- beyond the largest finite value?
      let big := decide (f.maxM * 2 ^ (f.maxE - f.minQ).toNat < r.1 * 2 ^ (q - f.minQ).toNat)
      if big then (overflowCode f mode sat neg, fOF + fNX)
      else
        let code := f.withSign neg (r.1 + (q - f.minQ).toNat * 2 ^ f.fb)
        let tiny := decide (top < f.minQ + f.fb) &&
          (let t := roundAt mode u neg m e st (top - f.fb)
           decide (t.1 < 2 ^ (f.minQ + f.fb - (top - f.fb)).toNat))
        (code, (if r.2 then fNX else 0) + (if r.2 && tiny then fUF else 0))

/-- One rounding step: it takes a draw under SR whatever its operand (R60). -/
def roundStep (f : Fmt) (mode : Nat) (sat : Bool) (seed : W64) (x : FV) : Nat × Nat × W64 :=
  let d := draw mode seed
  let r := roundTo f mode sat d.1 x
  (r.1, r.2, d.2)

/-! ### Exact operations: a value and the flags the operation raises before rounding (R61, R63) -/

def FV.isNan : FV → Bool
  | .nan _ => true
  | _ => false
def FV.isSig : FV → Bool
  | .nan s => s
  | _ => false
def FV.isInf : FV → Bool
  | .inf _ => true
  | _ => false
def FV.isZero : FV → Bool
  | .fin _ m _ st => decide (m = 0) && !st
  | _ => false
/-- The sign of a value; a NaN has none. -/
def FV.neg : FV → Bool
  | .nan _ => false
  | .inf n => n
  | .fin n _ _ _ => n
/-- The value with its sign flipped. -/
def FV.negate : FV → FV
  | .nan s => .nan s
  | .inf n => .inf (!n)
  | .fin n m e st => .fin (!n) m e st

/-- The signed integer multiple of 2^q that a finite value is. -/
def FV.atScale (q : Int) : FV → Int
  | .fin n m e _ => let k := (m * 2 ^ (e - q).toNat : Nat); if n then -(k : Int) else (k : Int)
  | _ => 0
def FV.expo : FV → Int
  | .fin _ m e _ => if m = 0 then 0 else e
  | _ => 0

/-- The exact sum of a list of values (R57, R61, R65).  A quiet NaN beside both infinities raises no NV (logged as assumption 80). -/
def sumFV (mode : Nat) (xs : List FV) : FV × Nat :=
  let sig := xs.any FV.isSig
  if xs.any FV.isNan then (.nan false, if sig then fNV else 0)
  else
    let pos := xs.any (fun x => x.isInf && !x.neg)
    let ng := xs.any (fun x => x.isInf && x.neg)
    if pos && ng then (.nan false, fNV)
    else if pos then (.inf false, 0)
    else if ng then (.inf true, 0)
    else
      let nz := xs.filter (fun x => !x.isZero)
      let q := nz.foldl (fun m x => min m x.expo) (match nz with | x :: _ => x.expo | [] => 0)
      let t : Int := nz.foldl (fun a x => a + x.atScale q) 0
      if t = 0 then
        if nz.isEmpty && xs.all FV.neg then (.zero true, 0)
        else if nz.isEmpty && xs.all (fun x => !x.neg) then (.zero false, 0)
        else (.zero (decide (mode = 2)), 0)
      else (.fin (decide (t < 0)) t.natAbs q false, 0)

/-- The exact product (R57, R61). -/
def mulFV (a b : FV) : FV × Nat :=
  let nv := if a.isSig || b.isSig then fNV else 0
  match a, b with
  | .nan _, _ => (.nan false, nv)
  | _, .nan _ => (.nan false, nv)
  | .inf n, y => if y.isZero then (.nan false, fNV) else (.inf (n != y.neg), 0)
  | x, .inf n => if x.isZero then (.nan false, fNV) else (.inf (x.neg != n), 0)
  | .fin n m e _, .fin n' m' e' _ => (.fin (n != n') (m * m') (if m * m' = 0 then 0 else e + e') false, 0)

/-- a × b + c, exact (R133). -/
def fmaFV (mode : Nat) (a b c : FV) : FV × Nat :=
  let p := mulFV a b
  let s := sumFV mode [p.1, c]
  if p.1.isNan ∨ c.isNan then (.nan false, fOr p.2 (if c.isSig then fNV else 0))
  else (s.1, fOr p.2 s.2)

/-- The exact quotient (R61, R63, R69), with more than 120 significant bits and a sticky remainder. -/
def divFV (a b : FV) : FV × Nat :=
  let nv := if a.isSig || b.isSig then fNV else 0
  match a, b with
  | .nan _, _ => (.nan false, nv)
  | _, .nan _ => (.nan false, nv)
  | .inf _, .inf _ => (.nan false, fNV)
  | .inf n, y => (.inf (n != y.neg), 0)
  | x, .inf n => (.zero (x.neg != n), 0)
  | .fin n m e _, .fin n' m' e' _ =>
    if m' = 0 then
      if m = 0 then (.nan false, fNV) else (.inf (n != n'), fDZ)
    else if m = 0 then (.zero (n != n'), 0)
    else
      let k := 130 + bitLen m'
      let x := m * 2 ^ k
      (.fin (n != n') (x / m') (e - e' - k) (decide (x % m' ≠ 0)), 0)

/-- The integer square root by trying bits from the top: `r` so far, bits below `b`. -/
def isqrt (n : Nat) : Nat → Nat → Nat
  | 0, r => r
  | b + 1, r => let t := r + 2 ^ b; isqrt n b (if t * t ≤ n then t else r)

/-- The exact square root (R61, R69). -/
def sqrtFV (a : FV) : FV × Nat :=
  match a with
  | .nan s => (.nan false, if s then fNV else 0)
  | .inf n => if n then (.nan false, fNV) else (.inf false, 0)
  | .fin n m e _ =>
    if m = 0 then (.zero n, 0)
    else if n then (.nan false, fNV)
    else
      let odd := decide (e % 2 ≠ 0)
      let m1 := if odd then 2 * m else m
      let e1 := if odd then e - 1 else e
      let x := m1 * 2 ^ 280
      let r := isqrt x (bitLen x / 2 + 1) 0
      (.fin false r (e1 / 2 - 140) (decide (r * r ≠ x)), 0)

/-- The product of the roots 2^(2^−i) for the bits set in a fraction of `k` bits, as a fixed-point number of 256
fraction bits; `c` is the current root. -/
def exp2Loop (f : Nat) : Nat → Nat → Nat → Nat
  | 0, _, acc => acc
  | k + 1, c, acc =>
    let r := isqrt (c * 2 ^ 256) 258 0
    exp2Loop f k r (if bit f k then acc * r / 2 ^ 256 else acc)

/-- 2 to the power of a value (R69). -/
def exp2FV (a : FV) : FV × Nat :=
  match a with
  | .nan s => (.nan false, if s then fNV else 0)
  | .inf n => if n then (.zero false, 0) else (.inf false, 0)
  | .fin n m e _ =>
    if m = 0 then (.fin false 1 0 false, 0)
    else
      let top : Int := e + (bitLen m : Nat)          -- |x| < 2^top
      if 12 < top then
        -- far beyond every format: an overflow or an underflow
        (.fin false (2 ^ 200) (if n then -5000 else 5000) true, 0)
      else if top < -160 then
        (if n then .fin false (2 ^ 200 - 1) (-200) true else .fin false (2 ^ 200) (-200) true, 0)
      else
        -- x as an integer multiple of 2^−216 (truncated: the rest is sticky)
        let sh : Int := e + 216
        let mag := if 0 ≤ sh then m * 2 ^ sh.toNat else m / 2 ^ (-sh).toNat
        let lost := decide (sh < 0) && decide (m % 2 ^ (-sh).toNat ≠ 0)
        let neg := n && (decide (mag ≠ 0) || lost)
        let x : Int := if neg then -(mag : Int) - (if lost then 1 else 0) else (mag : Int)
        let ip := x / (2 ^ 216 : Nat)
        let fr := (x % (2 ^ 216 : Nat)).toNat
        if fr = 0 ∧ lost = false then (.fin false 1 ip false, 0)
        else
          let y := exp2Loop fr 216 (2 ^ 257) (2 ^ 256)
          (.fin false (y / 2 ^ 40) (ip - 216) true, 0)

/-- The order of two values that are no NaN: −1, 0 or 1; −0 and +0 are equal. -/
def cmpFV (a b : FV) : Int :=
  match a, b with
  | .inf n, .inf n' => if n = n' then 0 else if n then -1 else 1
  | .inf n, _ => if n then -1 else 1
  | _, .inf n => if n then 1 else -1
  | x, y =>
    let q := if x.isZero then y.expo else if y.isZero then x.expo else min x.expo y.expo
    let d := (if x.isZero then 0 else x.atScale q) - (if y.isZero then 0 else y.atScale q)
    if d < 0 then -1 else if d = 0 then 0 else 1

/-- The code of MIN or MAX of two codes and its flags (R63). -/
def minmax (f : Fmt) (isMax : Bool) (x y : Nat) : Nat × Nat :=
  let a := f.decode x
  let b := f.decode y
  let nv := if a.isSig || b.isSig then fNV else 0
  if a.isNan && b.isNan then (f.nanCode, nv)
  else if a.isNan then (y, nv)
  else if b.isNan then (x, nv)
  else
    let c := cmpFV a b
    let less := decide (c < 0) || (decide (c = 0) && a.neg && !b.neg)   -- a orders below b
    (if less != isMax then x else y, nv)

/-- A relation of two codes: 0 eq, 1 lt, 2 le (R133, R196). -/
def relate (f : Fmt) (r : Nat) (x y : Nat) : Bool × Nat :=
  let a := f.decode x
  let b := f.decode y
  if a.isNan || b.isNan then
    (false, if r = 0 then (if a.isSig || b.isSig then fNV else 0) else fNV)
  else
    let c := cmpFV a b
    (match r with | 0 => decide (c = 0) | 1 => decide (c < 0) | _ => decide (c ≤ 0), 0)

/-- The class mask of a code (R134). -/
def classOf (f : Fmt) (x : Nat) : Nat :=
  match f.decode x with
  | .nan s => if s then 2 ^ 8 else 2 ^ 9
  | .inf n => if n then 1 else 2 ^ 7
  | .fin n m _ _ =>
    if m = 0 then (if n then 2 ^ 3 else 2 ^ 4)
    else if m < 2 ^ f.fb then (if n then 2 ^ 2 else 2 ^ 5)
    else (if n then 2 else 2 ^ 6)

/-- Sign operations on a code: 0 kept, 1 flipped, 2 cleared; a NaN gives the canonical NaN (R133). -/
def moveSign (f : Fmt) (k : Nat) (x : Nat) : Nat × Nat :=
  let v := f.decode x
  let mag := x % 2 ^ (f.w - 1)
  if v.isNan then (f.nanCode, if v.isSig then fNV else 0)
  else (f.withSign (match k with | 0 => v.neg | 1 => !v.neg | _ => false) mag, 0)

/-- A value converted to an integer of `w` bits under a mode, with the draw (R57, R63): the integer and the flags. -/
def toIntFV (w : Nat) (signed : Bool) (mode u : Nat) (x : FV) : Int × Nat :=
  let lo : Int := if signed then -(2 ^ (w - 1) : Nat) else 0
  let hi : Int := if signed then (2 ^ (w - 1) : Nat) - 1 else (2 ^ w : Nat) - 1
  match x with
  | .nan _ => (hi, fNV)
  | .inf n => (if n then lo else hi, fNV)
  | .fin n m e st =>
    let r := roundAt mode u n m e st 0
    let v : Int := if n then -(r.1 : Int) else r.1
    if v < lo then (lo, fNV) else if hi < v then (hi, fNV) else (v, if r.2 then fNX else 0)

/-- An integer as an exact value. -/
def ofIntFV (x : Int) : FV := .fin (decide (x < 0)) x.natAbs 0 false

/-- An E8M0 scale as an exact value (R50): none for 0xFF. -/
def scaleFV (k : Nat) : FV := if k = 255 then .nan true else .fin false 1 ((k : Int) - 127) false

/-! ### DS8 (R55, R56) -/

/-- A term of a DS8 byte in units of 2^−6. -/
def ds8Term (t : Nat) : Int :=
  let k := t % 8
  if k = 7 then 0 else if t / 8 = 1 then -(2 ^ (6 - k) : Nat) else (2 ^ (6 - k) : Nat)

/-- The value of a DS8 byte in units of 2^−6. -/
def ds8Units (b : Nat) : Int := ds8Term (b / 16) + ds8Term (b % 16)

/-- The value of a DS8 byte (R55). -/
def ds8FV (b : Nat) : FV := let u := ds8Units b; .fin (decide (u < 0)) u.natAbs (-6) false

/-- A zero term carries sign 0. -/
def ds8Clean (b : Nat) : Bool := decide (b / 16 ≠ 15) && decide (b % 16 ≠ 15)

/-- The preference among encodings of one value: fewer terms, |term 1| ≥ |term 2|, smaller |term 1| (R56). -/
def ds8Rank (b : Nat) : Nat :=
  let t1 := (ds8Term (b / 16)).natAbs
  let t2 := (ds8Term (b % 16)).natAbs
  ((if t1 = 0 then 0 else 1) + (if t2 = 0 then 0 else 1)) * 1000 + (if t1 < t2 then 500 else 0) + t1

/-- The canonical encoding of a value (R56). -/
def ds8Encode (u : Int) : Nat :=
  if u = 0 then 0x77 else
    (List.range 256).foldl (fun best b =>
      if ds8Clean b && decide (ds8Units b = u) && (decide (best = 256) || decide (ds8Rank b < ds8Rank best)) then b
      else best) 256

/-- Whether a number of units of 2^−6 is a DS8 value. -/
def isDs8 (u : Int) : Bool := (List.range 256).any (fun b => decide (ds8Units b = u))

/-- The first DS8 value at or below `u`, or at or above it, within `n` steps. -/
def ds8Seek (step : Int) : Nat → Int → Int
  | 0, u => u
  | n + 1, u => if isDs8 u then u else ds8Seek step n (u + step)

/-- Rounding to DS8 (R56): byte and flags. -/
def roundDs8 (mode : Nat) (x : FV) : Nat × Nat :=
  match x with
  | .nan _ => (0x77, fNV)
  | .inf n => (ds8Encode (if n then -128 else 128), fOF + fNX)
  | .fin n m e st =>
    -- |x| = k/64 + r, with 0 ≤ r < 1/64
    let r := roundAt 1 0 n m e st (-6)
    if 128 < r.1 ∨ (r.1 = 128 ∧ r.2) then (ds8Encode (if n then -128 else 128), fOF + fNX)
    else
      let exactMember := !r.2 && isDs8 (r.1 : Nat)
      if exactMember then (ds8Encode (if n then -(r.1 : Int) else r.1), 0)
      else
        let lo := ds8Seek (-1) 130 (r.1 : Int)
        let hi := ds8Seek 1 130 ((r.1 : Int) + 1)
        let hi := if r.2 then hi else ds8Seek 1 130 (r.1 : Int)
        -- twice the value against lo + hi, in units of 2^−6
        let up : Bool := match mode with
          | 1 => false
          | 2 => n
          | 3 => !n
          | _ =>
            let mid := (lo + hi).toNat
            -- |x| × 2 against mid
            let t := roundAt 1 0 false m (e + 1) st (-6)
            decide (mid < t.1) || (decide (t.1 = mid) && t.2)
        let v := if up then hi else lo
        let small := decide (r.1 = 0)
        (ds8Encode (if n then -v else v), fNX + (if small then fUF else 0))

end Sys2Proof.Machine
end

