-- ==== Sys2Proof/Machine/Flags.lean ====
section
/-! DEFINITION. FCSR (R39): the rounding mode, the trap enables, and how the flags of an instruction are gathered (R61, R62). -/

namespace Sys2Proof.Machine

/-- FCSR.FRM (R39). -/
def frm (csr : FMap W64) : Nat := bits (fget 0 csr cFCSR).toNat 7 5

/-- FCSR.FEN in the layout of FLG (R39). -/
def fen (csr : FMap W64) : Nat := bits (fget 0 csr cFCSR).toNat 12 8

/-- ORs flags into FCSR.FLG (R62). -/
def Arch.orFlags (a : Arch) (f : Nat) : Arch := a.wcsr cFCSR (a.rcsr cFCSR ||| BitVec.ofNat 64 (f % 32))

/-- What a vector instruction has done so far: registers, the generator, the flags raised, the lowest element that raised an
enabled one, and the value for the BQ. -/
structure VAcc where
  arch : Arch
  seed : W64
  fl   : Nat
  fpe  : Option Nat
  bq   : Option W64
  deriving DecidableEq, Repr

/-- Nothing done yet. -/
def VAcc.start (a : Arch) : VAcc := { arch := a, seed := a.rcsr cSRSEED, fl := 0, fpe := none, bq := none }

/-- Adds the flags of element `e` (R62, R308). -/
def VAcc.flag (v : VAcc) (enabled e f : Nat) : VAcc :=
  { v with fl := fOr v.fl f, fpe := match v.fpe with
    | some k => some k
    | none => if f &&& enabled ≠ 0 then some e else none }

/-- Round with a draw of the generator (R59, R60): the code, and the flags added. -/
def VAcc.round (v : VAcc) (f : Fmt) (mode : Nat) (sat : Bool) (enabled e : Nat) (x : FV × Nat) : Nat × VAcc :=
  let r := roundStep f mode sat v.seed x.1
  let fl := fOr x.2 (if x.2 &&& fNV ≠ 0 then 0 else r.2.1)
  (r.1, { v with seed := r.2.2 }.flag enabled e fl)

end Sys2Proof.Machine
end

