-- ==== Sys2Proof/Machine/Operands.lean ====
section
/-! DEFINITION. The operand forms of vector instructions: groups, masks, second operands and element loops (R37, R38, R78,
R172 to R175). -/

namespace Sys2Proof.Machine

/-- The VTYPE an instruction carries (R23), VL, SEW, LMUL and VLENB. -/
def QEntry.vt (e : QEntry) : W64 := fget 0 e.csr cVTYPE
def QEntry.vl (e : QEntry) : Nat := (fget 0 e.csr cVL).toNat
def QEntry.sew (e : QEntry) : Nat := vtBits e.vt
def QEntry.lmul (e : QEntry) : Nat := vtLmul e.vt
def QEntry.vb (e : QEntry) : Nat := e.grant.vlenb
def QEntry.vlmax (e : QEntry) : Nat := Sys2Proof.Machine.vlmax e.grant e.vt
def QEntry.frm (e : QEntry) : Nat := Sys2Proof.Machine.frm e.csr
def QEntry.fen (e : QEntry) : Nat := Sys2Proof.Machine.fen e.csr
/-- The float format of VTYPE. -/
def QEntry.fmt (e : QEntry) : Fmt := fmtOf e.vt
/-- VTYPE.CLS is signed or unsigned. -/
def QEntry.isInt (e : QEntry) : Bool := decide (vtCls e.vt ≤ 1)
def QEntry.isFloat (e : QEntry) : Bool := vtFloat e.vt
def QEntry.isSigned (e : QEntry) : Bool := vtSigned e.vt

/-- A legal base of a group of `g` registers (R37, R78). -/
def groupOk (n g : Nat) : Bool := decide (1 ≤ g) && decide (g ≤ 8) && decide (n % g = 0) && decide (n + g ≤ 32)

/-- The size of the group that holds elements of width `w` (R156, R183). -/
def QEntry.groupOf (e : QEntry) (w : Nat) : Nat := max 1 (e.lmul * w / e.sew)

/-- A group of width `w` fits: its size does not exceed 8 before rounding to one register (R78, R183). -/
def QEntry.wideOk (e : QEntry) (n w : Nat) : Bool := decide (e.lmul * w ≤ 8 * e.sew) && groupOk n (e.groupOf w)

/-- Two groups share a register. -/
def overlap (n g n' g' : Nat) : Bool := decide (n < n' + g') && decide (n' < n + g)

/-- Groups of different element widths that share a register trap ILL (R175). -/
def QEntry.disjointOk (e : QEntry) (n w n' w' : Nat) : Bool :=
  decide (w = w') || !overlap n (e.groupOf w) n' (e.groupOf w')

/-- A group of LMUL registers. -/
def QEntry.groupHere (e : QEntry) (n : Nat) : Bool := groupOk n e.lmul

/-- The B operand is a legal group, where it is one. -/
def QEntry.srcOk (e : QEntry) : VSrc → Bool
  | .vec n => e.groupHere n
  | _ => true

/-- Element `i` of the second operand at SEW (R173). -/
def QEntry.src (e : QEntry) (a : Arch) (b : VSrc) (i : Nat) : Nat :=
  match b with
  | .vec n => getElem a e.vb e.sew n i
  | .scal x => x.toNat % 2 ^ e.sew
  | .imm k => wrap e.sew k

/-- The active elements below VL under mask `m`, ascending (R38). -/
def QEntry.active (e : QEntry) (a : Arch) (m : Nat) : List Nat := (List.range e.vl).filter (fun i => getMask a m i)

/-- Runs a step over a list of elements. -/
def eachElem (is : List Nat) (v : VAcc) (f : VAcc → Nat → VAcc) : VAcc := is.foldl f v

/-- Writes element `i` of width `w` of a group. -/
def VAcc.set (v : VAcc) (vb w d i x : Nat) : VAcc := { v with arch := setElem v.arch vb w d i x }

/-- A value delivered to the BQ: the element extended to 64 bits (R190). -/
def QEntry.extend (e : QEntry) (x : Nat) : W64 :=
  if e.isSigned then BitVec.ofInt 64 (toSigned e.sew x) else BitVec.ofNat 64 (x % 2 ^ e.sew)

end Sys2Proof.Machine
end

