-- ==== Sys2Proof/Machine/VFp.lean ====
section
/-! DEFINITION. Floating vector arithmetic (R179, R180), conversions (R181 to R187). -/

namespace Sys2Proof.Machine

/-- A function that is legal only at SEW 16 and above (R179). -/
def FpFn.wide : FpFn → Bool
  | .add => true | .sub => true | .mul => true | .div => true | .sqrt => true | .macc => true | .nmacc => true
  | .exp2 => true | _ => false

/-- The exact value of a rounding function and the flags of its operation (R180); none for a function that does not
round. -/
def fpExact (f : FpFn) (mode : Nat) (a y d : FV) : Option (FV × Nat) :=
  match f with
  | .add => some (sumFV mode [a, y])
  | .sub => some (sumFV mode [a, y.negate])
  | .mul => some (mulFV a y)
  | .div => some (divFV a y)
  | .sqrt => some (sqrtFV a)
  | .macc => some (fmaFV mode a y d)
  | .nmacc => some (fmaFV mode a.negate y d)
  | .exp2 => some (exp2FV a)
  | _ => none

/-- The code and flags of a function that does not round (R180). -/
def fpMoved (f : FpFn) (t : Fmt) (a y : Nat) : Nat × Nat :=
  let top := 2 ^ (t.w - 1)
  let sg (x : Nat) : Bool := bit x (t.w - 1)
  match f with
  | .min => minmax t false a y
  | .max => minmax t true a y
  | .sgnj => (t.withSign (sg y) (a % top), 0)
  | .sgnjn => (t.withSign (!sg y) (a % top), 0)
  | .sgnjx => (t.withSign (sg a != sg y) (a % top), 0)
  | .class_ => (Nat.log2 (classOf t a), 0)
  | _ => (y, 0)

/-- VFP and VFPX (R179, R180): none is ILL. -/
def runFp (e : QEntry) (a0 : Arch) (f : FpFn) (d a : Nat) (b : VSrc) (m : Nat) : Option VAcc :=
  if e.isFloat && (!f.wide || decide (16 ≤ e.sew)) && e.groupHere d && e.groupHere a && e.srcOk b then
    let t := e.fmt
    some (eachElem (e.active a0 m) (VAcc.start a0) (fun v i =>
      let x := getElem a0 e.vb e.sew a i
      let y := e.src a0 b i
      match fpExact f e.frm (t.decode x) (t.decode y) (t.decode (getElem a0 e.vb e.sew d i)) with
      | some r => let o := v.round t e.frm false e.fen i r; o.2.set e.vb e.sew d i o.1
      | none => let r := fpMoved f t x y; (v.flag e.fen i r.2).set e.vb e.sew d i r.1))
  else none

/-! ### Conversions -/

/-- The float formats by code (R181). -/
def floatCode : Nat → Option Fmt
  | 0 => some fp64 | 1 => some fp32 | 2 => some fp16 | 3 => some bf16 | 4 => some e4m3 | 5 => some e5m2 | 6 => some fp4
  | _ => none

/-- The narrow formats by code (R181): a float format, or an integer width and signedness. -/
def narrowCode : Nat → Option (Fmt ⊕ (Nat × Bool))
  | 0 => some (.inl e4m3) | 1 => some (.inl e5m2) | 2 => some (.inl fp4)
  | 3 => some (.inr (8, true)) | 4 => some (.inr (4, true)) | 5 => some (.inr (8, false)) | 6 => some (.inr (4, false))
  | _ => none

/-- Round for a conversion whose operation may already have raised NV (R61). -/
def VAcc.roundInt (v : VAcc) (w : Nat) (signed : Bool) (mode enabled i : Nat) (x : FV) : Nat × VAcc :=
  let u := draw mode v.seed
  let r := toIntFV w signed mode u.1 x
  (wrap w r.1, { v with seed := u.2 }.flag enabled i r.2)

/-- x / σ exactly (R185): a scale is a power of two. -/
def unscale (x : FV) (k : Nat) : FV :=
  match x with
  | .fin n m ex st => .fin n m (ex - ((k : Int) - 127)) st
  | y => y

/-- A legal SAT (R181): only into E4M3, E5M2 and FP4. -/
def satOk (s : Nat) (t : Fmt) : Bool := decide (s = 0) || decide (t.w ≤ 8)

/-- The shape checks of a conversion between the VT group `n` and the group `n'` of width `w` (R183). -/
def QEntry.cvtOk (e : QEntry) (n n' w : Nat) : Bool := e.groupHere n && e.wideOk n' w && e.disjointOk n e.sew n' w

/-- VCVT (R182 to R187): none is ILL. -/
def runCvt (e : QEntry) (a0 : Arch) (f : CvtFn) (d a m s t : Nat) : Option VAcc :=
  let act := e.active a0 m
  let v0 := VAcc.start a0
  let w := e.sew
  match f with
  | .ff =>
    match floatCode t with
    | none => none
    | some src =>
      if e.isFloat && e.cvtOk d a src.w && satOk s e.fmt then
        some (eachElem act v0 (fun v i =>
          let x := src.decode (getElem a0 e.vb src.w a i)
          let o := v.round e.fmt e.frm (decide (s = 1)) e.fen i (x, if x.isSig then fNV else 0)
          o.2.set e.vb w d i o.1))
      else none
  | .int =>
    let ws := 8 * 2 ^ (t / 2)
    if e.isFloat && e.cvtOk d a ws && satOk s e.fmt then
      some (eachElem act v0 (fun v i =>
        let k := getElem a0 e.vb ws a i
        let x := ofIntFV (if t % 2 = 0 then toSigned ws k else (k : Int))
        let o := v.round e.fmt e.frm (decide (s = 1)) e.fen i (x, 0)
        o.2.set e.vb w d i o.1))
    else none
  | .fi =>
    match floatCode t with
    | none => none
    | some src =>
      if e.isInt && decide (8 ≤ w) && e.cvtOk d a src.w then
        some (eachElem act v0 (fun v i =>
          let o := v.roundInt w e.isSigned e.frm e.fen i (src.decode (getElem a0 e.vb src.w a i))
          o.2.set e.vb w d i o.1))
      else none
  | .narrow =>
    let ws := 4 * 2 ^ t
    if e.isInt && decide (w < ws) && decide (t ≤ 4) && e.cvtOk d a ws then
      some (eachElem act v0 (fun v i =>
        let k := getElem a0 e.vb ws a i
        v.set e.vb w d i (if e.isSigned then
            wrap w (clampInt (toSigned ws k) (-(2 ^ (w - 1) : Nat)) ((2 ^ (w - 1) : Nat) - 1))
          else min k (2 ^ w - 1))))
    else none
  | .widen =>
    let ws := 4 * 2 ^ t
    if e.isInt && decide (ws < w) && decide (t ≤ 4) && e.cvtOk d a ws then
      some (eachElem act v0 (fun v i =>
        let k := getElem a0 e.vb ws a i
        v.set e.vb w d i (if e.isSigned then wrap w (toSigned ws k) else k)))
    else none
  | .deq =>
    if !(e.isFloat && (decide (w = 16) || decide (w = 32))) then none
    else match narrowCode t with
    | none => none
    | some nf =>
      let ws := match nf with | .inl g => g.w | .inr (k, _) => k
      if e.cvtOk d a ws then
        some (eachElem act v0 (fun v i =>
          let k := getElem a0 e.vb ws a i
          let x := match nf with
            | .inl g => g.decode k
            | .inr (_, sg) => ofIntFV (if sg then toSigned ws k else (k : Int))
          let o := v.round e.fmt e.frm false e.fen i (mulFV x (scaleFV (getScale a0 (a % 8) (i / vtBlk e.vt))))
          o.2.set e.vb w d i o.1))
      else none
  | .quant =>
    if !(e.isFloat && (decide (w = 16) || decide (w = 32))) then none
    else match narrowCode t with
    | none => none
    | some nf =>
      let ws := match nf with | .inl g => g.w | .inr (k, _) => k
      if e.cvtOk a d ws && (decide (s = 0) || decide (t ≤ 2)) then
        some (eachElem act v0 (fun v i =>
          let k := getScale a0 (d % 8) (i / vtBlk e.vt)
          let x := e.fmt.decode (getElem a0 e.vb w a i)
          let bad := x.isNan || decide (k = 255)
          let y := if bad then FV.nan false else unscale x k
          match nf with
          | .inl g =>
            let o := v.round g e.frm (decide (s = 1)) e.fen i (y, if bad then fNV else 0)
            o.2.set e.vb ws d i o.1
          | .inr (_, sg) =>
            let o := v.roundInt ws sg e.frm e.fen i y
            o.2.set e.vb ws d i o.1))
      else none
  | .qmv =>
    if decide (w = 8) && decide (vtCls e.vt = 1) && decide (e.lmul = 1) && decide (d < 8) then
      some (eachElem act v0 (fun v i => { v with arch := setScale v.arch d i (getElem a0 e.vb 8 a i) }))
    else none
  | .qrd =>
    if decide (w = 8) && decide (vtCls e.vt = 1) && decide (e.lmul = 1) && decide (a < 8) then
      some (eachElem act v0 (fun v i => v.set e.vb 8 d i (getScale a0 a i)))
    else none
  | .ds8e =>
    match floatCode t with
    | none => none
    | some src =>
      if decide (vtCls e.vt = 3) && decide (1 ≤ t) && decide (t ≤ 3) && e.cvtOk d a src.w then
        some (eachElem act v0 (fun v i =>
          let x := src.decode (getElem a0 e.vb src.w a i)
          let r := roundDs8 e.frm x
          (v.flag e.fen i (fOr r.2 (if x.isSig then fNV else 0))).set e.vb 8 d i r.1))
      else none
  | .ds8d =>
    if e.isFloat && (decide (w = 16) || decide (w = 32)) && e.cvtOk d a 8 then
      some (eachElem act v0 (fun v i =>
        v.set e.vb w d i (roundTo e.fmt 0 false 0 (ds8FV (getElem a0 e.vb 8 a i))).1))
    else none

end Sys2Proof.Machine
end

