-- ==== Sys2Proof/Machine/Translate.lean ====
section
/-! DEFINITION. Address translation, bounds tags, watchpoints and the checks of an access (R152, R153, R268, R315,
R316, R320, R342 to R345). -/

namespace Sys2Proof.Machine

/-! ### The physical map -/

/-- Fibonacci hash of a granule number (R344). -/
def spreadHash (g : Nat) : Nat := g * 0x9E3779B97F4A7C15 % 2 ^ 64

/-- The recorded HBM4E page that holds a physical address: its base and record (R344). -/
def pageOf (s : State) (pa : Nat) : Option (Nat × Page) :=
  s.ms.pages.findSome? (fun e => match e.2 with
    | some p => if e.1 ≤ pa ∧ pa < e.1 + p.size then some (e.1, p) else none
    | none => none)

/-- The pseudo-channel and bank of a granule of an HBM4E page (R343, R344): the count G of an interleaved page begins at the first byte of the
recorded page, and a granule outside every recorded page lies spread (logged as assumption 90). -/
def channelOf (s : State) (pa : Nat) : Nat × Nat :=
  match pageOf s pa with
  | some (base, p) =>
    if p.il then
      let G := (pa - base) / 64
      let k := 2 ^ p.lsk
      let c := p.lsbase + G % k
      (192 * (c / 32) + 6 * (c % 32) + G / k % 6, G / (6 * k) % 16)
    else
      let h := spreadHash (pa / 64)
      (h / 2 ^ 32 * Config.pseudoChannels s.bare / 2 ^ 32, bits h 19 16)
  | none =>
    let h := spreadHash (pa / 64)
    (h / 2 ^ 32 * Config.pseudoChannels s.bare / 2 ^ 32, bits h 19 16)

/-- Addressed granary of a die (R349). -/
def granarySize (s : State) (d : Nat) : Nat :=
  match s.disp.dieRegs[d]? with
  | some r => r.ab * 0x100_0000
  | none => 0

/-- The granary die of an address, if it lies in directly addressed granary (R342). -/
def granaryDie (s : State) (pa : Nat) : Option Nat :=
  if 0x8_0000_0000_0000 ≤ pa then
    let d := (pa - 0x8_0000_0000_0000) / 0x1000_0000
    if d < Config.dies s.bare ∧ (pa - 0x8_0000_0000_0000) % 0x1000_0000 < granarySize s d then some d else none
  else none

/-- The home die of a home address (R271, R343). -/
def homeDie (s : State) (h : Nat) : Nat :=
  if 0xF_0000_0000_0000 ≤ h then (h - 0xF_0000_0000_0000) / 0x20_0000 / 32
  else if 0x8_0000_0000_0000 ≤ h then (h - 0x8_0000_0000_0000) / 0x1000_0000
  else (channelOf s h).1 / 192

/-! ### Resources and paths (R341, R343, R347, R349, R350, R403) -/

/-- The place of the byte at offset `o` of a die's addressed granary: the bank, and the offset in it (R349). -/
def granaryPlace (o : Nat) : Nat × Nat := (o / 64 % 256, o / 64 / 256 * 64 + o % 64)

/-- The line store holds the line of an HBM4E granule (R350). -/
def State.holdsLine (s : State) (g : Nat) : Bool := (fget none s.ms.lines g).isSome

/-- The controller that an access to a granule meets and the bank behind it: pseudo-channels from 0, granary banks from 1024; none for a
scratchpad.  A read of a line that the line store holds (`hit`) meets the bank that holds it; every write of HBM4E meets its pseudo-channel (R344, R349,
R350, R351). -/
def resourceOf (s : State) (g : Nat) (write hit : Bool) : Option (Nat × Nat) :=
  let a := g * 64
  if 0xF_0000_0000_0000 ≤ a then none
  else if 0x8_0000_0000_0000 ≤ a then
    some (1024 + homeDie s a * 256 + (granaryPlace ((a - 0x8_0000_0000_0000) % 0x1000_0000)).1, 0)
  else if !write && hit then some (1024 + homeDie s a * 256 + g % 256, 0)
  else some (channelOf s a)

/-- UCIe boundaries that traffic between two dies crosses (R380). -/
def hops (d e : Nat) : Nat := if d = e then 0 else if d + e = 3 then 2 else 1

/-- The latency of the path from a cluster, or from an engine of its die, to a controller (R347, R403). -/
def pathTo (cl c : Nat) (engine : Bool) : Nat :=
  if c < 1024 then
    if c / 192 = cl / 32 then (if !engine && decide (c / 6 = cl) then 600 else 650) else 650 + 110 * hops (c / 192) (cl / 32)
  else
    let d := (c - 1024) / 256
    if d = cl / 32 then (if !engine && decide ((c - 1024) % 256 / 8 = cl % 32) then 60 else 110) else 110 + 110 * hops d (cl / 32)

/-- The latency of the path to the scratchpad of a cluster (R347, R403). -/
def pathToScratch (cl c : Nat) (engine : Bool) : Nat :=
  if engine then 40 + 110 * hops (c / 32) (cl / 32) else if c = cl then 12 else 40

/-- The request part of a latency and its return part (R347). -/
def requestPart (c l : Nat) : Nat := if c < 1024 then 280 + (l - 600) / 2 else l / 2
def returnPart (c l : Nat) : Nat := if c < 1024 then 320 + (l - 600) / 2 else l / 2

/-- An access sets off from a cluster, or from an engine of its die: its request arrives after the request part of its path.  An access to a
scratchpad meets no controller, and its data returns by itself (R339, R347).  The line store is looked up once, as the request sets off (R347 gives no
other moment; logged as assumption 111).  Where no timing is kept nothing sets off (logged as assumption 14). -/
def State.demand (s : State) (cl : Nat) (engine : Bool) (q : Sys2Proof.MemReq) : State :=
  if !s.ms.timed then s
  else
    let q := { q with hit := s.holdsLine q.granule }
    match resourceOf s q.granule q.write q.hit with
    | some (c, _) => { s with ms := { s.ms with flights := s.ms.flights ++ [(s.now + requestPart c (pathTo cl c engine), q)] } }
    | none => match q.dest with
      | .nothing => s
      | _ => { s with ms := { s.ms with returns := s.ms.returns ++
          [(s.now + pathToScratch cl ((q.granule * 64 - 0xF_0000_0000_0000) / 0x20_0000) engine, q)] } }

/-- The accesses that hart `h` makes to granules from cluster `cl` (R339). -/
def State.demands (s : State) (h cl : Nat) (write : Bool) (dest : Sys2Proof.DataTo) (gs : List Nat) : State :=
  gs.foldl (fun s g => s.demand cl false
    { granule := g, cls := .d, write := write, hart := some h, chan := none, dest := dest, issued := s.now, hit := false }) s

/-- The reads that a queued instruction of hart `h` has noted set off, each from the cluster that makes it, or from the lowest (R339, R347). -/
def State.sendAsks (s : State) (h low : Nat) (asks : List (Nat × Option Nat)) : State :=
  asks.foldl (fun s a => s.demands h (a.2.getD low) false (.queued (a.2.getD low)) [a.1]) s

/-- The writes and reductions that a committed sheaf of hart `h` has buffered set off, each from the cluster that has buffered it, or from the lowest
(R262, R339, R347). -/
def State.sendPuts (s : State) (h low : Nat) (puts : List (Nat × Option Nat)) : State :=
  puts.foldl (fun s a => s.demands h (a.2.getD low) true .nothing [a.1]) s

/-! ### The walk (R315) -/

/-- Whether a leaf of `size` bytes at physical address `pa` is one that translation accepts (R315, R342, R344, R345).  A leaf on an HBM4E page
without a recorded interleave, or one larger than its recorded page, is not; a smaller one is (logged as assumption 90). -/
def leafOk (s : State) (e size : Nat) : Bool :=
  let pa := bits e 51 8 * 256
  let il := bit e 63
  let base := bits e 62 56
  let k := bits e 55 53
  decide (pa % size = 0) &&
  (if pa + size ≤ Config.hbmBytes s.bare then
    (il || (decide (base = 0) && decide (k = 0)))
    && (!il || (decide (k ≤ 5) && decide (base + 2 ^ k ≤ Config.clusters s.bare)
                && decide (base / 32 = (base + 2 ^ k - 1) / 32)))
    && (match pageOf s pa with
        | some (b, p) => decide (pa + size ≤ b + p.size) && decide (p.il = il)
                         && decide (p.lsbase = base) && decide (p.lsk = k)
        | none => false)
    && !(s.ms.bad.any (fun r => decide (pa < r.1 * 0x1_0000 + 0x1_0000) && decide (r.1 * 0x1_0000 < pa + size)))
   else
    decide (size ≤ 0x20_0000) && !il && decide (base = 0) && decide (k = 0)
    && (match granaryDie s pa with
        | some d => decide ((pa - 0x8_0000_0000_0000) % 0x1000_0000 + size ≤ granarySize s d)
        | none => false))

/-- The walk from the table at `tab`: levels as (shift, index bits, leaf size or 0, alignment of the next table). -/
def walkFrom (s : State) (a : Nat) : List (Nat × Nat × Nat × Nat) → Nat → Option (Nat × Nat)
  | [], _ => none
  | (sh, nb, size, align) :: rest, tab =>
    let e := memNat s (tab + a / 2 ^ sh % 2 ^ nb * 8) 8
    if !bit e 0 ∨ bit e 52 ∨ bits e 7 6 ≠ 0 then none
    else if bit e 1 then
      if size = 0 ∨ !leafOk s e size then none else some (e, size)
    else
      let next := bits e 51 8 * 256
      if bits e 63 53 ≠ 0 ∨ align = 0 ∨ next % align ≠ 0 then none else walkFrom s a rest next

/-- The four levels of R315. -/
def levels : List (Nat × Nat × Nat × Nat) :=
  [(44, 14, 0, 131072), (30, 14, 0x4000_0000, 4096), (21, 9, 0x20_0000, 256), (16, 5, 0x1_0000, 0)]

/-- The leaf that translates the 58-bit address `a` and the size of its page: a TLB entry of the cluster where it
holds one, else the tables (R315, R316). -/
def leafFor (s : State) (cl : Nat) (root : W64) (a : Nat) : Option (Nat × Nat) :=
  match s.ms.tlbs.find? (fun t => decide (t.cluster = cl) && decide (t.ptroot = root)
      && decide (t.vbase ≤ a) && decide (a < t.vbase + t.size)) with
  | some t => some (t.leaf.toNat, t.size)
  | none => if root.toNat % 131072 ≠ 0 then none else walkFrom s a levels root.toNat

/-- Access kinds of TCAUSE.KIND (R307). -/
def kRead := 0
def kWrite := 1
def kReduce := 2
def kFetch := 3

/-- Whether a leaf permits a kind of access (R315). -/
def permits (e kind : Nat) (user : Bool) : Bool :=
  (!user || bit e 5) &&
  (match kind with | 0 => bit e 2 | 1 => bit e 3 | 2 => bit e 3 | _ => bit e 4)

/-- The physical address of the 58-bit address `a`, or none where translation fails (R315). -/
def xlate (s : State) (cl : Nat) (root : W64) (a kind : Nat) (user : Bool) : Option Nat :=
  match leafFor s cl root a with
  | some (e, size) => if permits e kind user then some (bits e 51 8 * 256 + a % size) else none
  | none => none

/-- The home address of a byte as cluster `cl` of the grant reaches it: through the scratchpad window or by translation (R152, R268,
R316). -/
def homeAt (s : State) (cl : Nat) (g : Grant) (root : W64) (a kind : Nat) (user : Bool) : Option Nat :=
  let t := a % 2 ^ 58
  if bits t 57 56 = 3 then
    if kind = kFetch then none
    else if t % 2 ^ 56 < g.scratch then some (g.windowHome (t % 2 ^ 56)) else none
  else xlate s cl root t kind user

/-- The home address of a byte as the lowest cluster of the grant reaches it, where the scalar side runs (R20). -/
def homeOf (s : State) (g : Grant) (root : W64) (a kind : Nat) (user : Bool) : Option Nat := homeAt s g.base g root a kind user

/-! ### Bounds (R153) -/

/-- Record `t` of the bounds table: LOW, HIGH and the permission word; zeros where it cannot be read (R112, R153). -/
def boundsRecord (s : State) (g : Grant) (csr : FMap W64) (t : Nat) : Nat × Nat × Nat :=
  let base := (fget 0 csr cBNDTAB).toNat
  if base = 0 ∨ base % 2048 ≠ 0 then (0, 0, 0)
  else
    match homeOf s g (fget 0 csr cPTROOT) (base + 32 * t) kRead false with
    | some h => if poisoned s h then (0, 0, 0) else (memNat s h 8, memNat s (h + 8) 8, memNat s (h + 16) 8)
    | none => (0, 0, 0)

/-- The bounds check of `n` bytes at `a` (R153 item 2). -/
def boundsOk (s : State) (g : Grant) (csr : FMap W64) (a n kind : Nat) : Bool :=
  let t := a / 2 ^ 58
  if t = 0 then unchk csr
  else
    let r := boundsRecord s g csr t
    let lo := a % 2 ^ 58
    decide (r.1 ≤ lo) && decide (lo + n ≤ r.2.1) && (if kind = kRead then bit r.2.2 0 else bit r.2.2 1)

/-! ### Watchpoints (R320) -/

/-- The lowest watchpoint that an element of `n` bytes at `a` hits, and whether its action is HOLD.  The range runs from WPLO to
WPHI − 1 on bits 57 to 0; one that WPHI ends before it begins is empty (logged as assumption 16). -/
def watchHit (csr : FMap W64) (a n kind : Nat) : Option (Nat × Bool) :=
  let lo := a % 2 ^ 58
  (List.range 16).findSome? (fun w =>
    let ctl := (fget 0 csr (0x420 + w)).toNat
    let wlo := (fget 0 csr (0x400 + w)).toNat % 2 ^ 58
    let whi := (fget 0 csr (0x410 + w)).toNat
    let last := (whi - 1) % 2 ^ 58
    if bit ctl 0 && bit ctl (kind + 1) && decide (whi ≠ 0) && decide (wlo ≤ last) && decide (lo ≤ last) && decide (wlo < lo + n) then
      some (w, decide (bits ctl 5 4 = 1))
    else none)

/-! ### The checks of R153, in order -/

/-- What an access that passes its checks is: its home address (of its first byte) and a HOLD hit. -/
structure Access where
  home : Nat
  hold : Option Nat
  deriving DecidableEq, Repr

/-- The checks of an access of `n` bytes at `a` that must be a multiple of `al`, made by cluster `cl` of the grant, but for MEMERR: the
cause of the first that fails, or the access (R127, R153). -/
def accessAt (s : State) (cl : Nat) (g : Grant) (csr : FMap W64) (sup : Bool) (a n kind al : Nat) : Except Nat Access :=
  if a % al ≠ 0 then .error 2
  else if !sup && !boundsOk s g csr a n kind then .error 4
  else
    match homeAt s cl g (fget 0 csr cPTROOT) a kind (!sup) with
    | none => .error 3
    | some h =>
      if sup then .ok { home := h, hold := none }
      else
        match watchHit csr a n kind with
        | some (w, true) => .ok { home := h, hold := some w }
        | some (_, false) => .error 5
        | none => .ok { home := h, hold := none }

/-- The checks of an access of the scalar side. -/
def access (s : State) (g : Grant) (csr : FMap W64) (sup : Bool) (a n kind al : Nat) : Except Nat Access :=
  accessAt s g.base g csr sup a n kind al

end Sys2Proof.Machine
end

