-- ==== Sys2Proof/Machine/Buffer.lean ====
section
/-! DEFINITION. What a sheaf records and buffers: recorded sets and their meeting (R267 to R270), the sheaf buffer and its
reservations (R262, R263), and the byte an access of the hart reads under the agent rules (R128, R169 to R171). -/

namespace Sys2Proof.Machine

/-! ### Recorded sets -/

/-- The two hash functions of R269. -/
def hashF (g : Nat) : Nat := (bits g 11 0 ^^^ bits g 23 12) ^^^ (bits g 35 24 ^^^ bits g 45 36)
def hashM (g : Nat) : Nat := g * 0x9E3779B97F4A7C15 % 2 ^ 64 / 2 ^ 52

def RecSet.empty : RecSet := { ranges := [], sa := 0, sb := 0, spill := [] }

/-- The set of the granules from `lo` to `hi`. -/
def RecSet.range (lo hi : Nat) : RecSet := { RecSet.empty with ranges := [(lo, hi)] }

/-- The ranges after a granule joins the first range it touches, if any (R268). -/
def joinRange (g : Nat) : List (Nat × Nat) → Option (List (Nat × Nat))
  | [] => none
  | (lo, hi) :: r =>
    if lo ≤ g + 1 ∧ g ≤ hi + 1 then some ((min lo g, max hi g) :: r)
    else (joinRange g r).map ((lo, hi) :: ·)

/-- Adds a granule to a set; `w` is the number of signature bits: 4,096, or 2,048 in a reduction set (R268). -/
def RecSet.add (w : Nat) (x : RecSet) (g : Nat) : RecSet :=
  match joinRange g x.ranges with
  | some r => { x with ranges := r }
  | none =>
    if x.ranges.length < 8 then { x with ranges := x.ranges ++ [(g, g)] }
    else { x with sa := x.sa ||| 2 ^ (hashF g % w), sb := x.sb ||| 2 ^ (hashM g % w),
                  spill := if x.spill.contains g then x.spill else x.spill ++ [g] }

/-- InSig (R269). -/
def RecSet.inSig (w : Nat) (x : RecSet) (g : Nat) : Bool := bit x.sa (hashF g % w) && bit x.sb (hashM g % w)

/-- Whether a set holds a granule or its signature reports it (R275). -/
def RecSet.holds (w : Nat) (x : RecSet) (g : Nat) : Bool :=
  x.ranges.any (fun r => decide (r.1 ≤ g) && decide (g ≤ r.2)) || x.inSig w g

/-- Some granule of a range has InSig. -/
def RecSet.sigMeets (w : Nat) (x : RecSet) (r : Nat × Nat) : Bool :=
  if x.sa = 0 ∨ x.sb = 0 then false
  else (List.range (r.2 + 1 - r.1)).any (fun i => x.inSig w (r.1 + i))

/-- Fold (R269). -/
def foldSig (x : Nat) : Nat := (x ||| x / 2 ^ 2048) % 2 ^ 2048

/-- A read set meets a write set or (`w` = 2,048) a reduction set (R270). -/
def RecSet.meets (w : Nat) (r x : RecSet) : Bool :=
  r.ranges.any (fun a => x.ranges.any (fun b => decide (a.1 ≤ b.2) && decide (b.1 ≤ a.2)))
  || x.ranges.any (r.sigMeets 4096)
  || r.ranges.any (x.sigMeets w)
  || (if w = 2048 then decide (foldSig r.sa &&& x.sa ≠ 0) && decide (foldSig r.sb &&& x.sb ≠ 0)
      else decide (r.sa &&& x.sa ≠ 0) && decide (r.sb &&& x.sb ≠ 0))

/-- A read of the sheaf, made by cluster `cl` or, where that is none, by the lowest of the grant (R20, R339). -/
def Sheaf.addReadAt (sh : Sheaf) (cl : Option Nat) (home n : Nat) : Sheaf :=
  { sh with rset := (granules home n).foldl (RecSet.add 4096) sh.rset,
            asks := sh.asks ++ ((granules home n).map (fun g => (g, cl))).filter (fun a => !sh.asks.contains a) }
def Sheaf.addRead (sh : Sheaf) (home n : Nat) : Sheaf := sh.addReadAt none home n

/-- Granules that the sheaf buffers writes or reductions of, in cluster `cl` or, where that is none, the lowest of the grant (R262, R347). -/
def Sheaf.addPuts (sh : Sheaf) (cl : Option Nat) (gs : List Nat) : List (Nat × Option Nat) :=
  sh.puts ++ (gs.map (fun g => (g, cl))).filter (fun a => !sh.puts.contains a)

/-- A write of the sheaf, buffered by cluster `cl`. -/
def Sheaf.addWriteAt (sh : Sheaf) (cl : Option Nat) (home n : Nat) : Sheaf :=
  { sh with wset := (granules home n).foldl (RecSet.add 4096) sh.wset, puts := sh.addPuts cl (granules home n) }
def Sheaf.addWrite (sh : Sheaf) (home n : Nat) : Sheaf := sh.addWriteAt none home n

/-- A reduction of the sheaf, buffered by cluster `cl`. -/
def Sheaf.addRedAt (sh : Sheaf) (cl : Option Nat) (home n : Nat) : Sheaf :=
  { sh with dset := (granules home n).foldl (RecSet.add 2048) sh.dset, puts := sh.addPuts cl (granules home n) }

/-- Every granule of a recorded set. -/
def RecSet.all (x : RecSet) : List Nat := x.ranges.flatMap (fun r => (List.range (r.2 + 1 - r.1)).map (fun i => r.1 + i)) ++ x.spill

/-- The home dies of what a sheaf recorded, in ascending order (R271). -/
def Sheaf.dies (s : State) (sh : Sheaf) : List Nat :=
  (List.range 4).filter (fun d => (sh.rset.all ++ sh.wset.all ++ sh.dset.all).any (fun g => decide (homeDie s (g * 64) = d)))

/-! ### The byte an access sees -/

/-- Who reads: the agent, the place of its instruction in the sheaf, and the fences before it. -/
structure Reader where
  agent : Agent
  seq   : Nat
  nSV   : Nat
  nVS   : Nat
  nVV   : Nat
  deriving DecidableEq, Repr

/-- Whether a write is ordered before a later access of the sheaf by the agent rules and the fences (R128, R169,
R170, R171). -/
def ordered (w : WRec) (r : Reader) : Bool :=
  match w.agent, r.agent with
  | .scalar, .scalar => true
  | .scalar, _ => decide (w.nSV < r.nSV)
  | _, .scalar => decide (w.nVS < r.nVS)
  | .vec, .vec => true
  | _, _ => decide (w.nVV < r.nVV)

/-- A write as a reader of its place. -/
def WRec.reader (w : WRec) : Reader := { agent := w.agent, seq := w.seq, nSV := w.nSV, nVS := w.nVS, nVV := w.nVV }

/-- Two writes of the vector side, the second in program order, of which either may be the one that is left: one is an IDX or VXCL write and no fence lies
between them (R169). -/
def WRec.outlasts (u w : WRec) : Bool :=
  decide (u.agent ≠ .scalar) && decide (w.agent ≠ .scalar) && decide (u.seq ≠ w.seq) && !ordered u w.reader

/-- The same instruction writes the byte again (R157). -/
def WRec.replaced (w : WRec) : List WRec → Bool
  | v :: _ => decide (v.seq = w.seq)
  | [] => false

/-- A later write of the vector side that an earlier read of it may return: one of the two is an IDX or VXCL access and no fence lies
between them (R169). -/
def overtakes (w : WRec) (r : Reader) : Bool :=
  decide (r.seq < w.seq) && decide (w.nVV = r.nVV) && decide (w.agent ≠ .scalar) && decide (r.agent ≠ .scalar)
  && (decide (w.agent = .idx) || decide (r.agent = .idx))

/-- The byte a read sees, from the committed byte `old` and the sheaf's writes in program order; `n` counts the free choices taken, and `by_` is the write
of the vector side whose value the read has so far.  A write that is ordered before the read takes the place of what came before, or may do so, where no
rule orders the two writes themselves (R169).  For a scalar reader an unfenced vector write is ignored where an STS has written the byte (R128).
Of a byte that an STS and a vector store have both written with no FENCE.SV the rules of R170 say nothing: after a vector store that the read sees the
STS before it is no more to be seen, and one after it may be (logged as assumption 101). -/
def readByte (r : Reader) (old : Byte) (by_ : Option WRec) (sts : Bool) : List WRec → Nat → Byte × Nat
  | [], n => (old, n)
  | w :: ws, n =>
    if w.replaced ws then readByte r old by_ sts ws n
    else if r.seq ≤ w.seq then
      if overtakes w r then readByte r (if freeBit n then w.val else old) by_ sts ws (n + 1) else readByte r old by_ sts ws n
    else if ordered w r = true ∧ by_.any (fun u => u.outlasts w) = false then
      readByte r w.val (if w.agent = .scalar then none else some w) (decide (w.agent = .scalar)) ws n
    else if r.agent = .scalar ∧ sts = true then readByte r old by_ sts ws n
    else readByte r (if freeBit n then w.val else old) (if freeBit n then some w else by_) false ws (n + 1)

/-- The `n` bytes a read of a sheaf sees at consecutive home addresses (R128, R169 to R171, R277, R278). -/
def sheafRead (s : State) (sh : Sheaf) (r : Reader) (home : Nat) : Nat → Nat → List Byte × Nat
  | 0, free => ([], free)
  | n + 1, free =>
    let recs := fget [] sh.writes home
    let b := readByte r (fget 0 s.mem home) none false recs free
    let rest := sheafRead s sh r (home + 1) n b.2
    (b.1 :: rest.1, rest.2)

/-- Inserts a write record at its place in program order, after records of the same place. -/
def insertRec (w : WRec) : List WRec → List WRec
  | [] => [w]
  | v :: vs => if w.seq < v.seq then w :: v :: vs else v :: insertRec w vs

/-- Buffers bytes written by an agent (R155, R262). -/
def bufferBytes (w : Reader) (sh : Sheaf) (home : Nat) : List Byte → Sheaf
  | [] => sh
  | b :: bs =>
    let rec_ : WRec := { val := b, agent := w.agent, seq := w.seq, nSV := w.nSV, nVS := w.nVS, nVV := w.nVV }
    bufferBytes w { sh with writes := fset [] sh.writes home (insertRec rec_ (fget [] sh.writes home)) } (home + 1) bs

/-- A write of the sheaf: buffered, by cluster `cl` or the lowest of the grant, and recorded (R155, R262, R267). -/
def sheafWriteAt (cl : Option Nat) (w : Reader) (sh : Sheaf) (home : Nat) (bs : List Byte) : Sheaf :=
  (bufferBytes w sh home bs).addWriteAt cl home bs.length
def sheafWrite (w : Reader) (sh : Sheaf) (home : Nat) (bs : List Byte) : Sheaf := sheafWriteAt none w sh home bs

/-- The value that a byte's writes leave at the commit, in program order: the later of two writes of one instruction
(R157) and of two ordered writes; of two writes that no rule orders, either (R169, R170). -/
def finalByte : WRec → List WRec → Nat → Byte × Nat
  | w, [], n => (w.val, n)
  | w, v :: vs, n =>
    if w.seq = v.seq ∨ ordered w v.reader = true then finalByte v vs n
    else finalByte (if freeBit n then v else w) vs (n + 1)

/-- Uncorrectable error in the data read (R153 item 5): a poisoned byte that no earlier write of the sheaf supplies; a write that no
rule orders before the read supplies nothing (logged as assumption 72). -/
def readPoisoned (s : State) (sh : Sheaf) (r : Reader) (home n : Nat) : Bool :=
  (List.range n).any (fun i => poisoned s (home + i)
    && !(fget [] sh.writes (home + i)).any (fun w => decide (w.seq < r.seq) && ordered w r))

/-! ### Reservations (R263) -/

/-- Adds `n` entries to the reservation of a quarter. -/
def reserve (q n : Nat) (m : FMap Nat) : FMap Nat := fset 0 m q (fget 0 m q + n)

/-- Adds the entries of a second map. -/
def addResv (a b : FMap Nat) : FMap Nat := b.foldl (fun m e => reserve e.1 e.2 m) a

/-- The entries that a store of the first `len` bytes of a group reserves: two for each register granule (R263). -/
def unitResv (g : Grant) (len : Nat) : FMap Nat :=
  (List.range (ceilDiv len 64)).foldl (fun m i => reserve (g.quarterOf (i * 64 % g.vlenb)) 2 m) []

/-- The entries of an element store: one for each element below VL (R263). -/
def elemResv (g : Grant) (vl w : Nat) : FMap Nat :=
  (List.range vl).foldl (fun m e => reserve (g.quarterOf (e * w / 8 % g.vlenb)) 1 m) []

/-- The quarter of the scalar side (R262). -/
def Grant.scalarQuarter (g : Grant) : Nat := g.base * 4 + g.quarter

/-- Whether a reservation fits beside those of the open sheaves: 2,048 entries a quarter (R262, R264). -/
def resvFits (sheaves : List Sheaf) (r : FMap Nat) : Bool :=
  r.all (fun e => decide (e.2 + sheaves.foldl (fun n sh => n + fget 0 sh.resv e.1) 0 ≤ 2048))

end Sys2Proof.Machine
end

