-- ==== Sys2Proof/Machine/VMem.lean ====
section
/-! DEFINITION. Vector loads and stores, reduce-stores, cross-cluster access and tensor maps (R152 to R167). -/

namespace Sys2Proof.Machine

/-- Why a queued instruction stops, for its trap record (R307, R308). -/
structure Stop where
  cause : Nat
  kind  : Nat
  telem : Nat
  tlane : Nat
  tval  : Nat
  deriving DecidableEq, Repr

/-- What a queued instruction that completes leaves: registers and flags, the sheaf, the free choices taken, a HOLD
hit (R321), and the class an MSK.CLS counts (R228). -/
structure Done where
  acc   : VAcc
  sheaf : Sheaf
  free  : Nat
  hold  : Option (Nat × Stop)
  cls   : Option Nat
  deriving DecidableEq, Repr

/-- What running a queued instruction comes to: ILL (R97), another trap, a trap on what it has read, whose reads stand (R267), a strip
trim (R159), or its effect. -/
inductive Ran where
  | ill
  | stop (t : Stop)
  | late (t : Stop) (sheaf : Sheaf) (free : Nat)
  | trim (k : Nat)
  | done (d : Done)
  deriving DecidableEq, Repr

/-- One element of an access: its TELEM, the register byte that gives TLANE, its address, bytes and alignment (R153). -/
structure Elt where
  i    : Nat
  lane : Nat
  addr : Nat
  n    : Nat
  al   : Nat
  deriving DecidableEq, Repr

/-- The stop of an element (R153). -/
def Elt.stop (x : Elt) (g : Grant) (cause kind : Nat) : Stop :=
  { cause := cause, kind := kind, telem := x.i, tlane := g.tlane x.lane, tval := x.addr }

/-- The cluster of a grant that makes the access of an element (R20, R316). -/
def Elt.cluster (x : Elt) (g : Grant) : Nat := (g.place (x.lane / 64)).1

/-- The cluster that makes the access of element `i` (R20, R339). -/
def QEntry.clusterOf (e : QEntry) (i : Nat) : Nat := (e.grant.place (i * e.sew / 8 % e.vb / 64)).1

/-- Who a queued instruction's access is made by (R169). -/
def QEntry.reader (e : QEntry) (idx : Bool) : Reader :=
  { agent := if idx then .idx else .vec, seq := e.seq, nSV := e.nSV, nVS := e.nVS, nVV := e.nVV }

/-- The checks of one element, in order; `reads` asks for the MEMERR check of the data, `idx` says that the access is an IDX one (R153). -/
def checkElt (s : State) (e : QEntry) (sh : Sheaf) (kind : Nat) (reads idx : Bool) (x : Elt) : Except Stop Access :=
  match accessAt s (x.cluster e.grant) e.grant e.csr e.sup x.addr x.n kind x.al with
  | .error c => .error (x.stop e.grant c kind)
  | .ok a => if reads && readPoisoned s sh (e.reader idx) a.home x.n then .error (x.stop e.grant 0x10 kind) else .ok a

/-- What the checks of all elements give: the stop of the lowest that fails, or the home address of each and the first
HOLD hit. -/
def checkAll (s : State) (e : QEntry) (sh : Sheaf) (kind : Nat) (reads idx : Bool) :
    List Elt → Except Stop (List Nat × Option (Nat × Stop))
  | [] => .ok ([], none)
  | x :: xs =>
    match checkElt s e sh kind reads idx x with
    | .error t => .error t
    | .ok a =>
      match checkAll s e sh kind reads idx xs with
      | .error t => .error t
      | .ok (hs, h) => .ok (a.home :: hs, match a.hold with | some w => some (w, x.stop e.grant 0x05 kind) | none => h)

/-- A completed instruction that touched only registers. -/
def Ran.regs (s : State) (sh : Sheaf) : Option VAcc → Ran
  | none => .ill
  | some v => .done { acc := v, sheaf := sh, free := s.free, hold := none, cls := none }

/-! ### Tensor maps (R114, R161, R162) -/

/-- A tensor map: base, element bytes, and for each dimension its extent, stride and wrap. -/
structure TensMap where
  base  : Nat
  esize : Nat
  dims  : List (Nat × Nat × Nat)
  deriving DecidableEq, Repr

/-- The number in `n` bytes at an offset of a record. -/
def fieldAt (bs : List Byte) (off n : Nat) : Nat := leNat ((bs.drop off).take n)

/-- The tensor map of a record, none where it is invalid (R161). -/
def TensMap.ofBytes (bs : List Byte) : Option TensMap :=
  let es := fieldAt bs 8 1
  let nd := fieldAt bs 9 1
  let dim (k : Nat) : Nat × Nat × Nat := (fieldAt bs (16 + 24 * k) 8, fieldAt bs (24 + 24 * k) 8, fieldAt bs (32 + 24 * k) 8)
  if (es = 1 ∨ es = 2 ∨ es = 4 ∨ es = 8) ∧ 1 ≤ nd ∧ nd ≤ 4 ∧ fieldAt bs 10 6 = 0 ∧ fieldAt bs 112 16 = 0
      ∧ (List.range nd).all (fun k => decide ((dim k).1 ≠ 0))
      ∧ (List.range (4 - nd)).all (fun k => decide (dim (nd + k) = (0, 0, 0))) then
    some { base := fieldAt bs 0 8, esize := es, dims := (List.range nd).map dim }
  else none

/-- Map K of a hart. -/
def Arch.tensMap (a : Arch) (k : Nat) : Option TensMap := TensMap.ofBytes (fgetMany 0 a.tam (k * 128) 128)

/-- The extent of dimension 0. -/
def TensMap.ext0 (t : TensMap) : Nat := (t.dims.headD (1, 0, 0)).1

/-- The byte offset of a coordinate in a dimension (R162). -/
def coordOff (c : Nat) (d : Nat × Nat × Nat) : Nat := (if d.2.2 = 0 then c else c % d.2.2) * d.2.1

/-- The offset that the outer dimensions add, and what is left of q (R162). -/
def outerOff : List (Nat × Nat × Nat) → Nat → Nat × Nat
  | [], q => (0, q)
  | d :: ds, q => let r := outerOff ds (q / d.1); (coordOff (q % d.1) d + r.1, r.2)

/-- The address of element `e` from linear index `L`, none where it is out of range (R162). -/
def TensMap.at_ (t : TensMap) (L e : Nat) : Option Nat :=
  let c := L % t.ext0 + e
  let o := outerOff (t.dims.drop 1) (L / t.ext0)
  if o.2 = 0 ∧ c < t.ext0 then some ((t.base + coordOff c (t.dims.headD (1, 0, 0)) + o.1) % 2 ^ 64) else none

/-! ### Addressing (R156) -/

/-- The fields of a record. -/
def MemForm.nf : MemForm → Nat
  | .seg n => n
  | _ => 1

/-- An access that the agent rules leave unordered with the vector side's others (R169). -/
def MemForm.isIdx : MemForm → Bool
  | .idx _ _ => true
  | _ => false

/-- The requirements of a form; otherwise ILL (R78, R156, R161).  An index group that overlaps the data group is refused at every width, as R156
says; R175 lets groups of one width overlap (logged as assumption 74). -/
def memOk (e : QEntry) (a : Arch) (f : MemForm) (d : Nat) : Bool :=
  e.groupHere d && match f with
  | .unit => true
  | .str _ => decide (8 ≤ e.sew)
  | .idx vb ow => decide (8 ≤ e.sew) && e.wideOk vb ow && !overlap d e.lmul vb (e.groupOf ow)
  | .seg nf => decide (8 ≤ e.sew) && decide (nf * e.lmul ≤ 8) && decide (d + nf * e.lmul ≤ 32)
  | .ff => decide (8 ≤ e.sew)
  | .tens k => match a.tensMap k with
    | some t => decide (t.esize = e.sew / 8) && decide (8 ≤ e.sew)
    | none => false

/-- The address of field `k` of element `i`; none for a tensor element out of range (R156, R162). -/
def addrOf (e : QEntry) (a : Arch) (f : MemForm) (base : W64) (i k : Nat) : Option Nat :=
  let x := base.toNat
  let s := e.sew / 8
  match f with
  | .unit => some ((x + i * e.sew / 8) % 2 ^ 64)
  | .ff => some ((x + i * s) % 2 ^ 64)
  | .str b => some ((x + i * b.toNat) % 2 ^ 64)
  | .idx vb ow => some ((x + getElem a e.vb ow vb i) % 2 ^ 64)
  | .seg nf => some ((x + (i * nf + k) * s) % 2 ^ 64)
  | .tens t => match a.tensMap t with
    | some m => m.at_ x i
    | none => none

/-- The element an access makes, with its place (element and field). -/
def eltOf (e : QEntry) (a : Arch) (f : MemForm) (base : W64) (p : Nat × Nat) : Option Elt :=
  (addrOf e a f base p.1 p.2).map (fun x =>
    { i := p.1, lane := p.1 * e.sew / 8 % e.vb, addr := x, n := max 1 (e.sew / 8), al := max 1 (e.sew / 8) })

/-- The (element, field) pairs of an access, in order (R155, R157). -/
def places (e : QEntry) (a : Arch) (f : MemForm) (m : Nat) : List (Nat × Nat) :=
  (e.active a m).flatMap (fun i => (List.range f.nf).map (fun k => (i, k)))

/-- The trim of a tensor access that overruns the innermost dimension (R163). -/
def tensTrim (e : QEntry) (a : Arch) (f : MemForm) (base : W64) : Option Nat :=
  match f with
  | .tens k => match a.tensMap k with
    | some t => if t.ext0 < base.toNat % t.ext0 + e.vl then some (t.ext0 - base.toNat % t.ext0) else none
    | none => none
  | _ => none

/-! ### Loads and stores (R155 to R163) -/

/-- Reads the elements of a load into the group (R155). -/
def loadElts (s : State) (e : QEntry) (r : Reader) (d : Nat) :
    List (Nat × Nat × Nat) → VAcc → Sheaf → Nat → VAcc × Sheaf × Nat
  | [], v, sh, n => (v, sh, n)
  | (i, k, home) :: xs, v, sh, n =>
    let b := sheafRead s sh r home (max 1 (e.sew / 8)) n
    let x := leNat b.1
    let x := if e.sew = 4 then (if i % 2 = 0 then x % 16 else x / 16) else x
    loadElts s e r d xs (v.set e.vb e.sew (d + k * e.lmul) i x) (sh.addReadAt (some (e.clusterOf i)) home (max 1 (e.sew / 8))) b.2

/-- VLD but QLD (R155 to R163); `canTrim` says that R159 allows a strip trim. -/
def runLoad (s : State) (e : QEntry) (a : Arch) (sh : Sheaf) (canTrim : Bool) (f : MemForm) (d : Nat) (base : W64) (m : Nat) : Ran :=
  if !memOk e a f d then .ill
  else
    match (if canTrim then tensTrim e a f base else none) with
    | some k => .trim k
    | none =>
      let ps := places e a f m
      let elts := ps.filterMap (fun p => (eltOf e a f base p).map (fun x => (p, x)))
      match checkAll s e sh kRead true f.isIdx (elts.map Prod.snd) with
      | .error t =>
        match f with
        | .ff => if canTrim && decide (0 < t.telem) && (decide (t.cause = 0x03) || decide (t.cause = 0x04)) then .trim t.telem
                 else .stop t
        | _ => .stop t
      | .ok (homes, hold) =>
        let off := ps.filter (fun p => (eltOf e a f base p).isNone)
        let v := off.foldl (fun v p => v.set e.vb e.sew (d + p.2 * e.lmul) p.1 0) (VAcc.start a)
        let r := loadElts s e (e.reader f.isIdx) d ((elts.zip homes).map (fun x => (x.1.1.1, x.1.1.2, x.2))) v sh s.free
        .done { acc := r.1, sheaf := r.2.1, free := r.2.2, hold := hold, cls := none }

/-- Writes the elements of a store, in order (R157). -/
def storeElts (e : QEntry) (a : Arch) (r : Reader) (d : Nat) : List (Nat × Nat × Nat) → Sheaf → Sheaf
  | [], sh => sh
  | (i, k, home) :: xs, sh =>
    storeElts e a r d xs (sheafWriteAt (some (e.clusterOf i)) r sh home (leBytes (e.sew / 8) (getElem a e.vb e.sew (d + k * e.lmul) i)))

/-- Writes the nibbles of a store at SEW 4, byte by byte: a byte of which one nibble is written is read as well (R155). -/
def storeNibbles (s : State) (e : QEntry) (a : Arch) (r : Reader) (d : Nat) : List (Nat × Nat) → Sheaf → Nat → Sheaf × Nat
  | [], sh, n => (sh, n)
  | (i, home) :: (j, home') :: xs, sh, n =>
    let x := getElem a e.vb 4 d i
    if i % 2 = 0 ∧ j = i + 1 then
      storeNibbles s e a r d xs (sheafWriteAt (some (e.clusterOf i)) r sh home [BitVec.ofNat 8 (x + 16 * getElem a e.vb 4 d j)]) n
    else
      let b := sheafRead s sh r home 1 n
      let o := leNat b.1
      let y := if i % 2 = 0 then o / 16 * 16 + x else x * 16 + o % 16
      storeNibbles s e a r d ((j, home') :: xs) (sheafWriteAt (some (e.clusterOf i)) r (sh.addReadAt (some (e.clusterOf i)) home 1) home [BitVec.ofNat 8 y]) b.2
  | [(i, home)], sh, n =>
    let x := getElem a e.vb 4 d i
    let b := sheafRead s sh r home 1 n
    let o := leNat b.1
    let y := if i % 2 = 0 then o / 16 * 16 + x else x * 16 + o % 16
    (sheafWriteAt (some (e.clusterOf i)) r (sh.addReadAt (some (e.clusterOf i)) home 1) home [BitVec.ofNat 8 y], b.2)

/-- Whether element `i` of a store at SEW 4 shares its byte with no other active element. -/
def lonely (act : List Nat) (i : Nat) : Bool := !act.contains (if i % 2 = 0 then i + 1 else i - 1)

/-- The checks of a store: at SEW 4 a byte read for its other nibble is checked for MEMERR too. -/
def checkStore (s : State) (e : QEntry) (sh : Sheaf) (act : List Nat) : List Elt → Except Stop (List Nat × Option (Nat × Stop))
  | [] => .ok ([], none)
  | x :: xs =>
    match checkElt s e sh kWrite (decide (e.sew = 4) && lonely act x.i) false x with
    | .error t => .error t
    | .ok a =>
      match checkStore s e sh act xs with
      | .error t => .error t
      | .ok (hs, h) => .ok (a.home :: hs, match a.hold with | some w => some (w, x.stop e.grant 0x05 kWrite) | none => h)

/-- VST but RED (R155 to R163). -/
def runStore (s : State) (e : QEntry) (a : Arch) (sh : Sheaf) (canTrim : Bool) (f : MemForm) (d : Nat) (base : W64) (m : Nat) : Ran :=
  if !memOk e a f d then .ill
  else
    match (if canTrim then tensTrim e a f base else none) with
    | some k => .trim k
    | none =>
      let elts := (places e a f m).filterMap (fun p => (eltOf e a f base p).map (fun x => (p, x)))
      match checkStore s e sh (e.active a m) (elts.map Prod.snd) with
      | .error t => .stop t
      | .ok (homes, hold) =>
        let r := e.reader f.isIdx
        if e.sew = 4 then
          let t := storeNibbles s e a r d ((elts.zip homes).map (fun x => (x.1.1.1, x.2))) sh s.free
          .done { acc := VAcc.start a, sheaf := t.1, free := t.2, hold := hold, cls := none }
        else
          .done { acc := VAcc.start a,
                  sheaf := storeElts e a r d ((elts.zip homes).map (fun x => (x.1.1.1, x.1.1.2, x.2))) sh,
                  free := s.free, hold := hold, cls := none }

/-- VLD.QLD (R158). -/
def runQld (s : State) (e : QEntry) (a : Arch) (sh : Sheaf) (d : Nat) (base : W64) : Ran :=
  let n := ceilDiv e.vl (vtBlk e.vt)
  let elts : List Elt := (List.range n).map (fun j =>
    { i := j, lane := j % e.vb, addr := (base.toNat + j) % 2 ^ 64, n := 1, al := 1 })
  match checkAll s e sh kRead true false elts with
  | .error t => .stop t
  | .ok (homes, hold) =>
    let r := ((List.range n).zip homes).foldl (fun (p : Arch × Sheaf × Nat) x =>
      let b := sheafRead s p.2.1 (e.reader false) x.2 1 p.2.2
      (setScale p.1 d x.1 (leNat b.1), p.2.1.addReadAt (some (e.grant.place (x.1 % e.vb / 64)).1) x.2 1, b.2)) (a, sh, s.free)
    .done { acc := { VAcc.start a with arch := r.1 }, sheaf := r.2.1, free := r.2.2, hold := hold, cls := none }

/-! ### Reduce-stores (R164) -/

/-- The type at the ALU of a VTYPE (R164). -/
def aluTypeOf (vt : W64) : Option AluType :=
  match vtSew vt, vtCls vt with
  | 3, 0 => some (.int32 true)
  | 3, 1 => some (.int32 false)
  | 4, 0 => some (.int64 true)
  | 4, 1 => some (.int64 false)
  | 3, 2 => some .fp32
  | 2, 2 => if vtAlt vt then some .bf16 else none
  | _, _ => none

/-- The operations by code (R91). -/
def aluOpOf : Nat → Option AluOp
  | 0 => some .add | 1 => some .min | 2 => some .max | 3 => some .and | 4 => some .or | 5 => some .xor
  | _ => none

/-- VST.RED (R164). -/
def runRedst (s : State) (e : QEntry) (a : Arch) (sh : Sheaf) (o : Nat) (idx : Option Nat) (d : Nat) (base : W64) (m : Nat) : Ran :=
  match aluTypeOf e.vt, aluOpOf o with
  | some ty, some op =>
    if !e.groupHere d || !(match idx with | some b => e.groupHere b | none => true) then .ill
    else
      let w := e.sew / 8
      let act := e.active a m
      let elts : List Elt := act.map (fun i =>
        { i := i, lane := i * w % e.vb, n := w, al := w,
          addr := (base.toNat + (match idx with | some b => getElem a e.vb e.sew b i | none => i * w)) % 2 ^ 64 })
      match checkAll s e sh kReduce false false elts with
      | .error t => .stop t
      | .ok (homes, hold) =>
        let sh := (act.zip homes).foldl (fun (sh : Sheaf) x =>
          let red : Red := { home := x.2, ty := ty, op := op, val := BitVec.ofNat 64 (getElem a e.vb e.sew d x.1) }
          ({ sh with reds := sh.reds ++ [red] } : Sheaf).addRedAt (some (e.clusterOf x.1)) x.2 w) sh
        .done { acc := VAcc.start a, sheaf := sh, free := s.free, hold := hold, cls := none }
  | _, _ => .ill

/-! ### Cross-cluster access (R166, R167) -/

/-- A hart of the gang holds a cluster. -/
def gangHolds (s : State) (gang c : Nat) : Bool :=
  s.harts.any (fun x => decide (x.2.gang = gang) && !x.2.parked && !x.2.gone && x.2.arch.grant.clusterList.contains c)

/-- The checks of one index: the home address of its word (R167). -/
def vxclElt (s : State) (e : QEntry) (sh : Sheaf) (gang kind i u : Nat) : Except Stop Access :=
  let x : Elt := { i := i, lane := i * 4 % e.vb, addr := u, n := 4, al := 4 }
  let c := e.grant.base / 8 * 8 + bits u 23 21
  let home := scratchHome c (bits u 20 0)
  if u % 4 ≠ 0 then .error (x.stop e.grant 0x02 kind)
  else if bits u 31 24 ≠ 0 ∨ !gangHolds s gang c then .error (x.stop e.grant 0x04 kind)
  else
    let hit := if e.sup then none else watchHit e.csr home 4 kind
    match hit with
    | some (_, false) => .error (x.stop e.grant 0x05 kind)
    | some (w, true) =>
      if kind = kRead && readPoisoned s sh (e.reader true) home 4 then .error (x.stop e.grant 0x10 kind) else .ok { home := home, hold := some w }
    | none =>
      if kind = kRead && readPoisoned s sh (e.reader true) home 4 then .error (x.stop e.grant 0x10 kind) else .ok { home := home, hold := none }

/-- The checks of every index. -/
def vxclAll (s : State) (e : QEntry) (sh : Sheaf) (gang kind : Nat) : List (Nat × Nat) → Except Stop (List Nat × Option (Nat × Stop))
  | [] => .ok ([], none)
  | (i, u) :: xs =>
    match vxclElt s e sh gang kind i u with
    | .error t => .error t
    | .ok a =>
      match vxclAll s e sh gang kind xs with
      | .error t => .error t
      | .ok (hs, h) => .ok (a.home :: hs, match a.hold with
        | some w => some (w, { cause := 0x05, kind := kind, telem := i, tlane := e.grant.tlane (i * 4 % e.vb), tval := u })
        | none => h)

/-- VXCL (R166, R167). -/
def runVxcl (s : State) (e : QEntry) (a : Arch) (sh : Sheaf) (gang : Nat) (store : Bool) (d b m : Nat) : Ran :=
  if e.grant.clusters = 0 || decide (e.sew ≠ 32) || !e.groupHere d || !e.groupHere b then .ill
  else
    let act := e.active a m
    match vxclAll s e sh gang (if store then kWrite else kRead) (act.map (fun i => (i, getElem a e.vb 32 b i))) with
    | .error t => .stop t
    | .ok (homes, hold) =>
      let ps := (act.zip homes).map (fun x => (x.1, 0, x.2))
      if store then
        .done { acc := VAcc.start a, sheaf := storeElts e a (e.reader true) d ps sh, free := s.free, hold := hold, cls := none }
      else
        let r := loadElts s e (e.reader true) d ps (VAcc.start a) sh s.free
        .done { acc := r.1, sheaf := r.2.1, free := r.2.2, hold := hold, cls := none }

/-! ### Reads of one long element (R161, R223) -/

/-- The checks of one element of `n` bytes that may touch several pages, and the home address of each eight bytes
(R223). -/
def longCheck (s : State) (e : QEntry) (sh : Sheaf) (a n al : Nat) : Except Stop (List Nat × Option (Nat × Stop)) :=
  let bad (c : Nat) : Stop := { cause := c, kind := kRead, telem := 0, tlane := 0, tval := a }
  if a % al ≠ 0 then .error (bad 0x02)
  else if !e.sup && !boundsOk s e.grant e.csr a n kRead then .error (bad 0x04)
  else
    let homes := (List.range (n / 8)).map (fun i => homeOf s e.grant (fget 0 e.csr cPTROOT) (a + 8 * i) kRead (!e.sup))
    if homes.any Option.isNone then .error (bad 0x03)
    else
      let hs := homes.filterMap id
      match (if e.sup then none else watchHit e.csr a n kRead) with
      | some (_, false) => .error (bad 0x05)
      | some (w, true) => if hs.any (fun h => readPoisoned s sh (e.reader false) h 8) then .error (bad 0x10) else .ok (hs, some (w, bad 0x05))
      | none => if hs.any (fun h => readPoisoned s sh (e.reader false) h 8) then .error (bad 0x10) else .ok (hs, none)

/-- The bytes at a list of home addresses, eight each, with the sheaf that has read them. -/
def longRead (s : State) (r : Reader) : List Nat → Sheaf → Nat → List Byte × Sheaf × Nat
  | [], sh, n => ([], sh, n)
  | h :: hs, sh, n =>
    let b := sheafRead s sh r h 8 n
    let t := longRead s r hs (sh.addRead h 8) b.2
    (b.1 ++ t.1, t.2)

/-- TAMW (R161). -/
def runTamw (s : State) (e : QEntry) (a : Arch) (sh : Sheaf) (k : Nat) (base : W64) : Ran :=
  match longCheck s e sh base.toNat 128 128 with
  | .error t => .stop t
  | .ok (homes, hold) =>
    let r := longRead s (e.reader false) homes sh s.free
    match TensMap.ofBytes r.1 with
    | none => .late { cause := 0x01, kind := 0, telem := 0, tlane := 0, tval := e.word.toNat } r.2.1 r.2.2
    | some _ =>
      .done { acc := { VAcc.start a with arch := { a with tam := fsetMany 0 a.tam (k * 128) r.1 } },
              sheaf := r.2.1, free := r.2.2, hold := hold, cls := none }

end Sys2Proof.Machine
end

