-- ==== Sys2Proof/Machine/Matrix.lean ====
section
/-! DEFINITION. Z tiles: outer products, slices, patches, row scaling (R201 to R217, R232). -/

namespace Sys2Proof.Machine

/-- The shape of tile t that an instruction carries (R41): rows, columns and EW. -/
def QEntry.zrows (e : QEntry) (t : Nat) : Nat := bits (fget 0 e.csr (cZCFG + t)).toNat 14 8
def QEntry.zcols (e : QEntry) (t : Nat) : Nat := bits (fget 0 e.csr (cZCFG + t)).toNat 29 16
def QEntry.zew (e : QEntry) (t : Nat) : Bool := bit (fget 0 e.csr (cZCFG + t)).toNat 0

/-- The hart has Z tiles (R18). -/
def QEntry.hasZ (e : QEntry) : Bool := decide (1 ≤ e.grant.clusters) && needsZ e.csr

/-- ZSTATE.EN (R42). -/
def Arch.zen (a : Arch) : Bool := bit (a.rcsr cZSTATE).toNat 0

/-- A legal ZOP.CFG operand (R202). -/
def zcfgOk (g : Grant) (v : W64) : Bool :=
  let n := v.toNat
  let rows := bits n 14 8
  let cols := bits n 29 16
  decide (bits n 7 1 = 0) && decide (bits n 15 15 = 0) && decide (bits n 63 30 = 0)
  && decide (1 ≤ rows) && decide (rows ≤ 64) && decide (1 ≤ cols) && decide (cols ≤ 64 * g.clusters)

/-- A write of a cell, which sets DIRTY (R42). -/
def Arch.cell (a : Arch) (t row col : Nat) (v : Nat) : Arch :=
  (setCell a t row col (BitVec.ofNat 32 v)).wcsr cZSTATE (a.rcsr cZSTATE ||| 2#64)

def VAcc.cell (v : VAcc) (t row col x : Nat) : VAcc := { v with arch := v.arch.cell t row col x }

/-- ZOFF and ZSHAPE (R204, R232). -/
def zoff : Ran := .stop { cause := 0x06, kind := 0, telem := 0, tlane := 0, tval := 0 }
def zshape (tval : Nat) : Ran := .stop { cause := 0x07, kind := 0, telem := 0, tlane := 0, tval := tval }

/-! ### Outer products (R206 to R209) -/

/-- The formats of a form: A and B as a float format or an integer width and signedness, and the products per
step (R92, R207).  DS8 is none. -/
structure MopForm where
  fa : Option (Fmt ⊕ (Nat × Bool))
  fb : Option (Fmt ⊕ (Nat × Bool))
  n  : Nat
  ew : Bool
  deriving DecidableEq, Repr

def mopForm : Nat → MopForm
  | 0x0 => ⟨some (.inl bf16), some (.inl bf16), 2, false⟩
  | 0x1 => ⟨some (.inl fp16), some (.inl fp16), 2, false⟩
  | 0x2 => ⟨some (.inl e4m3), some (.inl e4m3), 4, false⟩
  | 0x3 => ⟨some (.inl e4m3), some (.inl e5m2), 4, false⟩
  | 0x4 => ⟨some (.inl e5m2), some (.inl e4m3), 4, false⟩
  | 0x5 => ⟨some (.inl e5m2), some (.inl e5m2), 4, false⟩
  | 0x6 => ⟨some (.inl fp4), some (.inl fp4), 8, false⟩
  | 0x7 => ⟨some (.inr (8, true)), some (.inr (8, true)), 4, true⟩
  | 0x8 => ⟨some (.inr (8, false)), some (.inr (8, false)), 4, true⟩
  | 0x9 => ⟨some (.inr (8, true)), some (.inr (8, false)), 4, true⟩
  | 0xA => ⟨some (.inr (8, false)), some (.inr (8, true)), 4, true⟩
  | 0xB => ⟨some (.inr (4, true)), some (.inr (4, true)), 8, true⟩
  | 0xC => ⟨some (.inr (4, false)), some (.inr (4, false)), 8, true⟩
  | 0xD => ⟨none, some (.inl bf16), 4, false⟩
  | 0xE => ⟨none, some (.inl e4m3), 8, false⟩
  | _ => ⟨none, some (.inl e5m2), 8, false⟩

/-- Bits of an element of a form's operand. -/
def operandBits : Option (Fmt ⊕ (Nat × Bool)) → Nat
  | some (.inl f) => f.w
  | some (.inr (w, _)) => w
  | none => 8

/-- Sub-element `g` of container `i` of the registers from vn on: a register holds 32 / w of them a container
(R54, R207). -/
def subElem (a : Arch) (vb w n i g : Nat) : Nat :=
  let per := 32 / w
  getElem a vb w (n + g / per) (i * per + g % per)

/-- The value of a sub-element. -/
def subValue (f : Option (Fmt ⊕ (Nat × Bool))) (x : Nat) : FV :=
  match f with
  | some (.inl f) => f.decode x
  | some (.inr (w, sg)) => ofIntFV (if sg then toSigned w x else (x : Int))
  | none => ds8FV x

/-- The integer of a sub-element. -/
def subInt (f : Option (Fmt ⊕ (Nat × Bool))) (x : Nat) : Int :=
  match f with
  | some (.inr (w, sg)) => if sg then toSigned w x else (x : Int)
  | _ => 0

/-- Register of A that repetition `r` starts at (R207). -/
def mopA (form a r : Nat) : Nat := if 0xE ≤ form then a + 2 * r else a + r

/-- The forms that scale A and B under the carried VTYPE (R208). -/
def mopScaledA (form : Nat) (vt : W64) : Bool := decide (form = 6) || (vtScen vt && decide (2 ≤ form) && decide (form ≤ 5))
def mopScaledB (form : Nat) (vt : W64) : Bool := mopScaledA form vt || (vtScen vt && decide (0xE ≤ form))

/-- The new value of a cell and the flags (R65, R209). -/
def mopCell (e : QEntry) (a0 : Arch) (cur : Arch) (neg : Bool) (t va vb form i j : Nat) : Nat × Nat :=
  let f := mopForm form
  let old := (getCell cur t i j).toNat
  let xs := (List.range f.n).map (fun g =>
    (subElem a0 e.vb (operandBits f.fa) va i g, subElem a0 e.vb (operandBits f.fb) vb j g))
  if f.ew then
    let p : Int := xs.foldl (fun s x => s + subInt f.fa x.1 * subInt f.fb x.2) 0
    (wrap 32 ((old : Int) + (if neg then -p else p)), 0)
  else
    let sa := if mopScaledA form e.vt then scaleFV (getScale a0 (va % 8) i) else .fin false 1 0 false
    let sb := if mopScaledB form e.vt then scaleFV (getScale a0 (vb % 8) j) else .fin false 1 0 false
    let ps := xs.map (fun x =>
      let u := mulFV (subValue f.fa x.1) sa
      let v := mulFV (subValue f.fb x.2) sb
      let p := mulFV u.1 v.1
      (if neg then p.1.negate else p.1, fOr p.2 (fOr u.2 v.2)))
    let s := sumFV 0 (fp32.decode old :: ps.map Prod.fst)
    let fl := ps.foldl (fun n p => fOr n p.2) s.2
    let r := roundTo fp32 0 false 0 s.1
    (r.1, fOr fl (if fl &&& fNV ≠ 0 then 0 else r.2))

/-- The encodings of MOP that trap ILL (R92, R206). -/
def mopOk (d a b r f : Nat) : Bool :=
  decide (d + r ≤ 7) && decide (a + r ≤ 31) && (decide (f < 0xD) || decide (b ≠ 31))
  && (decide (f < 0xE) || decide (a + 2 * (r + 1) - 1 ≤ 31))

/-- MOP.OP and MOP.OPN (R206 to R209): `r` is REP − 1. -/
def runMop (s : State) (e : QEntry) (a0 : Arch) (sh : Sheaf) (neg : Bool) (d a b m r form : Nat) : Ran :=
  if !e.hasZ || !mopOk d a b r form then .ill
  else if !a0.zen then zoff
  else
    match (List.range (r + 1)).find? (fun k => e.zew (d + k) != (mopForm form).ew) with
    | some k => zshape (fget 0 e.csr (cZCFG + d + k)).toNat
    | none =>
      Ran.regs s sh (some ((List.range (r + 1)).foldl (fun v k =>
        let t := d + k
        (List.range (e.zrows t)).foldl (fun v i =>
          if getMask a0 m (64 * k + i) then
            (List.range (min e.vl (e.zcols t))).foldl (fun (v : VAcc) j =>
              let x := mopCell e a0 v.arch neg t (mopA form a k) b form i j
              (v.flag e.fen 0 x.2).cell t i j x.1) v
          else v) v) (VAcc.start a0)))

/-! ### Slices, patches and scaling (R211 to R217) -/

/-- What R211 and R212 allow: ILL, ZSHAPE, or the access. -/
inductive Slice where
  | ill | shape | ok
  deriving DecidableEq, Repr

/-- The checks of R211 and R212. -/
def sliceCheck (e : QEntry) (t g : Nat) (sat cvt : Bool) : Slice :=
  if !e.groupHere g then .ill
  else if !cvt then (if e.sew = 32 && !sat then .ok else .ill)
  else if sat && !(e.isFloat && decide (e.sew ≤ 8)) then .ill
  else if e.zew t ≠ e.isInt then .shape
  else if e.sew = 64 then .ill else .ok

/-- A cell as an element of the group (R212, R213): the code and what has been done. -/
def cellToElem (e : QEntry) (v : VAcc) (cvt sat : Bool) (i x : Nat) : Nat × VAcc :=
  if !cvt then (x, v)
  else if e.isInt then
    if e.isSigned then
      (wrap e.sew (clampInt (toSigned 32 x) (-(2 ^ (e.sew - 1) : Nat)) ((2 ^ (e.sew - 1) : Nat) - 1)), v)
    else ((clampInt (toSigned 32 x) 0 ((2 ^ e.sew : Nat) - 1)).toNat, v)
  else
    let y := fp32.decode x
    let nv := if y.isSig then fNV else 0
    if e.isFloat then v.round e.fmt e.frm sat e.fen i (y, nv)
    else let r := roundDs8 e.frm y; (r.1, v.flag e.fen i (fOr r.2 nv))

/-- An element of the group as a cell, and its flags (R212). -/
def elemToCell (e : QEntry) (cvt : Bool) (x : Nat) : Nat × Nat :=
  if !cvt then (x, 0)
  else if e.isInt then (if e.isSigned then wrap 32 (toSigned e.sew x) else x, 0)
  else if e.isFloat then
    let y := e.fmt.decode x
    ((roundTo fp32 0 false 0 y).1, if y.isSig then fNV else 0)
  else ((roundTo fp32 0 false 0 (ds8FV x)).1, 0)

/-- ZOP.RD (R213).  Outside the shape the element receives zero bits, in class DS8 too (logged as assumption 99). -/
def runZrd (s : State) (e : QEntry) (a0 : Arch) (sh : Sheaf) (t g : Nat) (k : W64) (m : Nat) (sat cvt col : Bool) : Ran :=
  if !e.hasZ then .ill
  else match sliceCheck e t g sat cvt with
  | .ill => .ill
  | o =>
    if !a0.zen then zoff
    else if o = .shape then zshape 0
    else if (if col then e.zcols t else e.zrows t) ≤ k.toNat then zshape k.toNat
    else
      Ran.regs s sh (some (eachElem (e.active a0 m) (VAcc.start a0) (fun v i =>
        let row := if col then i else k.toNat
        let c := if col then k.toNat else i
        if row < e.zrows t ∧ c < e.zcols t then
          let x := cellToElem e v cvt sat i (getCell a0 t row c).toNat
          x.2.set e.vb e.sew g i x.1
        else v.set e.vb e.sew g i 0)))

/-- ZOP.WR (R213). -/
def runZwr (s : State) (e : QEntry) (a0 : Arch) (sh : Sheaf) (t g : Nat) (k : W64) (m : Nat) (cvt col : Bool) : Ran :=
  if !e.hasZ then .ill
  else match sliceCheck e t g false cvt with
  | .ill => .ill
  | o =>
    if !a0.zen then zoff
    else if o = .shape then zshape 0
    else if (if col then e.zcols t else e.zrows t) ≤ k.toNat then zshape k.toNat
    else
      Ran.regs s sh (some (eachElem (e.active a0 m) (VAcc.start a0) (fun v i =>
        let row := if col then i else k.toNat
        let c := if col then k.toNat else i
        if row < e.zrows t ∧ c < e.zcols t then
          let x := elemToCell e cvt (getElem a0 e.vb e.sew g i)
          (v.flag e.fen i x.2).cell t row c x.1
        else v)))

/-- The cell a ZOP.PATCH leaves, and its flags (R214). -/
def patchCell (ew add : Bool) (old x : Nat) : Nat × Nat :=
  if !add then (x, 0)
  else if ew then ((old + x) % 2 ^ 32, 0)
  else
    let r := sumFV 0 [fp32.decode old, fp32.decode x]
    let o := roundTo fp32 0 false 0 r.1
    (o.1, fOr r.2 (if r.2 &&& fNV ≠ 0 then 0 else o.2))

/-- ZOP.PATCH (R214). -/
def runZpatch (s : State) (e : QEntry) (a0 : Arch) (sh : Sheaf) (t g : Nat) (p : W64) (m : Nat) (add cvt col : Bool) : Ran :=
  if !e.hasZ then .ill
  else match sliceCheck e t g false cvt with
  | .ill => .ill
  | o =>
    let r0 := bits p.toNat 15 0
    let c0 := bits p.toNat 31 16
    if !a0.zen then zoff
    else if o = .shape then zshape 0
    else if bits p.toNat 63 32 ≠ 0 ∨ e.zrows t ≤ r0 ∨ e.zcols t ≤ c0 then zshape p.toNat
    else
      Ran.regs s sh (some (eachElem (e.active a0 m) (VAcc.start a0) (fun v i =>
        let row := if col then r0 + i else r0
        let c := if col then c0 else c0 + i
        if row < e.zrows t ∧ c < e.zcols t then
          let x := elemToCell e cvt (getElem a0 e.vb e.sew g i)
          let y := patchCell (e.zew t) add (getCell a0 t row c).toNat x.1
          (v.flag e.fen i (fOr x.2 y.2)).cell t row c y.1
        else v)))

/-- ZOP.SCALE (R216). -/
def runZscale (s : State) (e : QEntry) (a0 : Arch) (sh : Sheaf) (t g m : Nat) : Ran :=
  if !e.hasZ || !(e.isFloat && decide (e.sew = 32)) || !e.groupHere g then .ill
  else if !a0.zen then zoff
  else if e.zew t then zshape 0
  else
    Ran.regs s sh (some ((e.active a0 m).foldl (fun v i =>
      if i < e.zrows t then
        (List.range (e.zcols t)).foldl (fun (v : VAcc) j =>
          let o := v.round fp32 0 false e.fen 0 (mulFV (fp32.decode (getCell a0 t i j).toNat) (fp32.decode (getElem a0 e.vb 32 g i)))
          o.2.cell t i j o.1) v
      else v) (VAcc.start a0)))

/-- ZOP.ZERO (R217): every cell of the tile. -/
def runZzero (s : State) (e : QEntry) (a0 : Arch) (sh : Sheaf) (t : Nat) : Ran :=
  if !e.hasZ then .ill
  else if !a0.zen then zoff
  else
    let a := { a0 with z := fclear a0.z (t * 64 * 8192) (64 * 8192) }
    Ran.regs s sh (some (VAcc.start (a.wcsr cZSTATE (a.rcsr cZSTATE ||| 2#64))))

/-- The cell contents of disabled tile state are not preserved: every cell of the eight tiles is free (R204). -/
def freeTiles (c n : Nat) : FMap W32 :=
  ((List.range (8 * 64)).flatMap (fun r => (List.range (64 * c)).map (fun k =>
    (r * 8192 + k, Config.freeCell (n + r * 8192 + k))))).filter (fun e => decide (e.2 ≠ 0))

/-- ZOP.ENABLE (R204). -/
def runZenable (s : State) (e : QEntry) (a0 : Arch) (sh : Sheaf) : Ran :=
  if !e.hasZ then .ill else if a0.zen then Ran.regs s sh (some (VAcc.start a0)) else zoff

/-- ZOP.DISABLE (R204). -/
def runZdisable (s : State) (e : QEntry) (a0 : Arch) (sh : Sheaf) : Ran :=
  if !e.hasZ then .ill
  else if a0.zen then
    .done { acc := VAcc.start ({ a0 with z := freeTiles e.grant.clusters s.free }.wcsr cZSTATE (setBits (a0.rcsr cZSTATE) 0 0 0)),
            sheaf := sh, free := s.free + 64 * 8 * 8192, hold := none, cls := none }
  else Ran.regs s sh (some (VAcc.start a0))

/-- ZOP.CFG in its queue: the scalar side has applied it (R202). -/
def runZcfg (s : State) (e : QEntry) (a0 : Arch) (sh : Sheaf) : Ran :=
  if !e.hasZ then .ill else Ran.regs s sh (some (VAcc.start a0))

end Sys2Proof.Machine
end

