-- ==== Sys2Proof/Machine/VInt.lean ====
section
/-! DEFINITION. Integer vector arithmetic (R176 to R178) and VIDX (R200). -/

namespace Sys2Proof.Machine

/-- The element of an integer function: `a` and `y` at width `w`, `d` the old destination element (R177). -/
def intElem (f : IntFn) (w a y d : Nat) : Nat :=
  let sa := toSigned w a
  let sy := toSigned w y
  let sh := y % w
  let lo : Int := -(2 ^ (w - 1) : Nat)
  let hi : Int := (2 ^ (w - 1) : Nat) - 1
  let top : Int := (2 ^ w : Nat) - 1
  match f with
  | .add => wrap w (a + y)
  | .sub => wrap w ((a : Int) - y)
  | .rsub => wrap w ((y : Int) - a)
  | .mul => a * y % 2 ^ w
  | .mulh => wrap w (sa * sy / (2 ^ w : Nat))
  | .mulhu => a * y / 2 ^ w % 2 ^ w
  | .div => if y = 0 then 2 ^ w - 1 else wrap w (sa.tdiv sy)
  | .divu => if y = 0 then 2 ^ w - 1 else a / y
  | .rem => if y = 0 then a else wrap w (sa.tmod sy)
  | .remu => if y = 0 then a else a % y
  | .and => a &&& y
  | .or => a ||| y
  | .xor => a ^^^ y
  | .sll => a * 2 ^ sh % 2 ^ w
  | .srl => a / 2 ^ sh
  | .sra => wrap w (sa / (2 ^ sh : Nat))
  | .min => if sa < sy then a else y
  | .minu => if a < y then a else y
  | .max => if sy < sa then a else y
  | .maxu => if y < a then a else y
  | .sadd => wrap w (clampInt (sa + sy) lo hi)
  | .saddu => wrap w (clampInt ((a : Int) + y) 0 top)
  | .ssub => wrap w (clampInt (sa - sy) lo hi)
  | .ssubu => wrap w (clampInt ((a : Int) - y) 0 top)
  | .macc => (d + a * y) % 2 ^ w
  | .merge => y
  | .mv => y

/-- VINT, VINTX and VINTI: none is ILL (R85, R176).  MERGE reads the mask as a selector (R174, R178); MV writes its
operand: under VINT that is `va`, given as `b` too. -/
def runInt (e : QEntry) (a0 : Arch) (f : IntFn) (d a : Nat) (b : VSrc) (m : Nat) : Option VAcc :=
  if e.isInt && e.groupHere d && e.groupHere a && e.srcOk b then
    match f with
    | .merge =>
      some (eachElem (List.range e.vl) (VAcc.start a0) (fun v i =>
        v.set e.vb e.sew d i (if getMask a0 m i then e.src a0 b i else getElem a0 e.vb e.sew a i)))
    | _ =>
      some (eachElem (e.active a0 m) (VAcc.start a0) (fun v i =>
        v.set e.vb e.sew d i (intElem f e.sew (getElem a0 e.vb e.sew a i) (e.src a0 b i) (getElem a0 e.vb e.sew d i))))
  else none

/-- VIDX (R200). -/
def runVidx (e : QEntry) (a0 : Arch) (d : Nat) (start step : Int) : Option VAcc :=
  if e.isInt && e.groupHere d then
    some (eachElem (List.range e.vl) (VAcc.start a0) (fun v i => v.set e.vb e.sew d i (wrap e.sew (start + i * step))))
  else none

end Sys2Proof.Machine
end

