-- ==== Sys2Proof/Machine/VRed.lean ====
section
/-! DEFINITION. Reductions (R188 to R190), permutations (R191 to R195) and masks (R196 to R199). -/

namespace Sys2Proof.Machine

/-- The integer function a reduction combines with (R189). -/
def RedFn.int : RedFn → Option IntFn
  | .sum => some .add | .min => some .min | .minu => some .minu | .max => some .max | .maxu => some .maxu
  | .and => some .and | .or => some .or | .xor => some .xor | _ => none

/-- A legal VTYPE for a reduction (R188). -/
def redOk (e : QEntry) : RedFn → Bool
  | .fsumo => e.isFloat && decide (16 ≤ e.sew)
  | .fsumt => e.isFloat && decide (16 ≤ e.sew)
  | .fmin => e.isFloat
  | .fmax => e.isFloat
  | _ => e.isInt

/-- One level of the tree of R68: neighbours combined, absent leaves passed on. -/
def treeLevel (t : Fmt) (mode enabled : Nat) : List (Option Nat) → VAcc → List (Option Nat) × VAcc
  | some x :: some y :: r, v =>
    let o := v.round t mode false enabled 0 (sumFV mode [t.decode x, t.decode y])
    let q := treeLevel t mode enabled r o.2
    (some o.1 :: q.1, q.2)
  | some x :: none :: r, v => let q := treeLevel t mode enabled r v; (some x :: q.1, q.2)
  | none :: y :: r, v => let q := treeLevel t mode enabled r v; (y :: q.1, q.2)
  | [x], v => ([x], v)
  | [], v => ([], v)

/-- The levels of the tree until one node is left. -/
def treeSum (t : Fmt) (mode enabled : Nat) : Nat → List (Option Nat) → VAcc → Option Nat × VAcc
  | 0, l, v => (l.headD none, v)
  | n + 1, l, v =>
    if l.length ≤ 1 then (l.headD none, v)
    else let q := treeLevel t mode enabled l v; treeSum t mode enabled n q.1 q.2

/-- The smallest power of two at or above a number, by doubling. -/
def pow2At (n : Nat) : Nat → Nat → Nat
  | 0, p => p
  | k + 1, p => if p < n then pow2At n k (2 * p) else p

/-- VRED (R188, R189): `vd`, the source group, the register of the start value, the selector, and whether the result
goes to the BQ. -/
def runRed (e : QEntry) (a0 : Arch) (f : RedFn) (d a b m q : Nat) : Option VAcc :=
  if redOk e f && e.groupHere a then
    let t := e.fmt
    let start := getElem a0 e.vb e.sew b 0
    let sel := e.active a0 m
    let v0 := VAcc.start a0
    let elem (i : Nat) : Nat := getElem a0 e.vb e.sew a i
    let r : Nat × VAcc := match f with
      | .fsumo => sel.foldl (fun (p : Nat × VAcc) i => p.2.round t e.frm false e.fen 0 (sumFV e.frm [t.decode p.1, t.decode (elem i)])) (start, v0)
      | .fsumt =>
        let n := pow2At e.vl 32 1
        let leaves := (List.range n).map (fun i => if i < e.vl && getMask a0 m i then some (elem i) else none)
        let s := treeSum t e.frm e.fen 32 leaves v0
        match s.1 with
        | some y => s.2.round t e.frm false e.fen 0 (sumFV e.frm [t.decode start, t.decode y])
        | none => (start, s.2)
      | .fmin => sel.foldl (fun (p : Nat × VAcc) i => let o := minmax t false p.1 (elem i); (o.1, p.2.flag e.fen 0 o.2)) (start, v0)
      | .fmax => sel.foldl (fun (p : Nat × VAcc) i => let o := minmax t true p.1 (elem i); (o.1, p.2.flag e.fen 0 o.2)) (start, v0)
      | g => match g.int with
        | some k => (sel.foldl (fun x i => intElem k e.sew x (elem i) 0) start, v0)
        | none => (start, v0)
    let v := if 1 ≤ e.vl then r.2.set e.vb e.sew d 0 r.1 else v0
    let out := if 1 ≤ e.vl then r.1 else start
    some { v with bq := if q = 1 then some (e.extend out) else none }
  else none

/-! ### Permutations -/

/-- The domain of a permute (R191): elements of a register, dies of the grant, and elements of a segment. -/
def QEntry.dieCount (e : QEntry) : Nat := max 1 e.grant.dies.length
def QEntry.perReg (e : QEntry) : Nat := e.vb * 8 / e.sew
/-- The size of the domain of every element. -/
def QEntry.domSize (e : QEntry) : Nat := if e.dieCount = 1 then e.vlmax else e.perReg / e.dieCount
/-- The rank of element `i` in its domain. -/
def QEntry.rank (e : QEntry) (i : Nat) : Nat := if e.dieCount = 1 then i else i % e.perReg % (e.perReg / e.dieCount)
/-- The first element of the domain of element `i`. -/
def QEntry.domBase (e : QEntry) (i : Nat) : Nat := i - e.rank i

/-- VPERM but for COMPRESS and EXPAND: the new value of element `i`, or none where it keeps its contents (R192, R194). -/
def permElem (e : QEntry) (a0 : Arch) (f : PermFn) (a b : Nat) (x : W64) (i : Nat) : Option Nat :=
  let at_ (r : Nat) : Nat := getElem a0 e.vb e.sew a (e.domBase i + r)
  let p := e.rank i
  let k := x.toNat
  match f with
  | .slup => if k ≤ p then some (at_ (p - k)) else none
  | .sldn => some (if p + k < e.domSize then at_ (p + k) else 0)
  | .gather => let r := getElem a0 e.vb e.sew b i; some (if r < e.domSize then at_ r else 0)
  | .bcast => some (if k < e.domSize then at_ k else 0)
  | .mvsx => some (k % 2 ^ e.sew)
  | .xchg =>
    let n := e.dieCount
    let sz := e.perReg / n
    let seg := i % e.perReg / sz
    some (getElem a0 e.vb e.sew a (i / e.perReg * e.perReg + (seg ^^^ (k % n)) * sz + i % sz))
  | _ => none

/-- The selected elements of a domain below `i` in it, counted (R193). -/
def selBelow (e : QEntry) (a0 : Arch) (m i : Nat) : Nat :=
  ((List.range (i - e.domBase i)).filter (fun j => getMask a0 m (e.domBase i + j) && decide (e.domBase i + j < e.vl))).length

/-- VPERM (R191 to R195): none is ILL. -/
def runPerm (e : QEntry) (a0 : Arch) (f : PermFn) (d a b : Nat) (x : W64) (m : Nat) : Option VAcc :=
  let v0 := VAcc.start a0
  let ok := match f with
    | .mvxs => e.groupHere a
    | .mvsx => e.groupHere d
    | .gather => e.groupHere d && e.groupHere a && e.groupHere b
    | _ => e.groupHere d && e.groupHere a
  if !ok then none
  else match f with
    | .mvxs =>
      let y := if x.toNat < e.vlmax then getElem a0 e.vb e.sew a x.toNat else 0
      some { v0 with bq := some (e.extend y) }
    | .compress => some (eachElem (e.active a0 m) v0 (fun v i =>
        v.set e.vb e.sew d (e.domBase i + selBelow e a0 m i) (getElem a0 e.vb e.sew a i)))
    | .expand => some (eachElem (e.active a0 m) v0 (fun v i =>
        v.set e.vb e.sew d i (getElem a0 e.vb e.sew a (e.domBase i + selBelow e a0 m i))))
    | _ => some (eachElem (e.active a0 m) v0 (fun v i =>
        match permElem e a0 f a b x i with
        | some y => v.set e.vb e.sew d i y
        | none => v))

/-! ### Masks -/

/-- A comparison reads floats (R196). -/
def CmpFn.isFloat : CmpFn → Bool
  | .feq => true | .flt => true | .fle => true | _ => false

/-- The relation of two elements and its flags (R196). -/
def cmpElem (f : CmpFn) (t : Fmt) (w x y : Nat) : Bool × Nat :=
  let sx := toSigned w x
  let sy := toSigned w y
  match f with
  | .eq => (decide (x = y), 0)
  | .ne => (decide (x ≠ y), 0)
  | .lt => (decide (sx < sy), 0)
  | .ltu => (decide (x < y), 0)
  | .le => (decide (sx ≤ sy), 0)
  | .leu => (decide (x ≤ y), 0)
  | .gt => (decide (sy < sx), 0)
  | .feq => relate t 0 x y
  | .flt => relate t 1 x y
  | .fle => relate t 2 x y

/-- The comparisons (R196). -/
def runCmp (e : QEntry) (a0 : Arch) (f : CmpFn) (d a : Nat) (b : VSrc) (m : Nat) : Option VAcc :=
  if (if f.isFloat then e.isFloat else e.isInt) && e.groupHere a && e.srcOk b && decide (d ≠ 0) then
    some (eachElem (e.active a0 m) (VAcc.start a0) (fun v i =>
      let r := cmpElem f e.fmt e.sew (getElem a0 e.vb e.sew a i) (e.src a0 b i)
      let v := v.flag e.fen i r.2
      { v with arch := setMask v.arch d i r.1 }))
  else none

/-- Mask logic (R197). -/
def runMlogic (e : QEntry) (a0 : Arch) (f : MaskFn) (d a b : Nat) : Option VAcc :=
  if d = 0 then none
  else some (eachElem (List.range e.vl) (VAcc.start a0) (fun v i =>
    let x := getMask a0 a i
    let y := getMask a0 b i
    { v with arch := setMask v.arch d i (match f with | .and => x && y | .or => x || y | .xor => x != y | .andn => x && !y) }))

/-- POPC and FIRST (R198). -/
def runPopc (e : QEntry) (a0 : Arch) (a m : Nat) : Option VAcc :=
  some { VAcc.start a0 with bq := some (BitVec.ofNat 64 ((e.active a0 m).filter (fun i => getMask a0 a i)).length) }
def runFirst (e : QEntry) (a0 : Arch) (a m : Nat) : Option VAcc :=
  some { VAcc.start a0 with bq := some (match (e.active a0 m).find? (fun i => getMask a0 a i) with
    | some i => BitVec.ofNat 64 i
    | none => BitVec.allOnes 64) }

/-- CONFL (R199). -/
def runConfl (e : QEntry) (a0 : Arch) (d a m : Nat) : Option VAcc :=
  if d = 0 ∨ !e.groupHere a then none
  else
    let act := e.active a0 m
    some (eachElem act (VAcc.start a0) (fun v i =>
      let x := getElem a0 e.vb e.sew a i
      { v with arch := setMask v.arch d i (act.any (fun j => decide (j < i) && decide (getElem a0 e.vb e.sew a j = x))) }))

end Sys2Proof.Machine
end

