-- ==== Sys2Proof/Machine/MaskUnit.lean ====
section
/-! DEFINITION. The attention mask unit: mask programs, documents, classes, MSK.LD, CLS, GEN, CNT and ZOP.MASK (R221 to
R232). -/

namespace Sys2Proof.Machine

/-- The words of the program in slot K (R221). -/
def maskProgram (a : Arch) (k : Nat) : List Nat :=
  (List.range (fget 0 a.mp (k * 72)).toNat).map (fun i => leNat (fgetMany 0 a.mp (k * 72 + 8 + 4 * i) 4))

/-- What a word pops (R222). -/
def wordPops (w : Nat) : Nat := match w / 2 ^ 28 with | 8 => 2 | 9 => 2 | 10 => 1 | _ => 0

/-- A word that R223 refuses by itself. -/
def wordBad (w : Nat) : Bool :=
  let opc := w / 2 ^ 28
  let sh := w / 2 ^ 24 % 16
  decide (opc = 0) || decide (10 < opc) || (decide (sh ≠ 0) && !(decide (3 ≤ opc) && decide (opc ≤ 6)))
  || decide (8 < sh) || (decide (7 ≤ opc) && decide (w % 2 ^ 24 ≠ 0))

/-- The index of the first word that fails validation, from word `i` at a depth (R223). -/
def firstBad : List Nat → Nat → Nat → Option Nat
  | [], i, depth => if depth = 1 then none else some (i - 1)
  | w :: ws, i, depth =>
    if wordBad w || decide (depth < wordPops w) then some i
    else
      let d := depth + 1 - wordPops w
      if 8 < d then some i else firstBad ws (i + 1) d

/-- The index TELEM of a failing image, none where it is valid (R223). -/
def imageBad (bs : List Byte) : Option Nat :=
  let n := fieldAt bs 0 1
  if n = 0 ∨ 16 < n ∨ fieldAt bs 1 7 ≠ 0 then some 0
  else firstBad ((List.range n).map (fun i => fieldAt bs (8 + 4 * i) 4)) 0 0

/-- MSKBAD (R223, R308). -/
def mskbad (telem tval : Nat) : Stop := { cause := 0x08, kind := 0, telem := telem, tlane := 0, tval := tval }

/-- MSK.LD (R223). -/
def runMskld (s : State) (e : QEntry) (a : Arch) (sh : Sheaf) (k : Nat) (base : W64) : Ran :=
  if !needsMask e.csr then .ill
  else
    match longCheck s e sh base.toNat 72 8 with
    | .error t => .stop t
    | .ok (homes, hold) =>
      let r := longRead s (e.reader false) homes sh s.free
      match imageBad r.1 with
      | some i => .late (mskbad i base.toNat) r.2.1 r.2.2
      | none =>
        let kept := 8 + 4 * fieldAt r.1 0 1
        let bs := r.1.take kept ++ List.replicate (72 - kept) 0
        .done { acc := { VAcc.start a with arch := { a with mp := fsetMany 0 a.mp (k * 72) bs } },
                sheaf := r.2.1, free := r.2.2, hold := hold, cls := none }

/-! ### Documents (R224) -/

/-- A program holds a SAMEDOC word. -/
def usesDoc (prog : List Nat) : Bool := prog.any (fun w => decide (w / 2 ^ 28 = 7))

/-- One entry of the boundary table: its home address and a HOLD hit, or its stop. -/
def docElt (s : State) (e : QEntry) (sh : Sheaf) (docb j : Nat) : Except Stop (Nat × Option (Nat × Stop)) :=
  let o := docb + 4 * j
  let x : Elt := { i := j, lane := 4 * j % e.vb, addr := (0x300_0000_0000_0000 + o) % 2 ^ 64, n := 4, al := 4 }
  if docb % 4 ≠ 0 then .error (x.stop e.grant 0x02 kRead)
  else if e.grant.scratch < o + 4 then .error (x.stop e.grant 0x03 kRead)
  else
    let home := e.grant.windowHome o
    match (if e.sup then none else watchHit e.csr x.addr 4 kRead) with
    | some (_, false) => .error (x.stop e.grant 0x05 kRead)
    | some (w, true) =>
      if readPoisoned s sh (e.reader false) home 4 then .error (x.stop e.grant 0x10 kRead) else .ok (home, some (w, x.stop e.grant 0x05 kRead))
    | none => if readPoisoned s sh (e.reader false) home 4 then .error (x.stop e.grant 0x10 kRead) else .ok (home, none)

/-- What a read of the table gives. -/
structure Docs where
  tab   : List Nat
  sheaf : Sheaf
  free  : Nat
  hold  : Option (Nat × Stop)
  deriving DecidableEq, Repr

/-- Reads the boundary table as a VLD.UNIT would, where the program needs it (R224). -/
def readDocs (s : State) (e : QEntry) (sh : Sheaf) (prog : List Nat) : Except Stop Docs :=
  let docb := (fget 0 e.csr cDOCB).toNat
  let n := if usesDoc prog then (fget 0 e.csr cDOCN).toNat else 0
  (List.range n).foldl (fun r j =>
    match r with
    | .error t => .error t
    | .ok d =>
      match docElt s e sh docb j with
      | .error t => .error t
      | .ok (home, hit) =>
        let b := sheafRead s sh (e.reader false) home 4 d.free
        .ok { tab := d.tab ++ [leNat b.1], sheaf := d.sheaf.addRead home 4, free := b.2,
              hold := match d.hold with | some h => some h | none => hit })
    (.ok { tab := [], sheaf := sh, free := s.free, hold := none })

/-- doc(x) (R224). -/
def doc (tab : List Nat) (x : Nat) : Nat := (tab.filter (fun b => decide (b ≤ x))).length

/-! ### Evaluation (R222, R226, R227) -/

/-- The value of a primitive at a cell. -/
def primAt (tab : List Nat) (w q k : Nat) : Bool :=
  let c := w % 2 ^ 24
  let sc := toSigned 24 c
  let t := c * 2 ^ (w / 2 ^ 24 % 16)
  match w / 2 ^ 28 with
  | 1 => decide ((k : Int) ≤ q + sc)
  | 2 => decide ((k : Int) ≥ q + sc)
  | 3 => decide (t ≤ k)
  | 4 => decide (k < t)
  | 5 => decide (t ≤ q)
  | 6 => decide (q < t)
  | _ => decide (doc tab q = doc tab k)

/-- The value of a program at a cell, by its stack. -/
def evalAt (tab : List Nat) (q k : Nat) : List Nat → List Bool → Bool
  | [], st => st.headD false
  | w :: ws, st =>
    match w / 2 ^ 28, st with
    | 8, x :: y :: r => evalAt tab q k ws ((x && y) :: r)
    | 9, x :: y :: r => evalAt tab q k ws ((x || y) :: r)
    | 10, x :: r => evalAt tab q k ws ((!x) :: r)
    | _, r => evalAt tab q k ws (primAt tab w q k :: r)

/-- Class of an interval test: 2 full, 0 empty, 1 partial. -/
def classOf2 (full empty : Bool) : Nat := if full then 2 else if empty then 0 else 1

/-- The class of a primitive over the tile from (q0, k0) to (q1, k1) (R226). -/
def primClass (tab : List Nat) (w q0 q1 k0 k1 : Nat) : Nat :=
  let c := w % 2 ^ 24
  let sc := toSigned 24 c
  let t := c * 2 ^ (w / 2 ^ 24 % 16)
  match w / 2 ^ 28 with
  | 1 => classOf2 (decide ((k1 : Int) ≤ q0 + sc)) (decide ((q1 : Int) + sc < k0))
  | 2 => classOf2 (decide ((q1 : Int) + sc ≤ k0)) (decide ((k1 : Int) < q0 + sc))
  | 3 => classOf2 (decide (t ≤ k0)) (decide (k1 < t))
  | 4 => classOf2 (decide (k1 < t)) (decide (t ≤ k0))
  | 5 => classOf2 (decide (t ≤ q0)) (decide (q1 < t))
  | 6 => classOf2 (decide (q1 < t)) (decide (t ≤ q0))
  | _ =>
    let dq := (List.range (q1 + 1 - q0)).map (fun i => doc tab (q0 + i))
    let dk := (List.range (k1 + 1 - k0)).map (fun i => doc tab (k0 + i))
    let v := dq.headD 0
    classOf2 (dq.all (fun x => decide (x = v)) && dk.all (fun x => decide (x = v))) (dq.all (fun x => !dk.contains x))

/-- The class of a program (R227). -/
def evalClass (tab : List Nat) (q0 q1 k0 k1 : Nat) : List Nat → List Nat → Nat
  | [], st => st.headD 1
  | w :: ws, st =>
    match w / 2 ^ 28, st with
    | 8, x :: y :: r => evalClass tab q0 q1 k0 k1 ws (min x y :: r)
    | 9, x :: y :: r => evalClass tab q0 q1 k0 k1 ws (max x y :: r)
    | 10, x :: r => evalClass tab q0 q1 k0 k1 ws ((2 - x) :: r)
    | _, r => evalClass tab q0 q1 k0 k1 ws (primClass tab w q0 q1 k0 k1 :: r)

/-! ### The instructions -/

/-- MSK.CLS (R228).  Where ZSHAPE and MSKBAD both apply, ZSHAPE is tested first (logged as assumption 73). -/
def runMskcls (s : State) (e : QEntry) (a : Arch) (sh : Sheaf) (pos : W64) (k : Nat) : Ran :=
  if !needsMask e.csr then .ill
  else
    let shp := (fget 0 e.csr cMSKSHAPE).toNat
    let prog := maskProgram a k
    let q0 := bits pos.toNat 31 0
    let k0 := bits pos.toNat 63 32
    if 64 * max e.grant.clusters 1 < bits shp 29 16 then zshape shp
    else if prog.isEmpty then .stop (mskbad 0 k)
    else match readDocs s e sh prog with
      | .error t => .stop t
      | .ok d =>
        let c := evalClass d.tab q0 (q0 + bits shp 6 0 - 1) k0 (k0 + bits shp 29 16 - 1) prog []
        .done { acc := { VAcc.start a with bq := some (BitVec.ofNat 64 c) }, sheaf := d.sheaf, free := d.free, hold := d.hold,
                cls := some c }

/-- MSK.GEN (R229). -/
def runMskgen (s : State) (e : QEntry) (a : Arch) (sh : Sheaf) (d : Nat) (pos : W64) (k : Nat) : Ran :=
  if !needsMask e.csr || decide (d = 0) then .ill
  else
    let prog := maskProgram a k
    let q := bits pos.toNat 31 0
    let k0 := bits pos.toNat 63 32
    if prog.isEmpty then .stop (mskbad 0 k)
    else match readDocs s e sh prog with
      | .error t => .stop t
      | .ok t =>
        let a' := (List.range e.vl).foldl (fun a i => setMask a d i (evalAt t.tab q (k0 + i) prog [])) a
        .done { acc := { VAcc.start a with arch := a' }, sheaf := t.sheaf, free := t.free, hold := t.hold, cls := none }

/-- ZOP.MASK (R230).  Where ZSHAPE and MSKBAD both apply, ZSHAPE is tested first (logged as assumption 73). -/
def runZmask (s : State) (e : QEntry) (a : Arch) (sh : Sheaf) (t : Nat) (pos : W64) (k : Nat) (zero : Bool) : Ran :=
  if !e.hasZ then .ill
  else if !a.zen then zoff
  else
    let prog := maskProgram a k
    let q0 := bits pos.toNat 31 0
    let k0 := bits pos.toNat 63 32
    if !zero && e.zew t then zshape 0
    else if prog.isEmpty then .stop (mskbad 0 k)
    else match readDocs s e sh prog with
      | .error x => .stop x
      | .ok d =>
        let a' := (List.range (e.zrows t)).foldl (fun a i => (List.range (e.zcols t)).foldl (fun (a : Arch) j =>
          if evalAt d.tab (q0 + i) (k0 + j) prog [] then a else a.cell t i j (if zero then 0 else 0xFF80_0000)) a) a
        .done { acc := { VAcc.start a with arch := a' }, sheaf := d.sheaf, free := d.free, hold := d.hold, cls := none }

/-- MSK.CNT (R231). -/
def runMskcnt (s : State) (e : QEntry) (a : Arch) (sh : Sheaf) (sel : Nat) : Ran :=
  if !needsMask e.csr then .ill
  else
    let n (i : Nat) : W64 := fget 0 s.mskcnt (e.grant.base * 3 + i)
    Ran.regs s sh (some { VAcc.start a with bq := some (if sel = 3 then n 0 + n 1 + n 2 else n sel) })

/-! ### Every queued instruction -/

/-- What a queued instruction comes to, from the registers `a` and its sheaf; `gang` is its hart's gang and `canTrim` says
whether R159 allows a strip trim. -/
def runVOp (s : State) (gang : Nat) (e : QEntry) (a : Arch) (sh : Sheaf) (canTrim : Bool) : Ran :=
  match e.op with
  | .strip => Ran.regs s sh (some (VAcc.start a))
  | .trmark _ => Ran.regs s sh (some (VAcc.start a))
  | .int f d x y m => Ran.regs s sh (runInt e a f d x y m)
  | .fp f d x y m => Ran.regs s sh (runFp e a f d x y m)
  | .cvt f d x m sat t => Ran.regs s sh (runCvt e a f d x m sat t)
  | .red f d x y m q => Ran.regs s sh (runRed e a f d x y m q)
  | .perm f d x y k m => Ran.regs s sh (runPerm e a f d x y k m)
  | .cmp f d x y m => Ran.regs s sh (runCmp e a f d x y m)
  | .mlogic f d x y => Ran.regs s sh (runMlogic e a f d x y)
  | .popc x m => Ran.regs s sh (runPopc e a x m)
  | .first x m => Ran.regs s sh (runFirst e a x m)
  | .confl d x m => Ran.regs s sh (runConfl e a d x m)
  | .vidx d start step => Ran.regs s sh (runVidx e a d start step)
  | .load f d base m => runLoad s e a sh canTrim f d base m
  | .store f d base m => runStore s e a sh canTrim f d base m
  | .qld d base => runQld s e a sh d base
  | .redst o idx d base m => runRedst s e a sh o idx d base m
  | .vxcl st d b m => runVxcl s e a sh gang st d b m
  | .tamw k base => runTamw s e a sh k base
  | .mop neg d x y m r f => runMop s e a sh neg d x y m r f
  | .zcfg _ _ => runZcfg s e a sh
  | .zenable => runZenable s e a sh
  | .zdisable => runZdisable s e a sh
  | .zzero d => runZzero s e a sh d
  | .zrd d x k m sat c l => runZrd s e a sh d x k m (decide (sat = 1)) (decide (c = 1)) (decide (l = 1))
  | .zwr d x k m c l => runZwr s e a sh d x k m (decide (c = 1)) (decide (l = 1))
  | .zpatch d x k m add c l => runZpatch s e a sh d x k m (decide (add = 1)) (decide (c = 1)) (decide (l = 1))
  | .zscale d x m => runZscale s e a sh d x m
  | .zmask d pos k z => runZmask s e a sh d pos k (decide (z = 1))
  | .mskld k base => runMskld s e a sh k base
  | .mskcls pos k => runMskcls s e a sh pos k
  | .mskgen d pos k => runMskgen s e a sh d pos k
  | .mskcnt sel => runMskcnt s e a sh sel

end Sys2Proof.Machine
end

