-- ==== Sys2Proof/Machine/MemAlu.lean ====
section
/-! DEFINITION. Reductions at memory (R164, R165, R248) and writes of agents to committed memory (R275, R351, R358). -/

namespace Sys2Proof.Machine

/-- Bytes of a reduction's element (R164, R248). -/
def AluType.bytes : AluType → Nat
  | .int32 _ => 4
  | .int64 _ => 8
  | .fp32 => 4
  | .bf16 => 2

/-- MIN, MAX and ADD of integers of `w` bits (R164). -/
def intAlu (w : Nat) (signed : Bool) (op : AluOp) (a b : Nat) : Nat :=
  let va : Int := if signed then toSigned w a else (a : Int)
  let vb : Int := if signed then toSigned w b else (b : Int)
  match op with
  | .add => (a + b) % 2 ^ w
  | .min => if va < vb then a else b
  | .max => if va < vb then b else a
  | .and => a &&& b
  | .or => a ||| b
  | .xor => a ^^^ b

/-- ADD, MIN and MAX of floats: RNE, canonical NaN for a NaN addend, no flags kept; bitwise on the raw bits (R164,
R165). -/
def fpAlu (f : Fmt) (op : AluOp) (a b : Nat) : Nat :=
  match op with
  | .add => (roundTo f 0 false 0 (sumFV 0 [f.decode a, f.decode b]).1).1
  | .min => (minmax f false a b).1
  | .max => (minmax f true a b).1
  | .and => a &&& b
  | .or => a ||| b
  | .xor => a ^^^ b

/-- The value a reduction leaves, from the old value and the operand (R164, R248). -/
def aluApply (ty : AluType) (op : AluOp) (old x : Nat) : Nat :=
  match ty with
  | .int32 s => intAlu 32 s op old x
  | .int64 s => intAlu 64 s op old x
  | .fp32 => fpAlu fp32 op old x
  | .bf16 => fpAlu bf16 op old x

/-- The granules that a map of written bytes covers whole: their poison is cleared (R358). -/
def coveredGranules (bytes : List Nat) : List Nat :=
  (bytes.filter (fun a => decide (a % 64 = 0))).filterMap (fun a =>
    if (List.range 64).all (fun i => bytes.contains (a + i)) then some (a / 64) else none)

/-- Clears the poison of granules. -/
def State.clearPoison (s : State) (gs : List Nat) : State := { s with poison := gs.foldl (fun p g => fset false p g false) s.poison }

/-- Writes bytes at a home address of committed memory. -/
def State.commitBytes (s : State) (home : Nat) (bs : List Byte) : State :=
  (s.store home bs).clearPoison (coveredGranules ((List.range bs.length).map (home + ·)))

/-- Applies one reduction to committed memory; a line of HBM4E that holds it is invalidated (R165, R351). -/
def State.applyRed (s : State) (r : Red) : State :=
  let n := r.ty.bytes
  let s := s.store r.home (leBytes n (aluApply r.ty r.op (memNat s r.home n) (r.val.toNat % 2 ^ (8 * n))))
  { s with ms := { s.ms with lines := fdel s.ms.lines (r.home / 64) } }

/-- Puts a reduction at a place of the list that free choices pick: every order of application is possible (R165,
R281). -/
def insertFree (r : Red) : List Red → Nat → List Red × Nat
  | [], n => ([r], n)
  | x :: xs, n =>
    if freeBit n then (r :: x :: xs, n + 1)
    else let t := insertFree r xs (n + 1); (x :: t.1, t.2)

/-- A free order of a list of reductions. -/
def freeOrder : List Red → Nat → List Red × Nat
  | [], n => ([], n)
  | r :: rs, n => let t := freeOrder rs n; insertFree r t.1 t.2

/-- Applies the reductions of a sheaf, each exactly once, in an order that is free (R165). -/
def State.applyReds (s : State) (rs : List Red) : State :=
  let o := freeOrder rs s.free
  o.1.foldl State.applyRed { s with free := o.2 }

end Sys2Proof.Machine
end

