-- ==== Sys2Proof/Machine/SaveArea.lean ====
section
/-! DEFINITION. The hart save area (R317): its header, its frame, and writing it. -/

namespace Sys2Proof.Machine

/-- What squashes the sheaves of a hart that a test picks, as a frame write needs it. -/
abbrev Squasher := State → Nat → (Sheaf → Bool) → State

/-- The holder of the solo token has read a granule of a range: a write or reduction there is held at its destination (R276). -/
def State.tokenHolds (s : State) (home n : Nat) : Bool :=
  match s.arb.token with
  | none => false
  | some h =>
    match s.hart h with
    | none => false
    | some x => match x.sheaves with
      | [] => false
      | sh :: _ => (granules home n).any (fun g => sh.rset.holds 4096 g)

/-- The holder of the solo token may have read a range: its ranges or its signatures meet it (R270, R276). -/
def State.tokenMeets (s : State) (home n : Nat) : Bool :=
  match s.arb.token.bind s.hart with
  | none => false
  | some x => x.sheaves.head?.any (fun sh => sh.rset.meets 4096 (RecSet.range (home / 64) ((home + n - 1) / 64)))

/-- The pages of a range of virtual memory, each with its part of the range. -/
def pageParts (va len : Nat) : List (Nat × Nat) :=
  (List.range (ceilDiv (va % 65536 + len) 65536)).map (fun i =>
    (max va (va / 65536 * 65536 + i * 65536), min (va + len) (va / 65536 * 65536 + (i + 1) * 65536)))

/-- A write to the save area of a hart would be held for the solo token (R276). -/
def State.areaHeld (s : State) (a : Arch) (len : Nat) : Bool :=
  (pageParts (a.rcsr cSAVEPTR).toNat len).any (fun p =>
    match homeOf s a.grant (a.rcsr cPTROOT) p.1 kWrite false with
    | none => false
    | some m => s.tokenHolds m (p.2 - p.1))

/-- No other hart's solo token stands in the way of a landing that writes the save area (R276). -/
def State.areaFree (s : State) (h : Nat) (a : Arch) (len : Nat) : Bool :=
  match s.arb.token with
  | none => true
  | some k => decide (k = h) || !s.areaHeld a len

/-- The poison of the granules that a written range covers whole is cleared (R358). -/
def State.coverRange (s : State) (h n : Nat) : State :=
  { s with poison := fclear s.poison (ceilDiv h 64) ((h + n) / 64 - ceilDiv h 64) }

/-- Writes whole a range of virtual memory of a hart as the supervisor, page by page: the listed bytes, and zero
elsewhere.  Bytes whose page is not mapped writable are not written.  Sheaves that have read what is written are squashed
(R275, R311); what the solo token protects is held (R276). -/
def fillRangeWith (squash : Squasher) (s : State) (g : Grant) (root : W64) (va len : Nat) (bytes : List (Nat × Byte)) : State :=
  (pageParts va len).foldl (fun s p =>
    match homeOf s g root p.1 kWrite false with
    | none => s
    | some h =>
      let n := p.2 - p.1
      let part := (bytes.filter (fun b => decide (p.1 ≤ b.1) && decide (b.1 < p.2))).map (fun b => (h + (b.1 - p.1), b.2))
      let m := part.foldl (fun m b => fset 0 m b.1 b.2) (fclear s.mem h n)
      if s.tokenHolds h n then { s with arb := { s.arb with heldWrites := s.arb.heldWrites ++ [(h, fgetMany 0 m h n)] } }
      else
        let s := ({ s with mem := m } : State).coverRange h n
        s.harts.foldl (fun s e => squash s e.1 (fun sh => sh.rset.meets 4096 (RecSet.range (h / 64) ((h + n - 1) / 64)))) s) s

/-- Reads eight bytes of a hart's memory as the supervisor; none where the page is not readable. -/
def State.peek (s : State) (g : Grant) (root : W64) (va : Nat) : Option W64 :=
  (homeOf s g root va kRead false).map (fun h => BitVec.ofNat 64 (memNat s h 8))

/-- An 8-byte slot at an offset. -/
def slot (off : Nat) (v : Nat) : List (Nat × Byte) := ((List.range 8).zip (leBytes 8 v)).map (fun b => (off + b.1, b.2))

/-- Consecutive 8-byte slots. -/
def slots (off : Nat) (vs : List W64) : List (Nat × Byte) :=
  ((List.range vs.length).zip vs).flatMap (fun e => slot (off + 8 * e.1) e.2.toNat)

/-- What the header records of a pending wait (R261, R317): value, kind with its number, arrival counted. -/
structure WaitRec where
  value : Nat
  kind  : Nat
  here  : Nat
  deriving DecidableEq, Repr

def Wait.record : Wait → WaitRec
  | .tlwait ch v _ => { value := v.toNat, kind := 1 + ch * 256, here := 0 }
  | .icwait n v _ => { value := v.toNat, kind := 2 + n * 256, here := 0 }
  | .gbar gen arrived => { value := gen, kind := 3, here := if arrived then 1 else 0 }
  | _ => { value := 0, kind := 0, here := 0 }

/-- The wait that a record of the save area gives back (R261, R318); a SYNC.TLWAIT stands in front of the landing point `resume`. -/
def Wait.ofRecord (w : WaitRec) (resume : W64) : Wait :=
  match w.kind % 256 with
  | 1 => .tlwait (w.kind / 256) (BitVec.ofNat 64 w.value) (resume - 4)
  | 2 => .icwait (w.kind / 256) (BitVec.ofNat 64 w.value) (resume - 4)
  | 3 => .gbar w.value (decide (w.here = 1))
  | _ => .none

/-- The wait that goes with a hart into its save area (R261): that of a SYNC instruction whose sheaf has committed. -/
def Hart.savedWait (x : Hart) : Wait :=
  if !x.sheaves.isEmpty then .none
  else match x.wait with
    | .tlwait ch v pc => .tlwait ch v pc
    | .icwait n v pc => .icwait n v pc
    | .gbar gen arrived => .gbar gen arrived
    | _ => .none

/-- The header of the save area (R317): `flags` are FULL, ZVALID and WAIT. -/
def saveHeader (a : Arch) (flags : Nat) (split squash cap : Nat) (w : WaitRec) : List (Nat × Byte) :=
  slot 0x00 (0x56415348 + 1 * 2 ^ 32 + flags * 2 ^ 48)
  ++ slot 0x08 (a.grant.vlenb + a.grant.clusters * 2 ^ 32 + a.grant.quarters * 2 ^ 48)
  ++ slot 0x10 (a.rcsr cSTRIP).toNat ++ slot 0x18 (split % 2 ^ 32 + squash % 2 ^ 32 * 2 ^ 32) ++ slot 0x20 cap
  ++ slot 0x28 w.value ++ slot 0x30 (w.kind + w.here * 2 ^ 32) ++ slot 0x38 0

/-- The frame from 0x040 on (R317): resume PC, scalar registers, CSRs and counters. -/
def frameSlots (a : Arch) (cnt : FMap W64) (resume : W64) : List (Nat × Byte) :=
  slot 0x40 resume.toNat
  ++ slots 0x48 ((List.range 31).map (fun i => a.rx (i + 1)))
  ++ slots 0x140 ([cVL, cVTYPE, cFCSR, cRUNBASE, cSRSEED, cZSTATE, cDOCB, cDOCN, cMSKSHAPE].map a.rcsr ++ [0#64])
  ++ slots 0x190 ((List.range 4).flatMap (fun t => [a.rcsr (0x10 + 4 * t), a.rcsr (0x11 + 4 * t), a.rcsr (0x12 + 4 * t)]))
  ++ slots 0x1F0 ((List.range 8).map (fun i => a.rcsr (cZCFG + i)))
  ++ slots 0x230 ((List.range 8).map (fun i => a.rcsr (cTID + i)))
  ++ slots 0x270 ([cCYCLE, cINSTRET, cLATSTALL, cMEMRETRY, cSQUASHES, cSPLITS, cADVDROP, cADVREALIGN, cADVCLAMP, cADVIDLE].map (fget 0 cnt))
  ++ slot 0x2C0 (fget 0 cnt cTRLOSS).toNat

/-- Whether the save area's header says that tiles are saved and not yet restored (R317). -/
def State.zvalid (s : State) (a : Arch) : Bool :=
  match s.peek a.grant (a.rcsr cPTROOT) (a.rcsr cSAVEPTR).toNat with
  | some v => bit v.toNat 49
  | none => false

/-- Writes the frame of the save area from a landing state (R311, R317): FULL and WAIT 0, ZVALID kept. -/
def writeFrameWith (squasher : Squasher) (s : State) (a : Arch) (cnt : FMap W64) (split squash cap : Nat) (resume : W64) : State :=
  let base := (a.rcsr cSAVEPTR).toNat
  let bytes := saveHeader a (if s.zvalid a then 2 else 0) split squash cap { value := 0, kind := 0, here := 0 }
    ++ frameSlots a cnt resume
  fillRangeWith squasher s a.grant (a.rcsr cPTROOT) base 0x300 (bytes.map (fun b => (base + b.1, b.2)))

end Sys2Proof.Machine
end

