-- ==== Sys2Proof/Machine/Trace.lean ====
section
/-! DEFINITION. Strip trace: records, lines and the buffers they are written to (R365 to R375). -/

namespace Sys2Proof.Machine

/-- Word 0 of a record (R368) without its DELTA. -/
def header (x16 x14 hart len ty : Nat) : Nat :=
  x16 % 65536 * 2 ^ 48 + x14 % 16384 * 2 ^ 18 + hart % 1024 * 2 ^ 8 + (len - 1) % 8 * 16 + ty % 16

/-- Lines that are not free: complete and not drained, and the one being written (R365). -/
def TraceBuf.occupied (b : TraceBuf) : Nat := b.lines.length + (if b.open_.isEmpty then 0 else 1)

/-- Closes the line being written with one PAD record (R365, R366). -/
def TraceBuf.close (b : TraceBuf) : TraceBuf :=
  if b.open_.isEmpty then b
  else
    let n := 8 - b.open_.length
    let pad : List W64 := if n = 0 then [] else BitVec.ofNat 64 (header 0 0 0 n 0) :: List.replicate (n - 1) 0#64
    { b with lines := b.lines ++ [b.open_ ++ pad], open_ := [], recs := b.recs + (if n = 0 then 0 else 1) }

/-- Appends a record that fits the line being written. -/
def TraceBuf.append (b : TraceBuf) (ws : List W64) : TraceBuf :=
  let l := b.open_ ++ ws
  let b := { b with recs := b.recs + 1, wpoint := if b.open_.isEmpty then b.wpoint + 1 else b.wpoint }
  if l.length = 8 then { b with lines := b.lines ++ [l], open_ := [] } else { b with open_ := l }

/-- The buffer before a record of `n` words, and whether that has room: a rest that it does not fit is filled with a PAD, even where no further line
is free (R365, R367). -/
def TraceBuf.room (b : TraceBuf) (n : Nat) : TraceBuf × Bool :=
  let c := if 8 < b.open_.length + n then b.close else b
  (c, !(c.open_.isEmpty && decide (512 ≤ c.lines.length)))

/-- A TSYNC is due before a record of ck `now` (R370): capture has just started, DELTA would be too large, or a line begins at a multiple of
1 KiB. -/
def TraceBuf.syncDue (b : TraceBuf) (now : Nat) : Bool :=
  b.fresh || decide (65535 < now - b.last) || (b.open_.isEmpty && decide (b.wpoint % 16 = 0))

/-- A TSYNC in a line that has room for it (R369, R370). -/
def TraceBuf.appendSync (b : TraceBuf) (now : Nat) : TraceBuf :=
  { b.append [BitVec.ofNat 64 (header 0 0 0 2 1), BitVec.ofNat 64 now] with last := now, fresh := false }

/-- Writes a timestamped record of ck `now`, after each TSYNC that R370 asks for, which is the next record while one is due.  The buffer after, and
whether the record has been written: one that needs a line while none is free is not (R367). -/
def TraceBuf.put (now : Nat) (head : Nat) (rest : List W64) : Nat → TraceBuf → TraceBuf × Bool
  | 0, b => (b, false)
  | k + 1, b =>
    match b.room (if b.syncDue now then 2 else rest.length + 1) with
    | (c, false) => (c, false)
    | (c, true) =>
      if b.syncDue now || c.syncDue now then (c.appendSync now).put now head rest k
      else ({ c.append (BitVec.ofNat 64 (head + (now - c.last) * 2 ^ 32) :: rest) with last := now }, true)

/-- A LOSS record (R367, R379). -/
def TraceBuf.putLoss (b : TraceBuf) (now forced cluster n : Nat) : TraceBuf × Bool :=
  b.put now (header 0 (forced + cluster * 2) 0 2 6) [BitVec.ofNat 64 n] 5

/-- A record is lost (R367). -/
def TraceBuf.lose (b : TraceBuf) : TraceBuf := { b with lossc := b.lossc + 1, lost := b.lost + 1 }

/-- The LOSS record that is due goes first; false where it is lost (R367). -/
def TraceBuf.settleLoss (b : TraceBuf) (now : Nat) : TraceBuf × Bool :=
  if b.lost = 0 then (b, true)
  else match b.putLoss now 0 0 b.lost with
    | (c, true) => ({ c with lost := 0 }, true)
    | r => r

/-- Writes a record, after the LOSS record that is due; false where it is lost, which is counted (R367). -/
def TraceBuf.record (b : TraceBuf) (now head : Nat) (rest : List W64) : TraceBuf × Bool :=
  match b.settleLoss now with
  | (c, false) => (c.lose, false)
  | (c, true) => match c.put now head rest 5 with
    | (d, true) => (d, true)
    | (d, false) => (d.lose, false)

/-- The trace buffer of a cluster that is not gated: while it is, its registers keep their values (R378). -/
def State.liveTrace (s : State) (cl : Nat) : Option TraceBuf :=
  if s.mg.gates[cl]?.any (·.gated) then none else s.traces[cl]?

/-- Changes the trace buffer of a cluster that is not gated. -/
def State.updTrace (s : State) (cl : Nat) (f : TraceBuf → TraceBuf) : State :=
  match s.liveTrace cl with
  | some b => { s with traces := s.traces.set cl (f b) }
  | none => s

/-- The TSYNC of a start; one for which no line is free is lost (R367), and one is the first record once there is (R370, R377). -/
def TraceBuf.putSync (b : TraceBuf) (now : Nat) : TraceBuf :=
  match b.room 2 with
  | (c, true) => c.appendSync now
  | (c, false) => { c.lose with fresh := true }

/-- The ring takes another line (R376): a legal LOG2L, and with WRAP 0 a ring that is not full. -/
def TraceBuf.canDrain (b : TraceBuf) : Bool :=
  let k := bits b.dcfg.toNat 4 0
  decide (6 ≤ k) && decide (k ≤ 24) && (bit b.dcfg.toNat 8 || decide ((b.dhead + 2 ^ 64 - b.dtail) % 2 ^ 64 ≠ 2 ^ k))

/-- Where the next line goes (R376). -/
def TraceBuf.ringAddr (b : TraceBuf) : Nat := b.dbase.toNat + b.dhead % 2 ^ bits b.dcfg.toNat 4 0 * 64

/-- The place of a record among those of its ck (R370): LOSS, TRIG and the TSYNC of a start, PIPEE, PIPEB, MARKER, SHEAF, then by HART, then by PIPE;
a line is closed after them. -/
def placeOf (head : Nat) : Nat :=
  let ty := match head % 16 with | 6 => 0 | 7 => 1 | 1 => 2 | 3 => 3 | 2 => 4 | 5 => 5 | 4 => 6 | _ => 7
  (ty * 1024 + bits head 17 8) * 8 + (if head % 16 = 2 ∨ head % 16 = 3 then bits head 20 18 else 0)

/-- A record of ck `ck` for a cluster's buffer: it is written once that ck has passed. -/
def State.addRec (s : State) (cl : Nat) (h : Option Nat) (ck head : Nat) (rest : List W64) : State :=
  { s with due := s.due ++ [{ cluster := cl, hart := h, ck := ck, place := placeOf head, late := decide (s.now < ck), head := head, rest := rest }] }

/-- A record for a cluster's buffer, which records only in ON (R376). -/
def State.traceAt (s : State) (cl : Nat) (h : Option Nat) (ck head : Nat) (rest : List W64) : State :=
  if (s.liveTrace cl).any (fun b => decide (b.state = 2)) then s.addRec cl h ck head rest else s
def State.trace (s : State) (cl : Nat) (h : Option Nat) (head : Nat) (rest : List W64) : State := s.traceAt cl h s.now head rest

/-- Writes a record to its buffer, where that still records in its ck (R376); a lost one is counted in the hart's TRLOSS as well (R367). -/
def State.writeRec (s : State) (r : TraceRec) : State :=
  match s.liveTrace r.cluster with
  | none => s
  | some b =>
    if r.late ∧ b.state ≠ 2 then s
    else
      let c := match r.head % 16 with
        | 0 => (b.close, true)
        | 1 => (b.putSync r.ck, true)
        | _ => b.record r.ck r.head r.rest
      let s := { s with traces := s.traces.set r.cluster c.1 }
      match r.hart with
      | some h => if c.2 then s else s.updHart h (fun x => x.count cTRLOSS 1)
      | none => s

/-- The order of records: by ck, and within one by place (R370). -/
def TraceRec.before (r t : TraceRec) : Bool := decide (r.ck < t.ck) || (decide (r.ck = t.ck) && decide (r.place ≤ t.place))

/-- Writes the records that a test picks. -/
def State.writeDue (s : State) (p : TraceRec → Bool) : State :=
  match s.due with
  | [] => s
  | l => (sortBy TraceRec.before (l.filter p)).foldl State.writeRec { s with due := l.filter (fun r => !p r) }

/-- Writes the records of every ck that has passed. -/
def State.writePast (s : State) : State := s.writeDue (fun r => decide (r.ck < s.now))

/-- Writes every record of a cluster up to this ck, before what its buffer holds goes. -/
def State.writeCluster (s : State) (cl : Nat) : State := s.writeDue (fun r => decide (r.cluster = cl) && decide (r.ck ≤ s.now))

/-- How a sheaf ended (R373). -/
def outCommit := 0
def outSplit := 1
def outSquash := 2
def outRunAhead := 3
def outTrim := 4
def outTrap := 5
def outPreempt := 6

/-- The SHEAF record of a sheaf that ends (R373). -/
def State.traceSheaf (s : State) (h : Nat) (sh : Sheaf) (out cause : Nat) (stamp : Nat) : State :=
  match s.hart h with
  | none => s
  | some x =>
    if bit (x.arch.rcsr cTRCTL).toNat 0 then
      s.trace sh.grant.base (some h)
        (header sh.split (out + cause * 8) sh.grant.thread 5 4)
        [sh.stripPc, sh.strip, sh.vl, BitVec.ofNat 64 stamp]
    else s

/-- The pipe of a queued instruction, where it occupies one (R371). -/
def pipeOf (pick : Bool) : VOp → Option Nat
  | .strip => none
  | .trmark _ => none
  | .load .. => some 2
  | .store .. => some 2
  | .qld .. => some 2
  | .redst .. => some 2
  | .vxcl .. => some 2
  | .tamw .. => some 2
  | .perm .. => some 3
  | .confl .. => some 3
  | .mop .. => some 4
  | .zcfg .. => some 4
  | .zenable => some 4
  | .zdisable => some 4
  | .zzero _ => some 4
  | .zrd .. => some 4
  | .zwr .. => some 4
  | .zpatch .. => some 4
  | .zscale .. => some 4
  | .zmask .. => some 4
  | .mskld .. => some 5
  | .mskcls .. => some 5
  | .mskgen .. => some 5
  | .mskcnt _ => some 5
  | .int .. => some (if pick then 1 else 0)
  | .fp .. => some (if pick then 1 else 0)
  | .cvt .. => some (if pick then 1 else 0)
  | .red .. => some (if pick then 1 else 0)
  | .cmp .. => some (if pick then 1 else 0)
  | .mlogic .. => some (if pick then 1 else 0)
  | .popc .. => some (if pick then 1 else 0)
  | .first .. => some (if pick then 1 else 0)
  | .vidx .. => some (if pick then 1 else 0)

/-- The pipe events of an instruction in every cluster of its grant (R372): the PIPEB in this ck and the PIPEE in the next, or in the same where VL is 0
and where the instruction leaves no result (`still`). -/
def State.runPipe (s : State) (h : Nat) (e : QEntry) (sq : Nat) (still : Bool) : State :=
  let on := match s.hart h with | some x => bit (x.arch.rcsr cTRCTL).toNat 1 | none => false
  let last := if still || decide (fget 0 e.csr cVL = 0) then s.now else s.now + 1
  let rec_ (s : State) (p ck ty : Nat) : State :=
    e.grant.clusterList.foldl (fun s c => s.traceAt c (some h) ck (header sq p e.grant.thread 1 ty) []) s
  match (if on then pipeOf (freeBit s.free) e.op else none) with
  | none => s
  | some p => rec_ (rec_ { s with free := s.free + 1 } p s.now 2) p last 3

/-- The marker record of DBG.TRMARK (R143, R374). -/
def State.traceMark (s : State) (h : Nat) (e : QEntry) (sh : Sheaf) (v : W64) : State :=
  match s.hart h with
  | none => s
  | some x =>
    if bit (x.arch.rcsr cTRCTL).toNat 2 then
      s.trace e.grant.base (some h) (header 0 0 e.grant.thread 4 5) [v, sh.stripPc, sh.strip]
    else s

end Sys2Proof.Machine
end

