-- ==== Sys2Proof/Machine/Sheaf.lean ====
section
/-! DEFINITION. Sheaves: opening, squashing and committing (R26 to R28, R264 to R276), and the end of a hart (R138). -/

namespace Sys2Proof.Machine

/-- A fresh sheaf with a checkpoint (R26, R27). -/
def newSheaf (cp : Arch) (startPc strip stripPc : W64) (split : Nat) (byStrip bySplit : Bool) (vl : W64) (now : Nat)
    (sup : Bool) : Sheaf :=
  { cp := cp, startPc := startPc, strip := strip, stripPc := stripPc, split := split, byStrip := byStrip,
    bySplit := bySplit, vl := vl, openedAt := now, seq := 0, nSV := 0, nVS := 0, nVV := 0, writes := [], reds := [],
    rset := RecSet.empty, wset := RecSet.empty, dset := RecSet.empty, resv := [], cmds := [], asks := [], puts := [], grant := cp.grant, closed := none,
    trap := none, held := none, want := none, sup := sup }

/-- The youngest sheaf, if it still takes instructions. -/
def Hart.openSheaf (x : Hart) : Option Sheaf :=
  match x.cur with
  | some sh => if sh.closed.isNone && sh.held.isNone then some sh else none
  | none => none

/-- Opens a sheaf at the current PC that no strip-opening instruction opens (R26, R266).  A supervisor sheaf leaves
the split index alone (R312). -/
def Hart.openHere (x : Hart) (now : Nat) : Hart :=
  let a := x.arch
  let sh := newSheaf a a.pc (a.rcsr cSTRIP) a.stripPc a.nextSplit false a.bySplit (a.rcsr cVL) now a.sup
  let a' := if a.sup then a else { a with nextSplit := a.nextSplit + 1, bySplit := false }
  { x with arch := a', sheaves := x.sheaves ++ [sh] }

/-- Closes the youngest sheaf. -/
def Hart.close (x : Hart) (e : Ending) : Hart :=
  match x.openSheaf with
  | some sh => x.setCur { sh with closed := some e }
  | none => x

/-! ### Squashes (R272 to R275) -/

/-- The place of the sheaf that commits next: the oldest, or during a HOLD stop the supervisor's own (R322). -/
def Hart.front (x : Hart) : Nat :=
  match x.sheaves with
  | sh :: _ => if sh.held.isSome then 1 else 0
  | [] => 0

/-- Returns a hart to the checkpoint of its sheaf `i`; that sheaf and younger ones are gone, with what they queued, and the scalar
side is no longer stalled (R338). -/
def Hart.restoreTo (x : Hart) (i : Nat) (cp : Arch) : Hart :=
  { x with arch := cp, sheaves := x.sheaves.take i, queue := if i = 0 then [] else x.queue.filter (fun e => !e.young && !e.fresh),
           bq := [], pend := if i = 0 then [] else x.pend.filter (fun p => !p.young), wait := .none, blocked := false,
           onLoad := [], tableAt := none, noProg := 0 }

/-- The hart asks for the solo token (R276). -/
def Arbiter.ask (a : Arbiter) (h : Nat) : Arbiter :=
  if decide (a.token = some h) || a.tokenQ.contains h then a else { a with tokenQ := a.tokenQ ++ [h] }

/-- A free token goes to the first request (R276). -/
def Arbiter.grantToken (a : Arbiter) : Arbiter :=
  match a.token, a.tokenQ with
  | none, k :: ks => { a with token := some k, tokenQ := ks }
  | _, _ => a

/-- The hart gives up slices and requests for them (R271). -/
def Arbiter.dropSlices (a : Arbiter) (h : Nat) : Arbiter :=
  { a with slices := a.slices.filter (fun e => decide (e.2 ≠ some h)), slicesQ := a.slicesQ.filter (fun r => decide (r.2 ≠ h)) }

/-- The hart gives up the solo token, or its request (R276). -/
def Arbiter.dropToken (a : Arbiter) (h : Nat) : Arbiter :=
  if a.token = some h then { a with token := none } else { a with tokenQ := a.tokenQ.filter (· ≠ h) }

/-- Squashes sheaf `i` of a hart, and the younger sheaf with the oldest (R273, R274): `out` is the trace's ending.  A
squash of R272 or R275 counts toward solo mode (R276). -/
def State.squash (s : State) (h i out : Nat) : State :=
  match s.hart h with
  | none => s
  | some x =>
    match x.sheaves[i]? with
    | none => s
    | some sh =>
      let s := (x.sheaves.drop i).foldl (fun s y => s.traceSheaf h y out 0 0) s
      let counts := decide (out = outSquash) && decide (i = 0)
      match s.hart h with
      | none => s
      | some x =>
        let y := (x.restoreTo i sh.cp).count cSQUASHES 1
        let y := { y with squash := if counts then y.squash + 1 else y.squash }
        let s := { s with arb := if i = 0 ∨ i = x.front then s.arb.dropSlices h else s.arb }
        let s := s.setHart h y
        if counts && decide (4 ≤ y.squash) then { s with arb := s.arb.ask h } else s

/-- The first sheaf of a hart that a test picks. -/
def Hart.firstSheaf (x : Hart) (p : Sheaf → Bool) : Option Nat := x.sheaves.findIdx? p

/-- Whether sheaf `i` of a hart is protected by the solo token (R276). -/
def State.solo (s : State) (h i : Nat) : Bool := decide (s.arb.token = some h) && decide (i = 0)

/-- The trap record in its CSRs (R307, R308). -/
def Arch.withRecord (a : Arch) (tcause tpc strippc strip split telem tlane tval : W64) : Arch :=
  ((((((((a.wcsr 0x300 tcause).wcsr 0x301 tpc).wcsr 0x302 strippc).wcsr 0x303 strip).wcsr 0x304 split).wcsr 0x305 telem).wcsr
    0x306 tlane).wcsr 0x307 tval)

/-- TCAUSE of a landed trap (R307). -/
def Trap.tcause (t : Trap) (bySplit hold : Bool) : W64 :=
  BitVec.ofNat 64 (t.cause + t.kind * 2 ^ 8 + (if bySplit then 2 ^ 10 else 0) + (if hold then 2 ^ 11 else 0))

/-- The record of a watchpoint hit in the held sheaf (R307, R308, R321). -/
def Sheaf.watchRecord (sh : Sheaf) (t : Trap) (hold : Bool) (a : Arch) : Arch :=
  a.withRecord (t.tcause sh.bySplit hold) t.tpc sh.stripPc sh.strip (BitVec.ofNat 64 sh.split) t.telem t.tlane t.tval

/-- The shapes of the tiles are those of `b` (R41, R219). -/
def Arch.shapesOf (a b : Arch) : Arch := (List.range 8).foldl (fun a i => a.wcsr (cZCFG + i) (b.rcsr (cZCFG + i))) a

/-- The held sheaf of a HOLD stop is gone (R274, R322): WPHIT is cleared, the record becomes a WATCH trap with HOLD 0, the vector
side, the tiles and their shapes return to its checkpoint, from which the hart will resume, and what it had queued is discarded. -/
def Hart.dropHeld (x : Hart) (sh : Sheaf) (squash : Nat) : Hart :=
  let cp := sh.cp
  let back (a : Arch) : Arch :=
    let b := match sh.held with | some (_, t) => sh.watchRecord t false a | none => a
    (({ b with v := cp.v, m := cp.m, q := cp.q, z := cp.z, tam := cp.tam, mp := cp.mp }).wcsr cZSTATE (cp.rcsr cZSTATE)).shapesOf cp
  { x with arch := back x.arch, held := none, queue := [], bq := x.bq.filter (fun b => b.here),
           landing := some { arch := cp, cap := x.cap, squash := squash },
           sheaves := (x.sheaves.drop 1).map (fun t => { t with cp := back t.cp }) }

/-- Squashes the held sheaf of a HOLD stop: its consecutive squashes are now `k`, and the frame is rewritten from its
checkpoint (R322). -/
def State.squashHeld (squasher : Squasher) (s : State) (h : Nat) (x : Hart) (sh : Sheaf) (k : Nat) : State :=
  let s := (s.traceSheaf h sh outSquash 0 0).updHart h (fun y => { (y.dropHeld sh k).count cSQUASHES 1 with squash := k })
  writeFrameWith squasher s sh.cp ((s.hart h).elim x.cnt (·.cnt)) sh.split k x.cap sh.cp.pc

/-- Squashes what of a hart reads what a test reports (R272, R275).  A squash of a held sheaf ends its HOLD stop: the frame is
rewritten from its checkpoint (R322), which can in turn squash what has read that; `n` bounds how often. -/
def State.squashIfN : Nat → Squasher
  | 0, s, _, _ => s
  | n + 1, s, h, p =>
    match s.hart h with
    | none => s
    | some x =>
      match x.firstSheaf p with
      | none => s
      | some i =>
        if s.solo h i then s
        else
          match x.held, x.sheaves[i]? with
          | some _, some sh =>
            if i = 0 then
              let k := x.squash + 1
              let s := { s with arb := if 4 ≤ k then (s.arb.dropSlices h).ask h else s.arb.dropSlices h }
              State.squashIfN n (State.squashHeld (State.squashIfN n) s h x sh k) h p
            else s.squash h i outSquash
          | _, _ => s.squash h i outSquash

/-- Squashes what of a hart reads what a test reports (R272, R275).  Every further round ends a HOLD stop of a hart. -/
def State.squashIf (s : State) (h : Nat) (p : Sheaf → Bool) : State := State.squashIfN (s.harts.length + 2) s h p

/-- Squashes every other hart's sheaves that a committing sheaf's writes or reductions meet (R272). -/
def State.squashOthers (s : State) (h : Nat) (w d : RecSet) : State :=
  s.harts.foldl (fun s e => if e.1 = h then s
    else s.squashIf e.1 (fun sh => sh.rset.meets 4096 w || sh.rset.meets 2048 d)) s

/-- Squashes every open sheaf that has read a granule or whose signature reports it (R275). -/
def State.squashGranule (s : State) (g : Nat) : State :=
  s.harts.foldl (fun s e => s.squashIf e.1 (fun sh => sh.rset.holds 4096 g)) s

/-- A write of bytes by an agent outside sheaves (R275). -/
def State.agentWrite (s : State) (home : Nat) (bs : List Byte) : State :=
  if bs.isEmpty then s
  else (granules home bs.length).foldl State.squashGranule (s.commitBytes home bs)

/-- A reduction by an agent outside sheaves (R248, R275). -/
def State.agentReduce (s : State) (r : Red) : State :=
  (granules r.home r.ty.bytes).foldl State.squashGranule (s.applyRed r)

/-- The writes held for the solo token are applied (R276). -/
def State.applyHeld (s : State) : State :=
  s.arb.heldWrites.foldl (fun s w => s.agentWrite w.1 w.2) { s with arb := { s.arb with heldWrites := [] } }

/-- A hart gives up its slices and its requests for them, and the solo token, whose release lets what it held at its destination through
(R271, R276). -/
def State.leaveArbiter (s : State) (h : Nat) : State :=
  let t := { s with arb := (s.arb.dropSlices h).dropToken h }
  if s.arb.token = some h then t.applyHeld else t

/-! ### The end of a hart (R138, R250, R258, R296) -/

/-- Lines of the line store that belong to a hart return to class 1 (R296). -/
def State.freeLines (s : State) (h : Nat) : State :=
  { s with ms := { s.ms with lines := s.ms.lines.map (fun e => match e.2 with
    | some l => if l.owner = some h then (e.1, some { l with cls := 1, owner := none }) else e
    | none => e) } }

/-- One more gang of a queue has ended (R329). -/
def DieRegs.gangDone (r : DieRegs) (k : Nat) : DieRegs := { r with lqdone := fset 0 r.lqdone k (fget 0 r.lqdone k + 1) }

/-- Changes the registers of a die. -/
def State.updDie (s : State) (d : Nat) (f : DieRegs → DieRegs) : State :=
  match s.disp.dieRegs[d]? with
  | some r => { s with disp := { s.disp with dieRegs := s.disp.dieRegs.set d (f r) } }
  | none => s

/-- Wakes a hart from SYS.WFI (R140). -/
def Hart.wake (x : Hart) : Hart :=
  match x.wait with
  | .wfi _ =>
    let y := match x.cur with | some sh => x.setCur { sh with seq := sh.seq + 1 } | none => x
    { y with wait := .none, arch := x.arch.next, blocked := false }
  | _ => x

/-- Replaces channel `k` of a hart. -/
def Hart.setChan (x : Hart) (k : Nat) (c : Chan) : Hart := { x with chans := x.chans.set k c }

/-- The largest timeline value that the completed identifiers allow (R235): advances while the next one is done. -/
def Chan.advance : Nat → Chan → Chan
  | 0, c => c
  | n + 1, c =>
    if c.done.contains (c.tl + 1) then Chan.advance n { c with tl := c.tl + 1, done := c.done.erase (c.tl + 1) } else c

/-- A command of a channel has completed (R235, R251). -/
def Chan.complete (c : Chan) (id : Nat) : Chan :=
  let d := { c with running := c.running.filter (fun r => decide (r.cmd.id ≠ id)), done := c.done ++ [id] }
  d.advance (d.done.length + 1)

/-- A command of a channel ends in error (R243): only the first is recorded. -/
def Chan.fail (c : Chan) (id applied code : Nat) : Chan :=
  { c with running := c.running.filter (fun r => decide (r.cmd.id ≠ id)),
           err := match c.err with
             | some e => some e
             | none => some { id := id, applied := applied, code := code } }

/-- A hart of an ENG.LAUNCH gang has ended: through ECALL service 0, or after a trap (R250).  A LAUNCH that has ended already takes no
notice; progress ends the QDEAD count (R338), and only an advance of TL wakes its hart (R140, R243). -/
def State.launchEnded (s : State) (g : Gang) (normal : Bool) : State :=
  match g.eng with
  | none => s
  | some (h, ch, id) =>
    s.updHart h (fun x => match x.chans[ch]? with
      | none => x
      | some c =>
        let x := { x with noProg := if c.running.all (fun r => decide (r.cmd.id ≠ id)) then x.noProg else 0 }
        if c.running.all (fun r => decide (r.cmd.id ≠ id)) then x
        else if !normal then x.setChan ch (c.fail id g.normal 0x09)
        else if g.live.isEmpty then
          let d := c.complete id
          if d.tl = c.tl then x.setChan ch d else (x.setChan ch d).wake
        else x.setChan ch { c with running := c.running.map (fun r => if r.cmd.id = id then { r with applied := g.normal } else r) })

/-- Clears VALID of a registration: its revocation starts (R383, R385). -/
def State.revoke (s : State) (i : Nat) : State :=
  match fget none s.fab.regs i with
  | none => s
  | some r =>
    if bit r.ctl.toNat 63 then
      { s with fab := { s.fab with regs := fset none s.fab.regs i (some { r with ctl := setBits r.ctl 63 63 0 }),
                                   revoked := fset false s.fab.revoked i true } }
    else s

/-- The system cores revoke every registration of a gang that ends (R383). -/
def State.revokeGang (s : State) (ident : Nat) : State :=
  s.fab.regs.foldl (fun s e => match e.2 with
    | some r => if bits r.owner.toNat 63 16 = ident then s.revoke e.1 else s
    | none => s) s

/-- Releases the barrier of a gang where every live hart has arrived (R258, R261). -/
def State.releaseBarrier (s : State) (g : Nat) : State :=
  match ffind s.gangs g with
  | none => s
  | some q =>
    if q.live.isEmpty || !(q.live.all (fun h => q.arrived.contains h)) then s
    else
      let s := { s with gangs := fins s.gangs g { q with gen := (q.gen + 1) % 2 ^ 32, arrived := [] } }
      q.live.foldl (fun s h => s.updHart h (fun x =>
        if x.parked then x
        else match x.wait with
          | .gbar _ true => { x with wait := .none, blocked := false }
          | _ => x.wake)) s

/-- The error of a channel has been delivered or reported: what has not started is discarded, and TL is TID (R138, R256). -/
def Chan.dropErr (c : Chan) (tid : Nat) : Chan := { c with waiting := [], done := [], tl := tid, err := none }

/-- The last identifier that a hart has given on a channel (R236). -/
def Hart.tid (x : Hart) (k : Nat) : Nat := (x.arch.rcsr (cTID + k)).toNat

/-- The errors that no TLWAIT has delivered are reported, and what has not started on their channels is discarded (R138). -/
def State.reportErrors (s : State) (h : Nat) (x : Hart) : State :=
  ((List.range x.chans.length).zip x.chans).foldl (fun s e => match e.2.err with
    | none => s
    | some r => (s.report 3 [BitVec.ofNat 64 h, BitVec.ofNat 64 e.1, BitVec.ofNat 64 r.id, BitVec.ofNat 64 r.applied, BitVec.ofNat 64 r.code]).updHart h
        (fun y => y.setChan e.1 (e.2.dropErr (y.tid e.1)))) s

/-- A command of the hart has not completed. -/
def Hart.commands (x : Hart) : Bool := x.chans.any (fun c => !c.waiting.isEmpty || !c.running.isEmpty)

/-- A hart that has ended while its commands go on: it executes nothing more, and holds its grant until they have completed (R138, R312, logged as
assumption 20). -/
def Hart.ended (x : Hart) : Hart :=
  { x with gone := true, sheaves := [], queue := [], bq := [], pend := [], wait := .none, blocked := false, landing := none, held := none,
           adv := none, posted := none, preempt := 0, noProg := 0 }

/-- Once every hart of a pre-empted gang has landed, the gang waits for its restore (R318, R336). -/
def State.gangLanded (s : State) (g : Nat) : State :=
  match ffind s.gangs g with
  | none => s
  | some q =>
    if !q.live.isEmpty && q.live.all (fun k => (s.hart k).all (·.parked)) && s.disp.restore.all (fun e => decide (e.1 ≠ g)) then
      { s with disp := { s.disp with restore := s.disp.restore ++ [(g, s.now)] } }
    else s

/-- Ends a hart: its open sheaves end with it (R373), undelivered errors are reported and what has not started behind them is discarded (R138); its
lanes and contexts are freed, or kept while commands still run (R312); it leaves its barrier, which the others may now pass (R258), and its gang, which
may end with it (R329) or now stand landed whole (R336). -/
def State.endHart (s : State) (h : Nat) (normal : Bool) : State :=
  match s.hart h with
  | none => s
  | some x =>
    let s := x.sheaves.foldl (fun s y => s.traceSheaf h y outTrap (bits (x.arch.rcsr cTCAUSE).toNat 7 0) 0) s
    let s := s.reportErrors h x
    let y := (s.hart h).getD x
    let s := ({ s with harts := if y.commands then fins s.harts h y.ended else fdel s.harts h } : State).leaveArbiter h
    let s := s.freeLines h
    let s := { s with cur := if s.cur = h then (match s.harts.find? (fun e => !e.2.gone) with | some e => e.1 | none => s.nextHart) else s.cur }
    match ffind s.gangs x.gang with
    | none => s
    | some g =>
      let g := { g with live := g.live.erase h, arrived := g.arrived.erase h, normal := if normal then g.normal + 1 else g.normal }
      let s := s.launchEnded g normal
      if g.live.isEmpty then
        { (s.revokeGang g.ident).updDie g.die (fun r => r.gangDone g.queue) with gangs := fdel s.gangs x.gang }
      else (({ s with gangs := fins s.gangs x.gang g } : State).releaseBarrier x.gang).gangLanded x.gang

/-! ### Grants that change (R19, R41, R334) -/

/-- The reset value of ZCFG for a grant (R41): EW 0, ROWS 64, COLS 64c. -/
def zcfgReset (g : Grant) : W64 := BitVec.ofNat 64 (64 * 2 ^ 8 + 64 * g.clusters * 2 ^ 16)

/-- A posted grant takes effect (R19): vectors, scales, masks and tiles are zero, ZCFG is reset, and VLENB and GRANT show the
new grant. -/
def Arch.regrant (a : Arch) (g : Grant) : Arch :=
  let b := { a with grant := g, v := [], q := [], m := [], z := [] }
  let b := (List.range 8).foldl (fun b i => b.wcsr (cZCFG + i) (zcfgReset g)) b
  (b.wcsr cVLENB (BitVec.ofNat 64 g.vlenb)).wcsr cGRANT (g.csr (elastic a.csr))

/-! ### Commit (R271) -/

/-- A pre-emption lands before anything else of the hart (R265). -/
def Hart.preempted (x : Hart) : Bool := decide (x.preempt = 2) && x.landing.isNone

/-- Every instruction of the sheaf that commits next has completed and it takes no more (R271). -/
def Hart.commitReady (x : Hart) : Bool :=
  match x.sheaves[x.front]? with
  | none => false
  | some sh => sh.closed.isSome && sh.trap.isNone && sh.want.isNone && !x.preempted
      && (decide (x.front = 1) || x.queue.all (fun e => e.young))
      && x.pend.all (fun p => decide (p.young ≠ decide (x.front = 1)))

/-- A committer that meets the read set of the token's holder waits (R276). -/
def State.tokenBlocks (s : State) (h : Nat) (sh : Sheaf) : Bool :=
  match s.arb.token with
  | none => false
  | some k =>
    if k = h then false
    else match s.hart k with
      | none => false
      | some x => match x.sheaves with
        | [] => false
        | t :: _ => t.rset.meets 4096 sh.wset || t.rset.meets 2048 sh.dset

/-- The dies whose slices a hart's oldest sheaf still needs, ascending (R271). -/
def State.slicesWanted (s : State) (h : Nat) (sh : Sheaf) : List Nat :=
  (sh.dies s).filter (fun d => decide (fget none s.arb.slices d ≠ some h))

/-- The slice of a die, for a hart that is the first to ask for it while it is free (R271). -/
def Arbiter.takeSlice (a : Arbiter) (d h : Nat) : Arbiter :=
  if fget none a.slices d = none then
    match a.slicesQ.find? (fun r => decide (r.1 = d)) with
    | none => { a with slices := fset none a.slices d (some h) }
    | some r =>
      if r.2 = h then { a with slices := fset none a.slices d (some h), slicesQ := a.slicesQ.erase (d, h) }
      else if a.slicesQ.contains (d, h) then a else { a with slicesQ := a.slicesQ ++ [(d, h)] }
  else if a.slicesQ.contains (d, h) then a else { a with slicesQ := a.slicesQ ++ [(d, h)] }

/-- The value every byte written by a sheaf is left with (R157, R169). -/
def finalWrites : FMap (List WRec) → Nat → (List (Nat × Byte)) × Nat
  | [], n => ([], n)
  | (_, []) :: r, n => finalWrites r n
  | (a, w :: ws) :: r, n =>
    let b := finalByte w ws n
    let t := finalWrites r b.2
    ((a, b.1) :: t.1, t.2)

/-- The sheaf's writes reach memory together (R271). -/
def State.commitWrites (s : State) (sh : Sheaf) : State :=
  let f := finalWrites sh.writes s.free
  let s := { s with free := f.2, mem := f.1.foldl (fun m (e : Nat × Byte) => fset 0 m e.1 e.2) s.mem }
  s.clearPoison (coveredGranules (f.1.map Prod.fst))

/-- The granules that a sheaf writes or reduces at its commit, with the clusters that have buffered them. -/
def Sheaf.sends (sh : Sheaf) : List (Nat × Option Nat) :=
  sh.puts.filter (fun a => sh.writes.any (fun e => decide (e.1 / 64 = a.1)) || sh.reds.any (fun (r : Red) => decide (r.home / 64 = a.1)))

/-- A sheaf's commands issue to their channels in program order (R239). -/
def Hart.issueCmds (x : Hart) (cs : List Cmd) : Hart :=
  cs.foldl (fun x c => match x.chans[c.ch]? with
    | some k => x.setChan c.ch { k with waiting := k.waiting ++ [c] }
    | none => x) x

/-- A checkpoint under a change to grant `g` that can no longer be taken back: lanes that `g` gives up are gone, and what they held (R19, R334). -/
def Arch.shed (cp : Arch) (g : Grant) : Arch := if cp.grant.lanes.all (fun l => g.lanes.contains l) then cp else cp.regrant g

/-- The hart after a sheaf has committed: the younger one is now the oldest (R27, R159, R266, R276, R334). -/
def Hart.afterCommit (x : Hart) (sh : Sheaf) : Hart :=
  let y := x.count cINSTRET sh.seq
  let y := if sh.closed = some .split then y.count cSPLITS 1 else y
  { y with
    sheaves := (x.sheaves.eraseIdx x.front).map (fun t => if x.front = 0 then { t with cp := t.cp.shed t.grant } else t)
    posted := if x.posted = some sh.grant then none else x.posted
    queue := x.queue.map (fun e => { e with young := e.young && decide (x.front ≠ 0), fresh := e.fresh && decide (x.front = 0) })
    pend := if x.front = 0 then x.pend.map (fun p => { p with young := false }) else x.pend
    squash := if x.front = 0 then 0 else x.squash
    cap := if sh.sup then x.cap else 0
    blocked := x.blocked && !x.onLoad.isEmpty
    preempt := if x.preempt = 1 ∧ !sh.sup ∧ x.landing.isNone then 2 else x.preempt }

/-- The sheaf of a hart that is next commits in one indivisible step (R271): its writes and reductions take their place in the
commit order, its commands issue, the sheaves of other harts that it makes stale are squashed (R272), and so is
the hart's own younger sheaf (R273).  The commit of the oldest sheaf gives up the solo token (R276). -/
def State.commit (s : State) (h : Nat) : State :=
  match s.hart h with
  | none => s
  | some x =>
    match x.sheaves[x.front]? with
    | none => s
    | some sh =>
      let stamp := s.stamp + 1
      let s := { s.commitWrites sh with stamp := stamp }
      let s := s.applyReds sh.reds
      let s := s.sendPuts h sh.grant.base sh.sends
      let s := s.traceSheaf h sh (if sh.closed = some .split then outSplit else outCommit) 0 stamp
      let s := s.updHart h (fun x => (x.issueCmds sh.cmds).afterCommit sh)
      let s := s.squashOthers h sh.wset sh.dset
      let s := if x.front = 0 then s.leaveArbiter h else { s with arb := s.arb.dropSlices h }
      match s.hart h with
      | none => s
      | some y =>
        if x.front = 1 then s
        else
          match y.sheaves with
          | [] => s
          | t :: _ =>
            if t.rset.meets 4096 sh.wset || t.rset.meets 2048 sh.dset then s.squash h 0 outRunAhead else s

/-- Takes every slice the oldest sheaf wants that is free, in ascending die number (R271). -/
def State.takeSlices (s : State) (h : Nat) : List Nat → State
  | [] => s
  | d :: ds =>
    let s := { s with arb := s.arb.takeSlice d h }
    if fget none s.arb.slices d = some h then s.takeSlices h ds else s

/-- Commits the sheaf of a hart that is next if it is ready, no token blocks it and every slice it wants can be taken;
else it stays where it is, and where the token blocks it, it holds no slice (R276). -/
def State.tryCommit (s : State) (h : Nat) : State :=
  match s.hart h with
  | none => s
  | some x =>
    match x.sheaves[x.front]? with
    | none => s
    | some sh =>
      if !x.commitReady then s
      else if s.tokenBlocks h sh then { s with arb := s.arb.dropSlices h }
      else
        let t := s.takeSlices h (s.slicesWanted h sh)
        if (t.slicesWanted h sh).isEmpty then t.commit h else t

end Sys2Proof.Machine
end

