-- ==== Sys2Proof/Machine/Trap.lean ====
section
/-! DEFINITION. Taking a trap and returning from one (R307 to R313), the save area, pre-emption and restore (R317, R318),
and HOLD stops (R321, R322). -/

namespace Sys2Proof.Machine

/-! ### The save area (R317) -/

/-- Writes whole a range of a hart's memory as the supervisor. -/
def State.fillRange (s : State) (g : Grant) (root : W64) (va len : Nat) (bytes : List (Nat × Byte)) : State :=
  fillRangeWith State.squashIf s g root va len bytes

/-- Writes the frame of the save area from a landing state (R311, R317). -/
def State.writeFrame (s : State) (a : Arch) (cnt : FMap W64) (split squash cap : Nat) (resume : W64) : State :=
  writeFrameWith State.squashIf s a cnt split squash cap resume

/-- The scratchpad of a grant reads as zero, whatever an earlier hart left there (R327).  R277 places no write of a launch or of a restore in the commit
order: an open sheaf of the gang that has read such a scratchpad by VXCL is not squashed (logged as assumption 104). -/
def clearScratch (s : State) (g : Grant) : State :=
  let clear (s : State) (lo len : Nat) : State := { s with mem := fclear s.mem lo len, poison := fclear s.poison (lo / 64) (len / 64) }
  if g.clusters = 0 then clear s (scratchHome g.base (g.quarter * 0x8_0000)) (g.quarters * 0x8_0000)
  else g.clusterList.foldl (fun s c => clear s (scratchHome c 0) 0x20_0000) s

/-! ### Landing (R309, R311, R312) -/

/-- MODE and PMODE (R310). -/
def Arch.setMode (a : Arch) (pmode mode : Nat) : Arch := a.wcsr cHSTATUS (setBits (a.rcsr cHSTATUS) 1 0 (pmode * 2 + mode))

/-- The record of a trap in supervisor mode (R307, R308). -/
def Hart.secondRecord (x : Hart) (t : Trap) : List W64 :=
  let of (f : Sheaf → W64) (v : W64) : W64 := (x.cur.map f).getD v
  [t.tcause false false, t.tpc, of (fun sh => sh.stripPc) x.arch.stripPc, of (fun sh => sh.strip) (x.arch.rcsr cSTRIP),
   of (fun sh => BitVec.ofNat 64 sh.split) (BitVec.ofNat 64 x.arch.nextSplit), t.telem, t.tlane, t.tval]

/-- A trap in supervisor mode is a double trap: the hart ends at once and the system cores receive both records
(R312). -/
def State.doubleTrap (s : State) (h : Nat) (x : Hart) (t : Trap) : State :=
  let first := (List.range 8).map (fun i => x.arch.rcsr (0x300 + i))
  let s := x.sheaves.foldl (fun s y => s.traceSheaf h y outTrap t.cause 0) s
  ((s.report 1 ([BitVec.ofNat 64 h] ++ x.secondRecord t ++ first)).updHart h (fun y => { y with sheaves := [] })).endHart h false

/-- The hart enters the supervisor at TVEC: `a` is the landing state, of which it keeps its own copy, and `b` is that state with the
record and the mode (R311).  The supervisor's sheaves count their own squashes (R276). -/
def Hart.enter (x : Hart) (a b : Arch) : Hart :=
  { x.restoreTo 0 { b with pc := alignPc (b.rcsr cTVEC) } with landing := some { arch := a, cap := x.cap, squash := x.squash }, squash := 0 }

/-- The trap lands at the start of the oldest open sheaf (R309, R311): both sheaves are discarded, the state is the
checkpoint, the record and the frame are written, and the hart enters the supervisor at TVEC.  An ECALL or EBREAK (`atSplit`) lands at the
forced split it makes, whose sheaf has the next split index (R137, R264, R266).  Nothing lands while another hart's solo token holds the
frame (R276). -/
def State.landTrap (s : State) (h : Nat) (t : Trap) (atSplit : Bool) : State :=
  match s.hart h with
  | none => s
  | some x =>
    if x.arch.sup then s.doubleTrap h x t
    else
      let sh0 := x.sheaves.head?
      let a := (sh0.map (·.cp)).getD x.arch
      if !s.areaFree h a 0x300 then s
      else
        let split := (sh0.map (·.split)).getD a.nextSplit
        let bySplit := (sh0.map (·.bySplit)).getD (atSplit || a.bySplit)
        let stripPc := if t.opener then t.tpc else (sh0.map (·.stripPc)).getD a.stripPc
        let strip := (sh0.map (·.strip)).getD (a.rcsr cSTRIP)
        let a := if atSplit then { a with nextSplit := a.nextSplit + 1 } else a
        let s := x.sheaves.foldl (fun s y => s.traceSheaf h y outTrap t.cause 0) s
        let s := s.leaveArbiter h
        let b := (a.withRecord (t.tcause bySplit false) t.tpc stripPc (if t.opener then strip + 1 else strip)
          (BitVec.ofNat 64 split) t.telem t.tlane t.tval).setMode 0 1
        ((s.updHart h (fun x => x.restoreTo 0 a)).writeFrame a x.cnt split x.squash x.cap a.pc).updHart h (fun x => x.enter a b)

/-- A trap of the current instruction: held in its sheaf until it can land (R98, R147, R154, R309). -/
def Hart.holdTrap (x : Hart) (t : Trap) : Hart :=
  match x.cur with
  | some sh =>
    let keep := match sh.trap with | some u => if u.seq ≤ t.seq then u else t | none => t
    x.setCur { sh with trap := some keep }
  | none => x

/-- Holds a trap in sheaf `i`; the earlier in program order stays (R154). -/
def Hart.holdTrapAt (x : Hart) (i : Nat) (t : Trap) : Hart :=
  match x.sheaves[i]? with
  | some sh =>
    let keep := match sh.trap with | some u => if u.seq ≤ t.seq then u else t | none => t
    { x with sheaves := x.sheaves.set i { sh with trap := some keep } }
  | none => x

/-- The oldest sheaf holds a trap, every earlier instruction of it has completed (R154, R309), none of them stops at a watchpoint (R321), and
no pre-emption lands first (R265); during a HOLD stop, a trap of either sheaf (R312). -/
def Hart.landReady (x : Hart) : Option Trap :=
  match x.held with
  | some _ => x.sheaves.findSome? (fun sh => sh.trap)
  | none =>
    match x.sheaves with
    | [] => none
    | sh :: _ => match sh.trap with
      | some t =>
        if x.preempted || x.queue.any (fun e => !e.young && decide (e.seq < t.seq)) || sh.want.any (fun k => decide (k.trap.seq < t.seq)) then none
        else some t
      | none => none

/-- Lands a held trap if it is ready. -/
def State.tryLand (s : State) (h : Nat) : State :=
  match s.hart h with
  | none => s
  | some x => match x.landReady with
    | some t =>
      match x.held with
      | some _ => s.doubleTrap h x t
      | none => s.landTrap h t false
    | none => s

/-! ### Return (R139, R313) -/

/-- A legal BTtCFG (R43). -/
def btcfgOk (v : W64) : Bool :=
  decide (4 ≤ bits v.toNat 3 0) && decide (bits v.toNat 3 0 ≤ 10) && decide (bits v.toNat 31 16 ≠ 0)

/-- A legal MSKSHAPE for a grant (R225). -/
def mskshapeOk (g : Grant) (v : W64) : Bool :=
  let tq := bits v.toNat 6 0
  let tk := bits v.toNat 29 16
  decide (1 ≤ tq) && decide (tq ≤ 64) && decide (1 ≤ tk) && decide (tk ≤ 64 * max g.clusters 1)

/-- The CSRs that ERET reloads from the frame, with their offsets (R313, R317). -/
def frameCsrs : List (Nat × Nat) :=
  [(cFCSR, 0x150), (cSRSEED, 0x160), (cDOCB, 0x170), (cDOCN, 0x178), (cMSKSHAPE, 0x180)]
  ++ (List.range 4).flatMap (fun t => [(0x10 + 4 * t, 0x190 + 24 * t), (0x11 + 4 * t, 0x198 + 24 * t), (0x12 + 4 * t, 0x1A0 + 24 * t)])

/-- CSRs that stay as the supervisor leaves them: ZSTATE and the supervisor's own (R42, R313, R325). -/
def keptCsr (n : Nat) : Bool := decide (n = cZSTATE) || (decide (0x300 ≤ n) && decide (n < 0x500))

/-- The bits of a CSR that are not res (R10). -/
def csrMask (n : Nat) : W64 :=
  if n = cFCSR then 0x1FFF#64
  else if decide (0x010 ≤ n) && decide (n ≤ 0x01F) && decide (n % 4 = 2) then 0xFFFF_000F#64
  else if n = cMSKSHAPE then 0x3FFF_007F#64
  else if n = cTCAUSE then 0xFFF#64
  else if 0x420 ≤ n ∧ n ≤ 0x42F then 0x3F#64
  else if n = cTRCTL then 0x7#64
  else if n = cVTYPE then 0x7FF#64
  else if 0x100 ≤ n ∧ n ≤ 0x107 then 0x3FFF_7F01#64
  else BitVec.allOnes 64

/-- A stored CSR after a value has been written to it: its res bits read 0, and SRSEED is never 0 (R10, R58). -/
def Arch.storeCsr (a : Arch) (n : Nat) (v : W64) : Arch :=
  if n = cSRSEED then a.wcsr n (if v = 0 then 1 else v) else a.wcsr n (v &&& csrMask n)

/-- The landing state with what the frame now holds and with what the supervisor leaves (R313); none where BTtCFG or
MSKSHAPE fails its check. -/
def State.reload (s : State) (live land : Arch) : Option Arch :=
  let base := (live.rcsr cSAVEPTR).toNat
  let get (off : Nat) : Option W64 := s.peek live.grant (live.rcsr cPTROOT) (base + off)
  let a := (List.range 31).foldl (fun a i => match get (0x48 + 8 * i) with | some v => a.wx (i + 1) v | none => a) land
  let a := frameCsrs.foldl (fun a e => match get e.2 with | some v => a.storeCsr e.1 v | none => a) a
  let csr := a.csr.filter (fun e => !keptCsr e.1)
  let csr := (live.csr.filter (fun e => keptCsr e.1)).foldl (fun m e => fset 0 m e.1 e.2) csr
  let a := { a with csr := csr, z := live.z }
  if (List.range 4).all (fun t => btcfgOk (a.rcsr (0x12 + 4 * t))) && mskshapeOk a.grant (a.rcsr cMSKSHAPE) then
    some (a.wcsr cHSTATUS (setBits (a.rcsr cHSTATUS) 0 0 0))
  else none

/-- A trap without an element (R308). -/
def plainTrap (cause kind : Nat) (tpc tval : W64) (seq : Nat) : Trap :=
  { cause := cause, kind := kind, tpc := tpc, telem := 0, tlane := 0, tval := tval, seq := seq, opener := false }

/-- SYS.ERET once the supervisor's sheaves have committed (R139, R313).  It waits for a frame whose rewriting the solo token holds (R276). -/
def State.eret (s : State) (h : Nat) : State :=
  match s.hart h with
  | none => s
  | some x =>
    if !s.arb.heldWrites.isEmpty then s
    else match x.landing with
    | none => s.doubleTrap h x (plainTrap 0x01 0 x.arch.pc 0x3#64 0)
    | some l =>
      match s.reload x.arch l.arch with
      | none => s.doubleTrap h x (plainTrap 0x01 0 x.arch.pc 0x3#64 0)
      | some a =>
        let cause := bits (x.arch.rcsr cTCAUSE).toNat 7 0
        let pc := if cause = 0x0C ∨ cause = 0x0D then alignPc (x.arch.rcsr cTPC + 4) else l.arch.pc
        s.setHart h { (x.restoreTo 0 { a with pc := pc }) with
          landing := none, cap := l.cap, squash := l.squash,
          preempt := if x.preempt = 1 then 2 else x.preempt }

/-! ### HOLD stops (R321, R322) -/

/-- Parks the hart in the oldest sheaf after instruction I (R321): the younger sheaf and later instructions are
discarded with what they have written, fenced, reserved and counted, the record and the frame are written, and the hart enters the supervisor.  A solo token that the hart holds over its own
frame is given up first (R276). -/
def State.park (s : State) (h : Nat) : State :=
  match s.hart h with
  | none => s
  | some x =>
    match x.sheaves with
    | [] => s
    | sh :: rest =>
      match sh.want with
      | none => s
      | some k =>
        let t := k.trap
        let a := match rest with | y :: _ => y.cp | [] => x.arch
        let a := { a with pc := t.tpc + 4, x := k.x, csr := k.csr }
        if !s.areaFree h a 0x300 then s
        else
          let s := if s.areaHeld a 0x300 then s.leaveArbiter h else s
          let s := rest.foldl (fun s y => s.traceSheaf h y outTrap 0x05 0) s
          let s := s.updHart h (fun y => { y with sheaves := y.sheaves.take 1, queue := y.queue.filter (fun e => !e.young) })
          let s := s.writeFrame a x.cnt sh.split x.squash x.cap (t.tpc + 4)
          match s.hart h with
          | none => s
          | some x =>
            if x.sheaves.isEmpty then s
            else
              let b := (sh.watchRecord t true a).setMode 0 1
              let kept := { sh with
                want := none, trap := none, closed := none, held := some (k.wp, t),
                seq := t.seq + 1, nSV := k.nSV, nVS := k.nVS, nVV := k.nVV, resv := k.resv,
                writes := sh.writes.filterMap (fun e =>
                  let ws := e.2.filter (fun w => decide (w.seq ≤ t.seq)); if ws.isEmpty then none else some (e.1, ws)),
                cmds := sh.cmds.filter (fun c => decide (c.id ≤ (fget 0 k.csr (cTID + c.ch)).toNat)) }
              s.setHart h { x with
                arch := { b with pc := alignPc (b.rcsr cTVEC) }, queue := [], bq := [], pend := [], wait := .none,
                blocked := false, noProg := 0, held := some k.wp, landing := some { arch := a, cap := x.cap, squash := x.squash },
                sheaves := [kept] }

/-- The stop of the oldest sheaf is due: every instruction up to I has completed, a trap it holds belongs to a later one, and no
pre-emption lands first (R265, R321). -/
def Hart.parkReady (x : Hart) : Bool :=
  match x.sheaves with
  | [] => false
  | sh :: _ => match sh.want with
    | none => false
    | some k => !x.preempted && sh.trap.all (fun t => decide (k.trap.seq < t.seq))
        && x.queue.all (fun e => e.young || decide (k.trap.seq < e.seq))

/-- DBG.WPREL, the word `w`, with xa[0] = 0: the same sheaf goes on at I + 4 (R322).  A reload that fails its check is ILL with that word (R97,
R313). -/
def State.release (s : State) (h : Nat) (w : W32) : State :=
  match s.hart h with
  | none => s
  | some x =>
    match x.landing, x.sheaves with
    | some l, sh :: _ =>
      match s.reload x.arch (({ l.arch with v := x.arch.v, m := x.arch.m, q := x.arch.q, tam := x.arch.tam, mp := x.arch.mp } : Arch).shapesOf x.arch) with
      | none => s.doubleTrap h x (plainTrap 0x01 0 x.arch.pc (w.setWidth 64) 0)
      | some a => s.setHart h { x with
          arch := a, held := none, landing := none, bq := [], pend := [], wait := .none,
          queue := [], blocked := false, sheaves := [{ sh with held := none }] }
    | _, _ => s

/-- DBG.WPREL with xa[0] = 1: the sheaf is discarded, the record becomes a WATCH trap, the frame its checkpoint, and the
hart stays in the supervisor (R322). -/
def State.abort (s : State) (h : Nat) : State :=
  match s.hart h with
  | none => s
  | some x =>
    match x.sheaves with
    | [] => s
    | sh :: _ =>
      let s := s.traceSheaf h sh outTrap 0x05 0
      let s := s.leaveArbiter h
      (s.updHart h (fun x => x.dropHeld sh x.squash)).writeFrame sh.cp x.cnt sh.split x.squash x.cap sh.cp.pc

/-! ### Pre-emption and restore (R265, R318, R326) -/

/-- The byte image of a register file held sparsely, moved to an offset: register n of `size` bytes. -/
def regBytes (m : FMap Byte) (stride size off first : Nat) : List (Nat × Byte) :=
  (m.filter (fun e => decide (first ≤ e.1 / stride) && decide (e.1 % stride < size))).map
    (fun e => (off + (e.1 / stride - first) * size + e.1 % stride, e.2))

/-- The bytes of m1 to m7 (R317): bit e of mn is bit e mod 8 of byte e div 8. -/
def maskBytes (a : Arch) (vb off : Nat) : List (Nat × Byte) :=
  (List.range 7).flatMap (fun i => (List.range (2 * vb)).filterMap (fun b =>
    let n := (List.range 8).foldl (fun n k => if getMask a (i + 1) (8 * b + k) then n + 2 ^ k else n) 0
    if n = 0 then none else some (off + i * 2 * vb + b, BitVec.ofNat 8 n)))

/-- The bytes of the tiles (R317). -/
def tileBytes (a : Arch) (c off : Nat) : List (Nat × Byte) :=
  a.z.flatMap (fun e =>
    let row := e.1 / 8192
    ((List.range 4).zip (leBytes 4 e.2.toNat)).map (fun b => (off + row * 256 * c + e.1 % 8192 * 4 + b.1, b.2)))

/-- The bytes of the scratchpad of a grant in window-offset order (R317). -/
def scratchBytes (s : State) (g : Grant) (off : Nat) : List (Nat × Byte) :=
  (List.range g.scratch).filterMap (fun o =>
    let b := fget 0 s.mem (g.windowHome o)
    if b = 0 then none else some (off + o, b))

/-- The bytes of the save area of a hart of a grant (R317). -/
def Grant.areaBytes (g : Grant) : Nat := 0xC40 + 54 * g.vlenb + 131072 * g.clusters + g.scratch

/-- A pre-emption lands at the start of the next sheaf (R265, R318): the whole area is written from the landing state, with the counters as
the trace records of this ck, which passes, leave them (R367, R370), and the grant is freed.  DC is 0 after it, whatever it was (R335, logged as
assumption 91).  It waits while another hart's solo token holds the area (R276). -/
def State.landPreempt (s : State) (h : Nat) : State :=
  match s.hart h with
  | none => s
  | some x =>
    let sh0 := x.sheaves.head?
    let a := (sh0.map (·.cp)).getD x.arch
    let split := (sh0.map (·.split)).getD a.nextSplit
    let g := a.grant
    if !s.areaFree h a g.areaBytes then s
    else
    let s := x.sheaves.foldl (fun s y => s.traceSheaf h y outPreempt 0 0) s
    let s := if s.due.isEmpty then s else (s.tick 1).writePast
    let cnt := ((s.hart h).map (·.cnt)).getD x.cnt
    let vb := g.vlenb
    let c := g.clusters
    let base := (a.rcsr cSAVEPTR).toNat
    let zs := (a.rcsr cZSTATE).toNat
    let en := bit zs 0
    let was := s.zvalid a
    let skip := !en || (!bit zs 1 && was)
    let wait := x.savedWait
    let w := wait.record
    let flags := 1 + (if was || en then 2 else 0) + (if w.kind = 0 then 0 else 4)
    let lo := saveHeader a flags split x.squash x.cap w ++ frameSlots a cnt a.pc
      ++ regBytes a.v 131072 vb 0x300 0 ++ maskBytes a vb (0x300 + 32 * vb) ++ regBytes a.q 131072 vb (0x300 + 46 * vb) 0
      ++ regBytes a.tam 128 128 (0x300 + 54 * vb) 0 ++ regBytes a.mp 72 72 (0xB00 + 54 * vb) 0
    let z0 := 0xC40 + 54 * vb
    let at_ (l : List (Nat × Byte)) : List (Nat × Byte) := l.map (fun b => (base + b.1, b.2))
    let root := a.rcsr cPTROOT
    let s := s.leaveArbiter h
    let s := s.updHart h (fun y => y.restoreTo 0 a)
    let s := s.fillRange g root base z0 (at_ lo)
    let s := if skip then s else s.fillRange g root (base + z0) (131072 * c) (at_ (tileBytes a c z0))
    let s := s.fillRange g root (base + z0 + 131072 * c) g.scratch (at_ (scratchBytes s g (z0 + 131072 * c)))
    let s := s.updHart h (fun x =>
      let y := x.restoreTo 0 a
      { y with parked := true, preempt := 0, dc := 0, noProg := 0, wait := wait, posted := none,
               adv := x.adv.map (fun v => { v with p := [], lastId := 0x10000, lastArg := 0, queue := [], mode := .idle, asked := none }) })
    s.gangLanded x.gang

/-- Reloads a register file from consecutive bytes. -/
def loadRegs (bs : List Byte) (stride size first : Nat) : FMap Byte :=
  ((List.range bs.length).zip bs).foldl (fun m b => fset 0 m ((first + b.1 / size) * stride + b.1 % size) b.2) []

/-- The bytes of a range of a hart's memory read as the supervisor, page by page. -/
def State.peekRange (s : State) (g : Grant) (root : W64) (va len : Nat) : List Byte :=
  (List.range (ceilDiv (va % 65536 + len) 65536)).flatMap (fun i =>
    let lo := max va (va / 65536 * 65536 + i * 65536)
    let hi := min (va + len) (va / 65536 * 65536 + (i + 1) * 65536)
    match homeOf s g root lo kRead false with
    | none => List.replicate (hi - lo) 0
    | some h => memBytes s h (hi - lo))

/-- The number of slot `off` of a list of bytes. -/
def slotAt (bs : List Byte) (off : Nat) : W64 := BitVec.ofNat 64 (leNat ((bs.drop off).take 8))

/-- The CSRs that the area holds of a whole hart, with their offsets (R317). -/
def areaCsrs : List (Nat × Nat) :=
  frameCsrs ++ [(cVL, 0x140), (cVTYPE, 0x148), (cRUNBASE, 0x158), (cSTRIP, 0x10)]
  ++ (List.range 8).flatMap (fun i => [(cZCFG + i, 0x1F0 + 8 * i), (cTID + i, 0x230 + 8 * i)])

/-- The counters that the area holds, with their offsets (R317). -/
def areaCounters : List (Nat × Nat) :=
  [(cCYCLE, 0x270), (cINSTRET, 0x278), (cLATSTALL, 0x280), (cMEMRETRY, 0x288), (cSQUASHES, 0x290), (cSPLITS, 0x298), (cADVDROP, 0x2A0),
   (cADVREALIGN, 0x2A8), (cADVCLAMP, 0x2B0), (cADVIDLE, 0x2B8), (cTRLOSS, 0x2C0)]

/-- A hart is restored on a grant of the same size (R318): every item of the area but the tiles is reloaded, ZSTATE is 0,
and the hart resumes at the landing point with its pending wait. -/
def State.restoreHart (s : State) (h : Nat) (g : Grant) : State :=
  match s.hart h with
  | none => s
  | some x =>
    let a := x.arch
    let vb := g.vlenb
    let root := a.rcsr cPTROOT
    let base := (a.rcsr cSAVEPTR).toNat
    let z0 := 0xC40 + 54 * vb
    let bs := s.peekRange g root base z0
    let part (off len : Nat) : List Byte := (bs.drop off).take len
    let b := (List.range 31).foldl (fun b i => b.wx (i + 1) (slotAt bs (0x48 + 8 * i))) a
    let b := areaCsrs.foldl (fun b e => b.storeCsr e.1 (slotAt bs e.2)) b
    let mb := part (0x300 + 32 * vb) (14 * vb)
    let m := ((List.range mb.length).zip mb).foldl (fun m e => (List.range 8).foldl (fun m k =>
      fset false m ((1 + e.1 / (2 * vb)) * 2097152 + e.1 % (2 * vb) * 8 + k) (bit e.2.toNat k)) m) []
    let b := { b with pc := alignPc (slotAt bs 0x40), v := loadRegs (part 0x300 (32 * vb)) 131072 vb 0, m := m,
                      q := loadRegs (part (0x300 + 46 * vb) (8 * vb)) 131072 vb 0,
                      tam := loadRegs (part (0x300 + 54 * vb) 2048) 128 128 0,
                      mp := loadRegs (part (0xB00 + 54 * vb) 288) 72 72 0, grant := g,
                      nextSplit := (slotAt bs 0x18).toNat % 2 ^ 32 }
    let b := (b.wcsr cZSTATE 0).wcsr cGRANT (g.csr (elastic b.csr))
    let cnt := areaCounters.foldl (fun m e => fset 0 m e.1 (slotAt bs e.2)) x.cnt
    let w : WaitRec := { value := (slotAt bs 0x28).toNat, kind := (slotAt bs 0x30).toNat % 2 ^ 32, here := (slotAt bs 0x30).toNat / 2 ^ 32 }
    let sp := s.peekRange g root (base + z0 + 131072 * g.clusters) g.scratch
    let mem := ((List.range sp.length).zip sp).foldl (fun m e => fset 0 m (g.windowHome e.1) e.2) s.mem
    let s := { clearScratch s g with mem := mem }
    s.setHart h { x with arch := b, cnt := cnt, parked := false, issued := 0, noProg := 0, cap := (slotAt bs 0x20).toNat,
                         squash := (slotAt bs 0x18).toNat / 2 ^ 32,
                         wait := if bit (slotAt bs 0).toNat 50 then Wait.ofRecord w b.pc else .none }

end Sys2Proof.Machine
end

