-- ==== Sys2Proof/Machine/Issue.lean ====
section
/-! DEFINITION. How an instruction starts and ends: opening its sheaf, waiting for its operands, raising its trap, retiring,
placing work in the queues, and completing what is queued (R22 to R31, R98, R129, R159, R263, R264, R335). -/

namespace Sys2Proof.Machine

/-! ### Completing queued work -/

/-- The next hart by number, cyclically: the machine turns to it when a hart can do nothing. -/
def State.rotate (s : State) : State :=
  match s.harts.find? (fun e => decide (s.cur < e.1) && !e.2.gone) with
  | some e => { s with cur := e.1 }
  | none => match s.harts.find? (fun e => !e.2.gone) with
    | some e => { s with cur := e.1 }
    | none => s

/-- A hart's weight at the sequencer (R298, R335). -/
def Hart.weight (x : Hart) : Nat := match x.adv with | some a => max 1 a.weight | none => 4

/-- A requested priority takes effect at a strip-opening instruction at the sequencer: the hart joins its band with DC 0
(R297, R335). -/
def Hart.joinBand (x : Hart) : Hart :=
  match x.adv with
  | some a => match a.request with
    | some r => { x with adv := some { a with request := none }, effPrio := r, dc := if r = x.effPrio then x.dc else 0 }
    | none => x
  | none => x

/-- The place of a strip in the queue. -/
def VOp.isStrip : VOp → Bool
  | .strip => true
  | _ => false

/-- A strip waits at the head of a hart's queue (R335). -/
def Hart.stripReady (x : Hart) : Bool :=
  match x.queue with
  | e :: _ => e.op.isStrip
  | [] => false

/-- A strip waits in a hart's queue, at its head or behind the strip that is at work. -/
def Hart.stripQueued (x : Hart) : Bool := x.queue.any (fun e => e.op.isStrip)

/-- The other quarter harts of a hart's band and cluster with a strip ready, in ascending quarter from it (R335). -/
def State.peers (s : State) (h : Nat) (x : Hart) : List Nat :=
  let g := x.arch.grant
  if g.clusters ≠ 0 then []
  else
    let on (q : Nat) : List Nat := (s.harts.filter (fun e => decide (e.1 ≠ h) && decide (e.2.arch.grant.clusters = 0)
      && decide (e.2.arch.grant.base = g.base) && decide (e.2.arch.grant.quarter = q)
      && decide (e.2.effPrio = x.effPrio) && !e.2.parked && e.2.stripQueued)).map Prod.fst
    (List.range 4).flatMap (fun k => on ((g.quarter + k) % 4))

/-- The hart that holds the turn of a hart's band and cluster (R335). -/
def State.turnHolder (s : State) (x : Hart) : Option Nat := fget none s.disp.turns (x.arch.grant.base * 8 + x.effPrio)

/-- Gives a hart the turn of its band: DC grows by w × 1,024 (R335). -/
def State.giveTurn (s : State) (h : Nat) (x : Hart) : State :=
  let s := { s with disp := { s.disp with turns := fset none s.disp.turns (x.arch.grant.base * 8 + x.effPrio) (some h) } }
  s.updHart h (fun y => { y with dc := y.dc + x.weight * 1024 })

/-- The turn leaves hart `k` for the next of its band with a strip ready; with none it stays (R335). -/
def State.passTurn (s : State) (k : Nat) (x : Hart) : State :=
  match s.peers k x with
  | [] => s.giveTurn k x
  | p :: _ => match s.hart p with
    | some y => s.giveTurn p y
    | none => s.giveTurn k x

/-- The holder is inside a strip: its instructions or its scalar side are still at it. -/
def Hart.midStrip (x : Hart) : Bool :=
  match x.queue with
  | e :: _ => !e.op.isStrip
  | [] => x.openSheaf.isSome

/-- Hart `h` has a strip at the sequencer (R335): the turn passes where its holder's DC is used up at a strip boundary, and a holder with no strip ready
loses the turn and its DC.  The state after, and whether the strip may open: the holder's with a DC above 0, and another's in ck that a holder in its
strip leaves idle, unless that holder's next strip is ready and its DC is above 0.  Where the holder has ended, been pre-empted or left the band, the turn
goes to the hart that asks (R335 does not say whose it is; logged as assumption 107).  `n` bounds how often turns pass. -/
def State.turnAt (h : Nat) : Nat → State → State × Bool
  | 0, s => (s, false)
  | n + 1, s =>
    match s.hart h with
    | none => (s, false)
    | some x =>
      match s.turnHolder x with
      | none => State.turnAt h n (s.giveTurn h x)
      | some k =>
        if k = h then (if 0 < x.dc then (s, true) else State.turnAt h n (s.passTurn h x))
        else match s.hart k with
          | none => State.turnAt h n (s.giveTurn h x)
          | some y =>
            if y.effPrio ≠ x.effPrio ∨ y.arch.grant.base ≠ x.arch.grant.base ∨ y.arch.grant.clusters ≠ 0 ∨ y.parked = true then
              State.turnAt h n (s.giveTurn h x)
            else if y.midStrip then (s, !(y.stripQueued && decide (0 < y.dc)))
            else if y.stripReady then (if 0 < y.dc then (s, false) else State.turnAt h n (s.passTurn k y))
            else
              let s := s.updHart k (fun z => { z with dc := 0 })
              State.turnAt h n (if (s.peers k y).isEmpty then s.giveTurn h x else s.passTurn k y)

/-- A hart's strip asks to open; no deficit of a hart outlasts the turns that may pass. -/
def State.takeTurn (s : State) (h : Nat) : State × Bool :=
  State.turnAt h (s.harts.foldl (fun n e => n + e.2.dc.natAbs / 1024 + 3) 3) s

/-- What a queued instruction charges its hart (R335). -/
def QEntry.charge (e : QEntry) : Nat :=
  match e.op with
  | .mop _ _ _ _ _ r _ => max 1 ((r + 1) * e.vl)
  | _ => max 1 e.vl

/-- The FPX trap of an instruction names an element (R308). -/
def VOp.perElement : VOp → Bool
  | .fp .. => true | .cvt .. => true | .zrd .. => true | .zwr .. => true | .zpatch .. => true | .cmp .. => true
  | _ => false

/-- The trap of a queued instruction. -/
def QEntry.trap (e : QEntry) (t : Stop) : Trap :=
  { cause := t.cause, kind := t.kind, tpc := e.pc, telem := BitVec.ofNat 64 t.telem, tlane := BitVec.ofNat 64 t.tlane,
    tval := BitVec.ofNat 64 t.tval, seq := e.seq, opener := false }

/-- ILL of a queued instruction (R97). -/
def QEntry.ill (e : QEntry) : Trap := e.trap { cause := 0x01, kind := 0, telem := 0, tlane := 0, tval := e.word.toNat }

/-- FPX of a queued instruction (R39, R308). -/
def QEntry.fpx (e : QEntry) (v : VAcc) : Trap :=
  let i := if e.op.perElement then v.fpe.getD 0 else 0
  e.trap { cause := 0x0E, kind := 0, telem := i, tlane := if e.op.perElement then e.grant.tlane (i * e.sew / 8 % e.vb) else 0,
           tval := v.fl &&& e.fen }

/-- A scalar register in a copy of the register file. -/
def putX (m : FMap W64) (d : Nat) (v : W64) : FMap W64 := if d = 0 then m else fset 0 m d v

/-- A BQ result arrives: it is written to its register, later queued instructions carry it, and so does what a HOLD hit keeps (R24, R321). -/
def Hart.deliver (x : Hart) (d : Nat) (v : W64) : Hart :=
  { x with
    arch := x.arch.wx d v
    queue := x.queue.map (fun e => { e with x := putX e.x d v })
    sheaves := x.sheaves.map (fun sh => { sh with want := sh.want.map (fun k => { k with x := putX k.x d v }) })
    bq := mark d x.bq }
where
  mark (d : Nat) : List BqEntry → List BqEntry
    | [] => []
    | b :: bs => if b.d = d ∧ !b.here then { b with here := true } :: bs else b :: mark d bs

/-- The younger sheaf's checkpoint after an instruction of the older one has completed: the registers that the scalar side
does not hold, the flags and the generator. -/
def Sheaf.follow (sh : Sheaf) (a : Arch) (fl : Nat) : Sheaf :=
  let cp := { sh.cp with v := a.v, m := a.m, q := a.q, z := a.z, tam := a.tam, mp := a.mp }
  { sh with cp := ((cp.orFlags fl).wcsr cSRSEED (a.rcsr cSRSEED)).wcsr cZSTATE (a.rcsr cZSTATE) }

/-- The CSRs that a later instruction carries, after one before it has completed: the flags, the generator and ZSTATE follow (R23, R321). -/
def followCsr (a : Arch) (fl : Nat) (csr : FMap W64) : FMap W64 :=
  let b := ((({ a with csr := csr } : Arch).orFlags fl).wcsr cSRSEED (a.rcsr cSRSEED)).wcsr cZSTATE (a.rcsr cZSTATE)
  b.csr

/-- The hart after a queued instruction of its sheaf `i` has completed without a trap.  The checkpoint of a younger sheaf follows, but for an
instruction that this sheaf itself makes in the held one, and would make again after a squash (R215, R322). -/
def Hart.finish (x : Hart) (now i : Nat) (e : QEntry) (d : Done) : Hart :=
  let v := d.acc
  let a := (v.arch.orFlags v.fl).wcsr cSRSEED v.seed
  let late (csr : FMap W64) : FMap W64 := followCsr a v.fl csr
  let mine : Option Hit := match d.hold with
    | some (w, t) => if e.sup then none
      else some { wp := w, trap := e.trap t, x := e.x, csr := late e.csr, nSV := e.nSV, nVS := e.nVS, nVV := e.nVV, resv := e.resv }
    | none => none
  -- of two hits the earlier in program order stops the hart
  let want := match d.sheaf.want, mine with
    | some k, some m => some (if m.trap.seq < k.trap.seq then m else { k with csr := late k.csr })
    | some k, none => some { k with csr := late k.csr }
    | none, m => m
  let ss := x.sheaves.set i { d.sheaf with want := want, asks := [] }
  let ss := if i = 0 ∧ !e.fresh then match ss with | o :: ys => o :: ys.map (fun y => y.follow a v.fl) | [] => [] else ss
  let y := { x with arch := a, sheaves := ss, queue := (x.queue.drop 1).map (fun f => { f with csr := late f.csr }),
                    issued := if e.op.isStrip then x.issued else x.issued + 1, issueAt := now + 1, dc := x.dc - e.charge, noProg := 0 }
  match e.bq, v.bq with
  | some r, some val => y.deliver r val
  | _, _ => y

/-- A trap of the instruction at the head of the queue: it has issued, as its pipe, its charge and its number show (R335, R338, R372), and the trap
is held in its sheaf (R98, R154), with the reads that led to it. -/
def State.failHead (s : State) (h i : Nat) (e : QEntry) (sh : Sheaf) (t : Trap) : State :=
  (s.runPipe h e (((s.hart h).map (·.issued)).getD 0) false).updHart h (fun x =>
    ({ x with queue := x.queue.drop 1, issued := x.issued + 1, issueAt := s.now + 1, dc := x.dc - e.charge, noProg := 0,
              sheaves := x.sheaves.set i { sh with asks := [] } } : Hart).holdTrapAt i t)

/-- What keeps the instruction at the head of a queue from completing: a trap or a HOLD stop before it (R154, R321). -/
def Sheaf.stops (sh : Sheaf) (e : QEntry) : Bool :=
  (sh.trap.any (fun t => decide (t.seq ≤ e.seq))) || (sh.want.any (fun k => decide (k.trap.seq < e.seq)))

/-- The resource an instruction asks for at the sequencer: its pipe, the two VALUs as one, or the opening of a strip (R335, R371). -/
def VOp.claim (o : VOp) : Nat := match pipeOf false o with | some p => p | none => if o.isStrip then 6 else 7

/-- A hart's next instruction is ready and claims a resource: nothing holds it back, its data has come, and none of the hart has issued in this ck. -/
def Hart.claims (x : Hart) (now c : Nat) : Bool :=
  match x.queue with
  | e :: _ => decide (e.op.claim = c) && decide (x.issueAt ≠ now + 1) && e.out.all (·.isEmpty)
    && (match x.sheaves[if e.young then 1 else 0]? with | some sh => !sh.stops e | none => false)
  | [] => false

/-- The harts of the cluster of hart `h` that go before it with their next instruction, which claims what its instruction `e` does: those of a higher
band, and the holder of its band's turn (R335). -/
def State.rivals (s : State) (h : Nat) (x : Hart) (e : QEntry) : List (Nat × Hart) :=
  s.harts.filter (fun r => decide (r.1 ≠ h) && decide (r.2.arch.grant.clusters = 0) && decide (r.2.arch.grant.base = x.arch.grant.base)
    && !r.2.parked && r.2.claims s.now e.op.claim
    && (decide (x.effPrio < r.2.effPrio) || (decide (r.2.effPrio = x.effPrio) && decide (s.turnHolder x = some r.1))))

/-- The hart that issues first where hart `h` has an instruction ready: of the highest band, and of that the holder of its turn (R335). -/
def State.issuesFirst (s : State) (h : Nat) (x : Hart) (e : QEntry) : Nat :=
  if x.arch.grant.clusters ≠ 0 then h
  else
    let rs := s.rivals h x e
    let top := rs.foldl (fun n r => max n r.2.effPrio) 0
    let ts := rs.filter (fun r => decide (r.2.effPrio = top))
    match ts.find? (fun r => decide (s.turnHolder r.2 = some r.1)) <|> ts.head? with
    | some r => r.1
    | none => h

/-- What a run of an instruction reads of memory. -/
def Ran.asks : Ran → List (Nat × Option Nat)
  | .late _ sh _ => sh.asks
  | .done d => d.sheaf.asks
  | _ => []

/-- Where timing is kept an instruction that reads asks for its data once, and waits until that has come (R155, R347). -/
def State.askData (s : State) (h : Nat) (x : Hart) (e : QEntry) (asks : List (Nat × Option Nat)) : State :=
  match e.out with
  | some _ => s
  | none => (s.setHart h { x with queue := { e with out := some (asks.map (fun a => (a.1, s.now))) } :: x.queue.drop 1 }).sendAsks h e.grant.base asks

/-- The instruction at the head of a hart's queue completes, where nothing holds it back and none of the hart has issued in this ck: it runs on the
vector side, the matrix unit or the mask unit (R22, R154, R159, R321). -/
def State.runHead (s : State) (h : Nat) : State :=
  match s.hart h with
  | none => s
  | some x =>
    match x.queue with
    | [] => s
    | e :: _ =>
      let i := if e.young then 1 else 0
      match x.sheaves[i]? with
      | none => s
      | some sh =>
        let sh := { sh with asks := [] }
        if sh.stops e || decide (x.issueAt = s.now + 1) then s
        else
          let t := if e.op.isStrip then (s.setHart h x.joinBand).takeTurn h else (s, true)
          if !t.2 then t.1
          else
            let s := t.1
            match s.hart h with
            | none => s
            | some x =>
              let r := runVOp s x.gang e x.arch sh (sh.byStrip && !e.sup)
              if s.ms.timed && !r.asks.isEmpty && decide (e.out ≠ some []) then s.askData h x e r.asks
              else match r with
              | .ill => s.failHead h i e sh e.ill
              | .stop t => s.failHead h i e sh (e.trap t)
              | .late t sh n => ({ s with free := n } : State).failHead h i e sh (e.trap t)
              | .trim k =>
                if e.young then s
                else
                  let s := s.runPipe h e x.issued true
                  (s.squash h 0 outTrim).updHart h (fun y => { y with cap := k, issued := y.issued + 1, issueAt := s.now + 1, dc := y.dc - e.charge })
              | .done d =>
                if d.acc.fl &&& e.fen ≠ 0 then s.failHead h i e sh (e.fpx d.acc)
                else
                  let s := ({ s with free := d.free } : State).runPipe h e x.issued false
                  let s := match e.op with | .trmark v => s.traceMark h e sh v | _ => s
                  let key := fun (c : Nat) => e.grant.base * 3 + c
                  let s := { s with
                    mskcnt := match d.cls with
                      | some c => fset 0 s.mskcnt (key c) (fget 0 s.mskcnt (key c) + 1)
                      | none => s.mskcnt }
                  s.updHart h (fun x => x.finish s.now i e d)

/-- A hart's next queued instruction issues, or that of a hart which the sequencer issues first (R335). -/
def State.completeHead (s : State) (h : Nat) : State :=
  match s.hart h with
  | none => s
  | some x => match x.queue with
    | [] => s
    | e :: _ => s.runHead (s.issuesFirst h x e)

/-- What stops a hart after its queued work: a HOLD stop, a trap, or nothing; then a commit that is ready. -/
def State.conclude (s : State) (h : Nat) : State :=
  match s.hart h with
  | none => s
  | some x =>
    if x.parkReady then s.park h
    else match x.landReady with
      | some _ => s.tryLand h
      | none => s.tryCommit h

/-- What a prompt hart's queued work has led to takes place (model's own schedule). -/
def State.settle (s : State) (h : Nat) : State :=
  match s.hart h with
  | none => s
  | some x => if x.ahead then s else s.conclude h

/-- The end of a ck in which a hart has placed an instruction in a queue: the next queued instruction of a prompt hart issues in it, and what that leads
to follows. -/
def State.issue (s : State) (h : Nat) : State :=
  let t := match s.hart h with
    | some x => if x.ahead then s else s.completeHead h
    | none => s
  (t.tick 1).settle h

/-! ### The course of an instruction of the scalar side -/

/-- The instruction cannot go on in this ck: nothing changes but time, which counts in LATSTALL while load data for the registers `onLoad` is waited
for (R129), and the QDEAD count where `dead` (R338). -/
def State.stall (s : State) (h : Nat) (onLoad : List Nat) (dead : Bool) : State :=
  ((s.updHart h (fun x =>
    { (if dead then x.startDead s.now else x) with blocked := true, onLoad := onLoad, overBq := false, atOpener := false })).tick 1).rotate

/-- A strip-opening instruction cannot go on in this ck. -/
def State.stallOpener (s : State) (h : Nat) (onLoad : List Nat) (dead : Bool) : State :=
  (s.stall h onLoad dead).updHart h (fun x => { x with atOpener := true })

/-- The instruction is complete: its place in the sheaf is taken, what it has read sets off to `dest`, and one ck has passed (R401). -/
def State.retireTo (s : State) (h : Nat) (x : Hart) (dest : Sys2Proof.DataTo) : State :=
  match x.cur with
  | some sh =>
    ((s.setHart h { x.setCur { sh with seq := sh.seq + 1, asks := [] } with blocked := false, noProg := 0 }).demands h x.arch.grant.base false
      dest (sh.asks.map Prod.fst)).tick 1
  | none => (s.setHart h { x with blocked := false, noProg := 0 }).tick 1

/-- The instruction is complete, and no load waits for what it has read. -/
def State.retire (s : State) (h : Nat) (x : Hart) : State := s.retireTo h x .nothing

/-- The trap of an instruction of the scalar side: held in its sheaf, and landing at once where that is possible (R98,
R309). -/
def State.raise (s : State) (h : Nat) (x : Hart) (t : Trap) : State :=
  ((s.setHart h { x.holdTrap t with blocked := true, onLoad := [] }).tick 1).settle h

/-- The place of the next instruction in the current sheaf. -/
def Hart.seqNow (x : Hart) : Nat := match x.cur with | some sh => sh.seq | none => 0

/-- A trap without an element, at the current instruction. -/
def State.raiseAt (s : State) (h : Nat) (x : Hart) (cause kind : Nat) (tval : W64) : State :=
  s.raise h x (plainTrap cause kind x.arch.pc tval x.seqNow)

/-- ILL (R97). -/
def State.ill (s : State) (h : Nat) (x : Hart) (w : W32) : State := s.raiseAt h x 0x01 0 (w.setWidth 64)

/-- A hart with a sheaf open for its next instruction, if it may have one (R26, R27). -/
def Hart.ready (x : Hart) (now : Nat) : Option Hart :=
  match x.openSheaf with
  | some _ => some x
  | none => if 2 ≤ x.sheaves.length then none else some (x.openHere now)

/-- An operation of the scalar side that reads or writes the registers `rs`: it stops where no hart runs, stalls until its
sheaf can open and its registers have their values (R24, R27, R129), and then does `f`. -/
def withHart (s : State) (rs : List Nat) (f : Nat → Hart → State) : Host.Outcome State Fault Refusal :=
  match s.hart s.cur with
  | none => .fault .noHart
  | some x =>
    match x.ready s.now with
    | none => .next (s.stall s.cur [] false)
    | some y =>
      if rs.any y.waitsOn then .next ((s.setHart s.cur y).stall s.cur (rs.filter y.loads) false)
      else .next (f s.cur { y with bq := rs.foldl (fun q r => consume r q) y.bq })

/-- An instruction that only writes a register. -/
def regOp (s : State) (d : Nat) (rs : List Nat) (f : Arch → W64) : Host.Outcome State Fault Refusal :=
  withHart s (d :: rs) (fun h x => s.retire h (x.withArch (x.arch.wx d (f x.arch)).next))

/-- A forced split before the current instruction (R240, R264): the sheaf takes no more; a younger one waits until it is
the oldest.  R264 names no way out for a supervisor store during a HOLD stop that does not fit beside the held sheaf, which R322 does not let commit: the
supervisor's own sheaf is split, and the store is tried again (logged as assumption 102). -/
def State.forceSplit (s : State) (h : Nat) (x : Hart) : State :=
  if x.front + 1 < x.sheaves.length then s.stall h [] false
  else if x.bq.any (fun b => !b.here) then (s.setHart h x).stall h [] false
  else
    let y := x.close .split
    ((s.setHart h { y with arch := { y.arch with bySplit := true }, bq := [], blocked := true, onLoad := [], overBq := false }).tick 1).settle h

/-! ### Placing work in the queues -/

/-- Where a queued instruction goes: its sheaf, and the CSRs and mode it carries (R23, R322). -/
structure Target where
  i     : Nat
  csr   : FMap W64
  sup   : Bool
  deriving DecidableEq, Repr

/-- The held sheaf during a HOLD stop, else the sheaf of the scalar side; the CSRs are those of the scalar side, which during a stop still hold the held
sheaf's VL and VTYPE. -/
def Hart.target (x : Hart) : Target :=
  if x.held.isSome then { i := 0, csr := x.arch.csr, sup := true } else { i := x.sheaves.length - 1, csr := x.arch.csr, sup := false }

/-- Entries of a queue that are taken. -/
def Hart.taken (x : Hart) (u : QUnit) : Nat := (x.queue.filter (fun e => decide (e.unit = u))).length

/-- The entries of VIQ and MQ (R22). -/
def QUnit.size : QUnit → Nat | .viq => 64 | .mq => 32

/-- The entry of an instruction placed now that reserves `r`, and its sheaf (R23, R263). -/
def Hart.entryFor (x : Hart) (u : QUnit) (op : VOp) (w : W32) (bq : Option Nat) (r : FMap Nat) : Option (Sheaf × QEntry) :=
  let t := x.target
  x.sheaves[t.i]?.map (fun sh => (sh,
    { unit := u, op := op, word := w, pc := x.arch.pc, young := decide (t.i = 1), seq := sh.seq, nSV := sh.nSV, nVS := sh.nVS,
      nVV := sh.nVV, x := x.arch.x, csr := t.csr, grant := x.arch.grant, sup := t.sup, resv := addResv sh.resv r, fresh := t.sup, bq := bq, out := none }))

/-- Pushes an instruction: its entry, its reservation, and its place in its sheaf. -/
def Hart.push (x : Hart) (u : QUnit) (op : VOp) (w : W32) (bq : Option Nat) (r : FMap Nat) : Hart :=
  match x.entryFor u op w bq r with
  | none => x
  | some (sh, e) =>
    { x with
      queue := x.queue ++ [e]
      sheaves := x.sheaves.set x.target.i { sh with seq := sh.seq + 1, resv := addResv sh.resv r }
      bq := match bq with | some d => x.bq ++ [{ d := d, here := false }] | none => x.bq
      blocked := false
      noProg := 0 }

/-- What the issue of a queued instruction needs: the registers it reads and writes, its queue, its BQ destination, its
word, what it reserves, and what it does with the scalar values it carries. -/
structure Issue where
  regs : List Nat
  unit : QUnit
  bq   : Option Nat
  word : W32

/-- A tensor map decides whether the instruction is legal (R161). -/
def VOp.needsMap : VOp → Bool
  | .load (.tens _) .. => true
  | .store (.tens _) .. => true
  | _ => false

/-- A TAMW is queued: a TCOPY waits for it before it captures its maps (R23). -/
def Hart.tamwQueued (x : Hart) : Bool := x.queue.any (fun e => match e.op with | .tamw .. => true | _ => false)

/-- An instruction that is not placed yet is ILL by what it carries (R97); where that depends on a tensor map which is still on its way, it is not known. -/
def State.illNow (s : State) (x : Hart) (k : Issue) (op : VOp) (r : FMap Nat) : Bool :=
  match x.entryFor k.unit op k.word k.bq r with
  | none => false
  | some (sh, e) => !(op.needsMap && x.tamwQueued)
    && (match runVOp s x.gang e x.arch sh false with | .ill => true | _ => false)

/-- An instruction of the VIQ or MQ: ILL in the supervisor outside a HOLD stop (R312), a stall on a full queue (R22), a forced split where its
reservation does not fit (R264), but ILL before either where what it carries makes it so (R97); else it is pushed, and completes at once on a prompt
hart. -/
def issueV (s : State) (k : Issue) (resv : Hart → FMap Nat) (op : Arch → VOp) : Host.Outcome State Fault Refusal :=
  withHart s k.regs (fun h x =>
    let full := k.bq.isSome && decide (16 ≤ x.bq.length)
    let r := resv x
    if x.arch.sup && x.held.isNone then s.ill h x k.word
    else if decide (k.unit.size ≤ x.taken k.unit) || full || !resvFits x.sheaves r then
      if s.illNow x k (op x.arch) r then s.ill h x k.word
      else if decide (k.unit.size ≤ x.taken k.unit) || full then
        ((s.setHart h x).stall h [] true).updHart h (fun y => { y with overBq := full })
      else s.forceSplit h x
    else
      let y := x.push k.unit (op x.arch) k.word k.bq r
      (s.setHart h (y.withArch y.arch.next)).issue h)

/-- No reservation (R263). -/
def noResv (_ : Hart) : FMap Nat := []

/-- VL and VTYPE as an instruction placed now would carry them. -/
def Hart.carriedVl (x : Hart) : Nat := (fget 0 x.target.csr cVL).toNat
def Hart.carriedVt (x : Hart) : W64 := fget 0 x.target.csr cVTYPE

/-- The reservation of a store that covers the first bytes of its data group `nf` times (R263). -/
def storeResv (nf : Nat) (x : Hart) : FMap Nat :=
  let n := ceilDiv (x.carriedVl * vtBits x.carriedVt) 8
  let r := unitResv x.arch.grant n
  r.map (fun e => (e.1, e.2 * nf))

/-- The reservation of an element store (R263). -/
def scatterResv (x : Hart) : FMap Nat := elemResv x.arch.grant x.carriedVl (vtBits x.carriedVt)

end Sys2Proof.Machine
end

