-- ==== Sys2Proof/Machine/Remote.lean ====
section
/-! DEFINITION. Remote registrations and inbound counters (R249, R253, R383, R384, R386, R389). -/

namespace Sys2Proof.Machine

/-- Whether an entry of the layout of R383 is in force. -/
def regValid (r : Sys2Proof.Registration) : Bool := bit r.ctl.toNat 63

/-- Bits of the permission word (R383). -/
def permPut := 32
def permGet := 33
def permReduce := 34
def permSignal := 35

/-- Whether an entry's range holds `n` bytes at `a`, and it admits the source package. -/
def regCovers (r : Sys2Proof.Registration) (a n : Nat) : Bool := decide (r.low.toNat ≤ a) && decide (a + n ≤ r.high.toNat)
def regAdmits (r : Sys2Proof.Registration) (pkg : Nat) : Bool :=
  decide (bits r.ctl.toNat 12 0 ≤ pkg) && decide (pkg ≤ bits r.ctl.toNat 28 16)

/-- The lowest-numbered valid registration that covers an element (R384). -/
def State.registration (s : State) (a n : Nat) : Option (Nat × Sys2Proof.Registration) :=
  s.fab.regs.findSome? (fun e => match e.2 with
    | some r => if regValid r && regCovers r a n then some (e.1, r) else none
    | none => none)

/-- The home address of a byte of an owner's region (R152, R384): the tables of the entry's root translate it, for a user
access. -/
def State.ownerHome (s : State) (r : Sys2Proof.Registration) (a kind : Nat) : Option Nat :=
  if bits a 57 56 = 3 then none else xlate s 128 r.ptroot (a % 2 ^ 58) kind true

/-- The check of an element against its registration (R384): the entry and the element's home address. -/
def State.regCheck (s : State) (pkg a n perm kind : Nat) : Option (Nat × Sys2Proof.Registration × Nat) :=
  match s.registration a n with
  | none => none
  | some (i, r) =>
    if regAdmits r pkg && bit r.ctl.toNat perm then (s.ownerHome r a kind).map (fun h => (i, r, h)) else none

/-- The hart that owns an entry (R383). -/
def State.owner (s : State) (r : Sys2Proof.Registration) : Option Nat :=
  s.harts.findSome? (fun e => match ffind s.gangs e.2.gang with
    | some g => if g.ident = bits r.owner.toNat 63 16 ∧ e.2.index = bits r.owner.toNat 5 0 ∧ e.2.gone = false then some e.1 else none
    | none => none)

/-- Adds to an inbound counter of a hart, which wakes it from SYS.WFI where the counter increases (R140, R249, R253). -/
def State.raiseIc (s : State) (h n : Nat) (v : W64) : State :=
  s.updHart h (fun x =>
    let y : Hart := { x with ic := fset 0 x.ic n (fget 0 x.ic n + v) }
    if v = 0 then y else y.wake)

/-- Adds to counter `n` of the hart that owns the registration covering an address, where SG is granted; none where it is not
(R249, R253, R386). -/
def State.signal (s : State) (pkg a n : Nat) (v : W64) : Option State :=
  match s.registration a 1 with
  | none => none
  | some (_, r) =>
    if regAdmits r pkg && bit r.ctl.toNat permSignal then (s.owner r).map (fun h => s.raiseIc h n v) else none

end Sys2Proof.Machine
end

