-- ==== Sys2Proof/Machine/System.lean ====
section
/-! DEFINITION. System instructions: SYS (R137 to R141, R312, R313), DBG.WPREL (R144, R322), and words that are not instructions
(R96, R97). -/

namespace Sys2Proof.Machine

/-- The scalar side ends its sheaf at the current instruction, which is the sheaf's `n`-th more: its BQ results have been
written (R24); none while one is still to arrive. -/
def Hart.endSheafAt (x : Hart) (n : Nat) : Option Hart :=
  if x.bq.any (fun b => !b.here) then none
  else
    let y := match x.openSheaf with | some sh => x.setCur { sh with seq := sh.seq + n } | none => x
    some { y.close .ordinary with bq := [], blocked := false, noProg := 0 }

/-- The sheaf ends with the current instruction, which counts in it. -/
def Hart.endSheaf (x : Hart) : Option Hart := x.endSheafAt 1

/-- Every sheaf the scalar side waits for has committed: none is left but a held one. -/
def Hart.drained (x : Hart) : Bool := decide (x.sheaves.length ≤ x.front)

/-- An ECALL or EBREAK traps once every instruction before it has committed (R137), unless a pre-emption lands first (R265). -/
def State.splitTrap (s : State) (h : Nat) : State :=
  match s.hart h with
  | none => s
  | some x =>
    match x.wait with
    | .split c => if x.drained && !x.preempted then s.landTrap h (plainTrap c 0 x.arch.pc 0 0) true else s
    | _ => s

/-- What the system cores receive with a SYS.ECALL of the supervisor (R312): the trap record and where the frame is. -/
def Hart.ecallReport (h : Nat) (x : Hart) : List W64 :=
  [BitVec.ofNat 64 h] ++ (List.range 8).map (fun i => x.arch.rcsr (0x300 + i)) ++ [x.arch.rcsr cSAVEPTR]

/-- A SYS.ECALL of the supervisor goes to the system cores once every instruction before it has committed (R137, R312). -/
def State.askCores (s : State) (h : Nat) : State :=
  match s.hart h with
  | none => s
  | some x =>
    match x.wait with
    | .answer false => if x.drained then (s.setHart h { x with wait := .answer true }).report 2 (x.ecallReport h) else s
    | _ => s

/-- SYS.ECALL and SYS.EBREAK (R137): the sheaf ends before the instruction, and the trap follows its commit.  In supervisor mode an ECALL goes to
the system cores (R312). -/
def callOp (s : State) (cause : Nat) : Host.Outcome State Fault Refusal :=
  withHart s [] (fun h x =>
    match x.endSheafAt 0 with
    | none => (s.setHart h x).stall h [] false
    | some y =>
      if x.arch.sup ∧ cause = 0x0C then
        (((s.setHart h { y with wait := .answer false }).tick 1).settle h).askCores h
      else (((s.setHart h { y with wait := .split cause }).tick 1).settle h).splitTrap h)

/-- SYS.ECALL (R137). -/
def execSysEcall (s : State) : Host.Outcome State Fault Refusal := callOp s 0x0C

/-- SYS.EBREAK (R137). -/
def execSysEbreak (s : State) : Host.Outcome State Fault Refusal := callOp s 0x0D

/-- An instruction of the supervisor that ends its sheaf and acts outside any sheaf: it stalls until what it has queued has completed (R322)
and its own sheaf has committed, and then does `f`. -/
def supOp (s : State) (rs : List Nat) (ok : Hart → Bool) (w : W32) (f : State → Nat → Hart → State) :
    Host.Outcome State Fault Refusal :=
  match s.hart s.cur with
  | none => .fault .noHart
  | some x =>
    if !ok x then withHart s rs (fun h y => s.ill h y w)
    else if rs.any x.waitsOn then .next (s.stall s.cur (rs.filter x.loads) false)
    else if !x.queue.isEmpty then .next (s.stall s.cur [] false)
    else
      match x.endSheaf with
      | none => .next (s.stall s.cur [] false)
      | some y =>
        let t := ((s.setHart s.cur y).tick 1).settle s.cur
        match t.hart s.cur with
        | none => .next t
        | some z =>
          if z.drained then .next (f t s.cur z)
          else .next ((t.setHart s.cur { z with blocked := true, onLoad := [], overBq := false, atOpener := false }).rotate)

/-- SYS.ERET (R139, R313): supervisor-only.  During a HOLD stop it resumes at the start of the held sheaf, which is
discarded as an abort discards it. -/
def execSysEret (s : State) : Host.Outcome State Fault Refusal :=
  supOp s [] (fun x => x.arch.sup) 3#32 (fun t h x => (if x.held.isSome then t.abort h else t).eret h)

/-- SYS.WFI (R140): the scalar side idles until an event wakes it or 65,536 ck have passed. -/
def execSysWfi (s : State) : Host.Outcome State Fault Refusal :=
  withHart s [] (fun h x => (s.setHart h { x with wait := .wfi (s.now + 65536), blocked := true, onLoad := [], noProg := 0 }).tick 1)

/-- The instruction buffer that SYS.REFSYNC fills between its stages (R363): every word from the instruction to the end of its 4 KiB block. -/
def State.fillBuffer (s : State) (x : Hart) : Option (Nat × FMap W32) :=
  let a := x.arch
  let pc := a.pc.toNat
  match homeOf s a.grant (a.rcsr cPTROOT) pc kFetch (!a.sup) with
  | none => none
  | some p => some (pc / 4096, (List.range ((4096 - pc % 4096) / 4)).map (fun i => (pc + 4 * i, BitVec.ofNat 32 (memNat s (p + 4 * i) 4))))

/-- The granules that hold those words. -/
def State.blockGranules (s : State) (x : Hart) : List Nat :=
  match homeOf s x.arch.grant (x.arch.rcsr cPTROOT) x.arch.pc.toNat kFetch (!x.arch.sup) with
  | none => []
  | some p => granules p (4096 - x.arch.pc.toNat % 4096)

/-- The tick of bank 0 of a pseudo-channel has fallen in this very ck (R141, R356). -/
def State.tickedNow (s : State) (p : Nat) : Bool :=
  match fget none s.ms.ctls p with
  | some k => decide (0 < k.tick) && decide ((k.tick - 1) % 16 = 0) && decide (k.due = s.now + 586)
  | none => false

/-- The postpone count of a pseudo-channel becomes 0 (R356). -/
def State.clearOwed (s : State) (p : Nat) : State :=
  match fget none s.ms.ctls p with
  | some k => { s with ms := { s.ms with ctls := fset none s.ms.ctls p (some { k with owed := [] }) } }
  | none => s

/-- SYS.REFSYNC (R141): it waits for the hart's earlier loads; with `now` as the ck in which that stage ends, it fills the instruction buffer
(R363) and waits for the first tick of its pseudo-channel's sequencer that is due for bank 0 from then on, which may have fallen in this ck. -/
def execSysRefsync (a : BitVec 5) (s : State) : Host.Outcome State Fault Refusal :=
  withHart s [a.toNat] (fun h x =>
    let p := (x.arch.rx a.toNat).toNat
    if !x.arch.sup then s.ill h x (packR 0#6 0#5 a 0#5 0#3 5#8)
    else if Config.pseudoChannels s.bare ≤ p then s.retire h (x.withArch x.arch.next)
    else if !x.pend.isEmpty then (s.setHart h x).stall h [] false
    else
      let y := { x with blocked := true, onLoad := [], noProg := 0, ibuf := s.fillBuffer x }
      let t := if s.tickedNow p then ((s.setHart h { y with wait := .synced }).clearOwed p).tick 1
        else s.setHart h { y with wait := .refsync p s.now }
      t.demands h x.arch.grant.base false .nothing (s.blockGranules x))

/-- DBG.WPREL (R144, R322): the release or the abort of a HOLD stop; without one it traps ILL. -/
def execDbgWprel (a : BitVec 5) (s : State) : Host.Outcome State Fault Refusal :=
  supOp s [a.toNat] (fun x => x.arch.sup && x.held.isSome) (packR 54#6 0#5 a 0#5 0#3 1#8) (fun t h x =>
    if bit (x.arch.rx a.toNat).toNat 0 then (t.setHart h (x.withArch x.arch.next)).abort h else t.release h (packR 54#6 0#5 a 0#5 0#3 1#8))

/-- A word that is not an instruction (R96, R97). -/
def execIllegalInstructionWord (w : W32) (s : State) : Host.Outcome State Fault Refusal :=
  withHart s [] (fun h x => s.ill h x w)

/-! ### Answers and debuggers -/

/-- SYSTEM_CORE_ANSWER (R312): a0 is the answer, and the supervisor goes on; a characterisation hart gets 1 for a0 = 0 and else 0 (R362). -/
def execSystemCoreAnswer (h : Nat) (v : W64) (s : State) : Host.Outcome State Fault Refusal :=
  match s.hart h with
  | none => .next s
  | some x =>
    match x.wait with
    | .answer true =>
      if x.drained then
        let v := if x.charac then (if x.arch.rx 10 = 0 then 1 else 0) else v
        if v = 1 then .next (s.endHart h false)
        else .next (s.setHart h { x with wait := .none, arch := (x.arch.wx 10 v).next })
      else .next s
    | _ => .next s

/-- HSTATUS.DBG as the debugger sets it; in the landing copy as well, so that it survives the return. -/
def Hart.setDbg (x : Hart) (v : Nat) : Hart :=
  let f (a : Arch) : Arch := a.wcsr cHSTATUS (setBits (a.rcsr cHSTATUS) 11 11 v)
  { x with
    arch := f x.arch
    sheaves := x.sheaves.map (fun sh => { sh with cp := f sh.cp })
    landing := x.landing.map (fun l => { l with arch := f l.arch }) }

/-- DEBUGGER_ATTACH (R310). -/
def execDebuggerAttach (h : Nat) (s : State) : Host.Outcome State Fault Refusal := .next (s.updHart h (fun x => x.setDbg 1))

/-- DEBUGGER_DETACH (R310). -/
def execDebuggerDetach (h : Nat) (s : State) : Host.Outcome State Fault Refusal := .next (s.updHart h (fun x => x.setDbg 0))

end Sys2Proof.Machine
end

