-- ==== Sys2Proof/Machine/Engine.lean ====
section
/-! DEFINITION. Copy-engine commands: issue (R233 to R240), starting (R241), and applying elements (R242 to R251). -/

namespace Sys2Proof.Machine

/-! ### The operands of a command (R237, R238, R245 to R250) -/

/-- Error codes (R243). -/
def ePage := 0x01
def eBounds := 0x02
def eOperand := 0x03
def eMem := 0x04
def eRemote := 0x05
def eLink := 0x06
def ePriv := 0x07
def eLaunch := 0x08
def eSparse := 0x0A

/-- Fields of XCTL (R238). -/
def xPkg (v : W64) : Nat := bits v.toNat 46 34
def xRem (v : W64) : Bool := bit v.toNat 33
def xSig (v : W64) : Bool := bit v.toNat 32
def xIcn (v : W64) : Nat := bits v.toNat 25 20

/-- The reduction type and operation of XCTL (R238, R248). -/
def xType (v : W64) : AluType :=
  match bits v.toNat 6 5 with
  | 0 => .int32 (bit v.toNat 7)
  | 1 => .int64 (bit v.toNat 7)
  | 2 => .fp32
  | _ => .bf16
def xOp (v : W64) : Option AluOp := aluOpOf (bits v.toNat 4 2)

/-- XCTL is legal for a function (R238). -/
def xctlOk (f : EngFn) (v : W64) : Bool :=
  let n := v.toNat
  decide (bits n 63 47 = 0) && decide (bits n 31 26 = 0) && decide (bits n 19 8 = 0) && decide (bits n 1 0 = 0)
  && (xRem v || decide (xPkg v = 0)) && (
  match f with
  | .put => xRem v && decide (bits n 7 2 = 0) && (xSig v || decide (xIcn v = 0))
  | .get => xRem v && decide (bits n 7 2 = 0) && !xSig v && decide (xIcn v = 0)
  | .sig => decide (bits n 7 2 = 0) && !xSig v
  | .rcopy => (xOp v).isSome && (!bit n 7 || decide (bits n 6 5 ≤ 1)) && (xRem v || !xSig v) && (xSig v || decide (xIcn v = 0))
  | _ => false)

/-- The largest of 8, 4, 2 and 1 that divides three numbers (R244). -/
def copySize (a b n : Nat) : Nat :=
  if a % 8 = 0 ∧ b % 8 = 0 ∧ n % 8 = 0 then 8
  else if a % 4 = 0 ∧ b % 4 = 0 ∧ n % 4 = 0 then 4
  else if a % 2 = 0 ∧ b % 2 = 0 ∧ n % 2 = 0 then 2 else 1

/-- The element size of a copy. -/
def Cmd.esize (c : Cmd) : Nat := copySize c.xa.toNat c.xa1.toNat c.xb.toNat

/-- TCTL (R245). -/
def tSpx (v : W64) : Bool := bit v.toNat 17
def tMimg (v : W64) : Bool := bit v.toNat 16
def tMoff (v : W64) : Nat := bits v.toNat 63 32

/-- The elements of a command (R244 to R250). -/
def Cmd.count (c : Cmd) : Nat :=
  match c.fn with
  | .cpy => c.xb.toNat / c.esize
  | .put => c.xb.toNat / c.esize
  | .get => c.xb.toNat / c.esize
  | .tcopy => c.xb.toNat
  | .rgath => bits c.xb1.toNat 31 0
  | .rcopy => c.xb.toNat
  | .sig => 1
  | .launch => 1

/-- The command's operands obey R237, R238 and its own conditions; the code where they do not. -/
def Cmd.operands (c : Cmd) : Option Nat :=
  let small := decide (c.xb.toNat < 2 ^ 48)
  let ok (b : Bool) : Option Nat := if b then none else some eOperand
  match c.fn with
  | .cpy => ok (small && decide (c.xb1 = 0))
  | .put => ok (small && xctlOk .put c.xb1 && decide (bits c.xa.toNat 63 58 = 0))
  | .get => ok (small && xctlOk .get c.xb1 && decide (bits c.xa1.toNat 63 58 = 0))
  | .tcopy =>
    let n := c.xb1.toNat
    if tSpx c.xb1 && !c.sup then some ePriv
    else ok (small && decide (bits n 31 18 = 0) && decide (bits n 11 8 = 0) && !(tSpx c.xb1 && tMimg c.xb1)
      && (tMimg c.xb1 || decide (tMoff c.xb1 = 0)) && decide (tMoff c.xb1 % 8 = 0) && (tSpx c.xb1 || decide (bits n 15 12 = 0))
      && (match TensMap.ofBytes c.smap, TensMap.ofBytes c.dmap with
          | some a, some b => decide (a.esize = b.esize)
          | _, _ => false)
      && (!tSpx c.xb1 || (decide (c.xb.toNat % 4 = 0) && decide (c.xa1.toNat % 2 = 0)
          && (match TensMap.ofBytes c.mmap with | some m => decide (m.esize = 1) | none => false))))
  | .rgath => ok (decide (bits c.xb1.toNat 63 32 ≠ 0) && decide (c.xb.toNat % 4 = 0))
  | .rcopy =>
    let w := (xType c.xb1).bytes
    ok (small && xctlOk .rcopy c.xb1 && decide (c.xa.toNat % w = 0) && decide (c.xa1.toNat % w = 0)
      && (!xRem c.xb1 || decide (bits c.xa.toNat 63 58 = 0)))
  | .sig => ok (decide (c.xa1 = 0) && xctlOk .sig c.xb1 && decide (bits c.xb.toNat 63 58 = 0))
  | .launch => ok (decide (c.xa.toNat % 128 = 0) && decide (c.xa1 = 0) && decide (c.xb = 0) && decide (c.xb1 = 0))

/-- The command goes to a package over the fabric or the loopback path (R238, R382). -/
def Cmd.remote (c : Cmd) : Bool :=
  match c.fn with
  | .put => true
  | .get => true
  | .rcopy => xRem c.xb1
  | .sig => xRem c.xb1
  | _ => false

/-- A command that waits for its destination though it has no element: a counter raise (R253). -/
def Cmd.raises (c : Cmd) : Bool := c.remote && xSig c.xb1

/-! ### Issue: the ENG instructions (R236, R239, R240) -/

/-- Entries of the EQ: commands of open sheaves, and issued commands whose channel has no context (R22, R233). -/
def Hart.eqUsed (x : Hart) : Nat :=
  x.sheaves.foldl (fun n sh => n + sh.cmds.length) 0 + x.chans.foldl (fun n c => if c.ctx.isNone then n + c.waiting.length else n) 0

/-- An ENG instruction (R239). -/
def engOp (s : State) (fn : EngFn) (d a b : BitVec 5) (k : BitVec 3) (x1 : BitVec 1) (j : BitVec 3) : Host.Outcome State Fault Refusal :=
  let a' := a.toNat + 1
  let b' := b.toNat + 1
  withHart s [d.toNat, a.toNat, a', b.toNat, b'] (fun h x =>
    match x.cur with
    | none => s.stall h [] false
    | some sh =>
      if 16 ≤ x.eqUsed then
        if x.eqUsed = sh.cmds.length then s.forceSplit h x else (s.setHart h x).stall h [] true
      else if decide (fn = .tcopy) && x.tamwQueued then (s.setHart h x).stall h [] false
      else
        let r := x.arch
        let id := r.rcsr (cTID + k.toNat) + 1
        let tctl := r.rx b'
        let map (hi : Nat) : List Byte := if fn = .tcopy then fgetMany 0 r.tam (bits tctl.toNat (hi + 3) hi * 128) 128 else []
        let c : Cmd :=
          { fn := fn, ch := k.toNat, id := id.toNat, after := if x1 = 1#1 then some (j.toNat, r.rx d.toNat) else none,
            xa := r.rx a.toNat, xa1 := r.rx a', xb := r.rx b.toNat, xb1 := tctl, sup := r.sup, smap := map 0, dmap := map 4,
            mmap := map 12 }
        let y := (x.setCur { sh with cmds := sh.cmds ++ [c] }).withArch ((r.wcsr (cTID + k.toNat) id).wx d.toNat id).next
        s.retire h y)

/-- ENG.CPY (R244). -/
def execEngCpy (d : BitVec 5) (a : BitVec 5) (b : BitVec 5) (k : BitVec 3) (x : BitVec 1) (j : BitVec 3) (s : State) :
    Host.Outcome State Fault Refusal := engOp s .cpy d a b k x j

/-- ENG.TCOPY (R245, R246). -/
def execEngTcopy (d : BitVec 5) (a : BitVec 5) (b : BitVec 5) (k : BitVec 3) (x : BitVec 1) (j : BitVec 3) (s : State) :
    Host.Outcome State Fault Refusal := engOp s .tcopy d a b k x j

/-- ENG.RGATH (R247). -/
def execEngRgath (d : BitVec 5) (a : BitVec 5) (b : BitVec 5) (k : BitVec 3) (x : BitVec 1) (j : BitVec 3) (s : State) :
    Host.Outcome State Fault Refusal := engOp s .rgath d a b k x j

/-- ENG.RCOPY (R248). -/
def execEngRcopy (d : BitVec 5) (a : BitVec 5) (b : BitVec 5) (k : BitVec 3) (x : BitVec 1) (j : BitVec 3) (s : State) :
    Host.Outcome State Fault Refusal := engOp s .rcopy d a b k x j

/-- ENG.PUT (R244). -/
def execEngPut (d : BitVec 5) (a : BitVec 5) (b : BitVec 5) (k : BitVec 3) (x : BitVec 1) (j : BitVec 3) (s : State) :
    Host.Outcome State Fault Refusal := engOp s .put d a b k x j

/-- ENG.GET (R244). -/
def execEngGet (d : BitVec 5) (a : BitVec 5) (b : BitVec 5) (k : BitVec 3) (x : BitVec 1) (j : BitVec 3) (s : State) :
    Host.Outcome State Fault Refusal := engOp s .get d a b k x j

/-- ENG.SIG (R249). -/
def execEngSig (d : BitVec 5) (a : BitVec 5) (b : BitVec 5) (k : BitVec 3) (x : BitVec 1) (j : BitVec 3) (s : State) :
    Host.Outcome State Fault Refusal := engOp s .sig d a b k x j

/-- ENG.LAUNCH (R250). -/
def execEngLaunch (d : BitVec 5) (a : BitVec 5) (b : BitVec 5) (k : BitVec 3) (x : BitVec 1) (j : BitVec 3) (s : State) :
    Host.Outcome State Fault Refusal := engOp s .launch d a b k x j

/-! ### Binding (R233) -/

/-- Contexts of a die that no channel holds: sixteen engines of sixty-four contexts (R1, R233). -/
def freeContexts (s : State) (d : Nat) : List (Nat × Nat) :=
  let used := s.harts.flatMap (fun e => e.2.chans.filterMap (·.ctx))
  (List.range 1024).filterMap (fun i =>
    let c := (16 * d + i / 64, i % 64)
    if used.contains c then none else some c)

/-- One of a list, by free choices (R233 does not say which context of a die). -/
def pickFree {α : Type} : List α → Nat → Option (α × Nat)
  | [], _ => none
  | [x], n => some (x, n)
  | x :: xs, n => if freeBit n then some (x, n + 1) else pickFree xs (n + 1)

/-- CHANNEL_BIND (R233): the channel's first command has reached an engine. -/
def execChannelBind (h ch : Nat) (s : State) : Host.Outcome State Fault Refusal :=
  match s.hart h with
  | none => .next s
  | some x =>
    match x.chans[ch]? with
    | none => .next s
    | some c =>
      if c.ctx.isSome || c.waiting.isEmpty then .next s
      else
        let home := x.arch.grant.base / 32
        let ds := (List.range (Config.dies s.bare)).filter (fun d => !(freeContexts s d).isEmpty)
        match (List.range 3).findSome? (fun n => ds.find? (fun d => decide (hops home d = n))) with
        | none => .next s
        | some d =>
          match pickFree (freeContexts s d) s.free with
          | none => .next s
          | some (e, n) => .next (({ s with free := n } : State).setHart h (x.setChan ch { c with ctx := some e }))

/-! ### Starting (R241) -/

/-- The next command of a channel, where it may start. -/
def Hart.startable (x : Hart) (ch : Nat) : Option Cmd :=
  match x.chans[ch]? with
  | none => none
  | some c =>
    match c.waiting with
    | [] => none
    | k :: _ =>
      if c.err.isSome then none
      else match k.after with
        | none => some k
        | some (j, v) => if v.toNat ≤ ((x.chans[j]?.map (·.tl)).getD 0) then some k else none

/-- The channel bound to a context of an engine, with its hart. -/
def boundTo (s : State) (e c : Nat) : Option (Nat × Nat) :=
  s.harts.findSome? (fun p => ((List.range p.2.chans.length).zip p.2.chans).findSome? (fun q =>
    if q.2.ctx = some (e, c) then some (p.1, q.1) else none))

/-- The channel an engine starts next: the context whose turn it is, and among its hart's channels on the engine the preferred
one (R241, R298). -/
def nextStart (s : State) (e : Nat) : Option (Nat × Nat) :=
  let last := fget 63 s.fab.engines e
  match (List.range 64).findSome? (fun i =>
    match boundTo s e ((last + 1 + i) % 64) with
    | none => none
    | some (h, ch) => match s.hart h with
      | none => none
      | some x => if (x.startable ch).isSome then some (h, ch) else none) with
  | none => none
  | some (h, ch) =>
    match s.hart h with
    | none => none
    | some x =>
      let can := (List.range 8).filter (fun k => (x.startable k).isSome && (match x.chans[k]? with
        | some c => (c.ctx.map Prod.fst) = some e
        | none => false))
      let order := match x.adv with | some a => a.prefer | none => List.range 8
      if 2 ≤ can.length then some (h, (order.find? (fun k => can.contains k)).getD ch) else some (h, ch)

/-- A command of a channel ends in error: recorded in the channel (R243). -/
def State.cmdFail (s : State) (h ch id applied code : Nat) : State :=
  s.updHart h (fun x => match x.chans[ch]? with
    | some c => { x.setChan ch (c.fail id applied code) with noProg := 0 }
    | none => x)

/-- A command of a channel completes: the timeline advances and wakes the hart from SYS.WFI (R140, R235). -/
def State.cmdDone (s : State) (h ch id : Nat) : State :=
  s.updHart h (fun x => match x.chans[ch]? with
    | some c =>
      let d := c.complete id
      let y := { x.setChan ch d with noProg := 0 }
      if d.tl = c.tl then y else y.wake
    | none => x)

/-- An access of an engine for a hart (R242): its home address, or the code of the check that fails. -/
def engAccess (s : State) (x : Hart) (sup : Bool) (a n kind : Nat) : Except Nat Nat :=
  if !sup && !boundsOk s x.arch.grant x.arch.csr a n kind then .error eBounds
  else match homeOf s x.arch.grant (x.arch.rcsr cPTROOT) a kind (!sup) with
    | none => .error ePage
    | some h => if decide (kind = kRead) && (granules h n).any (fun g => poisoned s (g * 64)) then .error eMem else .ok h

/-- An address in the scratchpad window (R152). -/
def inWindow (a : Nat) : Bool := decide (bits a 57 56 = 3)

/-- Changes a started command. -/
def State.setRun (s : State) (h ch id : Nat) (f : Run → Run) : State :=
  s.updHart h (fun x => match x.chans[ch]? with
    | some c => x.setChan ch { c with running := c.running.map (fun r => if r.cmd.id = id then f r else r) }
    | none => x)

/-- The bytes of the packet of a LAUNCH (R242, R250): the bounds of the whole, then the place and the data of each granule; held while the hart
is parked and they lie in its scratchpad (R318). -/
def readPacket (s : State) (x : Hart) (c : Cmd) : Except (Option Nat) (List Byte) :=
  let a := c.xa.toNat
  let home (b : Nat) : Option Nat := homeOf s x.arch.grant (x.arch.rcsr cPTROOT) b kRead (!c.sup)
  if x.parked && inWindow a then .error none
  else if !c.sup && !boundsOk s x.arch.grant x.arch.csr a 128 kRead then .error (some eBounds)
  else match home a, home (a + 64) with
    | some p, some q => if poisoned s p || poisoned s q then .error (some eMem) else .ok (memBytes s p 64 ++ memBytes s q 64)
    | _, _ => .error (some ePage)

/-- The packet of an ENG.LAUNCH as it is submitted (R250): ADVICE is kept only where it is the hart's own, the root is the
hart's, and the priority is clamped to its ceiling. -/
def launchPacket (s : State) (h ch id : Nat) (x : Hart) (bs : List Byte) : Packet :=
  let adv := fieldAt bs 8 8
  let keep := decide (adv = 0) || decide (adv = (x.arch.rcsr cADVPTR).toNat)
  let bs' := if keep then bs else bs.take 8 ++ List.replicate 8 0 ++ bs.drop 16
  let d := x.arch.grant.base / 32
  { die := d, queue := 8, bytes := bs', prio := min (bits (fieldAt bs 26 2) 6 4) (bits (x.arch.rcsr cHSTATUS).toNat 6 4),
    ptroot := x.arch.rcsr cPTROOT, eng := some (h, ch, id), charac := none, since := s.now, advice := none }

/-- A LAUNCH reads its packet and submits it to lq8 of the hart's die (R250). -/
def State.startLaunch (s : State) (h ch : Nat) (x : Hart) (c : Cmd) : State :=
  match readPacket s x c with
  | .error none => s
  | .error (some k) => s.cmdFail h ch c.id 0 k
  | .ok bs =>
    let s := s.setRun h ch c.id (fun r => { r with sent := 1 })
    { s with disp := { s.disp with inner := s.disp.inner ++ [launchPacket s h ch c.id x bs] } }

/-- ENGINE_COMMAND_START (R241): the engine's next command starts, at most one in a ck; an operand error ends it, and a command without elements
completes at once (R237).  A 960-D reaches no other package and has no registrations (R4). -/
def execEngineCommandStart (e : Nat) (s : State) : Host.Outcome State Fault Refusal :=
  if fget 0 s.fab.started e = s.now + 1 then .next s
  else match nextStart s e with
  | none => .next s
  | some (h, ch) =>
    match s.hart h with
    | none => .next s
    | some x =>
      match x.chans[ch]?, x.startable ch with
      | some c, some k =>
        let run : Run := { cmd := k, applied := 0, sent := 0, asked := 0, early := [], due := [], writes := [], wdue := none, metas := [], gang := none }
        let y := x.setChan ch { c with waiting := c.waiting.drop 1, running := c.running ++ [run] }
        let s := s.setHart h { y with noProg := 0 }
        let s := { s with fab := { s.fab with engines := fset 63 s.fab.engines e ((c.ctx.map Prod.snd).getD 63)
                                              started := fset 0 s.fab.started e (s.now + 1) } }
        match k.operands with
        | some code => .next (s.cmdFail h ch k.id 0 code)
        | none =>
          if k.count = 0 && !k.raises then .next (s.cmdDone h ch k.id)
          else if s.bare && (k.remote || decide (k.fn = .sig)) then .next (s.cmdFail h ch k.id 0 eRemote)
          else if k.remote && s.fab.down.contains (xPkg k.xb1) then .next (s.cmdFail h ch k.id 0 eLink)
          else if k.fn = .launch && !s.ms.timed then .next (s.startLaunch h ch y k)
          else .next s
      | _, _ => .next s

/-! ### Applying elements (R243 to R249) -/

/-- The address of linear index `L` of a map, carrying across rows (R245). -/
def TensMap.place (t : TensMap) (L : Nat) : Option Nat :=
  let o := outerOff t.dims L
  if o.2 = 0 then some ((t.base + o.1) % 2 ^ 64) else none

/-- What an element's source is: bytes at an address, zeros, or nothing to copy. -/
inductive Source where
  | bytes (a n : Nat)
  | zeros (n : Nat)
  | skip
  | bad (code : Nat)
  | held
  deriving DecidableEq, Repr

/-- A read of `n` bytes by an engine for a hart; held where the hart is parked and the address is in its scratchpad
(R318). -/
def engRead (s : State) (x : Hart) (c : Cmd) (a n : Nat) : Except (Option Nat) (List Byte) :=
  if x.parked && inWindow a then .error none
  else match engAccess s x c.sup a n kRead with
    | .error k => .error (some k)
    | .ok h => .ok (memBytes s h n)

/-- The metadata byte of the group of element `i` of a structured-sparse TCOPY (R246): what was read for the group, else what stands there now.
An index outside the map reads as byte 0 (logged as assumption 76). -/
def Run.metaByte (s : State) (x : Hart) (r : Run) (i : Nat) : Except (Option Nat) Nat :=
  match ffind r.metas (i / 4) with
  | some b => .ok b
  | none =>
    match TensMap.ofBytes r.cmd.mmap with
    | none => .error (some eOperand)
    | some t => match t.place (r.cmd.xa1.toNat / 2 + i / 4) with
      | none => .ok 0
      | some a => (engRead s x r.cmd a 1).map leNat

/-- A command of structured-sparse expansion (R246). -/
def Cmd.sparse (c : Cmd) : Bool := decide (c.fn = .tcopy) && tSpx c.xb1

/-- The command once the metadata of element `i` has been read: each group's byte is read once (R246). -/
def Run.noteMeta (s : State) (x : Hart) (r : Run) (i : Nat) : Run :=
  if !r.cmd.sparse then r
  else match r.metaByte s x i with
    | .ok b => { r with metas := fins r.metas (i / 4) b }
    | .error _ => r

/-- Where an element of a map reads: an element out of range reads as zeros (R245; for SPX logged as assumption 77). -/
def TensMap.source (m : TensMap) (L : Nat) : Source :=
  match m.place L with
  | some a => if a % m.esize ≠ 0 then .bad eOperand else .bytes a m.esize
  | none => .zeros m.esize

/-- Where element `i` of a local command or of one that sends data reads (R244 to R248).  A compressed element that cannot be read ends the
command at the element that receives it (logged as assumption 78). -/
def Run.source (s : State) (x : Hart) (r : Run) (i : Nat) : Source :=
  let c := r.cmd
  match c.fn with
  | .tcopy =>
    match TensMap.ofBytes c.smap with
    | none => .bad eOperand
    | some m =>
      if !tSpx c.xb1 then m.source (c.xa1.toNat + i)
      else match r.metaByte s x i with
        | .error none => .held
        | .error (some k) => .bad k
        | .ok b =>
          let p0 := bits b 1 0
          let p1 := bits b 3 2
          if bits b 7 4 ≠ 0 ∨ p1 ≤ p0 then .bad eSparse
          else if i % 4 = p0 then m.source (c.xa1.toNat + 2 * (i / 4))
          else if i % 4 = p1 then m.source (c.xa1.toNat + 2 * (i / 4) + 1)
          else .zeros m.esize
  | .rgath =>
    match engRead s x c ((c.xb.toNat + 4 * i) % 2 ^ 64) 4 with
    | .error none => .held
    | .error (some k) => .bad k
    | .ok bs =>
      let n := leNat bs
      let w := bits c.xb1.toNat 63 32
      if n = 0xFFFF_FFFF then .skip else .bytes ((c.xa1.toNat + n * w) % 2 ^ 64) w
  | .rcopy => let w := (xType c.xb1).bytes; .bytes ((c.xa1.toNat + i * w) % 2 ^ 64) w
  | _ => .bytes ((c.xa1.toNat + i * c.esize) % 2 ^ 64) c.esize

/-- The size of the accesses that move an element: a row of an RGATH is moved in pieces (R247). -/
def Cmd.pieceSize (c : Cmd) (n : Nat) : Nat :=
  match c.fn with
  | .rgath => copySize c.xa.toNat c.xa1.toNat (bits c.xb1.toNat 63 32)
  | _ => max 1 n

/-- The bytes of a source, read piece by piece. -/
def readPieces (s : State) (x : Hart) (c : Cmd) (a z : Nat) : Nat → Except (Option Nat) (List Byte)
  | 0 => .ok []
  | k + 1 =>
    match engRead s x c (a % 2 ^ 64) z with
    | .error e => .error e
    | .ok bs => match readPieces s x c (a + z) z k with
      | .error e => .error e
      | .ok r => .ok (bs ++ r)

/-- The data of element `i` (R243): what was read ahead, else what stands there now; `.ok none` where nothing is copied. -/
def Run.data (s : State) (x : Hart) (r : Run) (i : Nat) : Except (Option Nat) (Option (List Byte)) :=
  match ffind r.early i with
  | some [] => .ok none
  | some bs => .ok (some bs)
  | none =>
    match r.source s x i with
    | .bytes a n => (readPieces s x r.cmd a (r.cmd.pieceSize n) (n / r.cmd.pieceSize n)).map some
    | .zeros n => .ok (some (List.replicate n 0))
    | .skip => .ok none
    | .bad k => .error (some k)
    | .held => .error none

/-- The home addresses of the pieces of a destination. -/
def writeHomes (s : State) (x : Hart) (c : Cmd) (a z : Nat) : Nat → Except (Option Nat) (List Nat)
  | 0 => .ok []
  | k + 1 =>
    let t := a % 2 ^ 64
    if x.parked && inWindow t then .error none
    else match engAccess s x c.sup t z kWrite with
      | .error e => .error (some e)
      | .ok h => match writeHomes s x c (a + z) z k with
        | .error e => .error e
        | .ok r => .ok (h :: r)

/-- Writes an element's bytes at an address, or holds it (R243, R275, R276, R318).  An element is read in one step and written in one step, and so is a
whole row of an RGATH (R247, R251, logged as assumption 93). -/
def State.engWrite (s : State) (x : Hart) (c : Cmd) (a : Nat) (bs : List Byte) : Except (Option Nat) State :=
  let z := c.pieceSize bs.length
  match writeHomes s x c a z (bs.length / z) with
  | .error e => .error e
  | .ok hs =>
    if hs.any (fun h => s.tokenHolds h z) then .error none
    else .ok (((List.range hs.length).zip hs).foldl (fun t e => t.agentWrite e.2 ((bs.drop (e.1 * z)).take z)) s)

/-- The bytes of a TCOPY's mask image (R245): bit i is 1 where source element i is out of range. -/
def maskImage (m : TensMap) (src n : Nat) : List Byte :=
  (List.range (ceilDiv n 8)).map (fun b => BitVec.ofNat 8 ((List.range 8).foldl (fun v k =>
    if b * 8 + k < n ∧ (m.place (src + b * 8 + k)).isNone then v + 2 ^ k else v) 0))

/-- Writes the mask image in the hart's scratchpad (R152, R245). -/
def State.writeImage (s : State) (x : Hart) (c : Cmd) (m : TensMap) : Except (Option Nat) State :=
  let bs := maskImage m c.xa1.toNat c.xb.toNat
  let off := tMoff c.xb1
  if x.parked then .error none
  else if x.arch.grant.scratch < off + bs.length then .error (some ePage)
  else if (List.range bs.length).any (fun i => s.tokenHolds (x.arch.grant.windowHome (off + i)) 1) then .error none
  else .ok (((List.range bs.length).zip bs).foldl (fun t e => t.agentWrite (x.arch.grant.windowHome (off + e.1)) [e.2]) s)

/-- Applies element `i` of a command inside the package (R243 to R249). -/
def State.applyLocal (s : State) (x : Hart) (r : Run) (i : Nat) : Except (Option Nat) State :=
  let c := r.cmd
  match c.fn with
  | .sig =>
    match s.regCheck (s.mg.pkg.pkgnum.toNat % 8192) c.xb.toNat 1 permSignal kRead with
    | none => .error (some eRemote)
    | some (_, reg, _) => match s.owner reg with
      | none => .error (some eRemote)
      | some k => .ok (s.raiseIc k (xIcn c.xb1) c.xa)
  | .rcopy =>
    match r.data s x i with
    | .error e => .error e
    | .ok none => .ok s
    | .ok (some bs) =>
      let w := (xType c.xb1).bytes
      let a := (c.xa.toNat + i * w) % 2 ^ 64
      if x.parked && inWindow a then .error none
      else match engAccess s x c.sup a w kReduce, xOp c.xb1 with
        | .error e, _ => .error (some e)
        | .ok h, some op =>
          if s.tokenHolds h w then .error none
          else .ok (s.agentReduce { home := h, ty := xType c.xb1, op := op, val := BitVec.ofNat 64 (leNat bs) })
        | .ok _, none => .error (some eOperand)
  | .tcopy =>
    match r.data s x i, TensMap.ofBytes c.smap, TensMap.ofBytes c.dmap with
    | .error e, _, _ => .error e
    | .ok (some bs), some sm, some dm =>
      let d := dm.place (c.xa.toNat + i)
      if (tSpx c.xb1 && d.any (fun a => !inWindow a)) || d.any (fun a => decide (a % dm.esize ≠ 0)) then .error (some eOperand)
      else
        -- the image is checked and written with the last element
        let last := tMimg c.xb1 && decide (i + 1 = c.count)
        let t := match d with | some a => s.engWrite x c a bs | none => .ok s
        match t with
        | .error e => .error e
        | .ok t => if last then (match s.writeImage x c sm with | .error e => .error e | .ok _ => t.writeImage x c sm) else .ok t
    | _, _, _ => .error (some eOperand)
  | .rgath =>
    match r.data s x i with
    | .error e => .error e
    | .ok none => .ok s
    | .ok (some bs) => s.engWrite x c (c.xa.toNat + i * bits c.xb1.toNat 63 32) bs
  | _ =>
    match r.data s x i with
    | .error e => .error e
    | .ok none => .ok s
    | .ok (some bs) => s.engWrite x c (c.xa.toNat + i * c.esize) bs

/-! ### Element requests (R241, R242) -/

/-- Where element `i` of a command is written inside the package: the address and the bytes. -/
def Cmd.target (c : Cmd) (i : Nat) : Option (Nat × Nat) :=
  match c.fn with
  | .tcopy => (TensMap.ofBytes c.dmap).bind (fun m => (m.place (c.xa.toNat + i)).map (fun a => (a, m.esize)))
  | .rgath => let w := bits c.xb1.toNat 63 32; some (c.xa.toNat + i * w, w)
  | .rcopy => let w := (xType c.xb1).bytes; if c.remote then none else some (c.xa.toNat + i * w, w)
  | .cpy => some (c.xa.toNat + i * c.esize, c.esize)
  | .get => some (c.xa.toNat + i * c.esize, c.esize)
  | .put => none
  | .sig => none
  | .launch => none

/-- Nothing is copied for element `i`, an inactive row: its destination is not accessed (R247). -/
def Run.skips (s : State) (x : Hart) (r : Run) (i : Nat) : Bool :=
  decide (r.cmd.fn = .rgath) && (match ffind r.early i with
    | some bs => bs.isEmpty
    | none => match r.source s x i with | .skip => true | _ => false)

/-- The granules of an access of an engine, piece by piece. -/
def Cmd.granules (s : State) (x : Hart) (c : Cmd) (a n kind : Nat) : List Nat :=
  let z := c.pieceSize n
  (List.range (n / z)).flatMap (fun k =>
    match homeOf s x.arch.grant (x.arch.rcsr cPTROOT) ((a + k * z) % 2 ^ 64) kind (!c.sup) with
    | some h => Sys2Proof.Machine.granules h z
    | none => [])

/-- The granules that element `i` reads in this package. -/
def Run.reads (s : State) (x : Hart) (r : Run) (i : Nat) : List Nat :=
  let c := r.cmd
  let first := match c.fn with
    | .rgath => c.granules s x (c.xb.toNat + 4 * i) 4 kRead
    | .tcopy => if c.sparse && decide (i % 4 = 0) then
        (match (TensMap.ofBytes c.mmap).bind (fun t => t.place (c.xa1.toNat / 2 + i / 4)) with
          | some a => c.granules s x a 1 kRead
          | none => [])
      else []
    | _ => []
  first ++ (if c.fn = .get ∨ c.fn = .sig then []
    else if c.fn = .launch then c.granules s x c.xa.toNat 128 kRead
    else match r.source s x i with
      | .bytes a n => c.granules s x a n kRead
      | _ => [])

/-- The granules that element `i` writes in this package, with those of the mask image where it is the last (R245). -/
def Run.stores (s : State) (x : Hart) (r : Run) (i : Nat) : List Nat :=
  let c := r.cmd
  (if r.skips s x i then [] else match c.target i with
    | some (a, n) => c.granules s x a n (if c.fn = .rcopy then kReduce else kWrite)
    | none => [])
  ++ (if decide (c.fn = .tcopy) && tMimg c.xb1 && decide (i + 1 = c.count) then
        (Sys2Proof.Machine.granules (tMoff c.xb1) (ceilDiv c.xb.toNat 8)).map (fun b => x.arch.grant.windowHome (64 * b) / 64)
      else [])

/-- Requests of class E for granules: each sets off from the engine's die (R339, R403). -/
def State.engDemands (s : State) (h : Nat) (c : Cmd) (e : Nat) (write : Bool) (dest : Sys2Proof.DataTo) (gs : List Nat) : State :=
  gs.foldl (fun s g => s.demand (e / 16 * 32) true
    { granule := g, cls := .e, write := write, hart := some h, chan := some c.ch, dest := dest, issued := s.now, hit := false }) s

/-- The started commands of an engine with requests that have not issued, each with its place in the round: context × 2^64 +
identifier. -/
def startedOn (s : State) (e : Nat) : List (Nat × Nat × Nat × Run) :=
  (List.range 64).flatMap (fun c => match boundTo s e c with
    | none => []
    | some (h, ch) => match (s.hart h).bind (·.chans[ch]?) with
      | none => []
      | some k => (k.running.filter (fun r => decide (r.asked < r.cmd.count) || !r.writes.isEmpty)).map (fun r => (c * 2 ^ 64 + r.cmd.id, h, ch, r)))

/-- The engine issues the requests of one element, for what it reads or for what it is about to write: those of the command after the one it served
last (R241). -/
def State.issueElem (s : State) (e : Nat) : State :=
  let l := startedOn s e
  let last := fget 0 s.fab.elems e
  match (match l.find? (fun q => decide (last < q.1)) with | some q => some q | none => l.head?) with
  | none => s
  | some (k, h, ch, r) =>
    match s.hart h with
    | none => s
    | some x =>
      let s := match r.writes with
        | [] =>
          let gs := r.reads s x r.asked
          (s.engDemands h r.cmd e false (.elem r.cmd.id r.asked) gs).setRun h ch r.cmd.id (fun q =>
            { q with asked := q.asked + 1, due := fset 0 q.due r.asked gs.length })
        | gs => (s.engDemands h r.cmd e true (.elem r.cmd.id r.applied) gs).setRun h ch r.cmd.id (fun q => { q with writes := [] })
      { s with fab := { s.fab with elems := fset 0 s.fab.elems e k } }

/-- A started command. -/
def State.runOf (s : State) (h ch id : Nat) : Option Run :=
  ((s.hart h).bind (·.chans[ch]?)).bind (fun c => c.running.find? (fun r => decide (r.cmd.id = id)))

/-- The engine issues requests in its round until a command is as a test says (R241). -/
def State.issueUntil (e h ch id : Nat) (p : Run → Bool) : Nat → State → State
  | 0, s => s
  | n + 1, s =>
    match s.runOf h ch id with
    | none => s
    | some r => if p r then s else State.issueUntil e h ch id p n (s.issueElem e)

/-- The requests of element `i` have issued.  Where no timing is kept there are none (logged as assumption 14). -/
def State.askElem (s : State) (e h ch id i : Nat) : State :=
  if !s.ms.timed then s
  else State.issueUntil e h ch id (fun r => decide (i < r.asked) && r.writes.isEmpty) ((i + 2) * (startedOn s e).length) s

/-- The data of element `i` is there (R403). -/
def Run.here (s : State) (r : Run) (i : Nat) : Bool := !s.ms.timed || decide (fget 0 r.due i = 0)

/-- Element `j` of a command waits for the scratchpad of its parked hart: it would read there, or write there (R318). -/
def Run.heldAt (s : State) (x : Hart) (r : Run) (j : Nat) : Bool :=
  x.parked && ((!r.skips s x j && (r.cmd.target j).any (fun t => inWindow t.1))
    || ((ffind r.early j).isNone && (match r.source s x j with | .bytes a _ => inWindow a | .held => true | _ => false)))

/-- An element below `i` waits for that, and the command's later elements with it (R318). -/
def Run.heldBefore (s : State) (x : Hart) (r : Run) (i : Nat) : Bool :=
  (List.range (i - r.applied)).any (fun k => r.heldAt s x (r.applied + k))

/-! ### Remote elements (R381, R382, R384) -/

/-- How a package is reached (R381, R382): 0 over the loopback path, 1 over UALink, 2 over Ultra Ethernet. -/
def State.link (s : State) (pkg : Nat) : Nat :=
  let base := bits s.mg.pkg.podcfg.toNat 12 0
  if pkg = s.mg.pkg.pkgnum.toNat % 8192 then 0
  else if base ≤ pkg ∧ pkg < base + bits s.mg.pkg.podcfg.toNat 41 29 then 1 else 2

/-- Bytes of an element of a remote command, and the address of element 0 at its destination. -/
def Cmd.remoteSize (c : Cmd) : Nat := match c.fn with | .rcopy => (xType c.xb1).bytes | .sig => 1 | _ => c.esize
def Cmd.remoteFirst (c : Cmd) : W64 := match c.fn with | .get => c.xa1 | .sig => c.xb | _ => c.xa

/-- The address of element `i` at its destination: one whose tag is not 0 is never sent (R384). -/
def Cmd.remoteAddr (c : Cmd) (i : Nat) : W64 := c.remoteFirst + BitVec.ofNat 64 (i * c.remoteSize)

/-- The message that carries element `i` of a remote command to its package (R381, R382, R384; its form is logged as assumption 20): the package
and the link to it, the sender's hart, context, identifier and index, the addresses of element 0 and of this one, XCTL, and the data. -/
def Cmd.message (c : Cmd) (link h : Nat) (ctx : Nat × Nat) (i : Nat) (data : W64) : List W64 :=
  [BitVec.ofNat 64 (xPkg c.xb1), BitVec.ofNat 64 link, BitVec.ofNat 64 h, BitVec.ofNat 64 (ctx.1 * 64 + ctx.2), BitVec.ofNat 64 c.id,
   BitVec.ofNat 64 i, c.remoteFirst, c.remoteAddr i, c.xb1, data]

/-- Element `i` as the loopback path carries it (R382). -/
def Cmd.elem (c : Cmd) (s : State) (h : Nat) (ctx : Nat × Nat) (i : Nat) (data : W64) : Sys2Proof.RemoteElem :=
  { pkg := s.mg.pkg.pkgnum.toNat % 8192, ctx := ctx.1 * 64 + ctx.2, life := h, seq := s.fab.carried, cmd := c.id, index := i,
    last := decide (i + 1 = max 1 c.count), first := c.remoteFirst, addr := c.remoteAddr i,
    bytes := if c.count = 0 then 0 else c.remoteSize,
    data := match c.fn with | .get => [] | .sig => leBytes 8 data.toNat | _ => leBytes c.remoteSize data.toNat,
    xctl := c.xb1 }

/-- Element `i` leaves for its package (R382). -/
def State.sendOff (s : State) (h ch : Nat) (ctx : Nat × Nat) (c : Cmd) (i : Nat) (data : W64) : State :=
  let kind := match c.fn with | .put => 16 | .get => 17 | .rcopy => 18 | _ => 19
  let t := s.setRun h ch c.id (fun r => { r with sent := i + 1 })
  match s.link (xPkg c.xb1) with
  | 0 => { t with fab := { t.fab with loop := t.fab.loop ++ [(c.fn, c.elem s h ctx i data)], carried := t.fab.carried + 1 } }
  | k => t.report (if c.count = 0 then 20 else kind) (c.message k h ctx i data)

/-- Sends element `i` of a remote command (R384): the source is read and checked here.  It waits behind an element that is held (R318). -/
def State.sendElem (s : State) (h ch : Nat) (x : Hart) (ctx : Nat × Nat) (r : Run) (i : Nat) : Except (Option Nat) State :=
  let c := r.cmd
  if c.count = 0 then .ok (s.sendOff h ch ctx c 0 0)
  else if r.heldBefore s x i then .error none
  else if bits (c.remoteAddr i).toNat 63 58 ≠ 0 then .error (some eOperand)
  else match c.fn with
    | .put => match r.data s x i with
      | .error e => .error e
      | .ok d => .ok (s.sendOff h ch ctx c i (BitVec.ofNat 64 (leNat (d.getD []))))
    | .rcopy => match r.data s x i with
      | .error e => .error e
      | .ok d => .ok (s.sendOff h ch ctx c i (BitVec.ofNat 64 (leNat (d.getD []))))
    | .sig => .ok (s.sendOff h ch ctx c i c.xa)
    | _ => .ok (s.sendOff h ch ctx c i 0)

/-- The running command of an identifier. -/
def Chan.run (c : Chan) (id : Nat) : Option Run := c.running.find? (fun r => decide (r.cmd.id = id))

/-- One more element of a command stands applied; the last completes it (R243, R251). -/
def State.advanceRun (s : State) (h ch id : Nat) (r : Run) : State :=
  if r.applied + 1 = r.cmd.count then s.cmdDone h ch id
  else (s.setRun h ch id (fun q => { q with applied := q.applied + 1, early := fdel q.early q.applied, wdue := none })).updHart h (fun y => { y with noProg := 0 })

/-- The writes of the next element wait: their requests have not come back (R403). -/
def Run.writing (s : State) (r : Run) : Bool := s.ms.timed && r.wdue.any (fun n => decide (n ≠ 0))

/-- The writes of the next element have their time: none is kept, there is none, or they have come back (R339, R403). -/
def Run.wrote (s : State) (r : Run) (gs : List Nat) : Bool := !s.ms.timed || gs.isEmpty || decide (r.wdue = some 0)

/-- The requests of the writes of the next element take their turn in the engine's round, with the data that it writes (R241, R339, R403). -/
def State.askWrites (s : State) (h ch e : Nat) (r : Run) (data : Option (List Byte)) (gs : List Nat) : State :=
  let u := s.setRun h ch r.cmd.id (fun q =>
    { q with writes := gs, wdue := some gs.length, early := match data with | some bs => fins q.early q.applied bs | none => q.early })
  State.issueUntil e h ch r.cmd.id (fun q => q.writes.isEmpty) ((startedOn u e).length + 1) u

/-- The next element of a local command is applied (R243): its group's metadata have been read.  Where timing is kept it stands applied once its writes
have had their time, with the data read for it before they set off (R403). -/
def State.applyNext (s : State) (h ch e : Nat) (x : Hart) (r : Run) : State :=
  let id := r.cmd.id
  let r := r.noteMeta s x r.applied
  let s := if r.cmd.sparse then s.setRun h ch id (fun q => { q with metas := r.metas }) else s
  if r.writing s then s
  else match s.applyLocal x r r.applied with
  | .error none => s
  | .error (some k) => s.cmdFail h ch id r.applied k
  | .ok t =>
    let gs := r.stores s x r.applied
    if r.wrote s gs then t.advanceRun h ch id r
    else s.askWrites h ch e r (match r.data s x r.applied with | .ok d => d | .error _ => none) gs

/-- The element of a GET whose data has come is written here, and stands applied once that write has had its time (R244, R276, R318, R403); none where
the write is held. -/
def State.landGet (s : State) (h ch : Nat) (x : Hart) (r : Run) (data : List Byte) : Option State :=
  let a := r.cmd.xa.toNat + r.applied * r.cmd.esize
  match s.engWrite x r.cmd a data with
  | .error none => none
  | .error (some k) => some (s.cmdFail h ch r.cmd.id r.applied k)
  | .ok t =>
    let gs := r.cmd.granules s x a r.cmd.esize kWrite
    if r.wrote s gs then some (t.advanceRun h ch r.cmd.id r)
    else some (s.askWrites h ch ((((x.chans[ch]?).bind (·.ctx)).map Prod.fst).getD 0) r (some data) gs)

/-- ENGINE_ELEMENT_APPLY (R243): the next element of a started command is applied, or sent to its package, once its requests have issued and its data is
there. -/
def execEngineElementApply (h ch id : Nat) (s : State) : Host.Outcome State Fault Refusal :=
  match (s.hart h).bind (·.chans[ch]?) with
  | none => .next s
  | some c =>
    match c.run id, c.ctx with
    | some r, some ctx =>
      let i := if r.cmd.remote then r.sent else r.applied
      let s := if i < r.cmd.count then s.askElem ctx.1 h ch id i else s
      match s.hart h, s.runOf h ch id with
      | some x, some r =>
        if !r.here s i then .next s
        else if r.cmd.fn = .launch then (if r.sent = 0 then .next (s.startLaunch h ch x r.cmd) else .next s)
        else if decide (r.cmd.fn = .get) && r.wdue.isSome && !r.writing s then
          .next ((s.landGet h ch x r ((ffind r.early r.applied).getD [])).getD s)
        else if r.cmd.remote then
          if max 1 r.cmd.count ≤ r.sent then .next s
          else match s.sendElem h ch x ctx r r.sent with
            | .error none => .next s
            | .error (some k) =>
              -- the destination applies what was sent before; the command then ends here
              if r.applied = r.sent then .next (s.cmdFail h ch id r.applied k) else .next s
            | .ok t => .next t
        else .next (s.applyNext h ch ctx.1 x r)
      | _, _ => .next s
    | _, _ => .next s

/-- An engine reads a source element ahead of the elements below it (R243, R244), but past none that is held (R318). -/
def State.engineRead (s : State) (h ch id i : Nat) : State :=
  match (s.hart h).bind (·.chans[ch]?) with
  | none => s
  | some c =>
    match c.run id with
    | none => s
    | some r =>
      if i < r.applied ∨ r.cmd.count ≤ i ∨ r.cmd.fn = .get ∨ r.cmd.fn = .sig ∨ r.cmd.fn = .launch then s
      else
        let s := s.askElem ((c.ctx.map Prod.fst).getD 0) h ch id i
        match s.hart h, s.runOf h ch id with
        | some x, some r =>
          if !r.here s i || r.heldBefore s x i then s
          else
            let r := r.noteMeta s x i
            match r.data s x i with
            | .ok d => s.setRun h ch id (fun q => { q with early := fins q.early i (d.getD []), metas := r.metas })
            | .error _ => s.setRun h ch id (fun q => { q with metas := r.metas })
        | _, _ => s

/-- What an acknowledgement tells a started remote command (R251, R388): how many elements stand applied, an error, or the data a GET read,
which is then written here, and once only.  It speaks of elements that have been sent.  None while it must wait: where that write is held (R276, R318), for the data of
lower elements of a GET, and an error of a GET for the data of every element that its destination has read (R243). -/
def State.acknowledged (s : State) (h ch : Nat) (x : Hart) (r : Run) (ack : Sys2Proof.RemoteAck) : Option State :=
  let id := r.cmd.id
  if r.sent = 0 ∨ r.sent < ack.applied then some s
  else if r.cmd.fn = .get then
    if ack.code ≠ 0 then (if r.applied < ack.applied then none else some (s.cmdFail h ch id r.applied ack.code))
    else if ack.applied ≤ r.applied ∨ ack.data.length ≠ r.cmd.esize then some s
    else if r.applied + 1 < ack.applied then none
    else if r.wdue.isSome then some s
    else s.landGet h ch x r ack.data
  else if ack.code ≠ 0 then some (s.cmdFail h ch id (max r.applied ack.applied) ack.code)
  else if ack.applied = r.cmd.count ∧ max 1 r.cmd.count ≤ r.sent then some (s.cmdDone h ch id)
  else if r.applied < ack.applied ∧ ack.applied < r.cmd.count then
    some ((s.setRun h ch id (fun q => { q with applied := ack.applied })).updHart h (fun y => { y with noProg := 0 }))
  else some s

/-- What an acknowledgement on the loopback path leads to, and it is gone; none while it waits there.  One whose command has ended leads to nothing
(R243, R252, R382). -/
def State.ackTaken (s : State) (q : Nat × Nat × Nat × Sys2Proof.RemoteAck) : Option State :=
  let t : State := { s with fab := { s.fab with acks := s.fab.acks.erase q } }
  match s.hart q.1, s.runOf q.1 q.2.1 q.2.2.1 with
  | some x, some r => if r.cmd.remote && decide (s.link (xPkg r.cmd.xb1) = 0) then t.acknowledged q.1 q.2.1 x r q.2.2.2 else some t
  | _, _ => some t

/-- REMOTE_ACKNOWLEDGE (R251, R382, R388): the destination reports how many elements stand applied, an error, or the data a GET read.  What
the loopback path reports is what this package has sent back over it. -/
def execRemoteAcknowledge (h ch id : Nat) (ack : Sys2Proof.RemoteAck) (s : State) : Host.Outcome State Fault Refusal :=
  if s.fab.acks.contains (h, ch, id, ack) then .next ((s.ackTaken (h, ch, id, ack)).getD s)
  else match s.hart h, s.runOf h ch id with
    | some x, some r =>
      if r.cmd.remote && decide (s.link (xPkg r.cmd.xb1) ≠ 0) then .next ((s.acknowledged h ch x r ack).getD s) else .next s
    | _, _ => .next s

end Sys2Proof.Machine
end

