-- ==== Sys2Proof/Machine/Sync.lean ====
section
/-! DEFINITION. Synchronising instructions (R150, R254 to R260), what ends their waits, and the QDEAD limit (R338). -/

namespace Sys2Proof.Machine

/-! ### Waits -/

/-- Delivers the error of a channel (R256): ENGERR lands at the start of the sheaf that the TLWAIT at `pc` would have opened. -/
def State.deliverError (s : State) (h ch : Nat) (pc : W64) (c : Chan) (e : ChanErr) : State :=
  let s := s.updHart h (fun x => { x.setChan ch
    (c.dropErr (x.tid ch)) with wait := .none })
  s.landTrap h { cause := 0x0F, kind := 0, tpc := pc, telem := BitVec.ofNat 64 e.applied, tlane := BitVec.ofNat 64 (ch * 256 + e.code),
                 tval := BitVec.ofNat 64 e.id, seq := 0, opener := false } false

/-- The wait of a SYNC.TLWAIT ends where its sheaf has committed and its counter is reached, or an error is delivered, unless a pre-emption lands first
(R255, R265). -/
def State.resumeTl (s : State) (h : Nat) : State :=
  match s.hart h with
  | none => s
  | some x =>
    if x.parked || !x.drained then s
    else match x.wait with
      | .tlwait ch v pc =>
        match x.chans[ch]? with
        | none => s
        | some c =>
          match c.err with
          | some e => if s.areaFree h x.arch 0x300 && !x.preempted then s.deliverError h ch pc c e else s
          | none => if v.toNat ≤ c.tl then s.setHart h { x with wait := .none, blocked := false, noProg := 0 } else s
      | .icwait n v _ =>
        if v.toNat ≤ (fget 0 x.ic n).toNat then s.setHart h { x with wait := .none, blocked := false, noProg := 0 } else s
      | _ => s

/-- A hart waiting in SYNC.GBAR whose sheaf has committed arrives once (R258); a restored one whose generation has passed goes
on (R261). -/
def State.arrive (s : State) (h : Nat) : State :=
  match s.hart h with
  | none => s
  | some x =>
    if x.parked || !x.drained then s
    else match x.wait with
      | .gbar gen true =>
        match ffind s.gangs x.gang with
        | some q => if q.gen = gen then s else s.setHart h { x with wait := .none, blocked := false }
        | none => s
      | .gbar _ false =>
        match ffind s.gangs x.gang with
        | some q =>
          let s := { s with gangs := fins s.gangs x.gang { q with arrived := h :: q.arrived } }
          (s.setHart h { x with wait := .gbar q.gen true }).releaseBarrier x.gang
        | none => s
      | _ => s

/-- The queues that a SYNC.QDRAIN names are drained (R259); the EQ is once every older sheaf has committed or has no command, for commands issue
at the commit (R239). -/
def Hart.qdrained (x : Hart) (q : Nat) : Bool :=
  (!bit q 0 || decide (x.taken .viq = 0)) && (!bit q 1 || decide (x.taken .mq = 0))
  && (!bit q 2 || (x.sheaves.drop x.front).dropLast.all (fun sh => sh.cmds.isEmpty))
  && (!bit q 3 || x.bq.all (fun b => b.here))

/-- The wait of a SYNC.QDRAIN ends: the instruction is complete, and the BQ entries it waited for are free (R259). -/
def State.finishDrain (s : State) (h : Nat) : State :=
  match s.hart h with
  | none => s
  | some x =>
    match x.wait with
    | .qdrain q =>
      if x.qdrained q then
        let y := match x.cur with | some sh => x.setCur { sh with seq := sh.seq + 1 } | none => x
        s.setHart h { y with wait := .none, arch := x.arch.next, blocked := false, bq := if bit q 3 then [] else x.bq }
      else s
    | _ => s

/-! ### The instructions -/

/-- An instruction that ends its sheaf and then waits (R255, R258, R260): the next sheaf opens at the following instruction. -/
def syncOp (s : State) (rs : List Nat) (beyond : Hart → Option W64) (w : Hart → Wait) (next : State → Nat → State) :
    Host.Outcome State Fault Refusal :=
  withHart s rs (fun h x =>
    match beyond x with
    | some v => s.raiseAt h x 0x0A 0 v
    | none =>
      match x.endSheaf with
      | none => (s.setHart h x).stall h [] false
      | some y => next (((s.setHart h { y with wait := w x, arch := x.arch.next }).tick 1).settle h) h)

/-- SYNC.TLWAIT on a channel (R255). -/
def execSyncTlwait (a : BitVec 5) (k : BitVec 3) (s : State) : Host.Outcome State Fault Refusal :=
  syncOp s [a.toNat]
    (fun x => if (x.arch.rcsr (cTID + k.toNat)).toNat < (x.arch.rx a.toNat).toNat then some (x.arch.rx a.toNat) else none)
    (fun x => .tlwait k.toNat (x.arch.rx a.toNat) x.arch.pc) (fun t h => t.resumeTl h)

/-- SYNC.TLWAIT on an inbound counter (R255); on a 960-D no value above 0 can be waited for (R4). -/
def execSyncTlwaitIc (a : BitVec 5) (b : BitVec 5) (s : State) : Host.Outcome State Fault Refusal :=
  syncOp s [a.toNat, b.toNat] (fun x => if s.bare ∧ x.arch.rx a.toNat ≠ 0 then some (x.arch.rx a.toNat) else none)
    (fun x => .icwait ((x.arch.rx b.toNat).toNat % 64) (x.arch.rx a.toNat) x.arch.pc) (fun t h => t.resumeTl h)

/-- SYNC.TLREAD of a channel (R257). -/
def execSyncTlread (d : BitVec 5) (k : BitVec 3) (s : State) : Host.Outcome State Fault Refusal :=
  withHart s [d.toNat] (fun h x =>
    s.retire h (x.withArch (x.arch.wx d.toNat (BitVec.ofNat 64 ((x.chans[k.toNat]?.map (·.tl)).getD 0))).next))

/-- SYNC.TLREAD of an inbound counter (R254, R257). -/
def execSyncTlreadIc (d : BitVec 5) (b : BitVec 5) (s : State) : Host.Outcome State Fault Refusal :=
  withHart s [d.toNat, b.toNat] (fun h x =>
    s.retire h (x.withArch (x.arch.wx d.toNat (fget 0 x.ic ((x.arch.rx b.toNat).toNat % 64))).next))

/-- SYNC.GBAR (R258). -/
def execSyncGbar (s : State) : Host.Outcome State Fault Refusal :=
  syncOp s [] (fun _ => none) (fun _ => .gbar 0 false) (fun t h => t.arrive h)

/-- SYNC.QDRAIN (R259): not a sheaf boundary. -/
def execSyncQdrain (q : BitVec 4) (s : State) : Host.Outcome State Fault Refusal :=
  withHart s [] (fun h x =>
    ((s.setHart h { x with wait := .qdrain q.toNat, blocked := true, onLoad := [], noProg := 0 }).tick 1).finishDrain h)

/-- SYNC.SHEAF (R260). -/
def execSyncSheaf (s : State) : Host.Outcome State Fault Refusal :=
  syncOp s [] (fun _ => none) (fun _ => .none) (fun t _ => t)

/-- SYNC.BTINV (R150): it waits for the sheaves before its own, and empties the block-table cache. -/
def execSyncBtinv (s : State) : Host.Outcome State Fault Refusal :=
  withHart s [] (fun h x =>
    if x.front + 1 < x.sheaves.length then (s.setHart h x).stall h [] false
    else s.retire h { x.withArch x.arch.next with btcache := [] })

/-! ### What ends waits -/

/-- TLWAIT_RESUME (R255). -/
def execTlwaitResume (h : Nat) (s : State) : Host.Outcome State Fault Refusal := .next (s.resumeTl h)

/-- BARRIER_RELEASE (R258): harts of the gang that wait and have not arrived arrive, and the barrier releases where all
have. -/
def execBarrierRelease (g : Nat) (s : State) : Host.Outcome State Fault Refusal :=
  match ffind s.gangs g with
  | none => .next s
  | some q => .next ((q.live.foldl (fun s h => s.arrive h) s).releaseBarrier g)

/-- QDRAIN_DONE (R259). -/
def execQdrainDone (h : Nat) (s : State) : Host.Outcome State Fault Refusal := .next (s.finishDrain h)

/-- WFI_WAKE (R140): 65,536 ck have passed; the other events wake the hart themselves. -/
def execWfiWake (h : Nat) (s : State) : Host.Outcome State Fault Refusal :=
  match s.hart h with
  | none => .next s
  | some x => match x.wait with
    | .wfi t => if t ≤ s.now ∨ x.preempt ≠ 0 then .next (s.setHart h x.wake) else .next s
    | _ => .next s

/-- The stalled agents that QDEAD reports (R308). -/
def Hart.stalled (x : Hart) : W64 :=
  BitVec.ofNat 64 ((if QUnit.viq.size ≤ x.taken .viq then 1 else 0) + (if QUnit.mq.size ≤ x.taken .mq then 2 else 0)
    + (if 16 ≤ x.eqUsed then 4 else 0) + (if 16 ≤ x.bq.length then 8 else 0)
    + (match x.wait with | .tlwait .. => 16 | .none => 0 | _ => 0))

/-- The identifiers that a wait needs, by channel, once those behind an AFTER condition of a needed command are among them (R25). -/
def Hart.needMore (x : Hart) (need : FMap Nat) : FMap Nat :=
  x.chans.foldl (fun n c => c.waiting.foldl (fun n k => match k.after with
    | some (j, v) => if k.id ≤ fget 0 n k.ch then fset 0 n j (max (fget 0 n j) v.toNat) else n
    | none => n) n) need

/-- A wait for identifier `v` of channel `ch` needs, directly or through AFTER, a command that the hart has not caused to be issued (R25; what else never
completes is no such wait, logged as assumption 92). -/
def Hart.unissued (x : Hart) (ch v : Nat) : Bool :=
  let n := (x.chans.flatMap (·.waiting)).length + 1
  let need := (List.range n).foldl (fun m _ => x.needMore m) (fset 0 [] ch v)
  need.any (fun e => decide (x.tid e.1 < e.2))

/-- The hart breaks a limit of R25: it would hold more BQ results than the BQ does, or waits for a command that has not been issued. -/
def Hart.breaksLimit (x : Hart) : Bool :=
  match x.wait with
  | .none => x.blocked && x.overBq
  | .tlwait ch v _ => x.unissued ch v.toNat
  | _ => false

/-- QDEAD_TIMEOUT (R25, R338): 2^20 ck without progress under a full queue or in a wait on the hart's own channel, where a limit is broken, but not while the hart
is parked, in a HOLD stop too (R321).  A stalled strip-opening instruction traps as one (R147). -/
def execQdeadTimeout (h : Nat) (s : State) : Host.Outcome State Fault Refusal :=
  match s.hart h with
  | none => .next s
  | some x =>
    if !x.dead s.now || !x.breaksLimit || x.parked || x.held.isSome || decide (x.preempt ≠ 0) then .next s
    else
      let pc := match x.wait with | .tlwait _ _ pc => pc | _ => x.arch.pc
      let t := { plainTrap 0x0B 0 pc x.stalled x.seqNow with opener := x.atOpener && decide (x.wait = .none) }
      match x.openSheaf with
      | some _ => .next (s.raise h { x with noProg := 0 } t)
      | none => if x.sheaves.isEmpty then .next ((s.setHart h { x with noProg := 0, wait := .none }).landTrap h t false) else .next s

end Sys2Proof.Machine
end

