-- ==== Sys2Proof/Machine/Commit.lean ====
section
/-! DEFINITION. The events by which queued work completes, sheaves commit, traps land and harts end (R22, R129, R138, R271, R275,
R276, R309, R311, R321, R401). -/

namespace Sys2Proof.Machine

/-- COMMIT_SLICE_ACQUIRE (R271): a ready sheaf asks for the slice of its next home die, and takes it where it is free and its
turn. -/
def execCommitSliceAcquire (h : Nat) (s : State) : Host.Outcome State Fault Refusal :=
  match s.hart h with
  | none => .next s
  | some x =>
    match x.sheaves[x.front]? with
    | none => .next s
    | some sh =>
      if !x.commitReady then .next s
      else if s.tokenBlocks h sh then .next { s with arb := s.arb.dropSlices h }
      else match s.slicesWanted h sh with
        | [] => .next s
        | d :: _ => .next { s with arb := s.arb.takeSlice d h }

/-- SHEAF_COMMIT (R271): a ready sheaf that holds its slices commits. -/
def execSheafCommit (h : Nat) (s : State) : Host.Outcome State Fault Refusal :=
  match s.hart h with
  | none => .next s
  | some x =>
    match x.sheaves[x.front]? with
    | none => .next s
    | some sh =>
      if !x.commitReady then .next s
      else if s.tokenBlocks h sh then .next { s with arb := s.arb.dropSlices h }
      else if (s.slicesWanted h sh).isEmpty then .next (s.commit h) else .next s

/-- SOLO_TOKEN_GRANT (R276). -/
def execSoloTokenGrant (s : State) : Host.Outcome State Fault Refusal := .next { s with arb := s.arb.grantToken }

/-- TRAP_LANDING (R309, R311): the held trap that is ready, or that of an ECALL or EBREAK. -/
def execTrapLanding (h : Nat) (s : State) : Host.Outcome State Fault Refusal :=
  match s.hart h with
  | none => .next s
  | some x => match x.landReady with
    | some _ => .next (s.tryLand h)
    | none => .next (s.splitTrap h)

/-- HOLD_STOP (R321). -/
def execHoldStop (h : Nat) (s : State) : Host.Outcome State Fault Refusal :=
  match s.hart h with
  | none => .next s
  | some x => if x.parkReady then .next (s.park h) else .next s

/-- LOAD_DATA_DELIVERY (R129): the oldest outstanding load's data arrives.  Where timing is kept it comes when its request has been served
(R363). -/
def execLoadDataDelivery (h : Nat) (s : State) : Host.Outcome State Fault Refusal :=
  if s.ms.timed then .next s
  else .next (s.updHart h (fun x => x.arrived x.pend.dropLast))

/-- QUEUED_INSTRUCTION_COMPLETION (R22): the ck in which it issues passes. -/
def execQueuedInstructionCompletion (h : Nat) (s : State) : Host.Outcome State Fault Refusal := .next ((s.completeHead h).tick 1)

/-- INSTRUCTION_FETCH_RETURN (R401): a stalled scalar side goes on, unless it waits for load data (R129). -/
def execInstructionFetchReturn (h : Nat) (s : State) : Host.Outcome State Fault Refusal :=
  .next (s.updHart h (fun x => { x with blocked := x.blocked && !x.onLoad.isEmpty }))

/-- The runtime serves ECALL service 0 (R138): the hart is in the supervisor after an ECALL with a0 = 0. -/
def Hart.ending (x : Hart) : Bool :=
  match x.landing with
  | none => false
  | some l => decide (bits (x.arch.rcsr cTCAUSE).toNat 7 0 = 0x0C) && decide (l.arch.rx 10 = 0)

/-- HART_END (R138): undelivered errors are reported, and once every command of the hart has completed or been discarded the
hart ends and its grant is free; so is that of a hart that has ended at once (R312). -/
def execHartEnd (h : Nat) (s : State) : Host.Outcome State Fault Refusal :=
  match s.hart h with
  | none => .next s
  | some x =>
    if !x.ending && !x.gone then .next s
    else
      let t := s.reportErrors h x
      match t.hart h with
      | none => .next t
      | some y =>
        if y.commands then .next t
        else if y.gone then .next { t with harts := fdel t.harts h }
        else .next ((t.report 4 [BitVec.ofNat 64 h]).endHart h true)

/-- Whether `n` bytes at a physical address are memory of the package (R342). -/
def physOk (s : State) (pa n : Nat) : Bool :=
  decide (pa + n ≤ Config.hbmBytes s.bare)
  || (match granaryDie s pa with
      | some d => decide ((pa - 0x8_0000_0000_0000) % 0x1000_0000 + n ≤ granarySize s d)
      | none => false)

/-- SYSTEM_CORE_WRITE (R275): held while the solo token protects what it would write (R276). -/
def execSystemCoreWrite (pa : Nat) (bytes : List (BitVec 8)) (s : State) : Host.Outcome State Fault Refusal :=
  if !physOk s pa bytes.length || s.tokenHolds pa bytes.length then .next s else .next (s.agentWrite pa bytes)

end Sys2Proof.Machine
end

