-- ==== Sys2Proof/Machine/LineStore.lean ====
section
/-! DEFINITION. The granary line store (R348 to R351) and the windows and classes that advice gives it (R296). -/

namespace Sys2Proof.Machine

/-- Slots of a granary bank that are line store: 12 − AB (R348, R350). -/
def lineUnits (s : State) (d : Nat) : Nat := match s.disp.dieRegs[d]? with | some r => 12 - r.ab | none => 0

/-- A granule of HBM4E (R342). -/
def isHbm (s : State) (g : Nat) : Bool := decide (g * 64 < Config.hbmBytes s.bare)

/-- Where the line store may hold a granule: die, bank and set (R350). -/
def lineSet (s : State) (g : Nat) : Nat × Nat × Nat :=
  let d := homeDie s (g * 64)
  (d, g % 256, g / 256 % (lineUnits s d * 64))

/-- The lines a hart may own on a die: one eighth of its line store (R296). -/
def lineLimit (s : State) (d : Nat) : Nat := lineUnits s d * 1024 * 256 / 8

/-- The lines a hart owns on a die. -/
def linesOwned (s : State) (h d : Nat) : Nat :=
  (s.ms.lines.filter (fun e => match e.2 with
    | some l => decide (l.owner = some h) && decide (homeDie s (e.1 * 64) = d)
    | none => false)).length

/-- A hart has reached its limit on a granule's die. -/
def atLimit (s : State) (h g : Nat) : Bool := decide (lineLimit s (homeDie s (g * 64)) ≤ linesOwned s h (homeDie s (g * 64)))

/-- The line that a class and a hart give: class 1 at the limit (R296). -/
def lineFor (s : State) (h : Option Nat) (g cls : Nat) : Line :=
  match h with
  | none => { cls := cls, owner := none, used := s.now }
  | some k =>
    if cls < 2 then { cls := cls, owner := none, used := s.now }
    else if atLimit s k g then { cls := 1, owner := none, used := s.now }
    else { cls := cls, owner := some k, used := s.now }

/-- The victim of a full set: the least recently used line of the lowest class present (R350). -/
def victim : List (Nat × Line) → Option Nat
  | [] => none
  | (g, l) :: r =>
    match victim r with
    | none => some g
    | some k => match r.find? (fun e => decide (e.1 = k)) with
      | none => some g
      | some (_, m) => if l.cls < m.cls ∨ (l.cls = m.cls ∧ l.used ≤ m.used) then some g else some k

/-- The lines of a granule's set. -/
def setLines (s : State) (g : Nat) : List (Nat × Line) :=
  s.ms.lines.filterMap (fun e => match e.2 with
    | some l => if lineSet s e.1 = lineSet s g then some (e.1, l) else none
    | none => none)

/-- Fills the line of an HBM4E granule, evicting where its set is full; a granule already there is only used (R294,
R350). -/
def State.fillLine (s : State) (g cls : Nat) (owner : Option Nat) : State :=
  if !isHbm s g || decide (lineUnits s (homeDie s (g * 64)) = 0) || poisoned s (g * 64) then s
  else
    match fget none s.ms.lines g with
    | some l => { s with ms := { s.ms with lines := fset none s.ms.lines g (some { l with used := s.now }) } }
    | none =>
      -- the victim goes before the limit is judged
      let ls := setLines s g
      let kept := if ls.length < 16 then s.ms.lines
        else match victim ls with | some v => fdel s.ms.lines v | none => s.ms.lines
      let t := { s with ms := { s.ms with lines := kept } }
      { t with ms := { t.ms with lines := fset none t.ms.lines g (some (lineFor t owner g cls)) } }

/-- A read that fills nothing uses a present line (R350). -/
def State.touchLine (s : State) (g : Nat) : State :=
  match fget none s.ms.lines g with
  | some l => { s with ms := { s.ms with lines := fset none s.ms.lines g (some { l with used := s.now }) } }
  | none => s

/-- Gives a present line a class (R296). -/
def State.classLine (s : State) (h g cls : Nat) : State :=
  match fget none s.ms.lines g with
  | some l =>
    let t := { s with ms := { s.ms with lines := fdel s.ms.lines g } }
    { s with ms := { s.ms with lines := fset none s.ms.lines g (some { lineFor t (some h) g cls with used := l.used }) } }
  | none => s

/-! ### Ranges of an action (R293) -/

/-- A piece of a range: its address and length. -/
structure Piece where
  va  : Nat
  len : Nat
  deriving DecidableEq, Repr

/-- The size of the block that holds an address: its page, or 64 KiB where nothing translates it. -/
def blockSize (s : State) (g : Grant) (root : W64) (a : Nat) : Nat :=
  let t := a % 2 ^ 58
  if bits t 57 56 = 3 then 65536 else match leafFor s g.base root t with | some (_, n) => n | none => 65536

/-- The pieces of the range from `a`, `n` bytes long (R293). -/
def pieces (s : State) (g : Grant) (root : W64) : Nat → Nat → Nat → List Piece
  | 0, _, _ => []
  | k + 1, a, n =>
    if n = 0 then []
    else
      let sz := blockSize s g root a
      let m := min n (sz - a % sz)
      { va := a, len := m } :: pieces s g root k (a + m) (n - m)

/-- The home address of a piece that survives its checks (R293, R358). -/
def pieceHome (s : State) (g : Grant) (csr : FMap W64) (p : Piece) : Option Nat :=
  if bits p.va 57 56 = 3 then none
  else if !boundsOk s g csr p.va p.len kRead then none
  else match homeOf s g (fget 0 csr cPTROOT) p.va kRead true with
    | none => none
    | some h =>
      if s.ms.bad.any (fun r => decide (h / 65536 ≤ r.1) && decide (r.1 ≤ (h + p.len - 1) / 65536)) then none
      else some h

/-- A length cut to 2^24 and at the end of the address space: the length, and the cuts (R293). -/
def cutRange (b n : Nat) : Nat × Nat :=
  let m := min n (2 ^ 24)
  let k := min m (2 ^ 64 - b)
  (k, (if m < n then 1 else 0) + (if k < m then 1 else 0))

/-- The class that a hart's placement windows give a granule, the newest window first (R296). -/
def windowClass (s : State) (x : Hart) (g : Nat) : Option Nat :=
  match x.adv with
  | none => none
  | some a => a.windows.reverse.findSome? (fun w =>
      if (pieces s x.arch.grant (x.arch.rcsr cPTROOT) 600 w.base w.len).any (fun p =>
        match pieceHome s x.arch.grant x.arch.csr p with
        | some h => decide (h / 64 ≤ g) && decide (g ≤ (h + p.len - 1) / 64)
        | none => false) then some w.cls else none)

/-- The class and the hart that the placement windows give a granule (R296, R350): the windows of hart `h`, and else of
the lowest-numbered hart that has one there (logged as assumption 94). -/
def State.placed (s : State) (h g : Nat) : Option (Nat × Nat) :=
  let of (k : Nat) (x : Hart) : Option (Nat × Nat) := (windowClass s x g).map (fun c => (c, k))
  match (s.hart h).bind (of h) with
  | some r => some r
  | none => s.harts.findSome? (fun e => of e.1 e.2)

/-- The fill of a hart's read or of an advice prefetch (R296, R350). -/
def State.fillFor (s : State) (h g : Nat) : State :=
  match s.placed h g with
  | some (c, k) => s.fillLine g c (some k)
  | none => s.fillLine g 1 none

end Sys2Proof.Machine
end

