-- ==== Sys2Proof/Machine/Memory.lean ====
section
/-! DEFINITION. The memory system: budgets, refresh and retry (R339 to R341, R352 to R356), the line store's fills (R350), errors
and retirement (R357 to R361), page allocation (R344) and the granary split (R348). -/

namespace Sys2Proof.Machine

/-! ### Controllers (R341) -/

/-- A controller at Noon (R352): tick 0 falls at a phase that the manual leaves open. -/
def Ctl.fresh (c : Nat) : Ctl :=
  { period := 0, tick := 0, due := if c < 1024 then Config.refreshPhase c % 586 else 0, owed := [], busy := [], arrival := [], waiting := [],
    use := List.replicate 6 0, granted := 0, scrubs := 0, rescrub := 0 }

/-- A controller of the package. -/
def State.ctl (s : State) (c : Nat) : Ctl := (fget none s.ms.ctls c).getD (Ctl.fresh c)
def State.setCtl (s : State) (c : Nat) (k : Ctl) : State := { s with ms := { s.ms with ctls := fset none s.ms.ctls c (some k) } }

/-- The controller exists on the part (R1, R3). -/
def ctlExists (s : State) (c : Nat) : Bool :=
  decide (c < Config.pseudoChannels s.bare) || (decide (1024 ≤ c) && decide (c - 1024 < Config.banks s.bare))

/-- The die of a controller. -/
def ctlDie (c : Nat) : Nat := if c < 1024 then c / 192 else (c - 1024) / 256

/-- Slots of a period (R341). -/
def periodSlots (c : Nat) : Nat := if c < 1024 then 896 else 4096

/-- The place of a class among the budget registers (R340). -/
def budIndex : Sys2Proof.BudClass → Nat
  | .d => 0 | .e => 1 | .a => 2 | .m => 3 | .t => 4 | .x => 5

/-- The fixed order of the classes within a step (R341). -/
def budOrder : List Sys2Proof.BudClass := [.m, .d, .x, .e, .t, .a]

/-- The budget registers that the controllers of a die apply in a ck: a change applies from the period after the one in which it was
accepted (R340). -/
def DieRegs.inForce (r : DieRegs) (now : Nat) : List W64 := if r.budAt < now / 4096 then r.budNext else r.budget

/-- The budget register of a class in force on a die. -/
def State.budget (s : State) (d : Nat) (k : Sys2Proof.BudClass) : Nat :=
  match s.disp.dieRegs[d]? with
  | some r => (((r.inForce s.now)[budIndex k]?).getD 0).toNat
  | none => 0

/-- A controller in a ck: its counts are those of the ck's period (R341). -/
def Ctl.at (k : Ctl) (now : Nat) : Ctl := if k.period < now / 4096 then { k with period := now / 4096, use := List.replicate 6 0 } else k

/-- The slots a class has used in the period, and the total. -/
def Ctl.used (c : Ctl) (k : Sys2Proof.BudClass) : Nat := (c.use[budIndex k]?).getD 0
def Ctl.total (c : Ctl) : Nat := c.use.foldl (· + ·) 0
def Ctl.charge (c : Ctl) (k : Sys2Proof.BudClass) (n : Nat) : Ctl := { c with use := c.use.set (budIndex k) (c.used k + n) }

/-- The class that the list of R341 grants, of those that wait. -/
def State.eligible (s : State) (c : Nat) (k : Ctl) (waits : Sys2Proof.BudClass → Bool) : Option Sys2Proof.BudClass :=
  let n := periodSlots c
  let d := ctlDie c
  let w := budOrder.filter waits
  match w.find? (fun b => decide (k.used b * 64 < bits (s.budget d b) 6 0 * n)) with
  | some b => some b
  | none => match w.find? (fun b => decide (k.used b * 64 < bits (s.budget d b) 14 8 * n)) with
    | some b => some b
    | none => w.find? (fun b => decide (b ≠ .a))

/-- The ck in which the refresh of a bank ends, while it lasts (R353). -/
def Ctl.refreshing (c : Ctl) (now bank : Nat) : Option Nat := (c.busy.find? (fun b => decide (b.1 = bank) && decide (now < b.2))).map Prod.snd

/-- Requests of a class that could be granted now, the oldest first (R355). -/
def Ctl.ready (c : Ctl) (now : Nat) (k : Sys2Proof.BudClass) : List (Nat × Nat × Sys2Proof.MemReq) :=
  c.waiting.filter (fun w => decide (w.2.2.cls = k) && decide (w.1 ≤ now) && (c.refreshing now w.2.1).isNone)

/-- A per-bank refresh is refused in the tick's ck (R341). -/
def State.refused (s : State) (c : Nat) (k : Ctl) : Bool :=
  decide (periodSlots c ≤ k.total)
  || decide (s.eligible c k (fun b => decide (b = .m) || !(k.ready s.now b).isEmpty) ≠ some .m)

/-- A bank group is busy at a tick (R354, R364). -/
def Ctl.groupBusy (c : Ctl) (now bank : Nat) : Bool :=
  c.arrival.any (fun a => decide (a.1 = bank / 4) && decide (a.2 < now) && decide (now ≤ a.2 + 1024))

/-- What the memory system does in ck `t`. -/
def State.atCk (s : State) (t : Nat) (f : State → State) : State := { f { s with now := t } with now := s.now }

/-! ### Refresh (R352 to R356) -/

/-- A per-bank refresh starts (R353): eight slots of class M. -/
def Ctl.refreshBank (c : Ctl) (now bank : Nat) : Ctl :=
  { c.charge .m 8 with busy := c.busy.filter (fun b => decide (now < b.2)) ++ [(bank, now + 384)] }

/-- A forced all-bank refresh starts, and the owed list is empty (R352, R353): 128 slots of class M. -/
def Ctl.refreshAll (c : Ctl) (now : Nat) : Ctl :=
  { c.charge .m 128 with busy := (List.range 16).map (fun b => (b, now + 840)), owed := [] }

/-- The catch-up refresh of a tick (R352): the oldest owed bank whose group is not busy, unless R341 refuses it. -/
def State.catchUp (s : State) (c : Nat) (k : Ctl) : Ctl :=
  match k.owed.find? (fun b => !k.groupBusy s.now b) with
  | none => k
  | some b => if s.refused c k then k else { k.refreshBank s.now b with owed := k.owed.erase b }

/-- The decisions of a tick (R352). -/
def State.tickOf (s : State) (c : Nat) (k : Ctl) : Ctl :=
  let bank := k.tick % 16
  if k.groupBusy s.now bank || s.refused c k then
    if k.owed.length < 8 then s.catchUp c { k with owed := k.owed ++ [bank] } else k.refreshAll s.now
  else s.catchUp c (k.refreshBank s.now bank)

/-- A hart waits in SYS.REFSYNC for a tick of the pseudo-channel that falls in ck `t` (R141, R356). -/
def Hart.refsyncs (x : Hart) (p t : Nat) : Bool := match x.wait with | .refsync q n => decide (q = p) && decide (n ≤ t) | _ => false

/-- Its tick has fallen. -/
def Hart.endRefsync (x : Hart) (p t : Nat) : Hart := if x.refsyncs p t then { x with wait := .synced } else x

/-- The next tick of a pseudo-channel, in the ck in which it falls (R352, R356): its decisions, and where a SYS.REFSYNC waits for a tick of bank 0,
the owed list is emptied after them. -/
def State.tickAt (s : State) (p : Nat) : State :=
  let due := (s.ctl p).due
  s.atCk due (fun s =>
    let k := (s.ctl p).at due
    let t := s.tickOf p k
    let sync := decide (k.tick % 16 = 0) && s.harts.any (fun e => e.2.refsyncs p due)
    let s := s.setCtl p { t with tick := k.tick + 1, due := due + 586, owed := if sync then [] else t.owed }
    if sync then { s with harts := s.harts.map (fun e => (e.1, e.2.endRefsync p due)) } else s)

/-- The hint of a retry response: eighths of the refresh that remain (R355). -/
def Ctl.hint (c : Ctl) (now bank : Nat) : Nat := match c.refreshing now bank with | some e => max 1 (ceilDiv (e - now) 8) | none => 0

/-- A request for a bank has arrived: the arrivals of the last 1,024 ck are kept (R354). -/
def Ctl.arrive (k : Ctl) (now bank : Nat) : Ctl :=
  { k with arrival := k.arrival.filter (fun (a : Nat × Nat) => decide (now ≤ a.2 + 1024)) ++ [(bank / 4, now)] }

/-! ### Scrubbing (R357, R362) -/

/-- A characterisation hart on the cluster a pseudo-channel is wired to stops its scrubbing (R343, R362). -/
def State.scrubHeld (s : State) (c : Nat) : Bool :=
  decide (c < 1024) && s.harts.any (fun e => e.2.charac && !e.2.gone && decide (e.2.arch.grant.base = c / 6))

/-- Granules that a controller scrubs once in every 2^40 ck: those of its share of the stacks, or of its bank (R342, R348, R357). -/
def scrubGranules (s : State) (c : Nat) : Nat := if c < 1024 then Config.hbmBytes s.bare / 64 / Config.pseudoChannels s.bare else 12288

/-- The ck in which the next scrub access of a controller arrives: the accesses of a pass are spread evenly over its 2^40 ck, one to a granule (logged
as assumption 95). -/
def Ctl.scrubDue (k : Ctl) (n : Nat) : Nat := if k.rescrub = 0 then (k.scrubs + 1) * 2 ^ 40 / n else k.rescrub

/-- The request of a scrub access: it changes no value (R357). -/
def scrubReq : Sys2Proof.MemReq :=
  { granule := 0, cls := .m, write := false, hart := none, chan := none, dest := .nothing, issued := 0, hit := false }

/-- A scrub access of a controller arrives in ck `d` (R341, R354, R355, R357): at a bank being refreshed it comes again later; else it waits for its
grant, or has had it where that ck is over and R341 gave class M the slot.  Where scrubbing is stopped the access is left out (R362). -/
def State.scrubAt (s : State) (c d : Nat) : State :=
  let past := decide (d < s.now)
  s.atCk d (fun s =>
    let k := (s.ctl c).at d
    let made := { k with scrubs := k.scrubs + 1, rescrub := 0 }
    if s.scrubHeld c then s.setCtl c made
    else
      let bank := if c < 1024 then k.scrubs % 16 else 0
      if (k.refreshing d bank).isSome then s.setCtl c { k.arrive d bank with rescrub := d + 8 * k.hint d bank }
      else if past && decide (k.granted ≠ d + 1) && decide (k.total < periodSlots c) && (k.ready d .m).isEmpty
          && decide (s.eligible c k (fun b => decide (b = .m) || !(k.ready d b).isEmpty) = some .m) then
        s.setCtl c { (made.arrive d bank).charge .m 1 with granted := d + 1 }
      else s.setCtl c { made.arrive d bank with waiting := k.waiting ++ [(d, bank, scrubReq)] })

/-- Up to `n` ticks and scrub accesses of a controller that fall no later than now, in the order in which they fall, a tick first (R352, R357, R364). -/
def State.ticks (c : Nat) : Nat → State → State
  | 0, s => s
  | n + 1, s =>
    let k := s.ctl c
    let d := k.scrubDue (scrubGranules s c)
    if c < Config.pseudoChannels s.bare ∧ k.due ≤ s.now ∧ k.due ≤ d then State.ticks c n (s.tickAt c)
    else if d ≤ s.now then State.ticks c n (s.scrubAt c d)
    else s

/-- What a controller does of itself has happened, up to now: its ticks (R352), and its scrub accesses, which come again at most twice for each
tick (R355, R357). -/
def State.ticked (s : State) (c : Nat) : State :=
  let k := s.ctl c
  State.ticks c (3 * ((s.now - k.due) / 586 + 1) + s.now * scrubGranules s c / 2 ^ 40 - k.scrubs + 2) s

/-- REFRESH_TICK (R352, R356): the tick that is due. -/
def execRefreshTick (p : Nat) (s : State) : Host.Outcome State Fault Refusal :=
  if Config.pseudoChannels s.bare ≤ p ∨ s.now < (s.ctl p).due then .next s else .next (s.tickAt p)

/-- REFRESH_END (R353): banks whose refresh has ended accept requests again. -/
def execRefreshEnd (p : Nat) (s : State) : Host.Outcome State Fault Refusal :=
  if Config.pseudoChannels s.bare ≤ p then .next s
  else
    let k := s.ctl p
    .next (s.setCtl p { k with busy := k.busy.filter (fun b => decide (s.now < b.2)) })

/-! ### Requests (R341, R344, R347, R349, R355) -/

/-- A request arrives at the controller and the bank of its granule, after the tick that falls in this ck (R344, R349, R355, R364): while its bank is
being refreshed it gets a retry response and arrives again eight times the hint later, which counts in MEMRETRY for a hart's own access; else it is
accepted.  It is a hit of the line store, or none, by the lookup made as it set off (logged as assumption 111). -/
def State.reqArrive (s : State) (q : Sys2Proof.MemReq) : State :=
  match resourceOf s q.granule q.write q.hit with
  | none => s
  | some (c, bank) =>
    if !ctlExists s c then s
    else
      let s := s.ticked c
      let k := (s.ctl c).arrive s.now bank
      match k.refreshing s.now bank with
      | none => s.setCtl c { k with waiting := k.waiting ++ [(s.now, bank, q)] }
      | some _ =>
        let s := s.setCtl c k
        let s := { s with ms := { s.ms with flights := s.ms.flights ++ [(s.now + 8 * k.hint s.now bank, q)] } }
        match q.cls, q.hart with
        | .d, some h => s.updHart h (fun x => x.count cMEMRETRY 1)
        | _, _ => s

/-- REQUEST_ARRIVAL (R355). -/
def execRequestArrival (q : Sys2Proof.MemReq) (s : State) : Host.Outcome State Fault Refusal := .next (s.reqArrive q)

/-- What a granted read fills or uses in the line store (R350): class 1 or the class of a window for a hart's read and for a prefetch, class 0
for an engine's, where it missed; one that hit uses the line, and so does any other read.  The access of a placement gives its class to a line that is
still there (R296), and scrubbing uses none (R357). -/
def State.fillOn (s : State) (q : Sys2Proof.MemReq) : State :=
  if q.write then s
  else match q.cls, q.hart, q.dest with
    | .m, _, _ => s
    | .a, some h, .place cls => s.classLine h q.granule cls
    | k, h, d =>
      if q.hit then s.touchLine q.granule
      else match k, h, d with
        | .d, some h, _ => s.fillFor h q.granule
        | .d, none, _ => s.fillLine q.granule 1 none
        | .e, _, _ => s.fillLine q.granule 0 none
        | .a, some h, .nothing => s.fillFor h q.granule
        | _, _, _ => s.touchLine q.granule

/-- The order in which a hart prefers its channels (R298). -/
def State.channelOrder (s : State) (h : Nat) : List Nat :=
  match (s.hart h).bind (·.adv) with | some a => a.prefer | none => List.range 8

/-- The request of a class that is granted: the oldest, and of those that arrived with it from channels of one hart the preferred channel's
(R241, R298). -/
def State.pick (s : State) : List (Nat × Nat × Sys2Proof.MemReq) → Option (Nat × Nat × Sys2Proof.MemReq)
  | [] => none
  | w :: ws =>
    match w.2.2.hart, w.2.2.chan with
    | some h, some _ =>
      let same := (w :: ws).filter (fun v => decide (v.1 = w.1) && decide (v.2.2.hart = some h))
      some (((s.channelOrder h).findSome? (fun k => same.find? (fun v => decide (v.2.2.chan = some k)))).getD w)
    | _, _ => some w

/-- The oldest complete line of a trace buffer is written at an address, or held there for the solo token, and is drained (R276, R366); nothing is where
the next line no longer goes to that address or the ring takes none, for its registers have changed since it was asked for (R376). -/
def State.drainTo (s : State) (cl a : Nat) : State :=
  match s.liveTrace cl with
  | none => s.updTrace cl (fun b => { b with asked := false })
  | some b => match b.lines with
    | l :: _ =>
      if b.ringAddr ≠ a ∨ b.canDrain = false then s.updTrace cl (fun b => { b with asked := false })
      else
        let bs := l.flatMap (fun w => leBytes 8 w.toNat)
        (if s.tokenHolds a 64 then { s with arb := { s.arb with heldWrites := s.arb.heldWrites ++ [(a, bs)] } } else s.agentWrite a bs).updTrace cl
          (fun b => { b with lines := b.lines.drop 1, dhead := b.dhead + 1, asked := false })
    | [] => s.updTrace cl (fun b => { b with asked := false })

/-- What a granted request leads to: a trace line is written (R366), or the data sets off on the return part of its path, to the cluster or to the
engine's die that it goes to (R347, R363, R403). -/
def State.sendBack (s : State) (c : Nat) (q : Sys2Proof.MemReq) : State :=
  let back (cl : Nat) (engine : Bool) : State :=
    { s with ms := { s.ms with returns := s.ms.returns ++ [(s.now + returnPart c (pathTo cl c engine), q)] } }
  match q.dest, q.hart.bind s.hart with
  | .nothing, _ => s
  | .place _, _ => s
  | .drain cl, _ => s.drainTo cl (q.granule * 64)
  | .queued cl, _ => back cl false
  | .elem _ _, some x => back (((q.chan.bind (fun k => x.chans[k]?)).bind (·.ctx)).elim x.arch.grant.base (fun e => e.1 / 16 * 32)) true
  | _, some x => back x.arch.grant.base false
  | _, none => s

/-- A controller grants at most one request in a ck, and none past the period's slots: one of the class whose turn it is (R341). -/
def State.grant (s : State) (c : Nat) : State :=
  let s := s.ticked c
  let k := (s.ctl c).at s.now
  if k.granted = s.now + 1 ∨ periodSlots c ≤ k.total then s
  else match s.eligible c k (fun b => !(k.ready s.now b).isEmpty) with
    | none => s
    | some b => match s.pick (k.ready s.now b) with
      | none => s
      | some w =>
        let k := { k.charge b 1 with waiting := k.waiting.erase w, granted := s.now + 1 }
        ((s.setCtl c k).fillOn w.2.2).sendBack c w.2.2

/-- REQUEST_GRANT (R341). -/
def execRequestGrant (c : Nat) (s : State) : Host.Outcome State Fault Refusal :=
  if !ctlExists s c then .next s else .next (s.grant c)

/-- Every controller that has been in use has its ticks so far. -/
def State.tickedAll (s : State) : State := s.ms.ctls.foldl (fun s e => s.ticked e.1) s

/-- BUDGET_PERIOD_START (R340, R341): at every multiple of 4,096 ck the counts are those of a new period and accepted changes apply; the ticks so
far were judged and charged in the period in which each fell.  Each controller also comes to this by itself when it next acts. -/
def execBudgetPeriodStart (s : State) : Host.Outcome State Fault Refusal :=
  if s.now % 4096 ≠ 0 then .next s
  else
    let t := s.tickedAll
    .next { t with
      ms := { t.ms with ctls := t.ms.ctls.map (fun e => (e.1, e.2.map (fun (k : Ctl) => k.at t.now))) },
      disp := { t.disp with dieRegs := t.disp.dieRegs.map (fun (r : DieRegs) => { r with budget := r.inForce t.now }) } }

/-- A set of budget registers is legal (R340). -/
def budgetsOk (l : List W64) : Bool :=
  l.all (fun v => decide (bits v.toNat 14 8 ≤ 64) && decide (bits v.toNat 6 0 ≤ bits v.toNat 14 8))
  && decide (l.foldl (fun n v => n + bits v.toNat 6 0) 0 ≤ 64)

/-- A write of a budget register (R340): ignored in full where it breaks a limit; else it applies from the next period. -/
def DieRegs.writeBudget (now cls : Nat) (v : W64) (r : DieRegs) : DieRegs :=
  let l := r.budNext.set cls (v &&& 0x7F7F#64)
  if budgetsOk l then { r with budget := r.inForce now, budNext := l, budAt := now / 4096 } else r

/-- BUDGET_REGISTER_WRITE (R340): the ticks so far were judged by the values before it. -/
def State.writeBudget (s : State) (die cls : Nat) (v : W64) : State := s.tickedAll.updDie die (DieRegs.writeBudget s.now cls v)
def execBudgetRegisterWrite (die cls : Nat) (v : W64) (s : State) : Host.Outcome State Fault Refusal := .next (s.writeBudget die cls v)

/-! ### The memory system in each ck (R339, R341, R363) -/

/-- The key of a word in the instruction cache of a cluster. -/
def codeKey (cluster pa : Nat) : Nat := cluster * 2 ^ 52 + pa

/-- An instruction cache takes the word at a physical address (R72, R401). -/
def State.codeFill (s : State) (cluster pa : Nat) : State :=
  { s with ms := { s.ms with code := fins s.ms.code (codeKey cluster pa) (BitVec.ofNat 32 (memNat s pa 4)) } }

/-- The address of the line that holds a sequencer's next word (R116, R288). -/
def Adv.lineAt (a : Adv) : Nat := (a.base + a.apc) / 64 * 64

/-- The line at physical address `p` that a sequencer asked for in ck `t` is there: in RUN it keeps the line, or a poisoned one fails (R288, R305, R358). -/
def State.adviceLine (s : State) (h p t : Nat) : State :=
  s.updHart h (fun x => match x.adv with
    | none => x
    | some a => match a.asked with
      | none => x
      | some (u, va, q) =>
        if u ≠ t ∨ q ≠ p then x
        else if a.idling then { x with adv := some { a with asked := none } }
        else if poisoned s p then ({ x with adv := some { a with asked := none, mode := .idle } } : Hart).count cADVDROP 1
        else { x with adv := some { a with asked := none, line := some (va, memBytes s p 64) } })

/-- The granules that an instruction of a queue still waits for, without one asked for in ck `t`. -/
def takeOut (g t : Nat) : List QEntry → List QEntry
  | [] => []
  | e :: es => match e.out with
    | some l => if l.contains (g, t) then { e with out := some (l.erase (g, t)) } :: es else e :: takeOut g t es
    | none => e :: takeOut g t es

/-- Data arrives: at a scalar register, in an instruction cache whose hart then fetches, at a sequencer, at a strip-opening instruction, at a queued
instruction, or at a copy engine (R129, R148, R305, R347, R363, R401, R403). -/
def State.deliverData (s : State) (q : Sys2Proof.MemReq) : State :=
  match q.hart with
  | none => s
  | some h => match s.hart h with
    | none => s
    | some x => match q.dest, q.cls with
      | .nothing, _ => s
      | .drain _, _ => s
      | .place _, _ => s
      | .table, _ => match x.wait with
        | .table p => if p / 64 = q.granule then s.setHart h { x with wait := .none, blocked := false, tableAt := some p } else s
        | _ => s
      | .queued _, _ => s.setHart h { x with queue := takeOut q.granule q.issued x.queue }
      | .elem id i, _ => match q.chan with
        | some ch => s.setRun h ch id (fun r =>
            if q.write then (if i = r.applied then { r with wdue := r.wdue.map (fun n => n - 1) } else r) else { r with due := fset 0 r.due i (fget 0 r.due i - 1) })
        | none => s
      | .reg r, _ => s.setHart h (x.arrived (x.pend.eraseP (fun p => decide (p.reg = r) && decide (p.issued = q.issued))))
      | .fetch, .a => s.adviceLine h (q.granule * 64) q.issued
      | .fetch, _ =>
        let s := if poisoned s (q.granule * 64) then s
          else (List.range 16).foldl (fun s i => s.codeFill x.arch.grant.base (q.granule * 64 + 4 * i)) s
        s.updHart h (fun x => match x.wait with
          | .fetch p => if p / 64 = q.granule then { x with wait := .none, blocked := false } else x
          | _ => x)

/-- The data of this ck is there (R363). -/
def State.deliverDue (s : State) : State :=
  let here := s.ms.returns.filter (fun f => decide (f.1 ≤ s.now))
  here.foldl (fun s f => s.deliverData f.2) { s with ms := { s.ms with returns := s.ms.returns.filter (fun f => decide (s.now < f.1)) } }

/-- Requests or data are on their way, a SYS.REFSYNC waits for a tick, or a characterisation hart runs. -/
def State.memBusy (s : State) : Bool :=
  !s.ms.flights.isEmpty || !s.ms.returns.isEmpty
  || s.ms.ctls.any (fun e => match e.2 with | some k => !k.waiting.isEmpty | none => false)
  || s.harts.any (fun e => (e.2.charac && !e.2.gone) || (match e.2.wait with | .refsync .. => true | _ => false))

/-- The six pseudo-channels wired to a cluster have come to this ck (R343). -/
def State.tickWired (s : State) (cluster : Nat) : State := (List.range 6).foldl (fun s i => s.ticked (6 * cluster + i)) s

/-- A ck of the memory system: data that is there, ticks that harts wait for or that a characterisation hart leaves without scrubbing, then the requests that arrive, then one grant at each controller
(R341, R364). -/
def State.memCk (s : State) : State :=
  let s := s.deliverDue
  let s := s.harts.foldl (fun s e => match e.2.wait with | .refsync p _ => s.ticked p | _ => s) s
  let s := s.harts.foldl (fun s e => if e.2.charac && !e.2.gone then s.tickWired e.2.arch.grant.base else s) s
  let now := s.ms.flights.filter (fun f => decide (f.1 ≤ s.now))
  let s := { s with ms := { s.ms with flights := s.ms.flights.filter (fun f => decide (s.now < f.1)) } }
  let s := now.foldl (fun s f => s.reqArrive f.2) s
  s.ms.ctls.foldl (fun s e => match e.2 with | some k => if k.waiting.isEmpty then s else s.grant e.1 | none => s) s

/-- Accesses make requests from now on, or no longer (model's own). -/
def State.setTimed (s : State) (on : Bool) : State := { s with ms := { s.ms with timed := on, upTo := s.now } }

/-! ### Errors (R357 to R359) -/

/-- SCRUB_PASS (R357) at a controller: a scrub access that falls in this ck arrives.  Each controller also comes to this by itself when it next acts. -/
def execScrubPass (c : Nat) (s : State) : Host.Outcome State Fault Refusal := if ctlExists s c then .next (s.ticked c) else .next s

/-- The unconsumed entry that counts a further error of a granule: of memory where `src` is below 4, else of other SRAM of the same kind (R359). -/
def DieRegs.faultAt (r : DieRegs) (g src : Nat) : Option Nat :=
  ((List.range (r.faqTail - r.faqHead)).map (fun i => (r.faqHead + i) % 256)).find? (fun i => match r.faq[i]? with
    | some e => decide (e.1 = g) && decide (e.2.2.1 < 4 ↔ src < 4)
    | none => false)

/-- An entry of a die's fault-address queue (R359): an unconsumed entry of the granule counts it, a full queue loses it. -/
def DieRegs.fault (r : DieRegs) (g src kind : Nat) : DieRegs :=
  match r.faultAt g src with
  | some i => match r.faq[i]? with
    | some (a, n, b, c) => { r with faq := r.faq.set i (a, min (n + 1) 0xFFFF_FFFF, b, c) }
    | none => r
  | none =>
    if 256 ≤ r.faqTail - r.faqHead then { r with faqLost := r.faqLost + 1 }
    else
      let e := (g, 1, src, kind)
      let slot := r.faqTail % 256
      { r with faq := if slot < r.faq.length then r.faq.set slot e else r.faq ++ [e], faqTail := r.faqTail + 1 }

/-- CORRECTED_ERROR (R357, R359): the third of a granule within 2^32 ck makes an entry. -/
def execCorrectedError (src g : Nat) (s : State) : Host.Outcome State Fault Refusal :=
  let d := homeDie s (g * 64)
  let l := (fget [] s.ms.ecc g).filter (fun t => decide (s.now < t + 2 ^ 32)) ++ [s.now]
  let s := { s with ms := { s.ms with ecc := fset [] s.ms.ecc g l } }
  .next (s.updDie d (fun r => if (r.faultAt g src).isSome || decide (3 ≤ l.length) then r.fault g src 2 else r))

/-- An uncorrectable error in a buffer or register that sheaf `i` of a hart uses: that sheaf, with the younger one where it is the oldest, is squashed
and re-executes (R274, R358); such a squash does not count toward solo mode (R276). -/
def State.errorSquash (s : State) (h i : Nat) : State :=
  match s.hart h with
  | none => s
  | some x =>
    match x.sheaves[i]? with
    | none => s
    | some sh =>
      let s := if i = 0 ∨ i = x.front then { s with arb := s.arb.dropSlices h } else s
      if x.held.isSome && decide (i = 0) then State.squashHeld State.squashIf s h x sh x.squash
      else ((x.sheaves.drop i).foldl (fun s y => s.traceSheaf h y outSquash 0 0) s).updHart h (fun x =>
        (x.restoreTo i sh.cp).count cSQUASHES 1)

/-- UNCORRECTABLE_ERROR (R351, R358, R359): a granule of memory or scratchpad is poisoned, a line of the line store is invalid; an
error in other SRAM (`src` 4, or 5 where the younger sheaf alone uses it) squashes the affected sheaf of hart `g` and makes an entry of granule 0 of source
4 (logged as assumption 32). -/
def execUncorrectableError (src g : Nat) (s : State) : Host.Outcome State Fault Refusal :=
  if src ≤ 2 then
    .next (({ s with poison := fset false s.poison g true } : State).updDie (homeDie s (g * 64)) (fun r => r.fault g src 1))
  else if src = 3 then
    .next (({ s with ms := { s.ms with lines := fdel s.ms.lines g } } : State).updDie (homeDie s (g * 64)) (fun r => r.fault g src 1))
  else
    match s.hart g with
    | none => .next s
    | some x => .next ((s.errorSquash g (if src = 4 then 0 else 1)).updDie (x.arch.grant.base / 32) (fun r => r.fault 0 4 1))

/-! ### Pages (R344, R348, R360, R361) -/

/-- Ranges that meet. -/
def meets (a n b m : Nat) : Bool := decide (a < b + m) && decide (b < a + n)

/-- A range of HBM4E that may be allocated: inside the part, no page of the bad-page list, not the withheld dump region (R342,
R360, R395). -/
def State.allocatable (s : State) (pa size : Nat) : Bool :=
  decide (pa + size ≤ Config.hbmBytes s.bare) && !(s.ms.bad.any (fun r => meets pa size (r.1 * 0x1_0000) 0x1_0000))
  && !(s.mg.withheld && meets pa size s.mg.pkg.dumpbase.toNat 0x4000_0000)

/-- A legal interleave (R344, R345). -/
def interleaveOk (s : State) (il : Bool) (base k : Nat) : Bool :=
  if il then decide (k ≤ 5) && decide (base + 2 ^ k ≤ Config.clusters s.bare) && decide (base / 32 = (base + 2 ^ k - 1) / 32)
  else decide (base = 0) && decide (k = 0)

/-- Squashes every sheaf that has read a granule of a range (R275). -/
def State.squashRange (s : State) (pa size : Nat) : State :=
  s.harts.foldl (fun s e => s.squashIf e.1 (fun sh =>
    sh.rset.meets 4096 (RecSet.range (pa / 64) ((pa + size - 1) / 64)))) s

/-- Records a page and zeroes it (R282, R344).  Lines of the line store stay: one whose home changes with the interleave lies in the set of its new home
die (R350, logged as assumption 96). -/
def State.allocate (s : State) (pa : Nat) (p : Page) : State :=
  let s := s.squashRange pa p.size
  let kept := s.ms.pages.filter (fun e => match e.2 with | some q => !meets pa p.size e.1 q.size | none => false)
  { s with mem := fclear s.mem pa p.size, poison := fclear s.poison (pa / 64) (p.size / 64),
           ms := { s.ms with pages := fset none kept pa (some p) } }

/-- PAGE_ALLOCATION (R344): it waits while the solo token's holder may have read what it zeroes (R276). -/
def execPageAllocation (pa size : Nat) (il : Bool) (lsbase lsk : Nat) (s : State) : Host.Outcome State Fault Refusal :=
  if (size = 0x1_0000 ∨ size = 0x20_0000 ∨ size = 0x4000_0000) ∧ pa % size = 0 ∧ s.allocatable pa size = true
      ∧ interleaveOk s il lsbase lsk = true ∧ s.tokenMeets pa size = false then
    .next (s.allocate pa { size := size, il := il, lsbase := lsbase, lsk := lsk })
  else .next s

/-- A registration maps some byte of a page, whatever access its leaf permits (R361, R383). -/
def State.regMaps (s : State) (r : Sys2Proof.Registration) (pa size : Nat) : Bool :=
  (List.range ((r.high.toNat + 0xFFFF) / 0x1_0000 - r.low.toNat / 0x1_0000)).any (fun i =>
    let a := (r.low.toNat / 0x1_0000 * 0x1_0000 + i * 0x1_0000) % 2 ^ 58
    match (if bits a 57 56 = 3 then none else leafFor s 128 r.ptroot a) with
    | some (e, size') => meets (bits e 51 8 * 256) size' pa size
    | none => false)

/-- Copies a page granule by granule, but for poisoned granules, whose copy is poisoned (R361). -/
def State.copyPage (s : State) (old new size : Nat) : State :=
  (List.range (size / 64)).foldl (fun s i =>
    if poisoned s (old + 64 * i) then { s with poison := fset false s.poison ((new + 64 * i) / 64) true }
    else s.agentWrite (new + 64 * i) (memBytes s (old + 64 * i) 64)) s

/-- Squashes every sheaf that has read or written a granule of a range, or holds a reduction there (R275, R361). -/
def State.squashUsers (s : State) (pa size : Nat) : State :=
  let l := RecSet.range (pa / 64) ((pa + size - 1) / 64)
  s.harts.foldl (fun s e => s.squashIf e.1 (fun sh => sh.rset.meets 4096 l || sh.wset.meets 4096 l || sh.dset.meets 2048 l)) s

/-- The holder of the solo token may have read, written or reduced in a range (R276). -/
def State.tokenUses (s : State) (pa size : Nat) : Bool :=
  let l := RecSet.range (pa / 64) ((pa + size - 1) / 64)
  (s.arb.token.bind s.hart).any (fun x => x.sheaves.head?.any (fun sh => sh.rset.meets 4096 l || sh.wset.meets 4096 l || sh.dset.meets 2048 l))

/-- A 64 KiB page joins the bad-page list (R360); past 4,096 entries the host is told. -/
def State.addBad (s : State) (pa reason : Nat) : State :=
  if s.ms.bad.any (fun b => decide (b.1 = pa / 0x1_0000)) then s
  else
    let s := { s with ms := { s.ms with bad := s.ms.bad ++ [(pa / 0x1_0000, reason)] } }
    if 4096 < s.ms.bad.length then s.report 7 [BitVec.ofNat 64 (pa / 0x1_0000), BitVec.ofNat 64 reason] else s

/-- Every 64 KiB page of a range joins the bad-page list (R360, R361). -/
def State.addBadPage (s : State) (pa size reason : Nat) : State :=
  (List.range (size / 0x1_0000)).foldl (fun s i => s.addBad (pa + i * 0x1_0000) reason) s

/-- The record that a report carries (R314): the trap record, the launch identity and the gang. -/
def State.trapReport (s : State) (h : Nat) (x : Hart) : List W64 :=
  [BitVec.ofNat 64 h, BitVec.ofNat 64 ((ffind s.gangs x.gang).elim 0 (·.ident)), BitVec.ofNat 64 x.gang]
    ++ (List.range 8).map (fun i => x.arch.rcsr (0x300 + i))

/-- A reported trap ends its hart, or stops it for an attached debugger (R314). -/
def State.endReported (s : State) (h : Nat) : State :=
  match s.hart h with
  | none => s
  | some x =>
    let t := s.report 8 (s.trapReport h x)
    if bit (x.arch.rcsr cHSTATUS).toNat 11 then t else t.endHart h false

/-- PAGE_RETIREMENT (R360, R361): a page without recorded data is withheld from allocation.  Of one with data, registrations are revoked, a new page
with the same interleave takes the data, the leaf is rewritten and its translations are dropped, and all of the old page is withheld; where data are
lost, the hart whose MEMERR caused it ends with a report.  A sheaf that has read or written the old page is squashed, so that no write of it is lost
(logged as assumption 110).  All of it waits while the solo token's holder may use what it would write or take away (R276). -/
def execPageRetirement (r : Sys2Proof.Retirement) (s : State) : Host.Outcome State Fault Refusal :=
  match pageOf s r.old with
  | none => if Config.hbmBytes s.bare ≤ r.old then .next s else .next (s.addBad r.old r.reason)
  | some (base, p) =>
    if r.new % p.size ≠ 0 ∨ s.allocatable r.new p.size = false ∨ s.tokenHolds r.leaf 8 = true ∨ meets base p.size r.new p.size = true
        ∨ s.tokenMeets r.new p.size = true ∨ s.tokenUses base p.size = true then .next s
    else
      let lost := (List.range (p.size / 64)).any (fun i => poisoned s (base + 64 * i))
      let s := s.fab.regs.foldl (fun s e => match e.2 with
        | some g => if regValid g && s.regMaps g base p.size then s.revoke e.1 else s
        | none => s) s
      let s := (s.allocate r.new p).copyPage base r.new p.size
      let s := s.squashUsers base p.size
      let e := memNat s r.leaf 8
      let at_ := bits e 51 8 * 256
      let s := s.agentWrite r.leaf (leBytes 8 (e - at_ + (at_ - base + r.new)))
      let s := { s with ms := { s.ms with
        tlbs := s.ms.tlbs.filter (fun t => !(decide (base ≤ bits t.leaf.toNat 51 8 * 256) && decide (bits t.leaf.toNat 51 8 * 256 < base + p.size)))
        pages := fdel s.ms.pages base } }
      let s := s.addBadPage base p.size r.reason
      match r.hart with
      | some h => if lost then .next (s.endReported h) else .next s
      | none => .next s

/-- The end of Noon has passed (R394, R395). -/
def PkgRegs.pastNoon (p : PkgRegs) (stopped : Bool) : Bool := p.ready || stopped

/-- A write of GRSPLIT (R348): AB from 0 to 12, and not after Noon. -/
def State.writeGrsplit (s : State) (die : Nat) (v : W64) : State :=
  let ab := bits v.toNat 3 0
  if s.mg.pkg.pastNoon s.mg.stopped || decide (12 < ab) then s else s.updDie die (fun r => { r with ab := ab })

/-- GRSPLIT_WRITE (R348). -/
def execGrsplitWrite (die : Nat) (v : W64) (s : State) : Host.Outcome State Fault Refusal := .next (s.writeGrsplit die v)

end Sys2Proof.Machine
end

