-- ==== Sys2Proof/Machine/Advice.lean ====
section
/-! DEFINITION. The advice half: marks (R142, R287), the sequencer's instructions (R289 to R291) and its actions (R292 to
R298, R305). -/

namespace Sys2Proof.Machine

/-! ### The image -/

/-- Eight bytes of the hart's memory, read as the supervisor reads committed memory (R288). -/
def State.supRead (s : State) (x : Hart) (va : Nat) : Option Nat :=
  match homeOf s x.arch.grant (x.arch.rcsr cPTROOT) va kRead false with
  | none => none
  | some h => if poisoned s h then none else some (memNat s h 8)

/-- COUNT of the mark table (R116). -/
def markCount (s : State) (x : Hart) : Nat :=
  match s.supRead x (x.arch.rcsr cADVPTR).toNat with
  | some v => v % 2 ^ 32
  | none => 0

/-- The ENTRY of a mark's block (R116, R287).  A mark table that does not translate or is poisoned where it is read names no block for a mark, and no
START at launch (logged as assumption 97). -/
def markBlock (s : State) (x : Hart) (id : Nat) : Option Nat :=
  if id = 0xFFFF then none
  else (List.range (markCount s x)).findSome? (fun i =>
    match s.supRead x ((x.arch.rcsr cADVPTR).toNat + 16 + 8 * i) with
    | some v => if v % 65536 = id then some (v / 2 ^ 32) else none
    | none => none)

/-- The sequencer at launch in a ck (R286), with its .advice of `size` bytes at `base`, which it keeps until the hart ends (R120). -/
def Adv.launch (start base size now : Nat) : Adv :=
  { p := [], apc := if start = 0xFFFF_FFFF then 0 else start, mode := if start = 0xFFFF_FFFF then .idle else .run,
    lastId := 0x1_0000, lastArg := 0, queue := [], line := none, windows := [], prefer := List.range 8, weight := 4,
    request := none, base := base, size := size, runFrom := now + 1, asked := none, headAt := now }

/-! ### Marks (R287) -/

/-- A mark is delivered in a ck: MODE and APC change, and realignments are counted (R287).  A fetch under way for a block that it abandons is
dropped, and the first word it starts executes in a later ck (R305). -/
def Hart.deliverMark (x : Hart) (now : Nat) (block : Option Nat) (id : Nat) (arg : W64) : Hart :=
  match x.adv with
  | none => x
  | some a =>
    let b := { a with lastId := id, lastArg := arg, runFrom := now + 1 }
    let matched := match a.mode with | .await m => decide (m = id) | _ => false
    let wasIdle := match a.mode with | .idle => true | _ => false
    if matched then { x with adv := some { b with mode := .run } }
    else
      let c := match block with
        | some e => { b with mode := .run, apc := e, asked := none }
        | none => { b with mode := .idle, asked := none }
      ({ x with adv := some c } : Hart).count cADVREALIGN (if wasIdle then 0 else 1)

/-- MARK (R142, R287): delivered in user mode to the hart's sequencer, where it has one. -/
def execMark (a : BitVec 5) (i : BitVec 16) (s : State) : Host.Outcome State Fault Refusal :=
  withHart s [a.toNat] (fun h x =>
    let y := if x.arch.sup then x else x.deliverMark s.now (markBlock s x i.toNat) i.toNat (x.arch.rx a.toNat)
    s.retire h (y.withArch x.arch.next))

/-! ### The sequencer's instructions (R288 to R291) -/

/-- The sequencer goes idle and counts the word or fetch (R288). -/
def Hart.advIdle (x : Hart) : Hart :=
  match x.adv with
  | none => x
  | some a => ({ x with adv := some { a with mode := .idle } } : Hart).count cADVDROP 1

/-- An instruction of the sequencer of the running hart: it acts only in RUN, and one word executes in a ck (R288, R305). -/
def advOp (s : State) (f : Hart → Adv → Hart) : Host.Outcome State Fault Refusal :=
  match s.hart s.cur with
  | none => .fault .noHart
  | some x =>
    match x.adv with
    | none => .next s
    | some a =>
      match a.mode with
      | .run =>
        if s.now < a.runFrom then .next s
        else .next (s.setHart s.cur (f x { a with runFrom := s.now + 1 }))
      | _ => .next s

/-- Advice register n. -/
def Adv.rp (a : Adv) (n : Nat) : W64 := fget 0 a.p n
def Adv.wp (a : Adv) (n : Nat) (v : W64) : Adv := { a with p := fset 0 a.p n v }
/-- The next word. -/
def Adv.next (a : Adv) : Adv := { a with apc := (a.apc + 4) % 2 ^ 32 }
/-- A branch or loop target (R291). -/
def Adv.jump (a : Adv) (o : BitVec 13) : Adv := { a with apc := (BitVec.ofNat 32 a.apc + 4 * o.signExtend 32).toNat }
/-- The sequencer with a new state. -/
def Hart.withAdv (x : Hart) (a : Adv) : Hart := { x with adv := some a }

/-- An action: placed in the queue, or waiting while it is full (R292).  A word executes in the ck before its `runFrom`. -/
def Adv.act (a : Adv) (t : AdvAct) : Adv :=
  if 8 ≤ a.queue.length then a
  else { a.next with queue := a.queue ++ [t], headAt := if a.queue.isEmpty then a.runFrom - 1 else a.headAt }

/-- ADV.AWAIT (R291). -/
def execAdvAwait (i : BitVec 16) (s : State) : Host.Outcome State Fault Refusal :=
  advOp s (fun x a => x.withAdv { a.next with mode := .await i.toNat })

/-- ADV.BR (R291). -/
def execAdvBr (d : BitVec 4) (a : BitVec 4) (c : BitVec 3) (o : BitVec 13) (s : State) : Host.Outcome State Fault Refusal :=
  advOp s (fun x v =>
    let p := v.rp d.toNat
    let q := v.rp a.toNat
    let go (b : Bool) : Hart := x.withAdv (if b then v.jump o else v.next)
    match c.toNat with
    | 0 => go (decide (p = q))
    | 1 => go (decide (p ≠ q))
    | 2 => go (decide (p.toNat < q.toNat))
    | 3 => go (decide (q.toNat ≤ p.toNat))
    | 4 => go true
    | _ => x.advIdle)

/-- ADV.LOOP (R291). -/
def execAdvLoop (d : BitVec 4) (o : BitVec 13) (s : State) : Host.Outcome State Fault Refusal :=
  advOp s (fun x v =>
    let p := v.rp d.toNat - 1
    let w := v.wp d.toNat p
    x.withAdv (if p ≠ 0 then w.jump o else w.next))

/-- ADV.SET (R291). -/
def execAdvSet (d : BitVec 4) (w : BitVec 21) (s : State) : Host.Outcome State Fault Refusal :=
  advOp s (fun x v => x.withAdv (v.wp d.toNat (w.signExtend 64)).next)

/-- ADV.INS (R291). -/
def execAdvIns (d : BitVec 4) (w : BitVec 21) (s : State) : Host.Outcome State Fault Refusal :=
  advOp s (fun x v => x.withAdv (v.wp d.toNat (v.rp d.toNat * 0x200000 + w.setWidth 64)).next)

/-- ADV.ADD (R291). -/
def execAdvAdd (d : BitVec 4) (a : BitVec 4) (b : BitVec 4) (s : State) : Host.Outcome State Fault Refusal :=
  advOp s (fun x v => x.withAdv (v.wp d.toNat (v.rp a.toNat + v.rp b.toNat)).next)

/-- ADV.ADDI (R291). -/
def execAdvAddi (d : BitVec 4) (a : BitVec 4) (i : BitVec 16) (s : State) : Host.Outcome State Fault Refusal :=
  advOp s (fun x v => x.withAdv (v.wp d.toNat (v.rp a.toNat + i.signExtend 64)).next)

/-- ADV.MV from a register (R291). -/
def execAdvMv (d : BitVec 4) (a : BitVec 4) (s : State) : Host.Outcome State Fault Refusal :=
  advOp s (fun x v => x.withAdv (v.wp d.toNat (v.rp a.toNat)).next)

/-- ADV.MV from LASTARG (R291). -/
def execAdvMvArg (d : BitVec 4) (s : State) : Host.Outcome State Fault Refusal :=
  advOp s (fun x v => x.withAdv (v.wp d.toNat v.lastArg).next)

/-- ADV.MV from LASTID (R291). -/
def execAdvMvId (d : BitVec 4) (s : State) : Host.Outcome State Fault Refusal :=
  advOp s (fun x v => x.withAdv (v.wp d.toNat (BitVec.ofNat 64 v.lastId)).next)

/-- ADV.PF (R294). -/
def execAdvPf (a : BitVec 4) (b : BitVec 4) (s : State) : Host.Outcome State Fault Refusal :=
  advOp s (fun x v => x.withAdv (v.act (.pf (v.rp a.toNat) (v.rp b.toNat))))

/-- ADV.PFX (R295): an odd pair is not an advice instruction (R290). -/
def execAdvPfx (a : BitVec 4) (b : BitVec 4) (w : BitVec 2) (s : State) : Host.Outcome State Fault Refusal :=
  advOp s (fun x v =>
    if a.toNat % 2 = 1 ∨ b.toNat % 2 = 1 then x.advIdle
    else x.withAdv (v.act (.pfx (v.rp a.toNat) (v.rp (a.toNat + 1)) (v.rp b.toNat) (v.rp (b.toNat + 1)) (8 * 2 ^ w.toNat))))

/-- ADV.PLACE (R296). -/
def execAdvPlace (a : BitVec 4) (b : BitVec 4) (c : BitVec 2) (s : State) : Host.Outcome State Fault Refusal :=
  advOp s (fun x v => x.withAdv (v.act (.place (v.rp a.toNat) (v.rp b.toNat) c.toNat)))

/-- ADV.PRIO (R297). -/
def execAdvPrio (a : BitVec 4) (s : State) : Host.Outcome State Fault Refusal :=
  advOp s (fun x v => x.withAdv (v.act (.prio (v.rp a.toNat))))

/-- ADV.ORDER (R298). -/
def execAdvOrder (a : BitVec 4) (s : State) : Host.Outcome State Fault Refusal :=
  advOp s (fun x v => x.withAdv (v.act (.order (v.rp a.toNat))))

/-- ADV.ORDER with share (R298). -/
def execAdvOrderShare (a : BitVec 4) (s : State) : Host.Outcome State Fault Refusal :=
  advOp s (fun x v => x.withAdv (v.act (.share (v.rp a.toNat))))

/-- ADV.HALT (R291). -/
def execAdvHalt (s : State) : Host.Outcome State Fault Refusal :=
  advOp s (fun x v => x.withAdv { v with mode := .idle })

/-! ### Fetching (R288, R305) -/

/-- The word at APC in RUN, where the kept line holds it. -/
def Adv.word (a : Adv) : Option W32 :=
  match a.mode, a.line with
  | .run, some (va, bs) =>
    if a.lineAt = va ∧ a.apc < a.size then some (BitVec.ofNat 32 (leNat ((bs.drop ((a.base + a.apc) % 64)).take 4))) else none
  | _, _ => none

/-- In RUN, the fetch of the line that holds the next word sets off, unless the kept line holds it or a fetch is under way: past the end of .advice
or without a translation the sequencer goes idle; else it is a request of class A (R288, R339). -/
def State.adviceAsk (s : State) (h : Nat) : State :=
  match s.hart h with
  | none => s
  | some x => match x.adv with
    | none => s
    | some a =>
      match a.mode with
      | .run =>
        if a.word.isSome || a.asked.isSome then s
        else if a.size ≤ a.apc then s.setHart h x.advIdle
        else match homeOf s x.arch.grant (x.arch.rcsr cPTROOT) a.lineAt kRead false with
          | none => s.setHart h x.advIdle
          | some p => (s.setHart h (x.withAdv { a with asked := some (s.now, a.lineAt, p / 64 * 64) })).demand x.arch.grant.base false
              { granule := p / 64, cls := .a, write := false, hart := some h, chan := none, dest := .fetch, issued := s.now, hit := false }
      | _ => s

/-- The line that a sequencer has asked for comes now (R305). -/
def State.adviceCome (s : State) (h : Nat) : State :=
  match s.hart h with
  | none => s
  | some x => match x.adv.bind (·.asked) with
    | none => s
    | some (t, _, p) => s.adviceLine h p t

/-- The sequencer's next line is fetched: where no timing is kept it comes at once. -/
def State.adviceFetch (s : State) (h : Nat) : State := let t := s.adviceAsk h; if s.ms.timed then t else t.adviceCome h

/-- ADVICE_LINE_FETCH (R305): not for a parked hart. -/
def execAdviceLineFetch (h : Nat) (s : State) : Host.Outcome State Fault Refusal :=
  match s.hart h with
  | none => .next s
  | some x => if x.parked then .next s else .next (s.adviceFetch h)

/-! ### Actions (R292 to R298) -/

/-- The action at the head of a hart's queue, where the hart is not pre-empted, finishes. -/
def actionOp (h : Nat) (s : State) (f : Hart → Adv → AdvAct → Option State) : Host.Outcome State Fault Refusal :=
  match s.hart h with
  | none => .next s
  | some x =>
    match x.adv with
    | none => .next s
    | some a =>
      match a.queue with
      | [] => .next s
      | t :: ts =>
        if x.parked then .next s
        else match f x a t with
          | none => .next s
          | some s' => .next (s'.updHart h (fun y => match y.adv with | some b => y.withAdv { b with queue := ts, headAt := s.now } | none => y))

/-- Adds to ADVDROP and ADVCLAMP of a hart. -/
def State.advCount (s : State) (h drop clamp : Nat) : State :=
  s.updHart h (fun x => (x.count cADVDROP drop).count cADVCLAMP clamp)

/-- A request of class A (R292, R339). -/
def State.adviceDemand (s : State) (h : Nat) (x : Hart) (dest : Sys2Proof.DataTo) (g : Nat) : State :=
  s.demand x.arch.grant.base false { granule := g, cls := .a, write := false, hart := some h, chan := none, dest := dest, issued := s.now, hit := false }

/-- A prefetch of a granule is on its way or waits at its controller. -/
def State.prefetching (s : State) (g : Nat) : Bool :=
  let p (q : Sys2Proof.MemReq) : Bool := decide (q.granule = g) && decide (q.cls = .a) && decide (q.dest = .nothing)
  s.ms.flights.any (fun f => p f.2) || s.ms.ctls.any (fun e => e.2.any (fun k => k.waiting.any (fun w => p w.2.2)))

/-- Prefetches one piece (R294): of HBM4E its granules are filled, where timing is kept each that is not there and not asked for already by a request of
class A, and a poisoned one drops the piece (R358); directly addressed granary is close already. -/
def State.prefetchPiece (s : State) (h : Nat) (x : Hart) (p : Piece) : State :=
  match pieceHome s x.arch.grant x.arch.csr p with
  | none => s.advCount h 1 0
  | some a =>
    let gs := granules a p.len
    if !isHbm s (a / 64) then s
    else if gs.any (fun g => poisoned s (g * 64)) then s.advCount h 1 0
    else gs.foldl (fun s g =>
      if !s.ms.timed then s.fillFor h g
      else if (fget none s.ms.lines g).isSome then s.touchLine g
      else if s.prefetching g then s
      else s.adviceDemand h x .nothing g) s

/-- Prefetches a range (R293, R294). -/
def State.prefetchRange (s : State) (h : Nat) (x : Hart) (b n : Nat) : State :=
  let c := cutRange b n
  (pieces s x.arch.grant (x.arch.rcsr cPTROOT) 600 b c.1).foldl (fun s p => s.prefetchPiece h x p) (s.advCount h 0 c.2)

/-- PREFETCH_ACTION (R294). -/
def execPrefetchAction (h : Nat) (s : State) : Host.Outcome State Fault Refusal :=
  actionOp h s (fun x _ t => match t with
    | .pf b n => some (s.prefetchRange h x b.toNat n.toNat)
    | _ => none)

/-- INDEXED_PREFETCH_ACTION (R295).  The reads of the index array are requests of class A too, and fill nothing (R292; the action goes by what stands
there when it finishes, logged as assumption 14). -/
def execIndexedPrefetchAction (h : Nat) (s : State) : Host.Outcome State Fault Refusal :=
  actionOp h s (fun x _ t => match t with
    | .pfx arr cnt base row w =>
      let k := min cnt.toNat 4096
      let z := min row.toNat 4096
      let s := s.advCount h 0 ((if k < cnt.toNat then 1 else 0) + (if z < row.toNat then 1 else 0))
      if k = 0 ∨ z = 0 then some s
      else if arr.toNat % (w / 8) ≠ 0 then some (s.advCount h 1 0)
      else
        let c := cutRange arr.toNat (k * (w / 8))
        let s := s.advCount h 0 c.2
        let ps := pieces s x.arch.grant (x.arch.rcsr cPTROOT) 600 arr.toNat c.1
        some (ps.foldl (fun s p =>
          match pieceHome s x.arch.grant x.arch.csr p with
          | none => s.advCount h 1 0
          | some a =>
            if (granules a p.len).any (fun g => poisoned s (g * 64)) then s.advCount h 1 0
            else (List.range (p.len / (w / 8))).foldl (fun s i =>
              let u := memNat s (a + i * (w / 8)) (w / 8)
              if u = 2 ^ w - 1 then s else s.prefetchRange h x ((base.toNat + u * z) % 2 ^ 64) z)
              ((granules a p.len).foldl (fun s g => s.adviceDemand h x .fetch g) s)) s)
    | _ => none)

/-- PLACEMENT_ACTION (R296): it gives a window to the hart and its class to the range's lines.  Each line takes it in an access of class A, which where
timing is kept comes when it is granted; the limit of R296 is met, or not, as the action finishes (R292, R339). -/
def execPlacementAction (h : Nat) (s : State) : Host.Outcome State Fault Refusal :=
  actionOp h s (fun x _ t => match t with
    | .place b n cls =>
      let c := cutRange b.toNat n.toNat
      let s := s.advCount h 0 c.2
      if c.1 = 0 then some s
      else
        let ps := pieces s x.arch.grant (x.arch.rcsr cPTROOT) 600 b.toNat c.1
        let r := ps.foldl (fun (q : State × Bool) p =>
          match pieceHome s x.arch.grant x.arch.csr p with
          | none => (q.1.advCount h 1 0, q.2)
          | some a => (granules a p.len).foldl (fun (q : State × Bool) g =>
              let t := q.1.classLine h g cls
              (t, q.2 || (decide (2 ≤ cls) && (match fget none t.ms.lines g with
                | some l => decide (l.owner ≠ some h)
                | none => false)))) q) (s, false)
        let t := if r.2 then r.1.advCount h 0 1 else r.1
        let s := if !s.ms.timed then t
          else ((ps.filterMap (fun p => (pieceHome s x.arch.grant x.arch.csr p).map (fun a => granules a p.len))).flatten.filter s.holdsLine).foldl
            (fun s g => s.adviceDemand h x (.place cls) g) { t with ms := { t.ms with lines := s.ms.lines } }
        some (s.updHart h (fun y => match y.adv with
          | some v =>
            let ws := v.windows ++ [{ base := b.toNat, len := c.1, cls := cls }]
            y.withAdv { v with windows := ws.drop (ws.length - 4) }
          | none => y))
    | _ => none)

/-- PRIORITY_ACTION (R297): clamped to the ceiling of HSTATUS. -/
def execPriorityAction (h : Nat) (s : State) : Host.Outcome State Fault Refusal :=
  actionOp h s (fun x a t => match t with
    | .prio r =>
      let ceil := bits (x.arch.rcsr cHSTATUS).toNat 6 4
      let p := min r.toNat ceil
      some ((s.setHart h (x.withAdv { a with request := some p })).advCount h 0 (if p < r.toNat then 1 else 0))
    | _ => none)

/-- The channels in order of a preference (R298). -/
def preference (v : Nat) : List Nat :=
  let listed := ((List.range 8).map (fun i => v / 8 ^ i % 8)).foldl (fun l c => if l.contains c then l else l ++ [c]) []
  listed ++ (List.range 8).filter (fun c => !listed.contains c)

/-- CHANNEL_ORDER_ACTION (R298): the channel preference, or with share the weight. -/
def execChannelOrderAction (h : Nat) (s : State) : Host.Outcome State Fault Refusal :=
  actionOp h s (fun x a t => match t with
    | .order v =>
      some ((s.setHart h (x.withAdv { a with prefer := preference (v.toNat % 2 ^ 24) })).advCount h 0
        (if v.toNat / 2 ^ 24 = 0 then 0 else 1))
    | .share v =>
      let w := if v.toNat = 0 then 1 else min v.toNat 16
      some ((s.setHart h (x.withAdv { a with weight := w })).advCount h 0 (if w = v.toNat then 0 else 1))
    | _ => none)

/-! ### The bounds of R305 -/

/-- The ck within which the action at the head of a queue finishes. -/
def AdvAct.bound : AdvAct → Nat
  | .pfx _ cnt _ _ _ => 1024 + 16 * min cnt.toNat 4096
  | _ => 1024

/-- The state after an event that only goes on. -/
def nextOr (s : State) : Host.Outcome State Fault Refusal → State
  | .next t => t
  | _ => s

/-- The action at the head of a hart's queue finishes. -/
def State.finishAction (s : State) (h : Nat) : State :=
  match ((s.hart h).bind (·.adv)).bind (·.queue.head?) with
  | none => s
  | some t => nextOr s (match t with
    | .pf .. => execPrefetchAction h s
    | .pfx .. => execIndexedPrefetchAction h s
    | .place .. => execPlacementAction h s
    | .prio _ => execPriorityAction h s
    | .order _ => execChannelOrderAction h s
    | .share _ => execChannelOrderAction h s)

/-- The sequencer has something to do. -/
def Hart.advBusy (x : Hart) : Bool :=
  !x.parked && (match x.adv with
    | some a => !a.queue.isEmpty || (match a.mode with | .run => true | _ => false)
    | none => false)

/-- A ck of the sequencer of a hart (R288, R305): an action that has stood at the head for its bound finishes; in RUN, the word in the kept line
executes through `run`, or the line is asked for, and comes 2,048 ck later at the latest. -/
def State.adviceCk (run : Nat → W32 → State → State) (h : Nat) (s : State) : State :=
  match s.hart h with
  | none => s
  | some x =>
    if !x.advBusy then s
    else
      let late := match x.adv with
        | some a => (match a.queue.head? with | some t => decide (a.headAt + t.bound ≤ s.now) | none => false)
        | none => false
      let s := if late then s.finishAction h else s
      match (s.hart h).bind (·.adv) with
      | none => s
      | some a =>
        if s.now + 1 < a.runFrom then s
        else match a.word with
          | some w => if a.runFrom ≤ s.now then run h w s else s
          | none => match a.asked with
            | none => s.adviceAsk h
            | some (t, _, _) => if t + 2048 ≤ s.now then s.adviceCome h else s

end Sys2Proof.Machine
end

