-- ==== Sys2Proof/Machine/Csr.lean ====
section
/-! DEFINITION. Control and status registers (R29, R30, R39 to R46, R58, R83, R135, R136, R225, R310, R320). -/

namespace Sys2Proof.Machine

/-! ### The map (R44) -/

/-- A CSR that only the supervisor may access. -/
def csrSup (n : Nat) : Bool := decide (0x300 ≤ n) && decide (n < 0x500)

/-- A number that the map lists. -/
def csrListed (n : Nat) : Bool :=
  decide (n ≤ 0x009) || (decide (0x010 ≤ n) && decide (n ≤ 0x01F) && decide (n % 4 ≠ 3))
  || (decide (0x100 ≤ n) && decide (n ≤ 0x108)) || (decide (0x110 ≤ n) && decide (n ≤ 0x112))
  || (decide (0x118 ≤ n) && decide (n ≤ 0x11A)) || (decide (0x200 ≤ n) && decide (n ≤ 0x211)) || decide (n = 0x218)
  || (decide (0x240 ≤ n) && decide (n ≤ 0x27F)) || (decide (0x300 ≤ n) && decide (n ≤ 0x30C)) || decide (n = 0x310)
  || (decide (0x400 ≤ n) && decide (n ≤ 0x430)) || decide (n = 0x440) || decide (n = 0x441) || decide (n = 0x450)
  || (decide (0x500 ≤ n) && decide (n ≤ 0x505)) || (decide (0x510 ≤ n) && decide (n ≤ 0x513))

/-- A CSR that a CSR instruction of the mode may write. -/
def csrWritable (sup : Bool) (n : Nat) : Bool :=
  decide (n = cFCSR) || decide (n = cSRSEED) || (decide (0x010 ≤ n) && decide (n ≤ 0x01F) && decide (n % 4 ≠ 3))
  || decide (n = cDOCB) || decide (n = cDOCN) || decide (n = cMSKSHAPE)
  || (sup && (decide (n = cZSTATE) || (decide (0x300 ≤ n) && decide (n ≤ 0x30C)) || (decide (0x400 ≤ n) && decide (n ≤ 0x42F))
              || decide (n = cTRCTL) || decide (n = cBNDTAB)))

/-- A CSR that counts events and lives outside the checkpoint (R45). -/
def csrCounter (n : Nat) : Bool := decide (0x500 ≤ n) || decide (n = cTRLOSS)

/-- The GBARC of a gang (R258). -/
def gbarc (s : State) (x : Hart) : W64 :=
  match ffind s.gangs x.gang with
  | some g => BitVec.ofNat 64 (g.gen % 2 ^ 32 * 2 ^ 32 + g.arrived.length)
  | none => 0

/-- A set of channels as a bit mask. -/
def chanBits (x : Hart) (p : Chan → Bool) : W64 :=
  BitVec.ofNat 64 (((List.range x.chans.length).zip x.chans).foldl (fun n e => if p e.2 then n + 2 ^ e.1 else n) 0)

/-- The value a CSR read returns (R44). -/
def readCsr (s : State) (x : Hart) (n : Nat) : W64 :=
  if n = cVCP then (x.sheaves.head?.map (·.startPc)).getD x.arch.pc
  else if csrCounter n then fget 0 x.cnt n
  else if 0x118 ≤ n ∧ n ≤ 0x11A then fget 0 s.mskcnt (x.arch.grant.base * 3 + (n - 0x118))
  else if 0x200 ≤ n ∧ n ≤ 0x207 then BitVec.ofNat 64 ((x.chans[n - 0x200]?.map (·.tl)).getD 0)
  else if n = 0x210 then chanBits x (fun c => c.ctx.isSome)
  else if n = 0x211 then chanBits x (fun c => c.err.isSome)
  else if n = 0x218 then gbarc s x
  else if 0x240 ≤ n ∧ n ≤ 0x27F then fget 0 x.ic (n - 0x240)
  else if n = cWPHIT then (match x.held with | some w => BitVec.ofNat 64 (16 + w) | none => 0)
  else x.arch.rcsr n

/-- The read waits for every earlier vector and matrix instruction (R30).  A read of ZSTATE does not wait (logged as assumption 75). -/
def csrReadWaits (n : Nat) : Bool := decide (n = cFCSR) || decide (n = cSRSEED)

/-! ### Writing -/

/-- A value that a CSR's own rule accepts (R39, R43, R225, R320). -/
def csrAccepts (g : Grant) (n : Nat) (v : W64) : Bool :=
  if n = cFCSR then decide (bits v.toNat 7 5 ≤ 4)
  else if decide (0x010 ≤ n) && decide (n ≤ 0x01F) && decide (n % 4 = 2) then btcfgOk v
  else if n = cMSKSHAPE then mskshapeOk g v
  else if n = cDOCN then decide (v.toNat ≤ 4096)
  else if 0x420 ≤ n ∧ n ≤ 0x42F then decide (bits v.toNat 5 4 ≤ 1)
  else if n = cZSTATE then !(bit v.toNat 2 && bit v.toNat 3)
  else true

/-- The stored CSRs after a write (R10, R42, R58, R310). -/
def Arch.writeCsr (a : Arch) (n : Nat) (v : W64) : Arch :=
  if n = cHSTATUS then a.wcsr n (setBits (a.rcsr n) 0 0 v.toNat)
  else if n = cZSTATE then (if bits v.toNat 3 2 = 0 then a.wcsr n (v &&& 3#64) else a)
  else a.storeCsr n v

/-- The value an operation writes (R135). -/
def csrNew (op : Sys2Proof.CsrOp) (old x : W64) : W64 :=
  match op with
  | .wr => x
  | .set => old ||| x
  | .clr => old &&& ~~~x

/-- The operation writes: WR always, SET and CLR only with a source register (R83, R135). -/
def csrWrites (op : Sys2Proof.CsrOp) (a : BitVec 5) : Bool :=
  match op with
  | .wr => true
  | _ => decide (a ≠ 0)

/-- The code of an operation in IMM[15:12] (R83). -/
def csrCode (op : Option Sys2Proof.CsrOp) : BitVec 4 :=
  match op with
  | none => 0
  | some .wr => 1
  | some .set => 2
  | some .clr => 3

/-! ### ZSTATE actions (R42) -/

/-- Every cell of the eight tiles from the save area, as the supervisor reads committed memory; where a read fails, PAGE or MEMERR and the address of the
cell whose read fails first (R42, R308). -/
def State.loadTiles (s : State) (x : Hart) : Except (Nat × Nat) (FMap W32) :=
  let g := x.arch.grant
  let root := x.arch.rcsr cPTROOT
  let c := g.clusters
  let base := (x.arch.rcsr cSAVEPTR).toNat + 0xC40 + 54 * g.vlenb
  let len := 131072 * c
  let fails := (if len = 0 then [] else pageParts base len).findSome? (fun p =>
    match homeOf s g root p.1 kRead false with
    | none => some (0x03, p.1)
    | some h => (granules h (p.2 - p.1)).findSome? (fun q =>
        if poisoned s (q * 64) then some (0x10, p.1 + (q * 64 - h)) else none))
  match fails with
  | some c => .error (c.1, base + (c.2 - base) / 4 * 4)
  | none =>
    let bs := s.peekRange g root base len
    .ok ((List.range (8 * 64 * 64 * c)).foldl (fun m i =>
      let v := BitVec.ofNat 32 (leNat ((bs.drop (4 * i)).take 4))
      fset 0 m (i / (64 * c) * 8192 + i % (64 * c)) v) [])

/-- The action that a write of ZSTATE asked for, once the sheaf that wrote it has committed: outside any sheaf, and so no squash of
a held sheaf undoes it (R42). -/
def State.zact (s : State) (h : Nat) : State :=
  match s.hart h with
  | none => s
  | some x =>
    match x.wait with
    | .zaction load =>
      if x.sheaves.length ≤ x.front then
        match (if load then s.loadTiles x else .ok []) with
        | .error c => s.doubleTrap h x (plainTrap c.1 0 (x.arch.pc - 4) (BitVec.ofNat 64 c.2) 0)
        | .ok z =>
          let act (a : Arch) : Arch := { a with z := z }.wcsr cZSTATE 1
          s.setHart h { x with wait := .none, arch := act x.arch, sheaves := x.sheaves.map (fun sh => { sh with cp := act sh.cp }) }
      else s
    | _ => s

/-! ### The instructions -/

/-- A CSR instruction (R135, R136): `op` none for RD; `w` is its word.  A write of ZSTATE waits for what the hart has queued, whose tile state it would
change (R204, R218); one with an action ends its sheaf, and so waits for the BQ results on their way too (R24, R42). -/
def csrOp (s : State) (op : Option Sys2Proof.CsrOp) (d a : BitVec 5) (n : Nat) : Host.Outcome State Fault Refusal :=
  withHart s [d.toNat, a.toNat] (fun h x =>
    let w := packI 20#6 d a (csrCode op ++ BitVec.ofNat 12 n)
    let writes := match op with | some o => csrWrites o a | none => false
    if !csrListed n || (csrSup n && !x.arch.sup) || (writes && !csrWritable x.arch.sup n) then s.ill h x w
    else if (csrReadWaits n || (writes && (decide (n = cSRSEED) || decide (n = cZSTATE)))) && !x.queue.isEmpty then (s.setHart h x).stall h [] false
    else
      let old := readCsr s x n
      if !writes then s.retire h (x.withArch (x.arch.wx d.toNat old).next)
      else
        let v := match op with | some o => csrNew o old (x.arch.rx a.toNat) | none => old
        if !csrAccepts x.arch.grant n v then s.ill h x w
        else if decide (n = cZSTATE) && decide (bits v.toNat 3 2 ≠ 0) && x.bq.any (fun b => !b.here) then (s.setHart h x).stall h [] false
        else
          let y := x.withArch ((x.arch.writeCsr n v).wx d.toNat old).next
          if n = cZSTATE ∧ bits v.toNat 3 2 ≠ 0 then
            let t := s.retire h y
            let t := t.updHart h (fun z => { z.close .ordinary with wait := .zaction (bit v.toNat 2), bq := [] })
            let t := t.settle h
            match t.hart h with
            | some z => if z.ahead then t else t.zact h
            | none => t
          else s.retire h y)

/-- CSR.RD (R135). -/
def execCsrRd (d : BitVec 5) (c : BitVec 12) (s : State) : Host.Outcome State Fault Refusal :=
  csrOp s none d 0 c.toNat

/-- CSR.WR (R135). -/
def execCsrWr (d : BitVec 5) (a : BitVec 5) (c : BitVec 12) (s : State) : Host.Outcome State Fault Refusal :=
  csrOp s (some .wr) d a c.toNat

/-- CSR.SET (R135). -/
def execCsrSet (d : BitVec 5) (a : BitVec 5) (c : BitVec 12) (s : State) : Host.Outcome State Fault Refusal :=
  csrOp s (some .set) d a c.toNat

/-- CSR.CLR (R135). -/
def execCsrClr (d : BitVec 5) (a : BitVec 5) (c : BitVec 12) (s : State) : Host.Outcome State Fault Refusal :=
  csrOp s (some .clr) d a c.toNat

/-- A CSR write of FCSR (R136). -/
def execFcsrWrite (op : Sys2Proof.CsrOp) (d a : BitVec 5) (s : State) : Host.Outcome State Fault Refusal :=
  csrOp s (some op) d a cFCSR

/-- A CSR read of FCSR (R30). -/
def execFcsrRead (d : BitVec 5) (s : State) : Host.Outcome State Fault Refusal := csrOp s none d 0 cFCSR

/-- A CSR write of SRSEED: 0 stores 1 (R58). -/
def execSrseedWrite (op : Sys2Proof.CsrOp) (d a : BitVec 5) (s : State) : Host.Outcome State Fault Refusal :=
  csrOp s (some op) d a cSRSEED

/-- A CSR read of SRSEED (R60). -/
def execSrseedRead (d : BitVec 5) (s : State) : Host.Outcome State Fault Refusal := csrOp s none d 0 cSRSEED

/-- A CSR write of BTtCFG (R43). -/
def execBtcfgWrite (t : BitVec 2) (op : Sys2Proof.CsrOp) (d a : BitVec 5) (s : State) : Host.Outcome State Fault Refusal :=
  csrOp s (some op) d a (0x12 + 4 * t.toNat)

/-- A CSR write of MSKSHAPE (R225). -/
def execMskshapeWrite (op : Sys2Proof.CsrOp) (d a : BitVec 5) (s : State) : Host.Outcome State Fault Refusal :=
  csrOp s (some op) d a cMSKSHAPE

/-- A CSR write of DOCN (R225). -/
def execDocnWrite (op : Sys2Proof.CsrOp) (d a : BitVec 5) (s : State) : Host.Outcome State Fault Refusal :=
  csrOp s (some op) d a cDOCN

/-- A CSR write of ZSTATE (R42). -/
def execZstateWrite (op : Sys2Proof.CsrOp) (d a : BitVec 5) (s : State) : Host.Outcome State Fault Refusal :=
  csrOp s (some op) d a cZSTATE

/-- The LOAD action (R42): it takes place once the sheaf that asked for it has committed. -/
def execZstateLoad (h : Nat) (s : State) : Host.Outcome State Fault Refusal :=
  match s.hart h with
  | none => .next s
  | some x => match x.wait with
    | .zaction true => .next (s.zact h)
    | _ => .next s

/-- The ZCLR action (R42). -/
def execZstateZclr (h : Nat) (s : State) : Host.Outcome State Fault Refusal :=
  match s.hart h with
  | none => .next s
  | some x => match x.wait with
    | .zaction false => .next (s.zact h)
    | _ => .next s

/-- A CSR write of HSTATUS: only MODE is written (R310). -/
def execHstatusWrite (op : Sys2Proof.CsrOp) (d a : BitVec 5) (s : State) : Host.Outcome State Fault Refusal :=
  csrOp s (some op) d a cHSTATUS

/-- A CSR write of WPCTLw (R320). -/
def execWpctlWrite (w : BitVec 4) (op : Sys2Proof.CsrOp) (d a : BitVec 5) (s : State) : Host.Outcome State Fault Refusal :=
  csrOp s (some op) d a (0x420 + w.toNat)

end Sys2Proof.Machine
end

