-- ==== Sys2Proof/Machine/Fabric.lean ====
section
/-! DEFINITION. The destination side of remote commands (R384 to R388), registrations and revocations (R383, R385), host RDMA
(R389, R390), package numbers (R381) and UCIe boundaries (R380). -/

namespace Sys2Proof.Machine

/-! ### Sequence numbers (R252, R387) -/

/-- The key of a source context, and of a sequence number of it. -/
def dupKey (pkg ctx seq : Nat) : Nat := (pkg * 2 ^ 64 + ctx) * 2 ^ 64 + seq

/-- The highest sequence number applied of a source context. -/
def Fabric.topSeq (f : Fabric) (pkg ctx : Nat) : Nat :=
  f.dup.foldl (fun n e => if e.1 / 2 ^ 64 = pkg * 2 ^ 64 + ctx then max n (e.1 % 2 ^ 64) else n) 0

/-- A delivery is a duplicate: its number has been applied, or over Ultra Ethernet lies below the window of 65,536 numbers (R252, R387). -/
def State.isDup (s : State) (pkg ctx seq : Nat) : Bool :=
  (ffind s.fab.dup (dupKey pkg ctx seq)).isSome || (decide (s.link pkg = 2) && decide (seq + 65536 ≤ s.fab.topSeq pkg ctx))

/-! ### Remote commands at their destination (R384, R387, R388) -/

/-- A command of a source context, bound for a hart, that has not been seen: `life` is the binding of the context (R233, logged as
assumption 50). -/
def Remote.fresh (pkg ctx life cmd : Nat) : Remote :=
  { pkg := pkg, ctx := ctx, life := life, cmd := cmd, applied := 0, regs := [], raises := none, sealed := false }

/-- It is the record of that command. -/
def Remote.is (r : Remote) (pkg ctx life cmd : Nat) : Bool :=
  decide (r.pkg = pkg) && decide (r.ctx = ctx) && decide (r.life = life) && decide (r.cmd = cmd)

/-- The record of a remote command. -/
def Fabric.remote (f : Fabric) (pkg ctx life cmd : Nat) : Remote :=
  (f.remotes.find? (fun r => r.is pkg ctx life cmd)).getD (Remote.fresh pkg ctx life cmd)

/-- Replaces the record of a remote command. -/
def Fabric.setRemote (f : Fabric) (r : Remote) : Fabric :=
  { f with remotes := f.remotes.filter (fun q => !q.is r.pkg r.ctx r.life r.cmd) ++ [r] }

def State.setRemote (s : State) (r : Remote) : State := { s with fab := s.fab.setRemote r }

/-- What the destination sends to the source of a command (R251, R388): the elements applied, an error code of R243 or 0, and the
bytes a GET read.  To this package itself it goes back over the loopback path, where the command's hart still lives (R382). -/
def State.acknowledge (s : State) (r : Remote) (code : Nat) (data : List Byte) : State :=
  if s.link r.pkg = 0 then
    match boundTo s (r.ctx / 64) (r.ctx % 64) with
    | some (h, ch) =>
      if h = r.life then { s with fab := { s.fab with acks := s.fab.acks ++ [(h, ch, r.cmd, { applied := r.applied, data := data, code := code })] } }
      else s
    | none => s
  else
    s.report 21 ([r.pkg, r.ctx, r.life, r.cmd, r.applied, code].map (BitVec.ofNat 64) ++ data.map (fun b => b.setWidth 64))

/-- A command is refused: it ends here and what it has applied stands (R243, R384). -/
def State.refuse (s : State) (r : Remote) (code : Nat) : State :=
  (s.setRemote { r with sealed := true }).acknowledge r code []

/-- The hart whose counter a command with SIG raises, checked together with element 0 (R253): none where nothing is raised, an error
where the registration that covers the first byte of element 0 does not grant SG. -/
def State.raiseOf (s : State) (e : Sys2Proof.RemoteElem) : Except Unit (Option Nat) :=
  if !xSig e.xctl then .ok none
  else match s.registration e.first.toNat 1 with
    | none => .error ()
    | some (_, g) =>
      if regAdmits g e.pkg && bit g.ctl.toNat permSignal then (match s.owner g with | some h => .ok (some h) | none => .error ()) else .error ()

/-- An element stands applied (R387): the sequence number is taken, the prefix grows, the last element raises the counter and completes
the command, and the source is told.  A counter freed since, for its hart has ended, takes no increment (R386). -/
def State.appliedElem (s : State) (e : Sys2Proof.RemoteElem) (r : Remote) (data : List Byte) : State :=
  let s := { s with fab := { s.fab with dup := fins s.fab.dup (dupKey e.pkg e.ctx e.seq) 1 } }
  if !e.last then (s.setRemote r).acknowledge r 0 data
  else match r.raises with
    | none => (s.setRemote { r with sealed := true }).acknowledge r 0 data
    | some h => match (s.hart h).filter (fun x => !x.gone) with
      | none => s.refuse r eRemote
      | some _ => ((s.raiseIc h (xIcn e.xctl) 1).setRemote { r with sealed := true }).acknowledge r 0 data

/-- What comes of an element that arrives (R384, R387): a duplicate and an element of an ended command change nothing; one ahead of its turn
waits, and so does one that `f`, which applies it or answers with a code, says is held (R276); it is checked against its registration.  An
arrival of no bytes is that of a command of no elements that raises a counter (R253). -/
def State.taken (s : State) (e : Sys2Proof.RemoteElem) (perm kind : Nat)
    (f : State → Sys2Proof.Registration → Nat → Except (Option Nat) (State × List Byte)) : Option State :=
  let r := s.fab.remote e.pkg e.ctx e.life e.cmd
  if s.bare || s.mg.stopped then none
  else if s.isDup e.pkg e.ctx e.seq || r.sealed || decide (e.index < r.applied) then some s
  else if r.applied < e.index then none
  else match (if e.index = 0 then s.raiseOf e else .ok r.raises) with
    | .error _ => some (s.refuse r eRemote)
    | .ok raises =>
      let r := { r with raises := raises }
      if e.bytes = 0 then some (s.appliedElem e r [])
      else match s.regCheck e.pkg e.addr.toNat e.bytes perm kind with
        | none => some (s.refuse r eRemote)
        | some (i, g, home) => match f s g home with
          | .error none => none
          | .error (some code) => some (s.refuse r code)
          | .ok (t, data) =>
            some (t.appliedElem e { r with applied := r.applied + 1, regs := if r.regs.contains i then r.regs else r.regs ++ [i] } data)

/-- An element arrives: one from this package itself is one that the loopback path carries (R382). -/
def State.arrival (s : State) (fns : List EngFn) (e : Sys2Proof.RemoteElem) (perm kind : Nat)
    (f : State → Sys2Proof.Registration → Nat → Except (Option Nat) (State × List Byte)) : State :=
  if s.link e.pkg = 0 then
    match s.fab.loop.find? (fun q => decide (q.2 = e) && fns.contains q.1) with
    | none => s
    | some q => match s.taken e perm kind f with
      | none => s
      | some t => { t with fab := { t.fab with loop := t.fab.loop.erase q } }
  else (s.taken e perm kind f).getD s

/-- An access that an arriving element makes is of class X, from its home die (R339). -/
def State.remoteDemand (s : State) (home n : Nat) (write : Bool) : State :=
  (granules home n).foldl (fun s g => s.demand (homeDie s home * 32) true
    { granule := g, cls := .x, write := write, hart := none, chan := none, dest := .nothing, issued := s.now, hit := false }) s

/-- REMOTE_PUT_ARRIVAL (R384, R387): the element is an agent write. -/
def execRemotePutArrival (r : Sys2Proof.RemoteElem) (s : State) : Host.Outcome State Fault Refusal :=
  .next (s.arrival [.put] r permPut kWrite (fun s _ home =>
    if r.data.length ≠ r.bytes then .error none
    else if s.tokenHolds home r.bytes then .error none else .ok ((s.agentWrite home r.data).remoteDemand home r.bytes true, [])))

/-- REMOTE_GET_ARRIVAL (R384, R387): the element is read and sent back. -/
def execRemoteGetArrival (r : Sys2Proof.RemoteElem) (s : State) : Host.Outcome State Fault Refusal :=
  .next (s.arrival [.get] r permGet kRead (fun s _ home =>
    if poisoned s home then .error (some eMem) else .ok (s.remoteDemand home r.bytes false, memBytes s home r.bytes)))

/-- REMOTE_RCOPY_ARRIVAL (R248, R384, R387): the element is an agent reduction. -/
def execRemoteRcopyArrival (r : Sys2Proof.RemoteElem) (s : State) : Host.Outcome State Fault Refusal :=
  .next (s.arrival [.rcopy] r permReduce kReduce (fun s _ home =>
    match xOp r.xctl with
    | none => .error (some eOperand)
    | some op =>
      if r.data.length ≠ (xType r.xctl).bytes ∨ s.tokenHolds home r.bytes = true then .error none
      else .ok ((s.agentReduce { home := home, ty := xType r.xctl, op := op, val := BitVec.ofNat 64 (leNat r.data) }).remoteDemand home r.bytes true,
        [])))

/-- REMOTE_SIG_ARRIVAL (R249, R384): counter ICN of the owner of the covering registration grows by the increment.  The SIG bit of the
command's XCTL is 0.  It is checked as an access of one byte (logged as assumption 26). -/
def execRemoteSigArrival (r : Sys2Proof.RemoteElem) (s : State) : Host.Outcome State Fault Refusal :=
  .next (s.arrival [.sig] { r with bytes := 1 } permSignal kRead (fun s g _ =>
    match s.owner g with
    | none => .error (some eRemote)
    | some h => .ok (s.raiseIc h (xIcn r.xctl) (BitVec.ofNat 64 (leNat r.data)), [])))

/-- COMMAND_SEAL (R388): no further element of the command is applied, a pending counter raise is dropped, and the applied count is
reported.  `src` is (binding × 8,192 + package) × 4,096 + context.  No path leads to a 960-D (R4). -/
def execCommandSeal (src cmd : Nat) (s : State) : Host.Outcome State Fault Refusal :=
  if s.bare then .next s
  else
    let r := s.fab.remote (src / 4096 % 8192) (src % 4096) (src / 4096 / 8192) cmd
    .next ((s.setRemote { r with sealed := true }).acknowledge r eLink [])

/-- The commands of a hart that have started toward a package. -/
def Hart.toward (x : Hart) (pkg : Nat) : List (Nat × Run) :=
  ((List.range x.chans.length).zip x.chans).flatMap (fun e =>
    (e.2.running.filter (fun r => r.cmd.remote && decide (xPkg r.cmd.xb1 = pkg))).map (fun r => (e.1, r)))

/-- PACKAGE_DOWN (R388): every command toward the package ends with LINK at the count last acknowledged. -/
def execPackageDown (pkg : Nat) (s : State) : Host.Outcome State Fault Refusal :=
  let s := { s with fab := { s.fab with down := if s.fab.down.contains pkg then s.fab.down else s.fab.down ++ [pkg] } }
  .next (s.harts.foldl (fun s e => match s.hart e.1 with
    | some x => (x.toward pkg).foldl (fun s q => s.cmdFail e.1 q.1 q.2.cmd.id q.2.applied eLink) s
    | none => s) s)

/-! ### Registrations (R383, R385) -/

/-- An entry with its res bits 0 (R383). -/
def regMask (r : Sys2Proof.Registration) : Sys2Proof.Registration :=
  { r with owner := r.owner &&& 0xFFFF_FFFF_FFFF_003F#64, ctl := r.ctl &&& 0x8000_000F_1FFF_1FFF#64 }

/-- A write of an entry: clearing VALID of one in force starts its revocation (R385). -/
def State.writeRegistration (s : State) (i : Nat) (r : Sys2Proof.Registration) : State :=
  if s.bare || decide (256 ≤ i) then s
  else
    let was := match fget none s.fab.regs i with | some q => regValid q | none => false
    { s with fab := { s.fab with
      regs := fset none s.fab.regs i (some (regMask r))
      revoked := if was && !regValid r then fset false s.fab.revoked i true else s.fab.revoked } }

/-- REGISTRATION_WRITE (R383). -/
def execRegistrationWrite (i : Nat) (r : Sys2Proof.Registration) (s : State) : Host.Outcome State Fault Refusal :=
  .next (s.writeRegistration i r)

/-- REVOCATION_DONE (R385): once no command that the entry has accepted is still under way. -/
def execRevocationDone (i : Nat) (s : State) : Host.Outcome State Fault Refusal :=
  if s.fab.remotes.any (fun r => r.regs.contains i && !r.sealed) then .next s
  else .next { s with fab := { s.fab with revoked := fset false s.fab.revoked i false } }

/-! ### Host RDMA (R389, R390, R396) -/

/-- The window that a remote key names: the lowest-numbered valid one; none on a 960-D (R4) and before READY (R396). -/
def State.window (s : State) (key : Nat) : Option Sys2Proof.Registration :=
  if s.bare || !s.mg.pkg.ready then none
  else s.fab.windows.findSome? (fun e => match e.2 with
    | some w => if regValid w.entry && decide (w.key.toNat = key) then some w.entry else none
    | none => none)

/-- A NAK of an access that names `key`. -/
def State.nak (s : State) (key : Nat) : State := if s.bare then s else s.report 22 [BitVec.ofNat 64 key]

/-- A range cut at the multiples of 8: the addresses and lengths of its elements (R390). -/
def elements8 (a : Nat) : Nat → List (Nat × Nat)
  | 0 => []
  | n + 1 =>
    match elements8 (a + 1) n with
    | [] => [(a, 1)]
    | (b, k) :: r => if b % 8 = 0 then (a, 1) :: (b, k) :: r else (a, k + 1) :: r

/-- The check of an RDMA element against its window (R384, R389): its home address. -/
def State.windowCheck (s : State) (g : Sys2Proof.Registration) (perm kind a n : Nat) : Option Nat :=
  if regCovers g a n && bit g.ctl.toNat perm then s.ownerHome g a kind else none

/-- An element waits at its destination (R276). -/
def State.windowHeld (s : State) (g : Sys2Proof.Registration) (es : List (Nat × Nat)) : Bool :=
  es.any (fun e => match s.windowCheck g permPut kWrite e.1 e.2 with | some h => s.tokenHolds h e.2 | none => false)

/-- Applies the elements of a write in order, up to the first that its window refuses: the state, and whether all were applied.  No sheaf commits
between two of them (R275 and R390 do not say; logged as assumption 103). -/
def State.windowWrite (s : State) (g : Sys2Proof.Registration) : List (Nat × Nat) → List Byte → State × Bool
  | [], _ => (s, true)
  | e :: es, bs =>
    match s.windowCheck g permPut kWrite e.1 e.2 with
    | none => (s, false)
    | some h => (s.agentWrite h (bs.take e.2)).windowWrite g es (bs.drop e.2)

/-- A host write (R390): the state after, and whether every byte was applied; none where an element is held. -/
def State.hostWrite (s : State) (key : Nat) (addr : W64) (bytes : List Byte) : Option (State × Bool) :=
  match s.window key with
  | none => some (s.nak key, false)
  | some g =>
    let es := elements8 addr.toNat bytes.length
    if s.windowHeld g es then none
    else match s.windowWrite g es bytes with
      | (t, true) => some (t.report 23 [BitVec.ofNat 64 key], true)
      | (t, false) => some (t.nak key, false)

/-- RDMA_WRITE (R390). -/
def execRdmaWrite (key : Nat) (addr : W64) (bytes : List (BitVec 8)) (s : State) : Host.Outcome State Fault Refusal :=
  .next (((s.hostWrite key addr bytes).map Prod.fst).getD s)

/-- RDMA_WRITE_IMM (R390): an immediate with a bit above 5 is refused before any byte is written; the write complete, counter imm[5:0] of
the window's owner grows by 1 where SG is set. -/
def execRdmaWriteImm (key : Nat) (addr : W64) (bytes : List (BitVec 8)) (imm : BitVec 32) (s : State) : Host.Outcome State Fault Refusal :=
  if 64 ≤ imm.toNat then .next (s.nak key)
  else match s.hostWrite key addr bytes with
    | none => .next s
    | some (t, false) => .next t
    | some (t, true) => match s.window key with
      | none => .next t
      | some g => match (if bit g.ctl.toNat permSignal then s.owner g else none) with
        | some h => .next (t.raiseIc h imm.toNat 1)
        | none => .next t

/-- The bytes of a host read, element by element; none where its window refuses one or the data are poisoned. -/
def State.windowRead (s : State) (g : Sys2Proof.Registration) : List (Nat × Nat) → Option (List Byte)
  | [] => some []
  | e :: es =>
    match s.windowCheck g permGet kRead e.1 e.2 with
    | none => none
    | some h => if poisoned s h then none else (s.windowRead g es).map (memBytes s h e.2 ++ ·)

/-- RDMA_READ (R389, R390): it observes committed memory. -/
def execRdmaRead (key : Nat) (addr : W64) (n : Nat) (s : State) : Host.Outcome State Fault Refusal :=
  match s.window key with
  | none => .next (s.nak key)
  | some g => match s.windowRead g (elements8 addr.toNat n) with
    | none => .next (s.nak key)
    | some bs => .next (s.report 24 (BitVec.ofNat 64 key :: bs.map (fun b => b.setWidth 64)))

/-- RDMA_UNSUPPORTED (R389): refused with a NAK. -/
def execRdmaUnsupported (key : Nat) (s : State) : Host.Outcome State Fault Refusal := .next (s.nak key)

/-! ### Boundaries and numbers (R380, R381) -/

/-- BOUNDARY_RETRAIN (R380): boundary `b`, in the order CD0–CD1, CD0–CD2, CD1–CD3, CD2–CD3, carries its traffic more slowly. -/
def execBoundaryRetrain (b : Nat) (s : State) : Host.Outcome State Fault Refusal :=
  if s.bare then .next s
  else .next { s with fab := { s.fab with bounds := s.fab.bounds.set b ((s.fab.bounds[b]?).getD 0 + 1) } }

/-- Changes the package block. -/
def State.updPkg (s : State) (f : PkgRegs → PkgRegs) : State := { s with mg := { s.mg with pkg := f s.mg.pkg } }

/-- A write of PKGNUM, ignored after Noon (R381). -/
def PkgRegs.writePkgnum (stopped : Bool) (v : W64) (p : PkgRegs) : PkgRegs :=
  if p.pastNoon stopped then p else { p with pkgnum := v &&& 0x1FFF#64 }

/-- A write of PODCFG, ignored after Noon (R381). -/
def PkgRegs.writePodcfg (stopped : Bool) (v : W64) (p : PkgRegs) : PkgRegs :=
  if p.pastNoon stopped then p else { p with podcfg := v &&& 0x3FF_E000_1FFF#64 }

/-- PKGNUM_WRITE (R381). -/
def execPkgnumWrite (v : W64) (s : State) : Host.Outcome State Fault Refusal := .next (s.updPkg (PkgRegs.writePkgnum s.mg.stopped v))

/-- PODCFG_WRITE (R381). -/
def execPodcfgWrite (v : W64) (s : State) : Host.Outcome State Fault Refusal := .next (s.updPkg (PkgRegs.writePodcfg s.mg.stopped v))

end Sys2Proof.Machine
end

