-- ==== Sys2Proof/Machine/Strip.lean ====
section
/-! DEFINITION. Opening a strip (R145 to R150) and the change of an elastic grant (R19). -/

namespace Sys2Proof.Machine

/-- The grant that a strip-opening instruction changes to, if it changes it (R19, R334). -/
def Hart.regrants (x : Hart) : Option Grant :=
  match x.posted with
  | some g => if elastic x.arch.csr && decide (g ≠ x.arch.grant) then some g else none
  | none => none

/-- The state a strip computes its VL in (R19, R146). -/
def Hart.granted (x : Hart) : Arch :=
  match x.regrants with
  | some g => x.arch.regrant g
  | none => x.arch

/-- What a strip-opening instruction comes to: ILL or another trap, a wait for the block-table entry at a physical address, or VTYPE, VL, RUNBASE, the block-table cache and the count of
free choices. -/
inductive StripAsk where
  | trap (cause kind : Nat) (tval : W64)
  | wait (pa : Nat)
  | grant (vt : W64) (vl : Nat) (runbase : Option W64) (cache : FMap W32) (free : Nat)
  deriving DecidableEq, Repr

/-- The least of a list of bounds and, where it is not 0, the cap of a strip trim (R146, R159). -/
def capped (cap n : Nat) : Nat := if cap = 0 then n else min n cap

/-- A trap of a strip-opening instruction (R147): held in the sheaf the instruction would end, or landing at once where no sheaf
is open. -/
def State.openerTrap (s : State) (h : Nat) (x : Hart) (cause kind : Nat) (tval : W64) : State :=
  let t := { plainTrap cause kind x.arch.pc tval x.seqNow with opener := true }
  match x.openSheaf with
  | some _ => s.raise h x t
  | none => ((s.setHart h x).tick 1).landTrap h t false

/-- The block-table entry is asked for, and the scalar side waits for it (R148).  R339 lists no class for it: it is taken as an access of the hart, of
class D (logged as assumption 108). -/
def State.tableMiss (s : State) (h : Nat) (x : Hart) (pa : Nat) : State :=
  ((s.setHart h { x with wait := .table pa, blocked := true, onLoad := [], noProg := 0 }).demands h x.arch.grant.base false .table [pa / 64]).tick 1

/-- A strip-opening instruction with destination `d` (R146 to R148): `ask` gives its VL on the state after a grant change, with the
cap in force.  A grant change waits for what the hart has queued (R19, R218). -/
def stripOp (s : State) (d : Nat) (rs : List Nat) (w : W32) (bad : Arch → Bool) (ask : State → Hart → Arch → Nat → StripAsk) :
    Host.Outcome State Fault Refusal :=
  match s.hart s.cur with
  | none => .fault .noHart
  | some x =>
    let h := s.cur
    if x.arch.sup then withHart s (d :: rs) (fun h y => s.ill h y w)
    else if (d :: rs).any x.waitsOn then .next (s.stallOpener h ((d :: rs).filter x.loads) false)
    else if bad x.arch && (x.openSheaf.isSome || x.sheaves.isEmpty) then .next (s.openerTrap h x 0x01 0 (w.setWidth 64))
    else if decide (2 ≤ x.sheaves.length) || x.bq.any (fun b => !b.here) || (x.openSheaf.isNone && !x.sheaves.isEmpty && bad x.arch)
        || (x.regrants.isSome && !x.queue.isEmpty) then
      .next (s.stallOpener h [] false)
    else if QUnit.viq.size ≤ x.taken .viq then .next (s.stallOpener h [] true)
    else
      let a := x.granted
      match ask s x a (if x.sheaves.isEmpty then x.cap else 0) with
      | .trap c k v =>
        if x.openSheaf.isNone ∧ !x.sheaves.isEmpty then .next (s.stallOpener h [] false)
        else .next (s.openerTrap h x c k v)
      | .wait pa => .next (s.tableMiss h x pa)
      | .grant vt vl rb cache free =>
        let strip := a.rcsr cSTRIP + 1
        let v := BitVec.ofNat 64 vl
        let b := ((a.wcsr cVTYPE vt).wcsr cVL v).wcsr cSTRIP strip
        let b := match rb with | some r => b.wcsr cRUNBASE r | none => b
        let b := { (b.wx d v).next with stripPc := x.arch.pc, nextSplit := 1, bySplit := false }
        let cp := if x.sheaves.isEmpty then x.arch.shed a.grant else x.arch
        let sh := { newSheaf cp x.arch.pc strip x.arch.pc 0 true false v s.now false with grant := a.grant }
        let y := x.close .ordinary
        let y := { y with arch := { b with pc := x.arch.pc }, sheaves := y.sheaves ++ [sh], btcache := cache, tableAt := none, bq := [] }
        let z := y.push .viq .strip w none []
        let s1 : State := { s with free := free }
        .next ((s1.setHart h (z.withArch b)).issue h)

/-- The request of SETVL and SETVLI (R146): A = 0 asks for VLMAX. -/
def askLength (vt : W64) (a : BitVec 5) (s : State) (x : Hart) (g : Arch) (cap : Nat) : StripAsk :=
  let m := vlmax g.grant vt
  let avl := if a = 0 then m else (g.rx a.toNat).toNat
  .grant vt (capped cap (min avl m)) none x.btcache s.free

/-- SETVLI (R146): the immediate holds VTYPE. -/
def execSetvli (d : BitVec 5) (a : BitVec 5) (v : BitVec 11) (s : State) : Host.Outcome State Fault Refusal :=
  let vt : W64 := v.setWidth 64
  stripOp s d.toNat [a.toNat] (packI 33#6 d a (0#5 ++ v)) (fun _ => !vtLegal vt) (askLength vt a)

/-- VCFG.SETVL (R146). -/
def execVcfgSetvl (d : BitVec 5) (a : BitVec 5) (b : BitVec 5) (s : State) : Host.Outcome State Fault Refusal :=
  stripOp s d.toNat [a.toNat, b.toNat] (packR 32#6 d a b 0#3 0#8) (fun r => !vtLegal (r.rx b.toNat))
    (fun s x g cap => askLength (g.rx b.toNat) a s x g cap)

/-- A block-table cache with an entry more: where 64 are held, one that the free choices name is replaced (R149). -/
def cachePut (m : FMap W32) (key : Nat) (v : W32) (free : Nat) : FMap W32 × Nat :=
  if m.length < 64 then (fins m key v, free) else (fins (m.eraseIdx (freeNat free 6)) key v, free + 6)

/-- What the look-up of a block-table entry comes to: the cause of a trap, a read that must come first, or the entry, the cache after and the count of
free choices. -/
inductive Entry where
  | trap (cause : Nat)
  | miss (pa : Nat)
  | found (w : W32) (cache : FMap W32) (free : Nat)
  deriving DecidableEq, Repr

/-- The entry of block `blk` of table `t` at address `ea`, once the access has passed its checks: a held one, or one read from committed
memory, which where timing is kept must have come; which of the two a held entry gives is free, since replacement is (R148, R149). -/
def blockEntry (s : State) (x : Hart) (g : Arch) (t blk ea : Nat) : Entry :=
  let key := t * 2 ^ 64 + blk
  if !g.sup && !boundsOk s g.grant g.csr ea 4 kRead then .trap 0x04
  else match homeOf s g.grant (g.rcsr cPTROOT) ea kRead (!g.sup) with
    | none => .trap 0x03
    | some h =>
      let w := BitVec.ofNat 32 (memNat s h 4)
      let late := s.ms.timed && decide (x.tableAt ≠ some h)
      match ffind x.btcache key with
      | some v =>
        if freeBit s.free then .found v x.btcache (s.free + 1)
        else if late then .miss h
        else if poisoned s h then .trap 0x10
        else .found w (fins x.btcache key w) (s.free + 1)
      | none =>
        if late then .miss h
        else if poisoned s h then .trap 0x10
        else let p := cachePut x.btcache key w s.free; .found w p.1 p.2

/-- VCFG.SETVLRUN's grant (R148). -/
def askRun (t : Nat) (a b : BitVec 5) (s : State) (x : Hart) (g : Arch) (cap : Nat) : StripAsk :=
  let n := (g.rx b.toNat).toNat
  let pos := (g.rx a.toNat).toNat
  let vt := g.rcsr cVTYPE
  if n = 0 then .grant vt 0 none x.btcache s.free
  else
    let cfg := (g.rcsr (0x12 + 4 * t)).toNat
    let l := bits cfg 3 0
    let blk := pos / 2 ^ l
    let off := pos % 2 ^ l
    let ea := ((g.rcsr (0x10 + 4 * t)).toNat + 4 * blk) % 2 ^ 64
    let tv := BitVec.ofNat 64 ea
    if ea % 4 ≠ 0 then .trap 0x02 kRead tv
    else match blockEntry s x g t blk ea with
      | .trap c => .trap c kRead tv
      | .miss p => .wait p
      | .found e cache free =>
        if e = 0xFFFF_FFFF#32 then .trap 0x09 0 tv
        else
          let rb := (g.rcsr (0x11 + 4 * t)).toNat + (e.toNat * 2 ^ l + off) * bits cfg 31 16
          .grant vt (capped cap (min (min n (vlmax g.grant vt)) (2 ^ l - off))) (some (BitVec.ofNat 64 rb)) cache free

/-- VCFG.SETVLRUN (R148). -/
def execVcfgSetvlrun (d : BitVec 5) (a : BitVec 5) (b : BitVec 5) (k : BitVec 2) (s : State) : Host.Outcome State Fault Refusal :=
  stripOp s d.toNat [a.toNat, b.toNat] (packR 32#6 d a b (0#1 ++ k) 1#8) (fun _ => false) (askRun k.toNat a b)

end Sys2Proof.Machine
end

