-- ==== Sys2Proof/Machine/Launch.lean ====
section
/-! DEFINITION. Launch queues, acceptance, placement, elastic grants and pre-emption (R15, R46, R265, R318, R328 to R337, R362). -/

namespace Sys2Proof.Machine

/-! ### Fields of a launch packet (R113) -/

def pEntry (b : List Byte) : Nat := fieldAt b 0 8
def pAdvice (b : List Byte) : Nat := fieldAt b 8 8
def pGang (b : List Byte) : Nat := fieldAt b 24 2
def pFlags (b : List Byte) : Nat := fieldAt b 26 2
def pVlen (b : List Byte) : Nat := fieldAt b 28 4

/-- The rows of R17. -/
def vlenRows : List Nat := [2048, 4096, 8192, 16384, 32768, 65536, 131072, 262144, 524288, 1048576]

/-- The accepted advice image of a program whose .marks stand at an address: the one last accepted for its semantic image (R119, R120).  A launch that
names the address of one since replaced names none (logged as assumption 98). -/
def State.adviceAt (s : State) (root : W64) (a : Nat) : Option AdvImage :=
  s.mg.images.find? (fun e => decide (e.root = root) && decide (e.marks.toNat = a)
    && decide (s.mg.images.find? (fun f => decide (f.root = root) && decide (f.hash = e.hash)) = some e))

/-- The packet as it is accepted: the advice image that it names is the one in force now, whatever replaces that image before the packet is placed
(R120). -/
def Packet.accepted (p : Packet) (s : State) : Packet :=
  { p with since := s.now, advice := if pAdvice p.bytes = 0 then none else s.adviceAt p.ptroot (pAdvice p.bytes) }

/-- The reason that rejects a packet, if any (R330). -/
def packetReason (s : State) (p : Packet) : Option Nat :=
  let b := p.bytes
  let f := pFlags b
  let v := pVlen b
  if pEntry b % 4 ≠ 0 ∨ bits (pEntry b) 63 58 ≠ 0 then some 0x01
  else if pGang b = 0 ∨ 64 < pGang b then some 0x02
  else if !vlenRows.contains v then some 0x03
  else if f / 128 ≠ 0 ∨ (b.drop 96).any (fun x => decide (x ≠ 0)) then some 0x04
  else if bit f 0 ∧ 1 < pGang b then some 0x05
  else if bit f 1 ∧ v < 8192 then some 0x06
  else if Config.clusters s.bare * 8192 < v * pGang b then some 0x07
  else if p.eng.isNone ∧ fieldAt b 88 8 = 0 then some 0x08
  else if pAdvice b ≠ 0 ∧ (s.adviceAt p.ptroot (pAdvice b)).isNone then some 0x09
  else if p.charac.isSome ∧ (pGang b ≠ 1 ∨ v ≠ 2048 ∨ f % 16 ≠ 0) then some 0x0A
  else if p.eng.isSome ∧ fieldAt b 88 8 ≠ 0 then some 0x0B
  else none

/-! ### Queue registers (R329) -/

/-- A write of LQTAIL; lq8 cannot be written (R329). -/
def DieRegs.writeLqtail (k : Nat) (v : W64) (r : DieRegs) : DieRegs :=
  if 8 ≤ k then r else { r with lqtail := fset 0 r.lqtail k (v.toNat % 2 ^ 32) }

/-- LQTAIL_WRITE (R329). -/
def execLqtailWrite (die k : Nat) (v : W64) (s : State) : Host.Outcome State Fault Refusal :=
  .next (s.updDie die (DieRegs.writeLqtail k v))

/-- The value LQCFG takes (R329): a bad ring size leaves EN at 0. -/
def lqcfgValue (v : W64) : W64 :=
  let n := bits v.toNat 4 0
  let w := v &&& 0x1071F#64
  if 1 ≤ n ∧ n ≤ 16 then w else w &&& 0x71F#64

/-- A write of LQCFG (R329). -/
def DieRegs.writeLqcfg (k : Nat) (v : W64) (r : DieRegs) : DieRegs :=
  if 8 ≤ k then r else { r with lqcfg := fset 0 r.lqcfg k (lqcfgValue v) }

/-- LQCFG_WRITE (R329). -/
def execLqcfgWrite (die k : Nat) (v : W64) (s : State) : Host.Outcome State Fault Refusal :=
  .next (s.updDie die (DieRegs.writeLqcfg k v))

/-! ### Taking and checking packets (R328 to R330) -/

/-- A packet of a queue waits to be placed, and holds back those behind it (R328). -/
def State.queueBusy (s : State) (die k : Nat) : Bool :=
  s.disp.packets.any (fun p => decide (p.die = die) && decide (p.queue = k))

/-- The packet at the head of a queue. -/
def State.queueHead (s : State) (die k : Nat) : Option Packet :=
  match s.disp.dieRegs[die]? with
  | none => none
  | some r =>
    if s.queueBusy die k then none
    else if k = 8 then s.disp.inner.find? (fun p => decide (p.die = die))
    else
      let cfg := (fget 0 r.lqcfg k).toNat
      let head := fget 0 r.lqhead k
      if !bit cfg 16 ∨ head = fget 0 r.lqtail k then none
      else
        let a := bits (fget 0 r.lqbase k).toNat 51 7 * 128 + head % 2 ^ bits cfg 4 0 * 128
        let b := memBytes s a 128
        some { die := die, queue := k, bytes := b, prio := min (bits (pFlags b) 6 4) (bits cfg 10 8),
               ptroot := BitVec.ofNat 64 (fieldAt b 88 8), eng := none, charac := none, since := s.now, advice := none }

/-- The place of a queue in the round-robin of its die (R333). -/
def turnOf (rr k : Nat) : Nat := (k + 8 - rr) % 9

/-- The queue whose head the dispatcher of a die takes next: highest priority, then round-robin (R333). -/
def State.nextQueue (s : State) (die : Nat) : Option Nat :=
  match s.disp.dieRegs[die]? with
  | none => none
  | some r =>
    let heads := (List.range 9).filterMap (fun k => (s.queueHead die k).map (fun p => (k, p.prio)))
    heads.foldl (fun (b : Option (Nat × Nat)) q => match b with
      | none => some q
      | some c => if c.2 < q.2 ∨ (c.2 = q.2 ∧ turnOf r.rr q.1 < turnOf r.rr c.1) then some q else b) none |>.map Prod.fst

/-- What a rejection records (R329, R330). -/
def DieRegs.reject (r : DieRegs) (k index reason : Nat) : DieRegs :=
  let c := min (bits (fget 0 r.lqerr k).toNat 31 16 + 1) 0xFFFF
  ({ r with lqerr := fset 0 r.lqerr k (BitVec.ofNat 64 (index * 2 ^ 32 + c * 2 ^ 16 + reason)) } : DieRegs).gangDone k

/-- A packet fails a check (R330): a queue launch records it, an ENG.LAUNCH ends with LAUNCH, and a system-core launch gets the
reason over the control protocol. -/
def State.rejectPacket (s : State) (p : Packet) (index reason : Nat) : State :=
  let s := s.updDie p.die (fun r => r.reject p.queue index reason)
  match p.eng with
  | some (h, ch, id) => s.cmdFail h ch id 0 eLaunch
  | none => if p.queue = 8 then s.report 6 [BitVec.ofNat 64 p.die, BitVec.ofNat 64 reason] else s

/-- DISPATCH_PACKET (R330): the dispatcher takes the packet at the head of a queue whose turn it is, and checks it.  A rejected packet leaves the
round-robin of R333 where it is, which the rule leaves open (logged as assumption 109). -/
def execDispatchPacket (die k : Nat) (s : State) : Host.Outcome State Fault Refusal :=
  if s.nextQueue die ≠ some k then .next s
  else
    match s.queueHead die k, s.disp.dieRegs[die]? with
    | some p, some r =>
      let index := fget 0 r.lqhead k
      let s := s.updDie die (fun r => { r with lqhead := fset 0 r.lqhead k ((index + 1) % 2 ^ 32) })
      let s := if k = 8 then { s with disp := { s.disp with inner := s.disp.inner.erase p } } else s
      match packetReason s p with
      | some c => .next (s.rejectPacket p index c)
      | none => .next { s with disp := { s.disp with packets := s.disp.packets ++ [p.accepted s] } }
    | _, _ => .next s

/-! ### Lanes (R16, R331, R332) -/

/-- The lanes, as cluster × 4 + quarter, that a hart holds: its grant, a posted one, those its open sheaves run with, and those that a squash would
give back (R334). -/
def Hart.lanes (x : Hart) : List Nat :=
  if x.parked then []
  else x.arch.grant.lanes ++ (match x.posted with | some g => g.lanes | none => []) ++ x.sheaves.flatMap (fun sh => sh.grant.lanes ++ sh.cp.grant.lanes)

/-- A cluster that may be placed on (R399). -/
def State.powered (s : State) (c : Nat) : Bool :=
  match s.mg.gates[c]? with
  | some g => !g.gated
  | none => false

/-- A lane that no hart but `me` holds. -/
def State.laneFree (s : State) (me : Option Nat) (l : Nat) : Bool :=
  s.powered (l / 4) && s.harts.all (fun e => decide (some e.1 = me) || !e.2.lanes.contains l)

/-- The places of the part for a VLEN (R331). -/
def placesFor (s : State) (vlen : Nat) : List Sys2Proof.Place :=
  let n := Config.clusters s.bare
  if vlen = 2048 then (List.range (4 * n)).map (fun i => { cluster := i / 4, quarter := i % 4 })
  else if vlen = 4096 then (List.range (2 * n)).map (fun i => { cluster := i / 2, quarter := i % 2 * 2 })
  else
    let c := vlen / 8192
    if c ≤ 32 then (List.range (n / c)).map (fun i => { cluster := i * c, quarter := 0 })
    else if s.bare then []
    else if c = 64 then [(0, 1), (0, 2), (1, 3), (2, 3)].map (fun p => { cluster := 32 * p.1, quarter := p.2 })
    else [{ cluster := 0, quarter := 0 }]

/-- The lanes of a place. -/
def placeLanes (vlen : Nat) (p : Sys2Proof.Place) : List Nat := (grantAt vlen p).lanes

/-- A place whose lanes are free. -/
def State.placeFree (s : State) (me : Option Nat) (vlen : Nat) (p : Sys2Proof.Place) : Bool :=
  (placesFor s vlen).contains p && (placeLanes vlen p).all (s.laneFree me)

/-- The cluster groups of a list of lanes (R332). -/
def groupsOf (ls : List Nat) : List Nat := (ls.map (· / 32)).eraseDups

/-- Places of a list that share no lane, the first of each that do. -/
def apart (vlen : Nat) (ps : List Sys2Proof.Place) : List Sys2Proof.Place :=
  ps.foldl (fun l p => if (placeLanes vlen p).any (fun c => (l.flatMap (placeLanes vlen)).contains c) then l else l ++ [p]) []

/-- A gang that must lie within one cluster group (R332). -/
def oneGroup (vlen n : Nat) : Bool := decide (vlen ≤ 65536) && decide (vlen * n ≤ 65536)

/-- The fewest cluster groups in which `n` free places of a list lie: the groups with most places first. -/
def fewestGroups (vlen n : Nat) (ps : List Sys2Proof.Place) : Nat :=
  if 65536 < vlen then n * (vlen / 65536)
  else
    let counts := (List.range 16).map (fun g => (ps.filter (fun p => decide (p.cluster / 8 = g))).length)
    (sortBy (fun a b => decide (b ≤ a)) counts).foldl (fun (q : Nat × Nat) c =>
      if n ≤ q.1 then q else (q.1 + c, q.2 + 1)) (0, 0) |>.2

/-- A whole gang fits in a list of free places. -/
def fitsIn (vlen n : Nat) (ps : List Sys2Proof.Place) : Bool :=
  decide (n ≤ (apart vlen ps).length) && (!oneGroup vlen n || decide (fewestGroups vlen n ps = 1))

/-- A placement of `n` harts is one the dispatcher of a die may choose (R331, R332): free and disjoint, on the die of the queue
where the gang fits there, within one cluster group where its size asks for that, and in the fewest groups. -/
def State.placementOk (s : State) (die vlen n : Nat) (ps : List Sys2Proof.Place) : Bool :=
  let ls := ps.flatMap (placeLanes vlen)
  let free := (placesFor s vlen).filter (s.placeFree none vlen)
  let here := free.filter (fun p => (placeLanes vlen p).all (fun l => decide (l / 128 = die)))
  let pool := if fitsIn vlen n here then here else free
  decide (ps.length = n) && ps.all (fun p => pool.contains p) && decide ls.Nodup
  && decide ((groupsOf ls).length = fewestGroups vlen n pool) && (!oneGroup vlen n || decide ((groupsOf ls).length ≤ 1))

/-- A launch or a restore that waits for lanes: its priority, VLEN, number of harts, whether it is a restore, and its queue. -/
structure Waiter where
  prio    : Nat
  vlen    : Nat
  size    : Nat
  restore : Bool
  queue   : Nat
  deriving DecidableEq, Repr

/-- A packet that waits. -/
def Packet.waiter (p : Packet) : Waiter := { prio := p.prio, vlen := pVlen p.bytes, size := pGang p.bytes, restore := false, queue := p.queue }

/-- A pre-empted gang that waits: its harts keep the sizes of their grants (R318). -/
def State.gangWaiter (s : State) (g : Gang) : Waiter :=
  { prio := g.prio, vlen := ((g.live.head?.bind s.hart).map (fun x => 8 * x.arch.grant.vlenb)).getD 2048, size := g.live.length, restore := true,
    queue := g.queue }

/-- What waits at a die: packets that have been taken, those at the heads of its queues that have not and are valid, and pre-empted gangs (R333). -/
def State.waiters (s : State) (die : Nat) : List Waiter :=
  (List.range 9).filterMap (fun k => (s.queueHead die k).bind (fun p => if (packetReason s p).isNone then some p.waiter else none))
  ++ s.disp.packets.filterMap (fun p => if p.die = die then some p.waiter else none)
  ++ s.disp.restore.filterMap (fun e => match ffind s.gangs e.1 with
    | some g => if g.die = die then some (s.gangWaiter g) else none
    | none => none)

/-- `a` goes before `b` (R333). -/
def Waiter.before (rr : Nat) (a b : Waiter) : Bool :=
  decide (b.prio < a.prio) || (decide (a.prio = b.prio) && ((a.restore && !b.restore)
    || (decide (a.restore = b.restore) && decide (turnOf rr a.queue < turnOf rr b.queue))))

/-- A hart will give up a lane: a requested pre-emption has it land, or a posted change of its grant leaves the lane out (R334, R336). -/
def Hart.givesUp (x : Hart) (l : Nat) : Bool := decide (x.preempt ≠ 0) || x.posted.any (fun g => !g.lanes.contains l)

/-- A lane that is free, that will be given up, or that a pre-emption for a launch of priority `p` could free (R336). -/
def State.laneWithin (s : State) (p l : Nat) : Bool :=
  s.powered (l / 4) && s.harts.all (fun e => !e.2.lanes.contains l || e.2.givesUp l
    || (!e.2.gone && !e.2.charac && (match ffind s.gangs e.2.gang with | some g => decide (g.prio < p) | none => false)))

/-- A lane that is free or that will be given up. -/
def State.laneComing (s : State) (l : Nat) : Bool := s.powered (l / 4) && s.harts.all (fun e => !e.2.lanes.contains l || e.2.givesUp l)

/-- A launch or restore fits once the pre-emptions and changes of grants that have been asked for have taken place (R334, R336). -/
def State.willFit (s : State) (w : Waiter) : Bool :=
  fitsIn w.vlen w.size ((placesFor s w.vlen).filter (fun p => (placeLanes w.vlen p).all s.laneComing))

/-- A place for a hart of a waiting launch, of lanes that are free or that pre-emption could free. -/
def State.placeWithin (s : State) (w : Waiter) (p : Sys2Proof.Place) : Bool := (placeLanes w.vlen p).all (s.laneWithin w.prio)

/-- A waiting launch fits whole with one of its harts at a place of `ps`, the places it could have (R331, R332): the others lie beside that place, in
its cluster group where the gang must lie in one. -/
def Waiter.fitsWith (w : Waiter) (ps : List Sys2Proof.Place) (p : Sys2Proof.Place) : Bool :=
  let qs := ps.filter (fun q => !oneGroup w.vlen w.size || decide (q.cluster / 8 = p.cluster / 8))
  -- only places of more than one die overlap
  decide (w.size ≤ (if w.vlen ≤ 262144 then qs else apart w.vlen (p :: qs)).length)

/-- A lane that a waiting launch could use, placed whole, once pre-emption has freed lanes for it (R332, R333). -/
def State.couldUse (s : State) (w : Waiter) (l : Nat) : Bool :=
  (placesFor s w.vlen).any (fun p => (placeLanes w.vlen p).contains l && s.placeWithin w p
    && w.fitsWith ((placesFor s w.vlen).filter (s.placeWithin w)) p)

/-- A placement does not pass a launch of its own priority that goes before it, takes nothing from one of a higher priority (R333), nor from a
characterisation launch (R362). -/
def State.orderOk (s : State) (die : Nat) (me : Waiter) (ps : List Sys2Proof.Place) : Bool :=
  let ls := ps.flatMap (placeLanes me.vlen)
  match s.disp.dieRegs[die]? with
  | none => false
  | some r =>
    (s.waiters die).all (fun w => !w.before r.rr me || (decide (me.prio < w.prio) && ls.all (fun l => !s.couldUse w l)))
    && s.disp.charQ.all (fun q => match q.charac with | some c => !ls.contains (4 * c) | none => true)

/-! ### Starting a gang (R15, R46, R332) -/

/-- HSTATUS of a new hart (R310, R332). -/
def launchStatus (flags prio : Nat) (charac : Bool) : W64 :=
  BitVec.ofNat 64 ((if charac then 1 else 0) + prio % 8 * 16 + (if bit flags 3 then 0x80 else 0) + (if bit flags 0 then 0x100 else 0)
    + (if bit flags 1 then 0x200 else 0) + (if bit flags 2 then 0x400 else 0))

/-- The CSRs of a new hart (R46). -/
def launchCsrs (d : Dispatch) (h : Nat) (p : Packet) (g : Grant) (size index : Nat) : FMap W64 :=
  let n := fun (v : Nat) => BitVec.ofNat 64 v
  let st := launchStatus (pFlags p.bytes) p.prio p.charac.isSome
  let l : List (Nat × W64) :=
    [(cVTYPE, 3), (cVLENB, n g.vlenb), (cGRANT, g.csr (bit (pFlags p.bytes) 0)), (cSRSEED, 1), (cHARTINFO, n (size * 65536 + index)),
     (0x12, 0x10004), (0x16, 0x10004), (0x1A, 0x10004), (0x1E, 0x10004),
     (cMSKSHAPE, n (64 + 64 * max g.clusters 1 * 65536)),
     (cTVEC, d.tvec), (cSUPSCR, d.supscr), (cSAVEPTR, d.saveptr + n (h * 0x2000_0000)), (cPTROOT, p.ptroot), (cHSTATUS, st),
     (cADVPTR, n (pAdvice p.bytes)), (cBNDTAB, n (fieldAt p.bytes 80 8))]
    ++ (List.range 8).map (fun i => (cZCFG + i, zcfgReset g))
  l.foldl (fun m e => fset 0 m e.1 e.2) []

/-- The scalar registers of a new hart: x10 to x17 hold what R15 gives, and every other register, sp, gp and hp among them, is 0 (R15, R34). -/
def launchRegs (p : Packet) (size index : Nat) : FMap W64 :=
  let l := (10, fieldAt p.bytes 16 8) :: (List.range 6).map (fun i => (11 + i, fieldAt p.bytes (32 + 8 * i) 8)) ++ [(17, size * 65536 + index)]
  l.foldl (fun m e => fset 0 m e.1 (BitVec.ofNat 64 e.2)) []

/-- A channel at launch (R233 to R235). -/
def Chan.fresh : Chan := { ctx := none, waiting := [], running := [], done := [], tl := 0, err := none }

/-- A hart as it starts (R15, R46, R332). -/
def newHart (d : Dispatch) (h gang : Nat) (p : Packet) (g : Grant) (index : Nat) : Hart :=
  let size := pGang p.bytes
  let pc := BitVec.ofNat 64 (pEntry p.bytes)
  { gang := gang, index := index, size := size,
    arch := { pc := pc, x := launchRegs p size index, v := [], m := [], q := [], z := [], tam := [], mp := [],
              csr := launchCsrs d h p g size index, grant := g, stripPc := pc, nextSplit := 0, bySplit := false },
    cnt := [], sheaves := [], queue := [], bq := [], pend := [], wait := .none, blocked := false, onLoad := [], overBq := false, atOpener := false, cap := 0, squash := 0,
    ibuf := none, btcache := [], tableAt := none,
    landing := none, held := none, chans := List.replicate 8 Chan.fresh, adv := none, ic := [], effPrio := p.prio, dc := 0, issued := 0, issueAt := 0,
    posted := none, vlen := pVlen p.bytes, preempt := 0, noProg := 0, parked := false, gone := false, charac := p.charac.isSome, ahead := false }

/-- The sequencer of a hart launched with an advice image starts at START of its mark table, with the .advice that the loader put behind that (R116,
R120, R286). -/
def State.startAdvice (s : State) (img : Option AdvImage) (h : Nat) : State :=
  s.updHart h (fun x =>
    match img with
    | none => x
    | some e =>
      if e.marks = 0 then x
      else
        let start := match s.supRead x e.marks.toNat with | some v => v / 2 ^ 32 | none => 0xFFFF_FFFF
        { x with adv := some (Adv.launch start e.base e.size s.now) })

/-- Starts every hart of a gang (R332): a new gang with a launch identity (R383), and cleared scratchpads (R327). -/
def State.startGang (s : State) (p : Packet) (ps : List Sys2Proof.Place) : State :=
  let n := pGang p.bytes
  let hs := (List.range n).map (fun i => s.nextHart + i)
  let s := ps.foldl (fun s p0 => clearScratch s (grantAt (pVlen p.bytes) p0)) s
  let g : Gang := { ident := s.nextGang % 2 ^ 48, size := n, live := hs, gen := 0, arrived := [], prio := p.prio, die := p.die,
                    queue := p.queue, eng := p.eng, normal := 0, placedAt := s.now }
  let gang := s.nextGang
  let first := s.nextHart
  let none_ := s.harts.all (fun e => e.2.gone)
  let d := s.disp
  let s := { s with gangs := fins s.gangs gang g, nextGang := gang + 1, nextHart := first + n,
                    harts := ((List.range n).zip ps).foldl (fun m e =>
                      fins m (first + e.1) (newHart d (first + e.1) gang p (grantAt (pVlen p.bytes) e.2) e.1)) s.harts,
                    cur := if none_ then first else s.cur }
  let s := hs.foldl (fun s h => s.startAdvice p.advice h) s
  match p.eng with
  | none => s
  | some (h, ch, id) => s.updHart h (fun x => match x.chans[ch]? with
    | some c => x.setChan ch { c with running := c.running.map (fun r => if r.cmd.id = id then { r with gang := some gang } else r) }
    | none => x)

/-- GANG_PLACE (R332): the packet of a queue is placed whole; or, from lq8, a characterisation launch on quarter 0 of its
cluster (R362). -/
def execGangPlace (die k : Nat) (at_ : List Sys2Proof.Place) (s : State) : Host.Outcome State Fault Refusal :=
  match s.disp.charQ.find? (fun p => decide (k = 8) && decide (at_ = [{ cluster := p.charac.getD 0, quarter := 0 }])) with
  | some p =>
    if at_.all (s.placeFree none 2048) then
      .next ((({ s with disp := { s.disp with charQ := s.disp.charQ.erase p } } : State).tickWired (p.charac.getD 0)).startGang p at_)
    else .next s
  | none =>
    match s.disp.packets.find? (fun p => decide (p.die = die) && decide (p.queue = k)) with
    | none => .next s
    | some p =>
      let w := p.waiter
      if s.placementOk die w.vlen (pGang p.bytes) at_ && s.orderOk die w at_ then
        let s := { s with disp := { s.disp with packets := s.disp.packets.erase p } }
        .next ((s.startGang p at_).updDie die (fun r => { r with rr := k }))
      else .next s

/-- CHARACTERISATION_LAUNCH's placement, where its quarter is free (R362). -/
def State.placeCharac (s : State) : Option (List Sys2Proof.Place) :=
  (s.disp.charQ.filterMap (fun p => p.charac)).findSome? (fun c =>
    if s.placeFree none 2048 { cluster := c, quarter := 0 } then some [{ cluster := c, quarter := 0 }] else none)

/-- GANG_RESTORE (R318, R333, R336): a pre-empted gang is restored whole on grants of the same sizes; no queue is served. -/
def execGangRestore (g : Nat) (at_ : List Sys2Proof.Place) (s : State) : Host.Outcome State Fault Refusal :=
  match ffind s.gangs g, s.disp.restore.find? (fun e => decide (e.1 = g)) with
  | some q, some e =>
    let w := s.gangWaiter q
    let vlen := w.vlen
    if s.placementOk q.die vlen q.live.length at_ && s.orderOk q.die w at_ then
      let s := { s with gangs := fins s.gangs g { q with placedAt := s.now }, disp := { s.disp with restore := s.disp.restore.erase e } }
      .next (((sortBy (fun a b => decide (a ≤ b)) q.live).zip at_).foldl (fun s p => s.restoreHart p.1 (grantAt vlen p.2)) s)
    else .next s
  | _, _ => .next s

/-- The sizes that an elastic hart may be posted (R334). -/
def Hart.elasticSizes (x : Hart) : List Nat := vlenRows.filter (fun v => decide (v ≤ x.vlen) && (!needsZ x.arch.csr || decide (8192 ≤ v)))

/-- The size that an elastic hart has or has been posted. -/
def Hart.size_ (x : Hart) : Nat := 8 * (x.posted.getD x.arch.grant).vlenb

/-- An elastic hart that could be grown now, with its gang's priority (R334). -/
def State.growable (s : State) (h : Nat) (x : Hart) : Bool :=
  elastic x.arch.csr && !x.parked && !x.gone && x.elasticSizes.any (fun v => decide (x.size_ < v) && (placesFor s v).any (s.placeFree (some h) v))

/-- The priority of a hart's gang. -/
def State.prioOf (s : State) (x : Hart) : Nat := (ffind s.gangs x.gang).elim 0 (·.prio)

/-- Growing a hart passes over no elastic hart of a higher priority, and takes no quarter that a characterisation launch waits for (R334, R362). -/
def State.mayTake (s : State) (h : Nat) (x : Hart) (vlen : Nat) (at_ : Sys2Proof.Place) : Bool :=
  (decide (vlen ≤ x.size_) || s.harts.all (fun e => decide (s.prioOf e.2 ≤ s.prioOf x) || !s.growable e.1 e.2))
  && s.disp.charQ.all (fun q => match q.charac with
    | some c => !(placeLanes vlen at_).contains (4 * c) || x.arch.grant.lanes.contains (4 * c)
    | none => true)
  && s.placeFree (some h) vlen at_

/-- GRANT_POST (R334): a new grant for an elastic hart, on its own lanes and free ones. -/
def execGrantPost (h vlen : Nat) (at_ : Sys2Proof.Place) (s : State) : Host.Outcome State Fault Refusal :=
  match s.hart h with
  | none => .next s
  | some x =>
    if elastic x.arch.csr && !x.parked && !x.gone && x.elasticSizes.contains vlen && s.mayTake h x vlen at_ then
      .next (s.setHart h { x with posted := some (grantAt vlen at_) })
    else .next s

/-! ### Pre-emption (R265, R336, R337) -/

/-- Pre-emption of a hart is requested: it lands at the next commit, or at once where no sheaf is open and no trap is being
served (R261, R337); a hart in SYS.WFI wakes (R140). -/
def Hart.askPreempt (x : Hart) : Hart :=
  if x.parked || x.charac || decide (x.preempt ≠ 0) then x
  else
    let y := x.wake
    { y with preempt := if y.sheaves.isEmpty && y.landing.isNone then 2 else 1, noProg := 0 }

/-- Asks every hart of a gang. -/
def State.askPreempt (s : State) (q : Gang) : State := q.live.foldl (fun s h => s.updHart h Hart.askPreempt) s

/-- The lanes a gang holds. -/
def State.gangLanes (s : State) (q : Gang) : List Nat := q.live.flatMap (fun h => match s.hart h with | some x => x.lanes | none => [])

/-- Shrinking an elastic hart, of a priority no higher than the gang's, would give the launch lanes: that is done in place of pre-empting the gang
(R334). -/
def State.shrinkFirst (s : State) (w : Waiter) (q : Gang) : Bool :=
  s.harts.any (fun e => elastic e.2.arch.csr && !e.2.parked && !e.2.gone && decide (e.2.preempt = 0) && decide (s.prioOf e.2 ≤ q.prio)
    && e.2.elasticSizes.any (fun v => decide (v < e.2.size_)) && (e.2.posted.getD e.2.arch.grant).lanes.any (s.couldUse w))

/-- A waiting launch of higher priority, which does not fit with what is free or will be, needs the gang's lanes, no elastic hart is to be shrunk
instead, and the gang is the one to choose: lowest band, then most recently placed (R334, R336).  A gang's band here is that of its launch priority,
whatever effective priorities its harts have by ADV.PRIO, which R336 leaves open (logged as assumption 106). -/
def State.neededBy (s : State) (g : Nat) (q : Gang) : Bool :=
  (List.range 4).any (fun d => (s.waiters d).any (fun w => !w.restore && (
    let wants (k : Gang) : Bool := decide (k.prio < w.prio) && (s.gangLanes k).any (s.couldUse w)
    !s.willFit w && !s.shrinkFirst w q
    && wants q && s.gangs.all (fun e => decide (e.1 = g) || !wants e.2 || decide (q.prio < e.2.prio)
      || (decide (q.prio = e.2.prio) && decide (e.2.placedAt ≤ q.placedAt))
      || e.2.live.all (fun h => match s.hart h with | some x => decide (x.preempt ≠ 0) || x.parked | none => true)))))

/-- A hart of the gang has called ECALL service 1 (R138). -/
def State.yields (s : State) (q : Gang) : Bool :=
  q.live.any (fun h => match s.hart h with
    | some x => match x.landing with
      | some l => decide (bits (x.arch.rcsr cTCAUSE).toNat 7 0 = 0x0C) && decide (l.arch.rx 10 = 1)
      | none => false
    | none => false)

/-- PREEMPT_REQUEST (R336). -/
def execPreemptRequest (g : Nat) (why : Sys2Proof.PreemptWhy) (s : State) : Host.Outcome State Fault Refusal :=
  match ffind s.gangs g with
  | none => .next s
  | some q =>
    let ok := match why with
      | .higherPriority => s.neededBy g q
      | .yield => s.yields q
      | .systemCore => true
    if ok then .next (s.askPreempt q) else .next s

/-- PREEMPT_STARVATION_TIMEOUT (R336): the gang has run 2^22 ck while a launch of its priority has waited as long, and no elastic hart is to be shrunk
for that in its place (R334). -/
def execPreemptStarvationTimeout (g : Nat) (s : State) : Host.Outcome State Fault Refusal :=
  match ffind s.gangs g with
  | none => .next s
  | some q =>
    if q.placedAt + 2 ^ 22 ≤ s.now ∧ s.disp.packets.any (fun p => decide (p.prio = q.prio) && decide (p.since + 2 ^ 22 ≤ s.now)
        && !s.shrinkFirst { p.waiter with prio := p.prio + 1 } q) then
      .next (s.askPreempt q)
    else .next s

/-- With a pre-emption pending the oldest sheaf has been open for 2^18 ck, and the scalar side executes in it, waits for a word or a
block-table entry, or waits in SYNC.QDRAIN (R265, R337). -/
def Hart.splitDue (x : Hart) (now : Nat) : Bool :=
  match x.openSheaf with
  | none => false
  | some sh => decide (x.preempt = 1) && decide (x.sheaves.length = 1) && x.landing.isNone && decide (sh.openedAt + 2 ^ 18 ≤ now)
      && x.bq.all (fun b => b.here) && (match x.wait with | .none => true | .qdrain _ => true | .fetch _ => true | .table _ => true | _ => false)

/-- PREEMPT_SPLIT_TIMEOUT (R265, R337): the forced split, before the next instruction. -/
def execPreemptSplitTimeout (h : Nat) (s : State) : Host.Outcome State Fault Refusal :=
  match s.hart h with
  | none => .next s
  | some x =>
    if x.splitDue s.now then
      let y := x.close .split
      .next ((s.setHart h { y with arch := { y.arch with bySplit := true }, bq := [], wait := .none }).settle h)
    else .next s

/-- PREEMPTION_LANDING (R318, R337). -/
def execPreemptionLanding (h : Nat) (s : State) : Host.Outcome State Fault Refusal :=
  match s.hart h with
  | none => .next s
  | some x => if x.preempt = 2 ∧ x.landing.isNone ∧ x.held.isNone ∧ !x.parked then .next (s.landPreempt h) else .next s

/-! ### What the dispatchers do of themselves -/

/-- Places for a gang on a list of free ones, from the cluster groups with most places first (R332). -/
def pickPlaces (n : Nat) (ps : List Sys2Proof.Place) : List Sys2Proof.Place :=
  let groups := (List.range 16).map (fun g => ps.filter (fun p => decide (p.cluster / 8 = g)))
  (sortBy (fun a b => decide (b.length ≤ a.length)) groups).flatten.take n

/-- A placement for a waiting gang, where there is one now (R331 to R333). -/
def State.autoPlace (s : State) (die n : Nat) (w : Waiter) : Option (List Sys2Proof.Place) :=
  let free := (placesFor s w.vlen).filter (s.placeFree none w.vlen)
  let here := free.filter (fun p => (placeLanes w.vlen p).all (fun l => decide (l / 128 = die)))
  let ps := pickPlaces n (apart w.vlen (if fitsIn w.vlen n here then here else free))
  if s.placementOk die w.vlen n ps && s.orderOk die w ps then some ps else none

/-- A pre-empted gang that can be restored, and where. -/
def State.restorable (s : State) : Option (Nat × List Sys2Proof.Place) :=
  s.disp.restore.findSome? (fun e => match ffind s.gangs e.1 with
    | some g =>
      (s.autoPlace g.die g.live.length (s.gangWaiter g)).map (fun ps => (e.1, ps))
    | none => none)

/-- A packet that can be placed, and where. -/
def State.placeable (s : State) : Option (Packet × List Sys2Proof.Place) :=
  s.disp.packets.findSome? (fun p =>
    (s.autoPlace p.die (pGang p.bytes) p.waiter).map (fun ps => (p, ps)))

/-- Nothing waits at any dispatcher. -/
def Dispatch.quiet (d : Dispatch) : Bool :=
  d.inner.isEmpty && d.packets.isEmpty && d.restore.isEmpty && d.dieRegs.all (fun r => r.lqtail.isEmpty && r.lqhead.isEmpty)

/-- The next act of the dispatchers, where one can act: a packet is taken, a pre-empted gang restored, or a packet placed (R328 to
R333). -/
def State.dispatchNext (s : State) : Option (Host.Outcome State Fault Refusal) :=
  if s.disp.quiet then none
  else match (List.range s.disp.dieRegs.length).findSome? (fun d => (s.nextQueue d).map (fun k => (d, k))) with
    | some (d, k) => some (execDispatchPacket d k s)
    | none => match s.restorable with
      | some (g, ps) => some (execGangRestore g ps s)
      | none => s.placeable.map (fun q => execGangPlace q.1.die q.1.queue q.2 s)

end Sys2Proof.Machine
end

