-- ==== Sys2Proof/Machine/Image.lean ====
section
/-! DEFINITION. Image pairs and their checks: the Shuom file (R110, R111), the hash of a semantic image (R118), and the loader's
checks of an image pair (R116, R119). -/

namespace Sys2Proof.Machine

/-! ### SHA-256 (R118) -/

/-- The largest number that setting bits below `b` in `r` gives whose `k`-th power is at most `n`. -/
def rootFrom (k n : Nat) : Nat → Nat → Nat
  | 0, r => r
  | b + 1, r => rootFrom k n b (if (r + 2 ^ b) ^ k ≤ n then r + 2 ^ b else r)

/-- The first 32 bits after the point of the `k`-th root of `p`. -/
def rootFraction (k p : Nat) : W32 := BitVec.ofNat 32 (rootFrom k (p * 2 ^ (32 * k)) 36 0)

/-- The first 64 primes. -/
def firstPrimes : List Nat :=
  (List.range 312).filter (fun n => decide (2 ≤ n) && (List.range 18).all (fun d => decide (d < 2) || decide (n ≤ d) || decide (n % d ≠ 0)))

/-- The number of a big-endian list of bytes. -/
def beNat (bs : List Byte) : Nat := bs.foldl (fun n b => n * 256 + b.toNat) 0

/-- A word turned right by each of some distances, added without carries. -/
def turns (ns : List Nat) (w : W32) : W32 := ns.foldl (fun t n => t ^^^ w.rotateRight n) 0

/-- Word `i` of a list. -/
def wordAt (ws : List W32) (i : Nat) : W32 := (ws[i]?).getD 0

/-- One more word in front of the message schedule, which stands newest first. -/
def shaGrow (w : List W32) : List W32 :=
  ((turns [17, 19] (wordAt w 1) ^^^ (wordAt w 1 >>> 10)) + wordAt w 6 + (turns [7, 18] (wordAt w 14) ^^^ (wordAt w 14 >>> 3)) + wordAt w 15) :: w

/-- One round on the eight working words with the sum of its constant and its schedule word. -/
def shaRound (v : List W32) (kw : W32) : List W32 :=
  let g := wordAt v
  let choice := g 6 ^^^ (g 4 &&& (g 5 ^^^ g 6))
  let most := (g 0 &&& g 1) ||| (g 2 &&& (g 0 ||| g 1))
  let mix := g 7 + turns [6, 11, 25] (g 4) + choice + kw
  [mix + (turns [2, 13, 22] (g 0) + most)] ++ v.take 3 ++ [g 3 + mix] ++ (v.drop 4).take 3

/-- One block of 64 bytes: 16 words of the block and 48 more drive the rounds. -/
def shaBlock (h : List W32) (blk : List Byte) : List W32 :=
  let first := (List.range 16).map (fun i => BitVec.ofNat 32 (beNat ((blk.drop (4 * i)).take 4)))
  let schedule := ((List.range 48).foldl (fun w _ => shaGrow w) first.reverse).reverse
  let v := (firstPrimes.zip schedule).foldl (fun v kw => shaRound v (rootFraction 3 kw.1 + kw.2)) h
  (h.zip v).map (fun p => p.1 + p.2)

/-- SHA-256 of a list of bytes, as 32 bytes. -/
def sha256 (m : List Byte) : List Byte :=
  let len := m.length
  let padded := m ++ [0x80#8] ++ List.replicate ((119 - len % 64) % 64) 0 ++ (leBytes 8 (8 * len)).reverse
  let h := (List.range (padded.length / 64)).foldl (fun h i => shaBlock h ((padded.drop (64 * i)).take 64))
    ((firstPrimes.take 8).map (rootFraction 2))
  h.flatMap (fun w => (leBytes 4 w.toNat).reverse)

/-! ### The Shuom file (R111) -/

/-- A section of an image. -/
structure Section where
  entry : List Byte
  name  : List Byte
  nobits : Bool
  flags : Nat
  addr  : Nat
  size  : Nat
  body  : List Byte
  deriving DecidableEq, Repr

/-- MAGIC, VERSION and KIND are as they should be. -/
def imageKind (f : List Byte) (kind : Nat) : Bool :=
  decide (f.take 4 = [0x53, 0x48, 0x55, 0x4F]) && decide (fieldAt f 4 2 = 1) && decide (fieldAt f 6 2 = kind)

/-- The sections of an image in ascending index. -/
def imageSections (f : List Byte) : List Section :=
  (List.range (fieldAt f 12 2)).map (fun i =>
    let e := (f.drop (fieldAt f 16 8 + 64 * i)).take 64
    let nobits := decide (fieldAt e 16 2 = 2)
    { entry := e, name := (e.take 16).filter (· ≠ 0), nobits := nobits, flags := fieldAt e 18 2, addr := fieldAt e 24 8,
      size := fieldAt e 40 8, body := if nobits then [] else (f.drop (fieldAt e 32 8)).take (fieldAt e 40 8) })

/-- The hash of a semantic image (R118). -/
def semHash (f : List Byte) : List Byte :=
  sha256 ((imageSections f).flatMap (fun c =>
    if bit c.flags 0 then c.entry.take 32 ++ List.replicate 8 0 ++ c.entry.drop 40 ++ c.body else []))

/-- SEMHASH of an image's header. -/
def imageHash (f : List Byte) : List Byte := (f.drop 32).take 32

/-- The semantic image is loaded (R119). -/
def semanticOk (f : List Byte) : Bool := imageKind f 2 && decide (semHash f = imageHash f)

/-- The names .marks and .advice. -/
def nameMarks : List Byte := [0x2E, 0x6D, 0x61, 0x72, 0x6B, 0x73]
def nameAdvice : List Byte := [0x2E, 0x61, 0x64, 0x76, 0x69, 0x63, 0x65]
def nameLaunch : List Byte := [0x2E, 0x6C, 0x61, 0x75, 0x6E, 0x63, 0x68]

/-- The bytes of launch descriptors with the fields that the loader fills: ADVICE and PTROOT (R113). -/
def fillDescriptors (advice root : W64) (bs : List Byte) : List Byte :=
  ((List.range bs.length).zip bs).map (fun e =>
    let o := e.1 % 128
    if 8 ≤ o ∧ o < 16 then advice.extractLsb' (8 * (o - 8)) 8
    else if 88 ≤ o ∧ o < 96 then root.extractLsb' (8 * (o - 88)) 8
    else e.2)

/-- A section of a name. -/
def sectionOf (f : List Byte) (n : List Byte) : Option Section := (imageSections f).find? (fun c => decide (c.name = n))

/-- The mark table meets R116 in full, for an .advice of `size` bytes.  Bytes of .marks beyond the entries are passed over (logged as
assumption 81). -/
def markTableOk (m : List Byte) (size : Nat) : Bool :=
  let count := fieldAt m 0 4
  let entryOk (e : Nat) : Bool := decide (e % 4 = 0) && decide (e < size)
  let start := fieldAt m 4 4
  let id (i : Nat) : Nat := fieldAt m (16 + 8 * i) 2
  decide (16 + 8 * count ≤ m.length) && (decide (start = 0xFFFF_FFFF) || entryOk start) && decide (fieldAt m 8 8 = 0)
  && (List.range count).all (fun i => decide (id i ≠ 0xFFFF) && decide (fieldAt m (18 + 8 * i) 2 = 0)
        && entryOk (fieldAt m (20 + 8 * i) 4) && (decide (i = 0) || decide (id (i - 1) < id i)))

/-- The first failure of an advice image for a semantic image, or 0 (R119).  An image without .marks or without .advice is malformed (logged as
assumption 81). -/
def adviceReason (semantic advice : List Byte) (serial : W64) : Nat :=
  if !imageKind advice 3 then 3
  else if imageHash advice ≠ imageHash semantic then 1
  else if fieldAt advice 64 8 ≠ serial.toNat then 2
  else match sectionOf advice nameMarks, sectionOf advice nameAdvice with
    | some m, some a => if markTableOk m.body a.size then 0 else 3
    | _, _ => 3

end Sys2Proof.Machine
end

