-- ==== Sys2Proof/Machine/TraceControl.lean ====
section
/-! DEFINITION. Capture control, draining and triggers of the trace buffers (R366, R376, R377). -/

namespace Sys2Proof.Machine

/-- A cluster enters ON with a TRIG record of an event with a value, and then a TSYNC (R370, R377). -/
def State.startTrace (s : State) (cl event : Nat) (value : W64) : State :=
  match s.liveTrace cl with
  | none => s
  | some _ =>
    ((s.updTrace cl (fun b => { b with state := 2, fresh := false })).addRec cl none s.now (header 0 event 0 2 7) [value]).addRec cl none s.now 1 []

/-- A cluster enters FROZEN: records stop, and the line being written is closed after those of this ck (R366, R370, R376). -/
def State.freezeTrace (s : State) (cl : Nat) : State :=
  match s.liveTrace cl with
  | none => s
  | some _ => (s.updTrace cl (fun b => { b with state := 3 })).addRec cl none s.now 0 []

/-- A write of TRSTATE (R376, R377): OFF discards what is to be written too, and a write of ON in ON changes nothing. -/
def State.writeTrstate (s : State) (cl : Nat) (v : W64) : State :=
  match bits v.toNat 1 0 with
  | 0 => (s.writeCluster cl).updTrace cl (fun b => { b with state := 0, lines := [], open_ := [] })
  | 1 => s.updTrace cl (fun b => { b with state := 1 })
  | 2 => match s.liveTrace cl with
    | none => s
    | some b => if b.state = 1 then s.startTrace cl 1 0 else if b.state = 2 then s else s.updTrace cl (fun b => { b with state := 2, fresh := true })
  | _ => s.freezeTrace cl

/-- TRSTATE_WRITE (R376). -/
def execTrstateWrite (cluster : Nat) (v : W64) (s : State) : Host.Outcome State Fault Refusal :=
  .next (s.writeTrstate cluster v)

/-- A write of TRDBASE: HEAD counts from here (R376). -/
def TraceBuf.writeBase (v : W64) (b : TraceBuf) : TraceBuf := { b with dbase := v &&& 0xF_FFFF_FFFF_FFC0#64, dhead := 0 }

/-- TRDBASE_WRITE (R376). -/
def execTrdbaseWrite (cluster : Nat) (v : W64) (s : State) : Host.Outcome State Fault Refusal :=
  .next (s.updTrace cluster (TraceBuf.writeBase v))

/-- A write of TRDTAIL (R376). -/
def TraceBuf.writeTail (v : W64) (b : TraceBuf) : TraceBuf := { b with dtail := v.toNat }

/-- TRDTAIL_WRITE (R376). -/
def execTrdtailWrite (cluster : Nat) (v : W64) (s : State) : Host.Outcome State Fault Refusal :=
  .next (s.updTrace cluster (TraceBuf.writeTail v))

/-- A write of TRDCFG (R376). -/
def TraceBuf.writeCfg (v : W64) (b : TraceBuf) : TraceBuf := { b with dcfg := v &&& 0x11F#64 }

/-- Drains the oldest complete line of a buffer (R366): where timing is kept by a request of class T, which writes it once granted (R339, R341, R355);
unchanged where there is none, the ring takes none, one is on its way, or the write is held (R276). -/
def State.drainLine (s : State) (cl : Nat) : State :=
  match s.liveTrace cl with
  | none => s
  | some b =>
    if b.lines.isEmpty || b.asked || !b.canDrain || !physOk s b.ringAddr 64 then s
    else if s.ms.timed then
      (s.updTrace cl (fun b => { b with asked := true })).demand cl false
        { granule := b.ringAddr / 64, cls := .t, write := true, hart := none, chan := none, dest := .drain cl, issued := s.now, hit := false }
    else if s.tokenHolds b.ringAddr 64 then s
    else s.drainTo cl b.ringAddr

/-- TRACE_DRAIN_LINE (R366). -/
def execTraceDrainLine (cluster : Nat) (s : State) : Host.Outcome State Fault Refusal := .next (s.drainLine cluster)

/-- What a trigger does to a cluster (R377). -/
def State.triggerAt (s : State) (cl event action : Nat) (value : W64) : State :=
  match s.liveTrace cl with
  | none => s
  | some b =>
    if action = 0 then (if b.state = 1 ∨ b.state = 3 then s.startTrace cl event value else s)
    else if b.state = 2 then (s.trace cl none (header 0 event 0 2 7) [value]).freezeTrace cl
    else s

/-- Trigger `k` of a die acts on the clusters it selects, where its ACTION is the given one and its EVENT is one that is raised. -/
def State.fireTrigger (s : State) (die k action : Nat) : State :=
  match s.disp.dieRegs[die]? with
  | none => s
  | some r => match r.trig[k]? with
    | none => s
    | some (w, ctl) =>
      let event := bits ctl 3 0
      if event < 2 ∨ 5 < event ∨ bits ctl 5 4 ≠ action then s
      else (List.range 32).foldl (fun s n =>
        if bit w.toNat n then s.triggerAt (32 * die + n) event action (BitVec.ofNat 64 (bits w.toNat 63 32)) else s) s

/-- TRIGGER_START (R377). -/
def execTriggerStart (die k : Nat) (s : State) : Host.Outcome State Fault Refusal := .next (s.fireTrigger die k 0)

/-- TRIGGER_FREEZE (R377). -/
def execTriggerFreeze (die k : Nat) (s : State) : Host.Outcome State Fault Refusal := .next (s.fireTrigger die k 1)

end Sys2Proof.Machine
end

