-- ==== Sys2Proof/Machine/Readback.lean ====
section
/-! DEFINITION. What the management space shows of harts: the hart windows (R323) and the entries of the fatal dump (R324). -/

namespace Sys2Proof.Machine

/-- The hart that runs on a hardware thread (R16, R323). -/
def State.onThread (s : State) (t : Nat) : Option (Nat × Hart) :=
  s.harts.find? (fun e => !e.2.parked && !e.2.gone && decide (e.2.arch.grant.thread = t))

/-- The live state of a hart in the layout of R317, but for the scratchpad: its bytes that are not 0, by offset.  The header stands as
a pre-emption at this point would write it. -/
def State.liveBytes (s : State) (x : Hart) : List (Nat × Byte) :=
  let a := x.arch
  let vb := a.grant.vlenb
  let w := x.wait.record
  let flags := 1 + (if s.zvalid a || bit (a.rcsr cZSTATE).toNat 0 then 2 else 0) + (if w.kind = 0 then 0 else 4)
  saveHeader a flags ((x.cur.map (·.split)).getD a.nextSplit) x.squash x.cap w ++ frameSlots a x.cnt a.pc
  ++ regBytes a.v 131072 vb 0x300 0 ++ maskBytes a vb (0x300 + 32 * vb) ++ regBytes a.q 131072 vb (0x300 + 46 * vb) 0
  ++ regBytes a.tam 128 128 (0x300 + 54 * vb) 0 ++ regBytes a.mp 72 72 (0xB00 + 54 * vb) 0
  ++ tileBytes a a.grant.clusters (0xC40 + 54 * vb)

/-- Where the scratchpad stands in the layout, and the bytes of the whole (R317). -/
def scratchAt (g : Grant) : Nat := 0xC40 + 54 * g.vlenb + 131072 * g.clusters
def areaSize (g : Grant) : Nat := scratchAt g + g.scratch

/-- Byte `off` of the live state of a hart (R323). -/
def State.liveByte (s : State) (x : Hart) (off : Nat) : Byte :=
  let g := x.arch.grant
  if areaSize g ≤ off then 0
  else if scratchAt g ≤ off then fget 0 s.mem (g.windowHome (off - scratchAt g))
  else ((s.liveBytes x).find? (fun b => decide (b.1 = off))).elim 0 Prod.snd

/-- The CSRs of a hart at 8 × number (R323). -/
def State.csrWord (s : State) (x : Hart) (n : Nat) : W64 := if csrListed n then readCsr s x n else 0

/-- The value of a buffered byte; of writes that no rule orders, either. -/
def bufferedByte (n : Nat) : List WRec → Byte
  | [] => 0
  | w :: ws => (finalByte w ws n).1

/-- The buffered-write records of a hart: granule address, 64 bytes of data and the byte mask, sheaf by sheaf (R323). -/
def State.bufferRecords (s : State) (x : Hart) : List (List Byte) :=
  x.sheaves.flatMap (fun sh => ((sh.writes.map (fun e => e.1 / 64)).dedup).map (fun g =>
    let at_ (i : Nat) : List WRec := fget [] sh.writes (g * 64 + i)
    leBytes 8 (g * 64) ++ (List.range 64).map (fun i => bufferedByte s.free (at_ i))
    ++ leBytes 8 ((List.range 64).foldl (fun m i => if (at_ i).isEmpty then m else m + 2 ^ i) 0)))

/-- A byte of a hart's window (R323): a thread that holds no hart reads as zero. -/
def State.windowByte (s : State) (t off : Nat) : Byte :=
  match s.onThread t with
  | none => 0
  | some (_, x) =>
    if off < 0x3000_0000 then s.liveByte x off
    else if off < 0x3800_0000 then
      let o := off - 0x3000_0000
      BitVec.ofNat 8 ((s.csrWord x (o / 8)).toNat / 2 ^ (8 * (o % 8)))
    else
      let o := off - 0x3800_0000
      (((s.bufferRecords x)[o / 80]?).bind (fun r => r[o % 80]?)).getD 0

/-- The frame slots that SYS.ERET reloads (R313). -/
def reloadSlot (off : Nat) : Bool :=
  decide (off % 8 = 0) && ((decide (0x48 ≤ off) && decide (off < 0x140)) || frameCsrs.any (fun e => decide (e.2 = off)))

/-- A hart that an attached debugger holds stopped: it is in the supervisor after a trap (R314). -/
def Hart.stopped (x : Hart) : Bool := x.landing.isSome && bit (x.arch.rcsr cHSTATUS).toNat 11

/-- A write of a hart window (R323): to a frame slot of a stopped hart; while the solo token protects that, it is held (R276). -/
def State.writeWindow (s : State) (t off : Nat) (v : W64) : State :=
  match s.onThread t with
  | none => s
  | some (_, x) =>
    if x.stopped && reloadSlot off then
      match homeOf s x.arch.grant (x.arch.rcsr cPTROOT) ((x.arch.rcsr cSAVEPTR).toNat + off) kWrite false with
      | some h =>
        if s.tokenHolds h 8 then { s with arb := { s.arb with heldWrites := s.arb.heldWrites ++ [(h, leBytes 8 v.toNat)] } }
        else s.agentWrite h (leBytes 8 v.toNat)
      | none => s
    else s

/-! ### The fault-address queue (R359) -/

/-- An entry of the queue as its two words. -/
def faqWords (e : Nat × Nat × Nat × Nat) : Nat × Nat := (e.1 * 64, e.2.1 * 2 ^ 32 + e.2.2.1 * 2 ^ 8 + e.2.2.2)

/-- The 4,096 bytes of a die's queue. -/
def DieRegs.faqBytes (r : DieRegs) : List Byte :=
  (List.range 256).flatMap (fun i => match r.faq[i]? with
    | some e => leBytes 8 (faqWords e).1 ++ leBytes 8 (faqWords e).2
    | none => List.replicate 16 0)

/-! ### The fatal dump (R324) -/

/-- The dump as it grows: bytes that are not 0 by offset, its length, the entries written, and TRUNC. -/
structure Dump where
  bytes : List (Nat × Byte)
  len   : Nat
  count : Nat
  trunc : Bool
  deriving DecidableEq, Repr

/-- Bytes at an offset. -/
def bytesAt (off : Nat) (bs : List Byte) : List (Nat × Byte) := ((List.range bs.length).zip bs).map (fun b => (off + b.1, b.2))

/-- The bytes of a hart's scratchpad in window-offset order at an offset. -/
def State.scratchImage (s : State) (g : Grant) (off : Nat) : List (Nat × Byte) := scratchBytes s g off

/-- Adds the entry of a thread, where it fits the region of 1 GiB. -/
def State.dumpHart (s : State) (d : Dump) (t : Nat) : Dump :=
  match s.onThread t with
  | none => d
  | some (_, x) =>
    let size := areaSize x.arch.grant
    let recs := (s.bufferRecords x).flatten
    let n := 64 + size + 0x8000 + recs.length
    if d.trunc then d
    else if 0x4000_0000 < d.len + n then { d with trunc := true }
    else
      let o := d.len
      let head := (List.range 64).map (Config.dumpEntry t [size, 0x8000, recs.length])
      let state := (s.liveBytes x).map (fun b => (o + 64 + b.1, b.2)) ++ s.scratchImage x.arch.grant (o + 64 + scratchAt x.arch.grant)
      let csrs := (List.range 0x1000).flatMap (fun i => bytesAt (o + 64 + size + 8 * i) (leBytes 8 (s.csrWord x i).toNat))
      { bytes := d.bytes ++ bytesAt o head ++ state ++ csrs ++ bytesAt (o + 64 + size + 0x8000) recs, len := o + n, count := d.count + 1,
        trunc := false }

/-- The state of a die's arbiter slice: the die, the holder of the slice, requests for it, and the solo token. -/
def State.arbiterState (s : State) (d : Nat) : List Nat :=
  [d, (fget none s.arb.slices d).elim 0 (· + 1), (s.arb.token).elim 0 (· + 1)] ++ (s.arb.slicesQ.filter (fun r => decide (r.1 = d))).map Prod.snd

/-- The dump of a fatal error: header, fault-address queues, arbiters, and the harts in ascending thread. -/
def State.dump (s : State) (cause : Nat) : Dump :=
  let ds := List.range (Config.dies s.bare)
  let pre := ds.flatMap (fun d => match s.disp.dieRegs[d]? with | some r => r.faqBytes | none => [])
    ++ ds.flatMap (fun d => Config.dumpArbiter (s.arbiterState d))
  let d : Dump := { bytes := bytesAt 4096 pre, len := 4096 + pre.length, count := 0, trunc := false }
  let d := (List.range (8 * Config.clusters s.bare)).foldl s.dumpHart d
  { d with bytes := bytesAt 0 ((List.range 4096).map (Config.dumpHeader cause s.stamp d.count d.trunc)) ++ d.bytes }

/-- Memory with the bytes `bs` of a dump in the dump region, of `n` bytes. -/
def State.withDump (s : State) (bs : List (Nat × Byte)) (n : Nat) : FMap Byte :=
  bs.foldl (fun m b => fset 0 m (s.mg.pkg.dumpbase.toNat + b.1) b.2) (fclear s.mem s.mg.pkg.dumpbase.toNat n)

/-- Writes the dump to its region, and its first 1 MiB to flash, which a 960-D does not have (R3). -/
def State.writeDump (s : State) (cause : Nat) : State :=
  if !s.mg.withheld then s
  else
    let bs := (s.dump cause).bytes
    { s with mem := s.withDump bs 0x4000_0000, mg := { s.mg with
      flash := if s.bare then [] else (bs.filter (fun b => decide (b.1 < 0x10_0000))).foldl (fun m b => fset 0 m b.1 b.2) []
      pkg := { s.mg.pkg with dumpBit := true } } }

end Sys2Proof.Machine
end

