-- ==== Sys2Proof/Machine/Manage.lean ====
section
/-! DEFINITION. The management space (R393, R394) and the control protocol (R396, R397), with the loader (R119, R120), launches by the
system cores (R328, R362) and shootdowns (R316). -/

namespace Sys2Proof.Machine

/-! ### The map (R393) -/

/-- Where an address of the management space lies. -/
inductive Region where
  | pkg (off : Nat)
  | disp (d off : Nat)
  | trace (d off : Nat)
  | io (off : Nat)
  | dump (off : Nat)
  | window (t off : Nat)
  | hole
  deriving DecidableEq, Repr

/-- The region of an address (R393).  What the I/O region of a 960-D holds is not stated: it is a hole (logged as assumption 79). -/
def regionOf (s : State) (a : Nat) : Region :=
  if a % 8 ≠ 0 then .hole
  else if a < 0x100 then .pkg a
  else if 0x1000_0000_0000 ≤ a then
    let t := (a - 0x1000_0000_0000) / 0x4000_0000
    if t < 8 * Config.clusters s.bare then .window t (a % 0x4000_0000) else .hole
  else if 0x0300_0000_0000 ≤ a then (if a < 0x0300_4000_0000 then .dump (a - 0x0300_0000_0000) else .hole)
  else if 0x0200_0000_0000 ≤ a then (if s.bare then .hole else .io (a - 0x0200_0000_0000))
  else if 0x0100_0000_0000 ≤ a then
    let d := (a - 0x0100_0000_0000) / 0x10_0000
    let o := a % 0x10_0000
    if Config.dies s.bare ≤ d then .hole else if o < 0x8_0000 then .disp d o else .trace d (o - 0x8_0000)
  else .hole

/-- A number as a register. -/
def reg64 (n : Nat) : W64 := BitVec.ofNat 64 n

/-- A flag at a bit. -/
def flagAt (b : Bool) (i : Nat) : Nat := if b then 2 ^ i else 0

/-- PKGSTAT (R394). -/
def PkgRegs.stat (p : PkgRegs) : W64 :=
  reg64 (p.phase % 4 + flagAt p.ready 2 + flagAt p.fail 3 + p.code % 256 * 2 ^ 8 + flagAt p.throt 16 + flagAt p.dumpBit 17)

/-- What the hottest sensor reports, in 1/16 °C (R394). -/
def State.hottest (s : State) : Nat := s.mg.heat.foldl (fun m e => max m e.2) 0

/-- A register of the package block (R394). -/
def State.readPkg (s : State) (off : Nat) : W64 :=
  let p := s.mg.pkg
  match off with
  | 0x00 => p.stat
  | 0x08 => Config.serial
  | 0x10 => p.pkgnum
  | 0x18 => p.podcfg
  | 0x40 => p.sdroot
  | 0x48 => p.sdlow
  | 0x50 => p.sdhigh
  | 0x58 => reg64 (flagAt p.sddone 1)
  | 0x80 => p.pwrcap
  | 0x88 => reg64 (s.mg.power % 65536)
  | 0x90 => reg64 (s.hottest % 65536)
  | 0xA0 => p.dumpbase
  | _ => 0

/-- A register of a die's dispatcher region (R329, R340, R348, R359, R393). -/
def DieRegs.read (r : DieRegs) (off : Nat) : W64 :=
  if off < 0x240 then
    let k := off / 64
    match off % 64 with
    | 0x00 => fget 0 r.lqbase k
    | 0x08 => fget 0 r.lqcfg k
    | 0x10 => reg64 (fget 0 r.lqtail k)
    | 0x18 => reg64 (fget 0 r.lqhead k)
    | 0x20 => reg64 (fget 0 r.lqdone k)
    | 0x28 => fget 0 r.lqerr k
    | _ => 0
  else if 0x400 ≤ off ∧ off < 0x430 then (r.budNext[(off - 0x400) / 8]?).getD 0
  else if off = 0x480 then reg64 r.ab
  else if off = 0x500 then reg64 r.faqHead
  else if off = 0x508 then reg64 r.faqTail
  else if off = 0x510 then reg64 r.faqLost
  else if 0x1000 ≤ off ∧ off < 0x2000 then
    match r.faq[(off - 0x1000) / 16]? with
    | some e => reg64 (if off % 16 = 0 then (faqWords e).1 else (faqWords e).2)
    | none => 0
  else 0

/-- A register of a cluster's trace block (R376). -/
def TraceBuf.read (b : TraceBuf) (off : Nat) : W64 :=
  match off with
  | 0x00 => reg64 b.state
  | 0x08 => b.dbase
  | 0x10 => b.dcfg
  | 0x18 => reg64 b.dhead
  | 0x20 => reg64 b.dtail
  | 0x28 => reg64 b.recs
  | 0x30 => reg64 b.lossc
  | _ => 0

/-- A register of a die's trace region (R376, R377, R393). -/
def State.readTrace (s : State) (d off : Nat) : W64 :=
  if off < 0x800 then (match s.traces[32 * d + off / 64]? with | some b => b.read (off % 64) | none => 0)
  else if off < 0x840 then
    match (s.disp.dieRegs[d]?).bind (fun r => r.trig[(off - 0x800) / 16]?) with
    | some t => if off % 16 = 0 then t.1 else reg64 t.2
    | none => 0
  else 0

/-- Word `n` of an entry of the layout of R383. -/
def regWord (r : Option Sys2Proof.Registration) (n : Nat) : W64 :=
  match r, n with
  | some r, 0 => r.low
  | some r, 1 => r.high
  | some r, 2 => r.ptroot
  | some r, 3 => r.owner
  | some r, 4 => r.ctl
  | _, _ => 0

/-- Word `n` of a host window: an entry of the layout of R383 and its remote key (R389; the place of the key is logged as assumption 52). -/
def windowWord (w : Option Window) (n : Nat) : W64 :=
  match w, n with
  | some w, 5 => w.key.setWidth 64
  | some w, _ => regWord (some w.entry) n
  | none, _ => 0

/-- A register of the I/O region (R383, R385, R389, R393). -/
def State.readIo (s : State) (off : Nat) : W64 :=
  if off < 0x4000 then regWord (fget none s.fab.regs (off / 64)) (off % 64 / 8)
  else if off < 0x4800 then (if fget false s.fab.revoked ((off - 0x4000) / 8) then 0 else 1)
  else if 0x8000 ≤ off ∧ off < 0x9000 then windowWord (fget none s.fab.windows ((off - 0x8000) / 64)) (off % 64 / 8)
  else 0

/-- A read of eight bytes of the management space (R393). -/
def State.readMgmt (s : State) (a : Nat) : W64 :=
  match regionOf s a with
  | .pkg off => s.readPkg off
  | .disp d off => match s.disp.dieRegs[d]? with | some r => r.read off | none => 0
  | .trace d off => s.readTrace d off
  | .io off => s.readIo off
  | .dump off => if s.mg.pkg.pastNoon s.mg.stopped && s.mg.pkg.dumpBit then reg64 (memNat s (s.mg.pkg.dumpbase.toNat + off) 8) else 0
  | .window t off => reg64 (leNat ((List.range 8).map (fun i => s.windowByte t (off + i))))
  | .hole => 0

/-! ### Writes (R393) -/

/-- A write of GO (R316, R394): ignored while a shootdown is in progress. -/
def PkgRegs.startShootdown (p : PkgRegs) : PkgRegs := if p.sddone then { p with sddone := false } else p

/-- A write of DUMPREL (R394): the dump region returns to allocation. -/
def Manage.releaseDump (m : Manage) (v : W64) : Manage :=
  if bit v.toNat 0 && m.pkg.dumpBit then { m with withheld := false, pkg := { m.pkg with dumpBit := false } } else m

/-- Throttling is called for (R398): the mean power passes PWRCAP, of which 0 means 2,400 W, or a sensor 95 °C. -/
def Manage.callsThrottle (m : Manage) (hottest : Nat) : Bool :=
  decide ((if m.pkg.pwrcap = 0 then 2400 else m.pkg.pwrcap.toNat) < m.power) || decide (95 * 16 < hottest)

/-- Where throttling is called for, this ck is noted: a sensor's report or a write of PWRCAP is about to change that. -/
def Manage.noteHot (m : Manage) (hottest now : Nat) : Manage := if m.callsThrottle hottest then { m with hotAt := now + 1 } else m

/-- A write of the package block (R394). -/
def State.writePkg (s : State) (off : Nat) (v : W64) : State :=
  match off with
  | 0x10 => s.updPkg (PkgRegs.writePkgnum s.mg.stopped v)
  | 0x18 => s.updPkg (PkgRegs.writePodcfg s.mg.stopped v)
  | 0x40 => s.updPkg (fun p => { p with sdroot := v &&& 0xF_FFFF_FFFF_FFFF#64 })
  | 0x48 => s.updPkg (fun p => { p with sdlow := v &&& 0x3FF_FFFF_FFFF_FFFF#64 })
  | 0x50 => s.updPkg (fun p => { p with sdhigh := v &&& 0x3FF_FFFF_FFFF_FFFF#64 })
  | 0x58 => if bit v.toNat 0 then s.updPkg PkgRegs.startShootdown else s
  | 0x80 => ({ s with mg := s.mg.noteHot s.hottest s.now } : State).updPkg (fun p => { p with pwrcap := v &&& 0xFFFF#64 })
  | 0xA8 => { s with mg := s.mg.releaseDump v }
  | _ => s

/-- A write of FAQHEAD: entries up to it are consumed (R359). -/
def DieRegs.consumeFaults (v : W64) (r : DieRegs) : DieRegs :=
  if r.faqHead ≤ v.toNat ∧ v.toNat ≤ r.faqTail then { r with faqHead := v.toNat } else r

/-- A write of a die's dispatcher region. -/
def State.writeDisp (s : State) (d off : Nat) (v : W64) : State :=
  if off < 0x200 then
    let k := off / 64
    match off % 64 with
    | 0x00 => s.updDie d (fun r => { r with lqbase := fset 0 r.lqbase k (v &&& 0xF_FFFF_FFFF_FF80#64) })
    | 0x08 => s.updDie d (DieRegs.writeLqcfg k v)
    | 0x10 => s.updDie d (DieRegs.writeLqtail k v)
    | _ => s
  else if 0x400 ≤ off ∧ off < 0x430 then s.writeBudget d ((off - 0x400) / 8) v
  else if off = 0x480 then s.writeGrsplit d v
  else if off = 0x500 then s.updDie d (DieRegs.consumeFaults v)
  else s

/-- A write of a die's trace region. -/
def State.writeTrace (s : State) (d off : Nat) (v : W64) : State :=
  if off < 0x800 then
    let c := 32 * d + off / 64
    match off % 64 with
    | 0x00 => s.writeTrstate c v
    | 0x08 => s.updTrace c (TraceBuf.writeBase v)
    | 0x10 => s.updTrace c (TraceBuf.writeCfg v)
    | 0x20 => s.updTrace c (TraceBuf.writeTail v)
    | _ => s
  else if off < 0x840 then
    let k := (off - 0x800) / 16
    s.updDie d (fun r => match r.trig[k]? with
      | some t => { r with trig := r.trig.set k (if off % 16 = 0 then (v, t.2) else (t.1, bits v.toNat 5 0)) }
      | none => r)
  else s

/-- An entry with one word replaced; an entry never written is all 0. -/
def setRegWord (r : Option Sys2Proof.Registration) (n : Nat) (v : W64) : Sys2Proof.Registration :=
  let r := r.getD { low := 0, high := 0, ptroot := 0, owner := 0, ctl := 0 }
  match n with
  | 0 => { r with low := v }
  | 1 => { r with high := v }
  | 2 => { r with ptroot := v }
  | 3 => { r with owner := v }
  | 4 => { r with ctl := v }
  | _ => r

/-- A host window with one word replaced; one never written is all 0. -/
def setWindowWord (w : Option Window) (n : Nat) (v : W64) : Window :=
  { entry := regMask (setRegWord (w.map (·.entry)) n v), key := if n = 5 then v.setWidth 32 else (w.map (·.key)).getD 0 }

/-- A write of the I/O region by the system cores (R383, R389): DONE of a revocation register is read-only (R385). -/
def State.writeIo (s : State) (off : Nat) (v : W64) : State :=
  if off < 0x4000 then s.writeRegistration (off / 64) (setRegWord (fget none s.fab.regs (off / 64)) (off % 64 / 8) v)
  else if 0x8000 ≤ off ∧ off < 0x9000 then
    let w := (off - 0x8000) / 64
    { s with fab := { s.fab with windows := fset none s.fab.windows w (some (setWindowWord (fget none s.fab.windows w) (off % 64 / 8) v)) } }
  else s

/-- A write of the management space (R393): `core` says that a system core makes it, which alone writes registrations and host
windows (R383, R389). -/
def State.writeMgmt (s : State) (core : Bool) (a : Nat) (v : W64) : State :=
  match regionOf s a with
  | .pkg off => s.writePkg off v
  | .disp d off => s.writeDisp d off v
  | .trace d off => s.writeTrace d off v
  | .io off => if core then s.writeIo off v else s
  | .dump _ => s
  | .window t off => s.writeWindow t off v
  | .hole => s

/-- MANAGEMENT_WRITE (R393). -/
def execManagementWrite (addr : Nat) (v : W64) (s : State) : Host.Outcome State Fault Refusal := .next (s.writeMgmt true addr v)

/-! ### Shootdowns (R316) -/

/-- SHOOTDOWN_GO (R316, R394). -/
def execShootdownGo (s : State) : Host.Outcome State Fault Refusal := .next (s.updPkg PkgRegs.startShootdown)

/-- A TLB entry that a shootdown drops. -/
def PkgRegs.shoots (p : PkgRegs) (t : Tlb) : Bool :=
  decide (t.ptroot = p.sdroot) && decide (t.vbase < p.sdhigh.toNat) && decide (p.sdlow.toNat < t.vbase + t.size)

/-- SHOOTDOWN_DONE (R316): no TLB holds an entry of the range for the root. -/
def execShootdownDone (s : State) : Host.Outcome State Fault Refusal :=
  if s.mg.pkg.sddone then .next s
  else .next (({ s with ms := { s.ms with tlbs := s.ms.tlbs.filter (fun t => !s.mg.pkg.shoots t) } } : State).updPkg
    (fun p => { p with sddone := true }))

/-- DUMPREL_WRITE (R394). -/
def execDumprelWrite (v : W64) (s : State) : Host.Outcome State Fault Refusal := .next { s with mg := s.mg.releaseDump v }

/-! ### Messages (R396, R397) -/

def stOk : Nat := 0
def stNotReady : Nat := 1
def stRefused : Nat := 2
def stBad : Nat := 3

/-- The words of a message on the wire (R397): the header of 16 bytes, with TYPE in bytes 0 and 1, STATUS in 2 and 3, SEQ in 4 to 7, LENGTH in 8 to 11
and 0 in the res bytes 12 to 15, and the payload, in words of 8 bytes (logged as assumption 85). -/
def wire (type status seq : Nat) (payload : List W64) : List W64 :=
  [type % 2 ^ 16 + status % 2 ^ 16 * 2 ^ 16 + seq % 2 ^ 32 * 2 ^ 32, 8 * payload.length % 2 ^ 32].map reg64 ++ payload

/-- A message of a type is well formed: its header gives that TYPE and the length of its payload, of 1,024 bytes at most, and its res bytes are 0
(R397, logged as assumption 85). -/
def headOk (m : Sys2Proof.MsgHead) (type len : Nat) : Bool :=
  decide (m.type.toNat = type) && decide (m.length.toNat = len) && decide (len ≤ 1024) && decide (m.res = 0)

/-- A reply goes to the host of its message. -/
def State.answer (s : State) (m : Sys2Proof.MsgHead) (r : List W64) : State := s.report 25 (reg64 m.host :: r)

/-- The replies kept after one more of a host: those of its last 256 messages (R397). -/
def keepReply (l : List (Nat × Nat × List W64)) (m : Sys2Proof.MsgHead) (r : List W64) : List (Nat × Nat × List W64) :=
  let mine := l.filter (fun e => decide (e.1 = m.host))
  let l := if 256 ≤ mine.length then (match mine with | e :: _ => l.erase e | [] => l) else l
  l ++ [(m.host, m.seq.toNat, r)]

/-- A message (R396, R397): one already answered OK or REFUSED gets the kept reply; one that is not accepted now gets NOTREADY, an
ill-formed one BADMSG; else `act` gives the status, the payload and the state after, or none while its effect is held. -/
def State.message (s : State) (m : Sys2Proof.MsgHead) (accepted formed : Bool) (act : Option (Nat × List W64 × State)) : State :=
  let reply (status : Nat) (payload : List W64) : List W64 := wire m.type.toNat status m.seq.toNat payload
  match s.mg.replies.find? (fun e => decide (e.1 = m.host) && decide (e.2.1 = m.seq.toNat)) with
  | some e => s.answer m e.2.2
  | none =>
    if !accepted then s.answer m (reply stNotReady [])
    else if !formed then s.answer m (reply stBad [])
    else match act with
      | none => s
      | some a =>
        let r := reply a.1 a.2.1
        let t := a.2.2
        ({ t with mg := { t.mg with replies := keepReply t.mg.replies m r } } : State).answer m r

/-- What a record of the outbox is on the wire: a REPORT of TYPE 5 to the host for traps, ends, rejections and the like, which kinds 1 to 15 are, or
the reply that it holds; records of the fabric are no control messages (R397, logged as assumption 85). -/
def wireOf (n : Nat) (r : Nat × List W64) : Option (List W64) :=
  if r.1 < 16 then some (wire 5 stOk n (reg64 r.1 :: r.2)) else if r.1 = 25 then some r.2.tail else none

/-- The control messages that the package has sent, in order. -/
def State.sentWire (s : State) : List (List W64) :=
  ((List.range s.mg.outbox.length).zip s.mg.outbox).filterMap (fun e => wireOf e.1 e.2)

/-- Addresses of consecutive words. -/
def wordAddrs (a n : Nat) : List Nat := (List.range n).map (fun i => a + 8 * i)

/-- MREAD (R396, R397): `count` words; before READY only of the package block, after a fatal error of anything. -/
def execMread (msg : Sys2Proof.MsgHead) (addr count : Nat) (s : State) : Host.Outcome State Fault Refusal :=
  let as := wordAddrs addr count
  let early := decide (msg.type = 1) && (s.mg.stopped || (decide (addr < 0x100) && as.all (fun a => decide (a < 0x100))))
  .next (s.message msg (s.mg.pkg.ready || early) (headOk msg 1 16 && decide (count ≤ 128)) (some (stOk, as.map s.readMgmt, s)))

/-- PKGNUM, PODCFG or a GRSPLIT (R396). -/
def earlyWrite (s : State) (a : Nat) : Bool :=
  match regionOf s a with
  | .pkg off => decide (off = 0x10) || decide (off = 0x18)
  | .disp _ off => decide (off = 0x480)
  | _ => false

/-- Writes of consecutive words. -/
def State.writeWords (s : State) (core : Bool) : Nat → List W64 → State
  | _, [] => s
  | a, v :: vs => (s.writeMgmt core a v).writeWords core (a + 8) vs

/-- MWRITE (R396, R397). -/
def execMwrite (msg : Sys2Proof.MsgHead) (addr : Nat) (data : List W64) (s : State) : Host.Outcome State Fault Refusal :=
  let early := decide (msg.type = 2) && !s.mg.stopped && earlyWrite s addr && (wordAddrs addr data.length).all (earlyWrite s)
  .next (s.message msg (s.mg.pkg.ready || early) (headOk msg 2 (8 + 8 * data.length)) (some (stOk, [], s.writeWords false addr data)))

/-! ### The loader (R119, R120) -/

/-- The bytes of a file of an image pair (R119, R397): read through its host window as a host reads (R390); on a 960-D, which has no windows, they
stand in device memory (R4, logged as assumption 86). -/
def State.fileBytes (s : State) (w : Nat) (f : Nat × Nat) : Option (List Byte) :=
  if s.bare then some (memBytes s f.1 f.2)
  else match fget none s.fab.windows w with
    | some g => if regValid g.entry then s.windowRead g.entry (elements8 f.1 f.2) else none
    | none => none

/-- The parts of a range of `n` bytes on each 64 KiB page: where a part begins and its length. -/
def pageSpans (va n : Nat) : List (Nat × Nat) :=
  (List.range (ceilDiv (va % 65536 + n) 65536)).map (fun i =>
    let lo := max va (va / 65536 * 65536 + i * 65536)
    (lo, min (va + n) (va / 65536 * 65536 + (i + 1) * 65536) - lo))

/-- Where a root maps an address, whatever the leaf permits. -/
def State.mapped (s : State) (root : W64) (va : Nat) : Option Nat :=
  (leafFor s 128 root (va % 2 ^ 58)).map (fun l => bits l.1 51 8 * 256 + va % 2 ^ 58 % l.2)

/-- The address of the leaf that a walk ends at. -/
def leafPlace (s : State) (a : Nat) : List (Nat × Nat × Nat × Nat) → Nat → Option Nat
  | [], _ => none
  | (sh, nb, _, _) :: rest, tab =>
    let p := tab + a / 2 ^ sh % 2 ^ nb * 8
    let e := memNat s p 8
    if bit e 1 then some p else leafPlace s a rest (bits e 51 8 * 256)

/-- A leaf that permits the reads of a program, and its writes and fetches as asked (R117, R315; fetches are logged as assumption 86). -/
def loaderLeaf (e : Nat) (w x : Bool) : Nat := e / 64 * 64 + e % 4 + 4 + flagAt w 3 + flagAt x 4 + 32

/-- What the loader writes to put bytes at an address; none where a page of them has no leaf. -/
def State.pieces (s : State) (root : W64) (va : Nat) (bs : List Byte) : Option (List (Nat × List Byte)) :=
  (pageSpans va bs.length).mapM (fun p => (s.mapped root p.1).map (fun h => (h, (bs.drop (p.1 - va)).take p.2)))

/-- What the loader writes to map a range (R117); none where a page of it has no leaf. -/
def State.mapping (s : State) (root : W64) (va n : Nat) (w x : Bool) : Option (List (Nat × List Byte)) :=
  (pageSpans va n).mapM (fun p =>
    let a := p.1 % 2 ^ 58
    match s.mapped root a, leafPlace s a levels root.toNat with
    | some _, some q => some (q, leBytes 8 (loaderLeaf (memNat s q 8) w x))
    | _, _ => none)

/-- Lists that are all there, joined. -/
def allOf {α : Type} (l : List (Option (List α))) : Option (List α) := (l.mapM id).map List.flatten

/-- The loader maps a loaded section at its ADDR, readable, and writable only where FLAGS bit 3 is set (R117). -/
def State.sectionMaps (s : State) (root : W64) (c : Section) : Option (List (Nat × List Byte)) :=
  if bit c.flags 4 then s.mapping root c.addr c.size (bit c.flags 3) (bit c.flags 2) else some []

/-- It puts the contents of a loaded section there (R117). -/
def State.sectionPuts (s : State) (root advice : W64) (c : Section) : Option (List (Nat × List Byte)) :=
  if bit c.flags 4 then s.pieces root c.addr (if c.name = nameLaunch then fillDescriptors advice root c.body else c.body) else some []

/-- The ranges of the loaded sections of an image. -/
def loadedSpans (f : List Byte) : List (Nat × Nat) :=
  (imageSections f).filterMap (fun c => if bit c.flags 4 then some (c.addr, c.size) else none)

/-- The image is that of a root and a hash. -/
def Loaded.is (l : Loaded) (root : W64) (hash : Nat) : Bool := decide (l.root = root) && decide (l.hash = hash)

/-- The images that stay loaded where one with the ranges `spans` is put under a root: those it does not overwrite (R120). -/
def Manage.staying (m : Manage) (root : W64) (spans : List (Nat × Nat)) : List Loaded :=
  m.loaded.filter (fun l => decide (l.root ≠ root) || l.spans.all (fun a => spans.all (fun b => !meets a.1 a.2 b.1 b.2)))

/-- A section of an image lies under the leaf at `q`. -/
def State.underLeaf (s : State) (l : Loaded) (q : Nat) : Bool :=
  l.spans.any (fun a => (pageSpans a.1 a.2).any (fun p => decide (leafPlace s (p.1 % 2 ^ 58) levels l.root.toNat = some q)))

/-- No leaf is asked to permit two things: by two sections of one load, or by a section and an image that stays (R117). -/
def State.leavesAgree (s : State) (root : W64) (stay : List Loaded) (maps : List (Nat × List Byte)) : Bool :=
  maps.all (fun a => maps.all (fun b => decide (a.1 ≠ b.1) || decide (a.2 = b.2))
    && (decide (memBytes s a.1 8 = a.2) || stay.all (fun l => decide (l.root ≠ root) || !s.underLeaf l a.1)))

/-- For a semantic image that is loaded already, the loader writes only the ADVICE fields of its descriptors (R120). -/
def State.adviceWrites (s : State) (root advice : W64) (c : Section) : Option (List (Nat × List Byte)) :=
  if c.name ≠ nameLaunch || !bit c.flags 4 then some []
  else allOf ((List.range (c.body.length / 128)).map (fun i => s.pieces root (c.addr + 128 * i + 8) (leBytes 8 advice.toNat)))

/-- What an accepted advice image puts at `marks`: .marks, and .advice directly after it at the next multiple of 64 (R116), with the leaves that map
them.  Where .marks stands comes with the message; ADDR and FLAGS of the sections of an advice image say nothing of it (logged as assumption 98). -/
structure AdvicePlan where
  image  : AdvImage
  maps   : List (Nat × List Byte)
  writes : List (Nat × List Byte)
  deriving DecidableEq, Repr

/-- The plan for an accepted advice image; none where a page of it has no leaf. -/
def State.advicePlan (s : State) (root marks : W64) (hash : Nat) (f : List Byte) : Option AdvicePlan :=
  match sectionOf f nameMarks, sectionOf f nameAdvice with
  | some m, some a =>
    let base := ceilDiv (marks.toNat + m.body.length) 64 * 64
    (s.mapping root marks.toNat (base + a.body.length - marks.toNat) false false).bind (fun ms =>
      (allOf [s.pieces root marks.toNat m.body, s.pieces root base a.body]).map (fun ws =>
        { image := { root := root, marks := marks, base := base, size := a.size, hash := hash }, maps := ms, writes := ws }))
  | _, _ => none

/-- Where an advice image stands: its address and length (R116). -/
def AdvImage.span (i : AdvImage) : Nat × Nat := (i.marks.toNat, i.base + i.size - i.marks.toNat)

/-- The advice images that stay mapped (R120), each as a root, an address and a length: those of harts that have not ended, and those of packets that have
been accepted and wait to be placed. -/
def State.keptAdvice (s : State) : List (W64 × Nat × Nat) :=
  s.harts.filterMap (fun e => if e.2.gone then none else e.2.adv.map (fun a =>
    let lo := (e.2.arch.rcsr cADVPTR).toNat
    (e.2.arch.rcsr cPTROOT, lo, a.base + a.size - lo)))
  ++ (s.disp.packets ++ s.disp.charQ).filterMap (fun p => p.advice.map (fun i => (i.root, i.span)))

/-- A range under a root that is to be written meets an advice image that stays mapped. -/
def State.adviceKept (s : State) (root : W64) (ranges : List (Nat × Nat)) : Bool :=
  s.keptAdvice.any (fun k => decide (k.1 = root) && ranges.any (fun r => meets k.2.1 k.2.2 r.1 r.2))

/-- An advice image would overwrite a section: of its pair, or of an image that stays loaded under the root (R5, R120). -/
def AdvImage.overwrites (i : AdvImage) (spans : List (Nat × Nat)) (stay : List Loaded) : Bool :=
  (spans ++ (stay.filter (fun l => decide (l.root = i.root))).flatMap (·.spans)).any (fun r => meets i.span.1 i.span.2 r.1 r.2)

/-- The loader loads an image pair (R119): the status, the reason code and the state after, or none where a page has no leaf yet or a leaf is asked to
permit two things (R117), the solo token protects what it would write (R276), an advice image that stays mapped would be written over, or the new one
would be put over a section (R120).  No bytes of
advice: none is supplied, reason 0 (logged as assumption 81).  The newest accepted advice image of a semantic image stands first, and an image that this
one overwrites is no longer loaded (R120). -/
def State.load (s : State) (p : Sys2Proof.ImagePair) (semantic advice : List Byte) : Option (Nat × List W64 × State) :=
  if !semanticOk semantic then some (stRefused, [], s)
  else
    let root := p.ptroot
    let hash := leNat (imageHash semantic)
    let reason := if advice.isEmpty then 0 else adviceReason semantic advice Config.serial
    let plan := if !advice.isEmpty && decide (reason = 0) then (s.advicePlan root p.marks hash advice).map some else some none
    plan.bind (fun plan =>
      let ptr := if plan.isSome then p.marks else 0
      let again := s.mg.loaded.any (fun l => l.is root hash)
      let spans := if again then [] else loadedSpans semantic
      let stay := s.mg.staying root spans
      let cs := imageSections semantic
      (if again then some [] else allOf (cs.map (s.sectionMaps root))).bind (fun ms =>
        (allOf (cs.map (if again then s.adviceWrites root ptr else s.sectionPuts root ptr))).bind (fun ws =>
          let ms := ms ++ plan.elim [] (·.maps)
          let ws := ms ++ ws ++ plan.elim [] (·.writes)
          if !s.leavesAgree root stay ms || ws.any (fun e => s.tokenHolds e.1 e.2.length)
              || s.adviceKept root (loadedSpans semantic ++ plan.toList.map (·.image.span))
              || plan.any (fun q => q.image.overwrites (loadedSpans semantic) stay) then none
          else
            let t := ws.foldl (fun t e => t.agentWrite e.1 e.2) s
            some (stOk, [reg64 reason], { t with
              ms := { t.ms with tlbs := t.ms.tlbs.filter (fun e => decide (e.ptroot ≠ root)) }
              mg := { t.mg with
                images := (plan.map (·.image)).toList ++ t.mg.images
                loaded := if again then stay else stay ++ [{ root := root, hash := hash, spans := spans }] } }))))

/-- IMGLOAD (R119, R397): a pair that its window does not give is no message. -/
def execImgload (msg : Sys2Proof.MsgHead) (img : Sys2Proof.ImagePair) (s : State) : Host.Outcome State Fault Refusal :=
  match s.fileBytes img.window img.semantic, s.fileBytes img.window img.advice with
  | some a, some b => .next (s.message msg s.mg.pkg.ready (headOk msg 3 56) (s.load img a b))
  | _, _ => .next (s.message msg s.mg.pkg.ready false none)

/-! ### Launches (R328, R362) -/

/-- A packet of a system core (R328, R330): its priority is as given. -/
def corePacket (s : State) (die : Nat) (bs : List Byte) (charac : Option Nat) : Packet :=
  { die := die, queue := 8, bytes := bs, prio := bits (pFlags bs) 6 4, ptroot := BitVec.ofNat 64 (fieldAt bs 88 8), eng := none,
    charac := charac, since := s.now, advice := none }

/-- LAUNCH (R328, R397): the packet enters lq8 of the die. -/
def execLaunch (msg : Sys2Proof.MsgHead) (die : Nat) (packet : List (BitVec 8)) (s : State) : Host.Outcome State Fault Refusal :=
  .next (s.message msg s.mg.pkg.ready (headOk msg 4 136 && decide (packet.length = 128) && decide (die < Config.dies s.bare))
    (some (stOk, [], { s with disp := { s.disp with inner := s.disp.inner ++ [corePacket s die packet none] } })))

/-- CHARACTERISATION_LAUNCH (R330, R362): the packet is checked, and waits for quarter 0 of its cluster; a rejection returns its
reason. -/
def execCharacterisationLaunch (msg : Sys2Proof.MsgHead) (cluster : Nat) (packet : List (BitVec 8)) (s : State) :
    Host.Outcome State Fault Refusal :=
  let p := corePacket s (cluster / 32) packet (some cluster)
  .next (s.message msg s.mg.pkg.ready (headOk msg 4 136 && decide (packet.length = 128) && decide (cluster < Config.clusters s.bare))
    (some (match packetReason s p with
      | some c => (stRefused, [reg64 c], s)
      | none => (stOk, [], { s with disp := { s.disp with charQ := s.disp.charQ ++ [p.accepted s] } }))))

end Sys2Proof.Machine
end

