-- ==== Sys2Proof/Machine/Power.lean ====
section
/-! DEFINITION. Power and heat (R378, R379, R398, R399), the fatal error (R324), and bring-up (R395). -/

namespace Sys2Proof.Machine

/-! ### Throttling (R398) -/

/-- The sensors report another mean power (R394). -/
def State.senseWatts (s : State) (w : Nat) : State := { s with mg := { s.mg.noteHot s.hottest s.now with power := w } }

/-- The sensor of a cluster reports another temperature, in 1/16 °C (R394). -/
def State.senseHeat (s : State) (cluster t : Nat) : State :=
  { s with mg := { s.mg.noteHot s.hottest s.now with heat := fset 0 s.mg.heat cluster t } }

/-- THROTTLE_ON (R398): the sensors report power above PWRCAP or a sensor above 95 °C. -/
def execThrottleOn (s : State) : Host.Outcome State Fault Refusal :=
  if s.mg.callsThrottle s.hottest then .next (s.updPkg (fun p => { p with throt := true })) else .next s

/-- THROTTLE_CLEAR (R398): both have been false for 1 ms, which is 2,400,000 ck. -/
def execThrottleClear (s : State) : Host.Outcome State Fault Refusal :=
  if s.mg.callsThrottle s.hottest ∨ s.now + 1 < s.mg.hotAt + 2400000 then .next s
  else .next (s.updPkg (fun p => { p with throt := false }))

/-! ### Gates (R378, R379, R399) -/

/-- Sets the gate of a cluster. -/
def State.setGate (s : State) (c : Nat) (g : Gate) : State := { s with mg := { s.mg with gates := s.mg.gates.set c g } }

/-- The gate of a cluster; a cluster outside the part counts as gated. -/
def State.gate (s : State) (c : Nat) : Gate := (s.mg.gates[c]?).getD { gated := true, readyAt := 0 }

/-- A hart runs on a cluster. -/
def Hart.onCluster (x : Hart) (c : Nat) : Bool := x.lanes.any (fun l => decide (l / 4 = c))

/-- Drains up to `n` lines. -/
def State.drainAll (s : State) (c : Nat) : Nat → State
  | 0 => s
  | n + 1 => (s.drainLine c).drainAll c n

/-- CLUSTER_GATE (R378, R399): a cluster that holds no grant is gated once its buffer, in whatever state it was, is frozen, padded and drained
completely; until then it is not gated. -/
def execClusterGate (cluster : Nat) (s : State) : Host.Outcome State Fault Refusal :=
  if Config.clusters s.bare ≤ cluster ∨ (s.gate cluster).gated = true ∨ s.harts.any (fun e => e.2.onCluster cluster) = true then .next s
  else
    let s := s.writeCluster cluster
    match s.traces[cluster]? with
    | none => .next s
    | some b =>
      let c := { b.close with state := 3 }
      let t := (s.updTrace cluster (fun _ => c)).drainAll cluster c.lines.length
      match t.traces[cluster]? with
      | some d => if d.lines.isEmpty then .next (t.setGate cluster { gated := true, readyAt := 0 }) else .next t
      | none => .next s

/-- The records of a line: each header gives the length of its record (R365, R368). -/
def recordsIn : Nat → List W64 → Nat
  | 0, _ => 0
  | _, [] => 0
  | n + 1, w :: ws => 1 + recordsIn n (ws.drop (bits w.toNat 6 4))

/-- The records of a buffer's undrained lines. -/
def TraceBuf.held (b : TraceBuf) : Nat := (b.lines ++ [b.open_]).foldl (fun n l => n + recordsIn 8 l) 0

/-- The lowest-numbered cluster of the die of `c` that is powered and in ON (R379). -/
def State.lossCluster (s : State) (c : Nat) : Option Nat :=
  ((List.range 32).map (c / 32 * 32 + ·)).find? (fun k => decide (k ≠ c) && !(s.gate k).gated
    && (match s.traces[k]? with | some b => decide (b.state = 2) | none => false))

/-- CLUSTER_FORCED_GATE (R379, R398): above 105 °C a cluster is gated without draining; the records it holds are lost and counted, a LOSS record for them
goes to another cluster, and the gangs of its harts are pre-empted. -/
def execClusterForcedGate (cluster : Nat) (s : State) : Host.Outcome State Fault Refusal :=
  if Config.clusters s.bare ≤ cluster ∨ (s.gate cluster).gated = true ∨ fget 0 s.mg.heat cluster ≤ 105 * 16 then .next s
  else
    let s := s.writeCluster cluster
    let n := match s.traces[cluster]? with | some b => b.held | none => 0
    let s := s.updTrace cluster (fun b => { b with lines := [], open_ := [], lossc := b.lossc + n, asked := false })
    let s := s.setGate cluster { gated := true, readyAt := 0 }
    let s := match s.lossCluster cluster with
      | some k => s.trace k none (header 0 (1 + cluster * 2) 0 2 6) [BitVec.ofNat 64 n]
      | none => s
    let hit := s.gangs.filter (fun g => g.2.live.any (fun h => match s.hart h with | some x => x.onCluster cluster | none => false))
    .next (hit.foldl (fun s g => s.askPreempt g.2) s)

/-- CLUSTER_UNGATE (R399): ungating takes 20 µs, which is 48,000 ck. -/
def execClusterUngate (cluster : Nat) (s : State) : Host.Outcome State Fault Refusal :=
  let g := s.gate cluster
  if Config.clusters s.bare ≤ cluster ∨ g.gated = false ∨ g.readyAt ≠ 0 then .next s
  else .next (s.setGate cluster { g with readyAt := s.now + 48000 })

/-- CLUSTER_UNGATE_DONE (R399): the cluster counts as free. -/
def execClusterUngateDone (cluster : Nat) (s : State) : Host.Outcome State Fault Refusal :=
  let g := s.gate cluster
  if g.readyAt = 0 ∨ s.now < g.readyAt then .next s else .next (s.setGate cluster { gated := false, readyAt := 0 })

/-! ### Fatal errors (R324) -/

/-- What a fatal error is (R324): `cause` mod 4 is 0 for an uncorrectable error in state of a die that no squash can restore, 1 for a panic of the system
cores' operating system, and 2 for a thermal shutdown, which is forced where a sensor of a die has passed 115 °C (R398); the die is `cause` div 4
(logged as assumption 87). -/
def State.fatal (s : State) (cause : Nat) : Bool :=
  match cause % 4 with
  | 0 => decide (cause / 4 < Config.dies s.bare)
  | 1 => true
  | 2 => (List.range 32).any (fun n => decide (115 * 16 < fget 0 s.mg.heat (cause / 4 * 32 + n)))
  | _ => false

/-- FATAL_ERROR (R324): every hart and engine stops, the dump is written, and READY clears; an uncorrectable error makes its entry in the
fault-address queue (R359). -/
def execFatalError (cause : Nat) (s : State) : Host.Outcome State Fault Refusal :=
  if s.mg.stopped || !s.fatal cause then .next s
  else
    let s := if cause % 4 = 0 then s.updDie (cause / 4) (fun r => r.fault 0 4 1) else s
    let t := s.writeDump cause
    .next { t with mg := { t.mg with stopped := true, pkg := { t.mg.pkg with ready := false } } }

/-! ### Bring-up (R395) -/

/-- What a reset keeps: the part, the bad-page list and the dump with its flash copy, what the sensors report, and memory until Morning. -/
def State.powerOn (s : State) : State :=
  let r := State.resetOf s.bare
  { r with
    free := s.free, agenda := s.agenda, mem := s.mem
    disp := { r.disp with tvec := s.disp.tvec, supscr := s.disp.supscr, saveptr := s.disp.saveptr }
    ms := { r.ms with bad := s.ms.bad, timed := s.ms.timed }
    mg := { r.mg with
      withheld := s.mg.withheld && s.mg.pkg.dumpBit, flash := s.mg.flash, power := s.mg.power, heat := s.mg.heat
      pkg := { PkgRegs.reset with
        dumpBit := s.mg.pkg.dumpBit, dumpbase := if s.mg.pkg.dumpBit then s.mg.pkg.dumpbase else 0 } } }

/-- Bring-up stops with FAIL and a code (R395). -/
def PkgRegs.failWith (code : Nat) (p : PkgRegs) : PkgRegs := { p with fail := true, code := code }

/-- DAWN (R395): at power-on, and at the reset that follows a fatal error; a failure of codes 1 to 4 stops it here. -/
def execDawn (s : State) : Host.Outcome State Fault Refusal :=
  let t := if s.mg.stopped then s.powerOn else s
  if t.mg.pkg.phase ≠ 0 ∨ t.mg.pkg.fail = true then .next t
  else
    let f := Config.bringUpFailure
    .next (t.updPkg (if 1 ≤ f ∧ f ≤ 4 then PkgRegs.failWith f else fun p => { p with phase := 1 }))

/-- The dump region of a Morning: the lowest 1 GiB of HBM4E without a page of the bad-page list. -/
def State.dumpRegion (s : State) : Option Nat :=
  ((List.range (Config.hbmBytes s.bare / 0x4000_0000)).map (· * 0x4000_0000)).find?
    (fun b => !(s.ms.bad.any (fun r => meets b 0x4000_0000 (r.1 * 0x1_0000) 0x1_0000)))

/-- MORNING (R395): memory is zeroed, but for the region of a dump that is kept, and the dump region is chosen and withheld. -/
def execMorning (s : State) : Host.Outcome State Fault Refusal :=
  if s.mg.pkg.phase ≠ 1 ∨ s.mg.pkg.fail = true then .next s
  else
    let f := Config.bringUpFailure
    if f = 5 ∨ f = 6 then .next (s.updPkg (PkgRegs.failWith f))
    else
      let kept := s.mg.pkg.dumpBit
      let base := s.mg.pkg.dumpbase.toNat
      let mem := if kept then s.mem.filter (fun e => decide (base ≤ e.1) && decide (e.1 < base + 0x4000_0000)) else []
      let region := if kept then some base else s.dumpRegion
      .next { s with
        mem := mem, poison := []
        mg := { s.mg with
          withheld := region.isSome
          pkg := { s.mg.pkg with phase := 2, dumpbase := BitVec.ofNat 64 (region.getD 0) } } }

/-- NOON (R395): the commit stamp and package time start at 0, the refresh sequencers start (R352), budget
registers accepted before apply (R340), and READY is set. -/
def execNoon (s : State) : Host.Outcome State Fault Refusal :=
  if s.mg.pkg.phase ≠ 2 ∨ s.mg.pkg.ready = true ∨ s.mg.stopped = true ∨ s.mg.pkg.fail = true then .next s
  else
    let t := s.updPkg (fun p => { p with ready := true })
    .next { t with
      stamp := 0, now := 0, disp := { t.disp with dieRegs := t.disp.dieRegs.map (fun r => { r with budget := r.budNext, budAt := 0 }) }, ms := { t.ms with ctls := [], flights := [], returns := [], upTo := 0 }, mg := { t.mg with hotAt := 0 } }

end Sys2Proof.Machine
end

