-- ==== Sys2Proof/Machine/Scalar.lean ====
section
/-! DEFINITION. Integer instructions, branches, jumps, scalar loads and stores and fences (R121 to R131, R168 to R171). -/

namespace Sys2Proof.Machine

/-- 1 for true and 0 for false. -/
def flag64 (b : Bool) : W64 := if b then 1 else 0

/-- The number of one bits below bit `n`. -/
def onesBelow (x : Nat) : Nat → Nat
  | 0 => 0
  | n + 1 => (if bit x n then 1 else 0) + onesBelow x n

/-- The signed value of a 64-bit register. -/
def sreg (x : W64) : Int := x.toInt

/-- Signed division truncating toward zero (R123). -/
def divS (x y : W64) : W64 := if y = 0 then BitVec.allOnes 64 else BitVec.ofInt 64 (x.toInt.tdiv y.toInt)
def remS (x y : W64) : W64 := if y = 0 then x else BitVec.ofInt 64 (x.toInt.tmod y.toInt)
def divU (x y : W64) : W64 := if y = 0 then BitVec.allOnes 64 else BitVec.ofNat 64 (x.toNat / y.toNat)
def remU (x y : W64) : W64 := if y = 0 then x else BitVec.ofNat 64 (x.toNat % y.toNat)

/-- x shifted right by `n` with copies of its top bit. -/
def sraReg (x : W64) (n : Nat) : W64 := BitVec.sshiftRight x n

/-! ### Loads and stores (R126 to R129) -/

/-- Who a scalar access is made by. -/
def Sheaf.scalarReader (sh : Sheaf) : Reader := { agent := .scalar, seq := sh.seq, nSV := sh.nSV, nVS := sh.nVS, nVV := sh.nVV }

/-- The HOLD hit of a scalar access, on the state just after it, with what its sheaf has then reserved (R321). -/
def scalarHit (x : Hart) (sh : Sheaf) (resv : FMap Nat) (a : Arch) (w : Option Nat) (kind : Nat) (addr : W64) : Option Hit :=
  match sh.want, w with
  | some k, _ => some k
  | none, none => none
  | none, some wp =>
    some { wp := wp, trap := plainTrap 0x05 kind x.arch.pc addr sh.seq, x := a.x, csr := a.csr, nSV := sh.nSV, nVS := sh.nVS, nVV := sh.nVV,
           resv := resv }

/-- A scalar load of `n` bytes (R126 to R129). -/
def loadOp (s : State) (d a : BitVec 5) (o : BitVec 13) (n : Nat) (signed : Bool) : Host.Outcome State Fault Refusal :=
  withHart s [d.toNat, a.toNat] (fun h x =>
    let addr := x.arch.rx a.toNat + o.signExtend 64
    match x.cur with
    | none => s.stall h [] false
    | some sh =>
      match access s x.arch.grant x.arch.csr x.arch.sup addr.toNat n kRead n with
      | .error c => s.raiseAt h x c kRead addr
      | .ok acc =>
        if readPoisoned s sh sh.scalarReader acc.home n then s.raiseAt h x 0x10 kRead addr
        else
          let b := sheafRead s sh sh.scalarReader acc.home n s.free
          let v := leNat b.1
          let val := if signed then BitVec.ofInt 64 (toSigned (8 * n) v) else BitVec.ofNat 64 v
          let arch := (x.arch.wx d.toNat val).next
          let hit := scalarHit x sh sh.resv arch acc.hold kRead addr
          let y := x.setCur { sh.addRead acc.home n with want := hit }
          let late := x.ahead || s.ms.timed
          let y := { y with arch := arch, pend := if late then { reg := d.toNat, issued := s.now, young := decide (2 ≤ x.sheaves.length) } :: y.pend
                                                  else y.pend }
          let t := { s with free := b.2 }.retireTo h y (if late then .reg d.toNat else .nothing)
          if hit.isSome then t.settle h else t)

/-- A scalar store of `n` bytes (R126 to R128). -/
def storeOp (s : State) (d a : BitVec 5) (o : BitVec 13) (n : Nat) : Host.Outcome State Fault Refusal :=
  withHart s [d.toNat, a.toNat] (fun h x =>
    let addr := x.arch.rx a.toNat + o.signExtend 64
    match x.cur with
    | none => s.stall h [] false
    | some sh =>
      let r := reserve x.arch.grant.scalarQuarter 1 []
      if !resvFits x.sheaves r then s.forceSplit h x
      else
        match access s x.arch.grant x.arch.csr x.arch.sup addr.toNat n kWrite n with
        | .error c => s.raiseAt h x c kWrite addr
        | .ok acc =>
          let arch := x.arch.next
          let hit := scalarHit x sh (addResv sh.resv r) arch acc.hold kWrite addr
          let w := sheafWrite sh.scalarReader sh acc.home (leBytes n (x.arch.rx d.toNat).toNat)
          let y := x.setCur { w with want := hit, resv := addResv sh.resv r }
          let t := s.retire h (y.withArch arch)
          if hit.isSome then t.settle h else t)

/-! ### Branches and fences -/

/-- A conditional branch (R130). -/
def branchOp (s : State) (d a : BitVec 5) (o : BitVec 13) (c : W64 → W64 → Bool) : Host.Outcome State Fault Refusal :=
  withHart s [d.toNat, a.toNat] (fun h x =>
    let t := if c (x.arch.rx d.toNat) (x.arch.rx a.toNat) then x.arch.pc + 4 * o.signExtend 64 else x.arch.pc + 4
    s.retire h (x.withArch { x.arch with pc := t }))

/-- A fence that does not stop the scalar side: it counts in the sheaf (R168 to R170). -/
def fenceOp (s : State) (f : Sheaf → Sheaf) : Host.Outcome State Fault Refusal :=
  withHart s [] (fun h x =>
    match x.cur with
    | none => s.stall h [] false
    | some sh => s.retire h ((x.setCur (f sh)).withArch x.arch.next))

/-- A fence at which the scalar side waits for the vector side and the matrix unit (R171). -/
def fenceWaitOp (s : State) (f : Sheaf → Sheaf) : Host.Outcome State Fault Refusal :=
  withHart s [] (fun h x =>
    match x.cur with
    | none => s.stall h [] false
    | some sh =>
      if x.queue.isEmpty then s.retire h ((x.setCur (f sh)).withArch x.arch.next)
      else (s.setHart h x).stall h [] false)

/-! ### ALU, MULDIV and immediates (R122 to R125) -/

/-- ALU.ADD (R122). -/
def execAluAdd (d : BitVec 5) (a : BitVec 5) (b : BitVec 5) (s : State) : Host.Outcome State Fault Refusal :=
  regOp s d.toNat [a.toNat, b.toNat] (fun r => let x := r.rx a.toNat; let y := r.rx b.toNat; x + y)

/-- ALU.SUB (R122). -/
def execAluSub (d : BitVec 5) (a : BitVec 5) (b : BitVec 5) (s : State) : Host.Outcome State Fault Refusal :=
  regOp s d.toNat [a.toNat, b.toNat] (fun r => let x := r.rx a.toNat; let y := r.rx b.toNat; x - y)

/-- ALU.AND (R122). -/
def execAluAnd (d : BitVec 5) (a : BitVec 5) (b : BitVec 5) (s : State) : Host.Outcome State Fault Refusal :=
  regOp s d.toNat [a.toNat, b.toNat] (fun r => let x := r.rx a.toNat; let y := r.rx b.toNat; x &&& y)

/-- ALU.OR (R122). -/
def execAluOr (d : BitVec 5) (a : BitVec 5) (b : BitVec 5) (s : State) : Host.Outcome State Fault Refusal :=
  regOp s d.toNat [a.toNat, b.toNat] (fun r => let x := r.rx a.toNat; let y := r.rx b.toNat; x ||| y)

/-- ALU.XOR (R122). -/
def execAluXor (d : BitVec 5) (a : BitVec 5) (b : BitVec 5) (s : State) : Host.Outcome State Fault Refusal :=
  regOp s d.toNat [a.toNat, b.toNat] (fun r => let x := r.rx a.toNat; let y := r.rx b.toNat; x ^^^ y)

/-- ALU.SLL (R122). -/
def execAluSll (d : BitVec 5) (a : BitVec 5) (b : BitVec 5) (s : State) : Host.Outcome State Fault Refusal :=
  regOp s d.toNat [a.toNat, b.toNat] (fun r => let x := r.rx a.toNat; let y := r.rx b.toNat; x <<< (y.toNat % 64))

/-- ALU.SRL (R122). -/
def execAluSrl (d : BitVec 5) (a : BitVec 5) (b : BitVec 5) (s : State) : Host.Outcome State Fault Refusal :=
  regOp s d.toNat [a.toNat, b.toNat] (fun r => let x := r.rx a.toNat; let y := r.rx b.toNat; x >>> (y.toNat % 64))

/-- ALU.SRA (R122). -/
def execAluSra (d : BitVec 5) (a : BitVec 5) (b : BitVec 5) (s : State) : Host.Outcome State Fault Refusal :=
  regOp s d.toNat [a.toNat, b.toNat] (fun r => let x := r.rx a.toNat; let y := r.rx b.toNat; sraReg x (y.toNat % 64))

/-- ALU.SLT (R122). -/
def execAluSlt (d : BitVec 5) (a : BitVec 5) (b : BitVec 5) (s : State) : Host.Outcome State Fault Refusal :=
  regOp s d.toNat [a.toNat, b.toNat] (fun r => let x := r.rx a.toNat; let y := r.rx b.toNat; flag64 (decide (sreg x < sreg y)))

/-- ALU.SLTU (R122). -/
def execAluSltu (d : BitVec 5) (a : BitVec 5) (b : BitVec 5) (s : State) : Host.Outcome State Fault Refusal :=
  regOp s d.toNat [a.toNat, b.toNat] (fun r => let x := r.rx a.toNat; let y := r.rx b.toNat; flag64 (decide (x.toNat < y.toNat)))

/-- ALU.MIN (R122). -/
def execAluMin (d : BitVec 5) (a : BitVec 5) (b : BitVec 5) (s : State) : Host.Outcome State Fault Refusal :=
  regOp s d.toNat [a.toNat, b.toNat] (fun r => let x := r.rx a.toNat; let y := r.rx b.toNat; if sreg x < sreg y then x else y)

/-- ALU.MAX (R122). -/
def execAluMax (d : BitVec 5) (a : BitVec 5) (b : BitVec 5) (s : State) : Host.Outcome State Fault Refusal :=
  regOp s d.toNat [a.toNat, b.toNat] (fun r => let x := r.rx a.toNat; let y := r.rx b.toNat; if sreg y < sreg x then x else y)

/-- ALU.MINU (R122). -/
def execAluMinu (d : BitVec 5) (a : BitVec 5) (b : BitVec 5) (s : State) : Host.Outcome State Fault Refusal :=
  regOp s d.toNat [a.toNat, b.toNat] (fun r => let x := r.rx a.toNat; let y := r.rx b.toNat; if x.toNat < y.toNat then x else y)

/-- ALU.MAXU (R122). -/
def execAluMaxu (d : BitVec 5) (a : BitVec 5) (b : BitVec 5) (s : State) : Host.Outcome State Fault Refusal :=
  regOp s d.toNat [a.toNat, b.toNat] (fun r => let x := r.rx a.toNat; let y := r.rx b.toNat; if y.toNat < x.toNat then x else y)

/-- ALU.CLZ (R122). -/
def execAluClz (d : BitVec 5) (a : BitVec 5) (s : State) : Host.Outcome State Fault Refusal :=
  regOp s d.toNat [a.toNat] (fun r => BitVec.ofNat 64 (64 - bitLen (r.rx a.toNat).toNat))

/-- ALU.POPC (R122). -/
def execAluPopc (d : BitVec 5) (a : BitVec 5) (s : State) : Host.Outcome State Fault Refusal :=
  regOp s d.toNat [a.toNat] (fun r => BitVec.ofNat 64 (onesBelow (r.rx a.toNat).toNat 64))

/-- MULDIV.MUL (R123). -/
def execMuldivMul (d : BitVec 5) (a : BitVec 5) (b : BitVec 5) (s : State) : Host.Outcome State Fault Refusal :=
  regOp s d.toNat [a.toNat, b.toNat] (fun r => let x := r.rx a.toNat; let y := r.rx b.toNat; x * y)

/-- MULDIV.MULH (R123). -/
def execMuldivMulh (d : BitVec 5) (a : BitVec 5) (b : BitVec 5) (s : State) : Host.Outcome State Fault Refusal :=
  regOp s d.toNat [a.toNat, b.toNat] (fun r => let x := r.rx a.toNat; let y := r.rx b.toNat; BitVec.ofInt 64 (sreg x * sreg y / (2 ^ 64 : Nat)))

/-- MULDIV.MULHU (R123). -/
def execMuldivMulhu (d : BitVec 5) (a : BitVec 5) (b : BitVec 5) (s : State) : Host.Outcome State Fault Refusal :=
  regOp s d.toNat [a.toNat, b.toNat] (fun r => let x := r.rx a.toNat; let y := r.rx b.toNat; BitVec.ofNat 64 (x.toNat * y.toNat / 2 ^ 64))

/-- MULDIV.DIV (R123). -/
def execMuldivDiv (d : BitVec 5) (a : BitVec 5) (b : BitVec 5) (s : State) : Host.Outcome State Fault Refusal :=
  regOp s d.toNat [a.toNat, b.toNat] (fun r => let x := r.rx a.toNat; let y := r.rx b.toNat; divS x y)

/-- MULDIV.DIVU (R123). -/
def execMuldivDivu (d : BitVec 5) (a : BitVec 5) (b : BitVec 5) (s : State) : Host.Outcome State Fault Refusal :=
  regOp s d.toNat [a.toNat, b.toNat] (fun r => let x := r.rx a.toNat; let y := r.rx b.toNat; divU x y)

/-- MULDIV.REM (R123). -/
def execMuldivRem (d : BitVec 5) (a : BitVec 5) (b : BitVec 5) (s : State) : Host.Outcome State Fault Refusal :=
  regOp s d.toNat [a.toNat, b.toNat] (fun r => let x := r.rx a.toNat; let y := r.rx b.toNat; remS x y)

/-- MULDIV.REMU (R123). -/
def execMuldivRemu (d : BitVec 5) (a : BitVec 5) (b : BitVec 5) (s : State) : Host.Outcome State Fault Refusal :=
  regOp s d.toNat [a.toNat, b.toNat] (fun r => let x := r.rx a.toNat; let y := r.rx b.toNat; remU x y)

/-- ADDI (R124). -/
def execAddi (d : BitVec 5) (a : BitVec 5) (i : BitVec 16) (s : State) : Host.Outcome State Fault Refusal :=
  regOp s d.toNat [a.toNat] (fun r => let x := r.rx a.toNat; let y : W64 := i.signExtend 64; x + y)

/-- ANDI (R124). -/
def execAndi (d : BitVec 5) (a : BitVec 5) (i : BitVec 16) (s : State) : Host.Outcome State Fault Refusal :=
  regOp s d.toNat [a.toNat] (fun r => let x := r.rx a.toNat; let y : W64 := i.setWidth 64; x &&& y)

/-- ORI (R124). -/
def execOri (d : BitVec 5) (a : BitVec 5) (i : BitVec 16) (s : State) : Host.Outcome State Fault Refusal :=
  regOp s d.toNat [a.toNat] (fun r => let x := r.rx a.toNat; let y : W64 := i.setWidth 64; x ||| y)

/-- XORI (R124). -/
def execXori (d : BitVec 5) (a : BitVec 5) (i : BitVec 16) (s : State) : Host.Outcome State Fault Refusal :=
  regOp s d.toNat [a.toNat] (fun r => let x := r.rx a.toNat; let y : W64 := i.setWidth 64; x ^^^ y)

/-- SLTI (R124). -/
def execSlti (d : BitVec 5) (a : BitVec 5) (i : BitVec 16) (s : State) : Host.Outcome State Fault Refusal :=
  regOp s d.toNat [a.toNat] (fun r => let x := r.rx a.toNat; let y : W64 := i.signExtend 64; flag64 (decide (sreg x < sreg y)))

/-- SLTIU (R124). -/
def execSltiu (d : BitVec 5) (a : BitVec 5) (i : BitVec 16) (s : State) : Host.Outcome State Fault Refusal :=
  regOp s d.toNat [a.toNat] (fun r => let x := r.rx a.toNat; let y : W64 := i.signExtend 64; flag64 (decide (x.toNat < y.toNat)))

/-- SHI.SLLI (R124). -/
def execShiSlli (d : BitVec 5) (a : BitVec 5) (s : BitVec 6) (st : State) : Host.Outcome State Fault Refusal :=
  regOp st d.toNat [a.toNat] (fun r => r.rx a.toNat <<< s.toNat)

/-- SHI.SRLI (R124). -/
def execShiSrli (d : BitVec 5) (a : BitVec 5) (s : BitVec 6) (st : State) : Host.Outcome State Fault Refusal :=
  regOp st d.toNat [a.toNat] (fun r => r.rx a.toNat >>> s.toNat)

/-- SHI.SRAI (R124). -/
def execShiSrai (d : BitVec 5) (a : BitVec 5) (s : BitVec 6) (st : State) : Host.Outcome State Fault Refusal :=
  regOp st d.toNat [a.toNat] (fun r => sraReg (r.rx a.toNat) s.toNat)

/-- LUI (R125). -/
def execLui (d : BitVec 5) (w : BitVec 21) (s : State) : Host.Outcome State Fault Refusal :=
  regOp s d.toNat [] (fun _ => w.signExtend 64 * 4096)

/-- AUIPC (R125). -/
def execAuipc (d : BitVec 5) (w : BitVec 21) (s : State) : Host.Outcome State Fault Refusal :=
  regOp s d.toNat [] (fun r => r.pc + w.signExtend 64 * 4096)

/-! ### Scalar loads and stores -/

/-- LDS.B (R126). -/
def execLdsB (d : BitVec 5) (a : BitVec 5) (o : BitVec 13) (s : State) : Host.Outcome State Fault Refusal :=
  loadOp s d a o 1 true

/-- LDS.H (R126). -/
def execLdsH (d : BitVec 5) (a : BitVec 5) (o : BitVec 13) (s : State) : Host.Outcome State Fault Refusal :=
  loadOp s d a o 2 true

/-- LDS.W (R126). -/
def execLdsW (d : BitVec 5) (a : BitVec 5) (o : BitVec 13) (s : State) : Host.Outcome State Fault Refusal :=
  loadOp s d a o 4 true

/-- LDS.D (R126). -/
def execLdsD (d : BitVec 5) (a : BitVec 5) (o : BitVec 13) (s : State) : Host.Outcome State Fault Refusal :=
  loadOp s d a o 8 false

/-- LDS.BU (R126). -/
def execLdsBu (d : BitVec 5) (a : BitVec 5) (o : BitVec 13) (s : State) : Host.Outcome State Fault Refusal :=
  loadOp s d a o 1 false

/-- LDS.HU (R126). -/
def execLdsHu (d : BitVec 5) (a : BitVec 5) (o : BitVec 13) (s : State) : Host.Outcome State Fault Refusal :=
  loadOp s d a o 2 false

/-- LDS.WU (R126). -/
def execLdsWu (d : BitVec 5) (a : BitVec 5) (o : BitVec 13) (s : State) : Host.Outcome State Fault Refusal :=
  loadOp s d a o 4 false

/-- STS.B (R126). -/
def execStsB (d : BitVec 5) (a : BitVec 5) (o : BitVec 13) (s : State) : Host.Outcome State Fault Refusal :=
  storeOp s d a o 1

/-- STS.H (R126). -/
def execStsH (d : BitVec 5) (a : BitVec 5) (o : BitVec 13) (s : State) : Host.Outcome State Fault Refusal :=
  storeOp s d a o 2

/-- STS.W (R126). -/
def execStsW (d : BitVec 5) (a : BitVec 5) (o : BitVec 13) (s : State) : Host.Outcome State Fault Refusal :=
  storeOp s d a o 4

/-- STS.D (R126). -/
def execStsD (d : BitVec 5) (a : BitVec 5) (o : BitVec 13) (s : State) : Host.Outcome State Fault Refusal :=
  storeOp s d a o 8

/-! ### Branches, jumps and fences -/

/-- BRC.EQ (R130). -/
def execBrcEq (d : BitVec 5) (a : BitVec 5) (o : BitVec 13) (s : State) : Host.Outcome State Fault Refusal :=
  branchOp s d a o (fun x y => decide (x = y))

/-- BRC.NE (R130). -/
def execBrcNe (d : BitVec 5) (a : BitVec 5) (o : BitVec 13) (s : State) : Host.Outcome State Fault Refusal :=
  branchOp s d a o (fun x y => decide (x ≠ y))

/-- BRC.LT (R130). -/
def execBrcLt (d : BitVec 5) (a : BitVec 5) (o : BitVec 13) (s : State) : Host.Outcome State Fault Refusal :=
  branchOp s d a o (fun x y => decide (sreg x < sreg y))

/-- BRC.GE (R130). -/
def execBrcGe (d : BitVec 5) (a : BitVec 5) (o : BitVec 13) (s : State) : Host.Outcome State Fault Refusal :=
  branchOp s d a o (fun x y => decide (sreg y ≤ sreg x))

/-- BRC.LTU (R130). -/
def execBrcLtu (d : BitVec 5) (a : BitVec 5) (o : BitVec 13) (s : State) : Host.Outcome State Fault Refusal :=
  branchOp s d a o (fun x y => decide (x.toNat < y.toNat))

/-- BRC.GEU (R130). -/
def execBrcGeu (d : BitVec 5) (a : BitVec 5) (o : BitVec 13) (s : State) : Host.Outcome State Fault Refusal :=
  branchOp s d a o (fun x y => decide (y.toNat ≤ x.toNat))

/-- JAL (R131). -/
def execJal (d : BitVec 5) (w : BitVec 21) (s : State) : Host.Outcome State Fault Refusal :=
  withHart s [d.toNat] (fun h x =>
    s.retire h (x.withArch { (x.arch.wx d.toNat (x.arch.pc + 4)) with pc := x.arch.pc + 4 * w.signExtend 64 }))

/-- JALR (R131). -/
def execJalr (d : BitVec 5) (a : BitVec 5) (i : BitVec 16) (s : State) : Host.Outcome State Fault Refusal :=
  withHart s [d.toNat, a.toNat] (fun h x =>
    let t := x.arch.rx a.toNat + i.signExtend 64
    if t.toNat % 4 ≠ 0 then s.raiseAt h x 0x02 kFetch t
    else s.retire h (x.withArch { (x.arch.wx d.toNat (x.arch.pc + 4)) with pc := t }))

/-- FENCE.SV (R170). -/
def execFenceSv (s : State) : Host.Outcome State Fault Refusal :=
  fenceOp s (fun sh => { sh with nSV := sh.nSV + 1 })

/-- FENCE.VS (R171). -/
def execFenceVs (s : State) : Host.Outcome State Fault Refusal :=
  fenceWaitOp s (fun sh => { sh with nVS := sh.nVS + 1 })

/-- FENCE.VV (R169). -/
def execFenceVv (s : State) : Host.Outcome State Fault Refusal :=
  fenceOp s (fun sh => { sh with nVV := sh.nVV + 1 })

/-- FENCE.ALL (R171). -/
def execFenceAll (s : State) : Host.Outcome State Fault Refusal :=
  fenceWaitOp s (fun sh => { sh with nSV := sh.nSV + 1, nVS := sh.nVS + 1, nVV := sh.nVV + 1 })

end Sys2Proof.Machine
end

