-- ==== Sys2Proof/Machine/ScalarFp.lean ====
section
/-! DEFINITION. Scalar floating point (R132 to R134). -/

namespace Sys2Proof.Machine

/-- What a scalar floating-point function gives: the bits of xd, the flags raised, and the generator after it. -/
structure FpOut where
  val  : Nat
  fl   : Nat
  seed : W64
  deriving DecidableEq, Repr

/-- A function that does not round. -/
def FpOut.plain (seed : W64) (r : Nat × Nat) : FpOut := { val := r.1, fl := r.2, seed := seed }

/-- Round of an exact value with the flags of its operation (R57, R61). -/
def FpOut.round (t : Fmt) (mode : Nat) (seed : W64) (x : FV × Nat) : FpOut :=
  let r := roundStep t mode false seed x.1
  { val := r.1, fl := fOr x.2 (if x.2 &&& fNV ≠ 0 then 0 else r.2.1), seed := r.2.2 }

/-- Round to a 64-bit integer (R63). -/
def FpOut.toInt (signed : Bool) (mode : Nat) (seed : W64) (x : FV) : FpOut :=
  let u := draw mode seed
  let r := toIntFV 64 signed mode u.1 x
  { val := wrap 64 r.1, fl := r.2, seed := u.2 }

/-- The format of P (R81). -/
def fpsFmt (p : BitVec 1) : Fmt := if p = 1#1 then fp64 else fp32

/-- An operand: the low 32 bits at FP32 (R132). -/
def fpsIn (t : Fmt) (x : W64) : Nat := x.toNat % 2 ^ t.w

/-- A scalar floating-point instruction: under SR a rounding function waits for the earlier work of the vector side; an
enabled flag traps FPX, and else the flags are ORed into FCSR (R39, R132). -/
def fpsOp (s : State) (d : BitVec 5) (rs : List Nat) (rounds : Bool) (f : Nat → W64 → Arch → FpOut) :
    Host.Outcome State Fault Refusal :=
  withHart s (d.toNat :: rs) (fun h x =>
    let mode := frm x.arch.csr
    if rounds && decide (mode = 4) && !x.queue.isEmpty then (s.setHart h x).stall h [] false
    else
      let r := f mode (x.arch.rcsr cSRSEED) x.arch
      if r.fl &&& fen x.arch.csr ≠ 0 then s.raiseAt h x 0x0E 0 (BitVec.ofNat 64 (r.fl &&& fen x.arch.csr))
      else
        let a := (x.arch.wx d.toNat (BitVec.ofNat 64 r.val)).orFlags r.fl
        s.retire h (x.withArch (a.wcsr cSRSEED r.seed).next))

/-- FPS.ADD (R133). -/
def execFpsAdd (d : BitVec 5) (a : BitVec 5) (b : BitVec 5) (p : BitVec 1) (s : State) : Host.Outcome State Fault Refusal :=
  fpsOp s d [a.toNat, b.toNat] true (fun mode seed a0 =>
    let t := fpsFmt p
    FpOut.round t mode seed (sumFV mode [(t.decode (fpsIn t (a0.rx a.toNat))), (t.decode (fpsIn t (a0.rx b.toNat)))]))

/-- FPS.SUB (R133). -/
def execFpsSub (d : BitVec 5) (a : BitVec 5) (b : BitVec 5) (p : BitVec 1) (s : State) : Host.Outcome State Fault Refusal :=
  fpsOp s d [a.toNat, b.toNat] true (fun mode seed a0 =>
    let t := fpsFmt p
    FpOut.round t mode seed (sumFV mode [(t.decode (fpsIn t (a0.rx a.toNat))), (t.decode (fpsIn t (a0.rx b.toNat))).negate]))

/-- FPS.MUL (R133). -/
def execFpsMul (d : BitVec 5) (a : BitVec 5) (b : BitVec 5) (p : BitVec 1) (s : State) : Host.Outcome State Fault Refusal :=
  fpsOp s d [a.toNat, b.toNat] true (fun mode seed a0 =>
    let t := fpsFmt p
    FpOut.round t mode seed (mulFV (t.decode (fpsIn t (a0.rx a.toNat))) (t.decode (fpsIn t (a0.rx b.toNat)))))

/-- FPS.DIV (R133). -/
def execFpsDiv (d : BitVec 5) (a : BitVec 5) (b : BitVec 5) (p : BitVec 1) (s : State) : Host.Outcome State Fault Refusal :=
  fpsOp s d [a.toNat, b.toNat] true (fun mode seed a0 =>
    let t := fpsFmt p
    FpOut.round t mode seed (divFV (t.decode (fpsIn t (a0.rx a.toNat))) (t.decode (fpsIn t (a0.rx b.toNat)))))

/-- FPS.SQRT (R133). -/
def execFpsSqrt (d : BitVec 5) (a : BitVec 5) (p : BitVec 1) (s : State) : Host.Outcome State Fault Refusal :=
  fpsOp s d [a.toNat] true (fun mode seed a0 =>
    let t := fpsFmt p
    FpOut.round t mode seed (sqrtFV (t.decode (fpsIn t (a0.rx a.toNat)))))

/-- FPS.FMA (R133). -/
def execFpsFma (d : BitVec 5) (a : BitVec 5) (b : BitVec 5) (p : BitVec 1) (s : State) : Host.Outcome State Fault Refusal :=
  fpsOp s d [a.toNat, b.toNat] true (fun mode seed a0 =>
    let t := fpsFmt p
    FpOut.round t mode seed (fmaFV mode (t.decode (fpsIn t (a0.rx a.toNat))) (t.decode (fpsIn t (a0.rx b.toNat))) (t.decode (fpsIn t (a0.rx d.toNat)))))

/-- FPS.MIN (R133). -/
def execFpsMin (d : BitVec 5) (a : BitVec 5) (b : BitVec 5) (p : BitVec 1) (s : State) : Host.Outcome State Fault Refusal :=
  fpsOp s d [a.toNat, b.toNat] false (fun _ seed a0 =>
    let t := fpsFmt p
    FpOut.plain seed (minmax t false (fpsIn t (a0.rx a.toNat)) (fpsIn t (a0.rx b.toNat))))

/-- FPS.MAX (R133). -/
def execFpsMax (d : BitVec 5) (a : BitVec 5) (b : BitVec 5) (p : BitVec 1) (s : State) : Host.Outcome State Fault Refusal :=
  fpsOp s d [a.toNat, b.toNat] false (fun _ seed a0 =>
    let t := fpsFmt p
    FpOut.plain seed (minmax t true (fpsIn t (a0.rx a.toNat)) (fpsIn t (a0.rx b.toNat))))

/-- FPS.CVT_OTHER (R133). -/
def execFpsCvtOther (d : BitVec 5) (a : BitVec 5) (p : BitVec 1) (s : State) : Host.Outcome State Fault Refusal :=
  fpsOp s d [a.toNat] (decide (p = 0#1)) (fun mode seed a0 =>
    let t := fpsFmt p
    let src := if p = 1#1 then fp32 else fp64
    let x := src.decode (fpsIn src (a0.rx a.toNat))
    FpOut.round t (if p = 0#1 then mode else 0) seed (x, if x.isSig then fNV else 0))

/-- FPS.CVT_FROMINT (R133). -/
def execFpsCvtFromint (d : BitVec 5) (a : BitVec 5) (p : BitVec 1) (s : State) : Host.Outcome State Fault Refusal :=
  fpsOp s d [a.toNat] true (fun mode seed a0 =>
    let t := fpsFmt p
    FpOut.round t mode seed (ofIntFV (a0.rx a.toNat).toInt, 0))

/-- FPS.CVT_FROMUINT (R133). -/
def execFpsCvtFromuint (d : BitVec 5) (a : BitVec 5) (p : BitVec 1) (s : State) : Host.Outcome State Fault Refusal :=
  fpsOp s d [a.toNat] true (fun mode seed a0 =>
    let t := fpsFmt p
    FpOut.round t mode seed (ofIntFV ((a0.rx a.toNat).toNat : Int), 0))

/-- FPS.CVT_TOINT (R133). -/
def execFpsCvtToint (d : BitVec 5) (a : BitVec 5) (p : BitVec 1) (s : State) : Host.Outcome State Fault Refusal :=
  fpsOp s d [a.toNat] true (fun mode seed a0 =>
    let t := fpsFmt p
    FpOut.toInt true mode seed (t.decode (fpsIn t (a0.rx a.toNat))))

/-- FPS.CVT_TOUINT (R133). -/
def execFpsCvtTouint (d : BitVec 5) (a : BitVec 5) (p : BitVec 1) (s : State) : Host.Outcome State Fault Refusal :=
  fpsOp s d [a.toNat] true (fun mode seed a0 =>
    let t := fpsFmt p
    FpOut.toInt false mode seed (t.decode (fpsIn t (a0.rx a.toNat))))

/-- FPS.CMP_EQ (R133). -/
def execFpsCmpEq (d : BitVec 5) (a : BitVec 5) (b : BitVec 5) (p : BitVec 1) (s : State) : Host.Outcome State Fault Refusal :=
  fpsOp s d [a.toNat, b.toNat] false (fun _ seed a0 =>
    let t := fpsFmt p
    let r := relate t 0 (fpsIn t (a0.rx a.toNat)) (fpsIn t (a0.rx b.toNat))
    FpOut.plain seed (if r.1 then 1 else 0, r.2))

/-- FPS.CMP_LT (R133). -/
def execFpsCmpLt (d : BitVec 5) (a : BitVec 5) (b : BitVec 5) (p : BitVec 1) (s : State) : Host.Outcome State Fault Refusal :=
  fpsOp s d [a.toNat, b.toNat] false (fun _ seed a0 =>
    let t := fpsFmt p
    let r := relate t 1 (fpsIn t (a0.rx a.toNat)) (fpsIn t (a0.rx b.toNat))
    FpOut.plain seed (if r.1 then 1 else 0, r.2))

/-- FPS.CMP_LE (R133). -/
def execFpsCmpLe (d : BitVec 5) (a : BitVec 5) (b : BitVec 5) (p : BitVec 1) (s : State) : Host.Outcome State Fault Refusal :=
  fpsOp s d [a.toNat, b.toNat] false (fun _ seed a0 =>
    let t := fpsFmt p
    let r := relate t 2 (fpsIn t (a0.rx a.toNat)) (fpsIn t (a0.rx b.toNat))
    FpOut.plain seed (if r.1 then 1 else 0, r.2))

/-- FPS.CLASS (R134). -/
def execFpsClass (d : BitVec 5) (a : BitVec 5) (p : BitVec 1) (s : State) : Host.Outcome State Fault Refusal :=
  fpsOp s d [a.toNat] false (fun _ seed a0 =>
    let t := fpsFmt p
    FpOut.plain seed (classOf t (fpsIn t (a0.rx a.toNat)), 0))

/-- FPS.MV_COPY (R133). -/
def execFpsMvCopy (d : BitVec 5) (a : BitVec 5) (p : BitVec 1) (s : State) : Host.Outcome State Fault Refusal :=
  fpsOp s d [a.toNat] false (fun _ seed a0 =>
    let t := fpsFmt p
    FpOut.plain seed (moveSign t 0 (fpsIn t (a0.rx a.toNat))))

/-- FPS.MV_NEG (R133). -/
def execFpsMvNeg (d : BitVec 5) (a : BitVec 5) (p : BitVec 1) (s : State) : Host.Outcome State Fault Refusal :=
  fpsOp s d [a.toNat] false (fun _ seed a0 =>
    let t := fpsFmt p
    FpOut.plain seed (moveSign t 1 (fpsIn t (a0.rx a.toNat))))

/-- FPS.MV_ABS (R133). -/
def execFpsMvAbs (d : BitVec 5) (a : BitVec 5) (p : BitVec 1) (s : State) : Host.Outcome State Fault Refusal :=
  fpsOp s d [a.toNat] false (fun _ seed a0 =>
    let t := fpsFmt p
    FpOut.plain seed (moveSign t 2 (fpsIn t (a0.rx a.toNat))))

end Sys2Proof.Machine
end

