-- ==== Sys2Proof/Machine/Tiles.lean ====
section
/-! DEFINITION. MOP (R206), ZOP (R202 to R217, R230) and MSK (R223 to R231): each instruction placed in its queue. -/

namespace Sys2Proof.Machine

/-- MOP.OP (R209). -/
def execMopOp (d : BitVec 3) (a : BitVec 5) (b : BitVec 5) (m : BitVec 3) (r : BitVec 3) (f : BitVec 4) (s : State) : Host.Outcome State Fault Refusal :=
  issueV s ⟨[], .mq, none, packR 48#6 (0#2 ++ d) a b m (r ++ 0#1 ++ f)⟩ noResv
    (fun _ => .mop false d.toNat a.toNat b.toNat m.toNat r.toNat f.toNat)

/-- MOP.OPN (R209). -/
def execMopOpn (d : BitVec 3) (a : BitVec 5) (b : BitVec 5) (m : BitVec 3) (r : BitVec 3) (f : BitVec 4) (s : State) : Host.Outcome State Fault Refusal :=
  issueV s ⟨[], .mq, none, packR 48#6 (0#2 ++ d) a b m (r ++ 1#1 ++ f)⟩ noResv
    (fun _ => .mop true d.toNat a.toNat b.toNat m.toNat r.toNat f.toNat)

/-- ZOP.ENABLE (R204). -/
def execZopEnable (s : State) : Host.Outcome State Fault Refusal :=
  issueV s ⟨[], .mq, none, packR 49#6 0#5 0#5 0#5 0#3 1#8⟩ noResv
    (fun _ => .zenable)

/-- ZOP.DISABLE (R204). -/
def execZopDisable (s : State) : Host.Outcome State Fault Refusal :=
  issueV s ⟨[], .mq, none, packR 49#6 0#5 0#5 0#5 0#3 2#8⟩ noResv
    (fun _ => .zdisable)

/-- ZOP.ZERO (R217). -/
def execZopZero (d : BitVec 3) (s : State) : Host.Outcome State Fault Refusal :=
  issueV s ⟨[], .mq, none, packR 49#6 (0#2 ++ d) 0#5 0#5 0#3 3#8⟩ noResv
    (fun _ => .zzero d.toNat)

/-- ZOP.RD (R213). -/
def execZopRd (d : BitVec 3) (a : BitVec 5) (b : BitVec 5) (m : BitVec 3) (s : BitVec 1) (c : BitVec 1) (l : BitVec 1) (st : State) : Host.Outcome State Fault Refusal :=
  issueV st ⟨[b.toNat], .mq, none, packR 49#6 (0#2 ++ d) a b m (0#1 ++ s ++ c ++ l ++ 4#4)⟩ noResv
    (fun a0 => .zrd d.toNat a.toNat (a0.rx b.toNat) m.toNat s.toNat c.toNat l.toNat)

/-- ZOP.WR (R213). -/
def execZopWr (d : BitVec 3) (a : BitVec 5) (b : BitVec 5) (m : BitVec 3) (c : BitVec 1) (l : BitVec 1) (s : State) : Host.Outcome State Fault Refusal :=
  issueV s ⟨[b.toNat], .mq, none, packR 49#6 (0#2 ++ d) a b m (0#2 ++ c ++ l ++ 5#4)⟩ noResv
    (fun a0 => .zwr d.toNat a.toNat (a0.rx b.toNat) m.toNat c.toNat l.toNat)

/-- ZOP.PATCH (R214). -/
def execZopPatch (d : BitVec 3) (a : BitVec 5) (b : BitVec 5) (m : BitVec 3) (x : BitVec 1) (c : BitVec 1) (l : BitVec 1) (s : State) : Host.Outcome State Fault Refusal :=
  issueV s ⟨[b.toNat], .mq, none, packR 49#6 (0#2 ++ d) a b m (x ++ 0#1 ++ c ++ l ++ 6#4)⟩ noResv
    (fun a0 => .zpatch d.toNat a.toNat (a0.rx b.toNat) m.toNat x.toNat c.toNat l.toNat)

/-- ZOP.SCALE (R216). -/
def execZopScale (d : BitVec 3) (a : BitVec 5) (m : BitVec 3) (s : State) : Host.Outcome State Fault Refusal :=
  issueV s ⟨[], .mq, none, packR 49#6 (0#2 ++ d) a 0#5 m 7#8⟩ noResv
    (fun _ => .zscale d.toNat a.toNat m.toNat)

/-- ZOP.MASK (R230). -/
def execZopMask (d : BitVec 3) (a : BitVec 5) (k : BitVec 2) (z : BitVec 1) (s : State) : Host.Outcome State Fault Refusal :=
  issueV s ⟨[a.toNat], .mq, none, packR 49#6 (0#2 ++ d) a (0#3 ++ k) 0#3 (0#3 ++ z ++ 8#4)⟩ noResv
    (fun a0 => .zmask d.toNat (a0.rx a.toNat) k.toNat z.toNat)

/-- MSK.LD (R223). -/
def execMskLd (k : BitVec 2) (a : BitVec 5) (s : State) : Host.Outcome State Fault Refusal :=
  issueV s ⟨[a.toNat], .viq, none, packR 50#6 (0#3 ++ k) a 0#5 0#3 0#8⟩ noResv
    (fun a0 => .mskld k.toNat (a0.rx a.toNat))

/-- MSK.CLS (R228). -/
def execMskCls (d : BitVec 5) (a : BitVec 5) (k : BitVec 2) (s : State) : Host.Outcome State Fault Refusal :=
  issueV s ⟨[d.toNat, a.toNat], .viq, (some d.toNat), packR 50#6 d a (0#3 ++ k) 0#3 1#8⟩ noResv
    (fun a0 => .mskcls (a0.rx a.toNat) k.toNat)

/-- MSK.GEN (R229). -/
def execMskGen (d : BitVec 3) (a : BitVec 5) (k : BitVec 2) (s : State) : Host.Outcome State Fault Refusal :=
  issueV s ⟨[a.toNat], .viq, none, packR 50#6 (0#2 ++ d) a (0#3 ++ k) 0#3 2#8⟩ noResv
    (fun a0 => .mskgen d.toNat (a0.rx a.toNat) k.toNat)

/-- MSK.CNT (R231). -/
def execMskCnt (d : BitVec 5) (s : BitVec 2) (st : State) : Host.Outcome State Fault Refusal :=
  issueV st ⟨[d.toNat], .viq, (some d.toNat), packR 50#6 d 0#5 (0#3 ++ s) 0#3 3#8⟩ noResv
    (fun _ => .mskcnt s.toNat)

/-- ZOP.CFG (R202): the scalar side sets ZCFGd at its place in program order; an illegal shape traps ZSHAPE. -/
def execZopCfg (d : BitVec 3) (a : BitVec 5) (s : State) : Host.Outcome State Fault Refusal :=
  let w := packR 49#6 (0#2 ++ d) a 0#5 0#3 0#8
  withHart s [a.toNat] (fun h x =>
    let g := x.arch.grant
    let v := x.arch.rx a.toNat
    if (x.arch.sup && x.held.isNone) || decide (g.clusters = 0) || !needsZ x.target.csr then s.ill h x w
    else if QUnit.mq.size ≤ x.taken .mq then (s.setHart h x).stall h [] true
    else if !zcfgOk g v then s.raiseAt h x 0x07 0 v
    else
      let y := x.push .mq (.zcfg d.toNat v) w none []
      (s.setHart h (y.withArch (y.arch.wcsr (cZCFG + d.toNat) v).next)).issue h)

end Sys2Proof.Machine
end

