-- ==== Sys2Proof/Machine/VectorFp.lean ====
section
/-! DEFINITION. VFP, VFPX (R179, R180) and VCVT (R181 to R187): each instruction placed in the VIQ. -/

namespace Sys2Proof.Machine

/-- VFP.ADD (R180). -/
def execVfpAdd (d : BitVec 5) (a : BitVec 5) (b : BitVec 5) (m : BitVec 3) (s : State) : Host.Outcome State Fault Refusal :=
  issueV s ⟨[], .viq, none, packR 37#6 d a b m 0#8⟩ noResv
    (fun _ => .fp .add d.toNat a.toNat (.vec b.toNat) m.toNat)

/-- VFP.SUB (R180). -/
def execVfpSub (d : BitVec 5) (a : BitVec 5) (b : BitVec 5) (m : BitVec 3) (s : State) : Host.Outcome State Fault Refusal :=
  issueV s ⟨[], .viq, none, packR 37#6 d a b m 1#8⟩ noResv
    (fun _ => .fp .sub d.toNat a.toNat (.vec b.toNat) m.toNat)

/-- VFP.MUL (R180). -/
def execVfpMul (d : BitVec 5) (a : BitVec 5) (b : BitVec 5) (m : BitVec 3) (s : State) : Host.Outcome State Fault Refusal :=
  issueV s ⟨[], .viq, none, packR 37#6 d a b m 2#8⟩ noResv
    (fun _ => .fp .mul d.toNat a.toNat (.vec b.toNat) m.toNat)

/-- VFP.DIV (R180). -/
def execVfpDiv (d : BitVec 5) (a : BitVec 5) (b : BitVec 5) (m : BitVec 3) (s : State) : Host.Outcome State Fault Refusal :=
  issueV s ⟨[], .viq, none, packR 37#6 d a b m 3#8⟩ noResv
    (fun _ => .fp .div d.toNat a.toNat (.vec b.toNat) m.toNat)

/-- VFP.SQRT (R180). -/
def execVfpSqrt (d : BitVec 5) (a : BitVec 5) (m : BitVec 3) (s : State) : Host.Outcome State Fault Refusal :=
  issueV s ⟨[], .viq, none, packR 37#6 d a 0#5 m 4#8⟩ noResv
    (fun _ => .fp .sqrt d.toNat a.toNat (.vec a.toNat) m.toNat)

/-- VFP.MIN (R180). -/
def execVfpMin (d : BitVec 5) (a : BitVec 5) (b : BitVec 5) (m : BitVec 3) (s : State) : Host.Outcome State Fault Refusal :=
  issueV s ⟨[], .viq, none, packR 37#6 d a b m 5#8⟩ noResv
    (fun _ => .fp .min d.toNat a.toNat (.vec b.toNat) m.toNat)

/-- VFP.MAX (R180). -/
def execVfpMax (d : BitVec 5) (a : BitVec 5) (b : BitVec 5) (m : BitVec 3) (s : State) : Host.Outcome State Fault Refusal :=
  issueV s ⟨[], .viq, none, packR 37#6 d a b m 6#8⟩ noResv
    (fun _ => .fp .max d.toNat a.toNat (.vec b.toNat) m.toNat)

/-- VFP.MACC (R180). -/
def execVfpMacc (d : BitVec 5) (a : BitVec 5) (b : BitVec 5) (m : BitVec 3) (s : State) : Host.Outcome State Fault Refusal :=
  issueV s ⟨[], .viq, none, packR 37#6 d a b m 7#8⟩ noResv
    (fun _ => .fp .macc d.toNat a.toNat (.vec b.toNat) m.toNat)

/-- VFP.NMACC (R180). -/
def execVfpNmacc (d : BitVec 5) (a : BitVec 5) (b : BitVec 5) (m : BitVec 3) (s : State) : Host.Outcome State Fault Refusal :=
  issueV s ⟨[], .viq, none, packR 37#6 d a b m 8#8⟩ noResv
    (fun _ => .fp .nmacc d.toNat a.toNat (.vec b.toNat) m.toNat)

/-- VFP.EXP2 (R180). -/
def execVfpExp2 (d : BitVec 5) (a : BitVec 5) (m : BitVec 3) (s : State) : Host.Outcome State Fault Refusal :=
  issueV s ⟨[], .viq, none, packR 37#6 d a 0#5 m 9#8⟩ noResv
    (fun _ => .fp .exp2 d.toNat a.toNat (.vec a.toNat) m.toNat)

/-- VFP.SGNJ (R180). -/
def execVfpSgnj (d : BitVec 5) (a : BitVec 5) (b : BitVec 5) (m : BitVec 3) (s : State) : Host.Outcome State Fault Refusal :=
  issueV s ⟨[], .viq, none, packR 37#6 d a b m 10#8⟩ noResv
    (fun _ => .fp .sgnj d.toNat a.toNat (.vec b.toNat) m.toNat)

/-- VFP.SGNJN (R180). -/
def execVfpSgnjn (d : BitVec 5) (a : BitVec 5) (b : BitVec 5) (m : BitVec 3) (s : State) : Host.Outcome State Fault Refusal :=
  issueV s ⟨[], .viq, none, packR 37#6 d a b m 74#8⟩ noResv
    (fun _ => .fp .sgnjn d.toNat a.toNat (.vec b.toNat) m.toNat)

/-- VFP.SGNJX (R180). -/
def execVfpSgnjx (d : BitVec 5) (a : BitVec 5) (b : BitVec 5) (m : BitVec 3) (s : State) : Host.Outcome State Fault Refusal :=
  issueV s ⟨[], .viq, none, packR 37#6 d a b m 138#8⟩ noResv
    (fun _ => .fp .sgnjx d.toNat a.toNat (.vec b.toNat) m.toNat)

/-- VFP.CLASS (R180). -/
def execVfpClass (d : BitVec 5) (a : BitVec 5) (m : BitVec 3) (s : State) : Host.Outcome State Fault Refusal :=
  issueV s ⟨[], .viq, none, packR 37#6 d a 0#5 m 11#8⟩ noResv
    (fun _ => .fp .class_ d.toNat a.toNat (.vec a.toNat) m.toNat)

/-- VFP.MV (R180). -/
def execVfpMv (d : BitVec 5) (a : BitVec 5) (m : BitVec 3) (s : State) : Host.Outcome State Fault Refusal :=
  issueV s ⟨[], .viq, none, packR 37#6 d a 0#5 m 12#8⟩ noResv
    (fun _ => .fp .mv d.toNat a.toNat (.vec a.toNat) m.toNat)

/-- VFPX.ADD (R180). -/
def execVfpxAdd (d : BitVec 5) (a : BitVec 5) (b : BitVec 5) (m : BitVec 3) (s : State) : Host.Outcome State Fault Refusal :=
  issueV s ⟨[b.toNat], .viq, none, packR 38#6 d a b m 0#8⟩ noResv
    (fun a0 => .fp .add d.toNat a.toNat (.scal (a0.rx b.toNat)) m.toNat)

/-- VFPX.SUB (R180). -/
def execVfpxSub (d : BitVec 5) (a : BitVec 5) (b : BitVec 5) (m : BitVec 3) (s : State) : Host.Outcome State Fault Refusal :=
  issueV s ⟨[b.toNat], .viq, none, packR 38#6 d a b m 1#8⟩ noResv
    (fun a0 => .fp .sub d.toNat a.toNat (.scal (a0.rx b.toNat)) m.toNat)

/-- VFPX.MUL (R180). -/
def execVfpxMul (d : BitVec 5) (a : BitVec 5) (b : BitVec 5) (m : BitVec 3) (s : State) : Host.Outcome State Fault Refusal :=
  issueV s ⟨[b.toNat], .viq, none, packR 38#6 d a b m 2#8⟩ noResv
    (fun a0 => .fp .mul d.toNat a.toNat (.scal (a0.rx b.toNat)) m.toNat)

/-- VFPX.DIV (R180). -/
def execVfpxDiv (d : BitVec 5) (a : BitVec 5) (b : BitVec 5) (m : BitVec 3) (s : State) : Host.Outcome State Fault Refusal :=
  issueV s ⟨[b.toNat], .viq, none, packR 38#6 d a b m 3#8⟩ noResv
    (fun a0 => .fp .div d.toNat a.toNat (.scal (a0.rx b.toNat)) m.toNat)

/-- VFPX.MIN (R180). -/
def execVfpxMin (d : BitVec 5) (a : BitVec 5) (b : BitVec 5) (m : BitVec 3) (s : State) : Host.Outcome State Fault Refusal :=
  issueV s ⟨[b.toNat], .viq, none, packR 38#6 d a b m 5#8⟩ noResv
    (fun a0 => .fp .min d.toNat a.toNat (.scal (a0.rx b.toNat)) m.toNat)

/-- VFPX.MAX (R180). -/
def execVfpxMax (d : BitVec 5) (a : BitVec 5) (b : BitVec 5) (m : BitVec 3) (s : State) : Host.Outcome State Fault Refusal :=
  issueV s ⟨[b.toNat], .viq, none, packR 38#6 d a b m 6#8⟩ noResv
    (fun a0 => .fp .max d.toNat a.toNat (.scal (a0.rx b.toNat)) m.toNat)

/-- VFPX.MACC (R180). -/
def execVfpxMacc (d : BitVec 5) (a : BitVec 5) (b : BitVec 5) (m : BitVec 3) (s : State) : Host.Outcome State Fault Refusal :=
  issueV s ⟨[b.toNat], .viq, none, packR 38#6 d a b m 7#8⟩ noResv
    (fun a0 => .fp .macc d.toNat a.toNat (.scal (a0.rx b.toNat)) m.toNat)

/-- VFPX.NMACC (R180). -/
def execVfpxNmacc (d : BitVec 5) (a : BitVec 5) (b : BitVec 5) (m : BitVec 3) (s : State) : Host.Outcome State Fault Refusal :=
  issueV s ⟨[b.toNat], .viq, none, packR 38#6 d a b m 8#8⟩ noResv
    (fun a0 => .fp .nmacc d.toNat a.toNat (.scal (a0.rx b.toNat)) m.toNat)

/-- VFPX.SGNJ (R180). -/
def execVfpxSgnj (d : BitVec 5) (a : BitVec 5) (b : BitVec 5) (m : BitVec 3) (s : State) : Host.Outcome State Fault Refusal :=
  issueV s ⟨[b.toNat], .viq, none, packR 38#6 d a b m 10#8⟩ noResv
    (fun a0 => .fp .sgnj d.toNat a.toNat (.scal (a0.rx b.toNat)) m.toNat)

/-- VFPX.SGNJN (R180). -/
def execVfpxSgnjn (d : BitVec 5) (a : BitVec 5) (b : BitVec 5) (m : BitVec 3) (s : State) : Host.Outcome State Fault Refusal :=
  issueV s ⟨[b.toNat], .viq, none, packR 38#6 d a b m 74#8⟩ noResv
    (fun a0 => .fp .sgnjn d.toNat a.toNat (.scal (a0.rx b.toNat)) m.toNat)

/-- VFPX.SGNJX (R180). -/
def execVfpxSgnjx (d : BitVec 5) (a : BitVec 5) (b : BitVec 5) (m : BitVec 3) (s : State) : Host.Outcome State Fault Refusal :=
  issueV s ⟨[b.toNat], .viq, none, packR 38#6 d a b m 138#8⟩ noResv
    (fun a0 => .fp .sgnjx d.toNat a.toNat (.scal (a0.rx b.toNat)) m.toNat)

/-- VFPX.MV (R180). -/
def execVfpxMv (d : BitVec 5) (b : BitVec 5) (m : BitVec 3) (s : State) : Host.Outcome State Fault Refusal :=
  issueV s ⟨[b.toNat], .viq, none, packR 38#6 d 0#5 b m 12#8⟩ noResv
    (fun a0 => .fp .mv d.toNat 0 (.scal (a0.rx b.toNat)) m.toNat)

/-- VCVT.FF (R184). -/
def execVcvtFf (d : BitVec 5) (a : BitVec 5) (m : BitVec 3) (s : BitVec 1) (t : BitVec 3) (st : State) : Host.Outcome State Fault Refusal :=
  issueV st ⟨[], .viq, none, packR 39#6 d a 0#5 m (s ++ t ++ 0#4)⟩ noResv
    (fun _ => .cvt .ff d.toNat a.toNat m.toNat s.toNat t.toNat)

/-- VCVT.IF (R184). -/
def execVcvtIf (d : BitVec 5) (a : BitVec 5) (m : BitVec 3) (s : BitVec 1) (t : BitVec 3) (st : State) : Host.Outcome State Fault Refusal :=
  issueV st ⟨[], .viq, none, packR 39#6 d a 0#5 m (s ++ t ++ 1#4)⟩ noResv
    (fun _ => .cvt .int d.toNat a.toNat m.toNat s.toNat t.toNat)

/-- VCVT.FI (R184). -/
def execVcvtFi (d : BitVec 5) (a : BitVec 5) (m : BitVec 3) (t : BitVec 3) (s : State) : Host.Outcome State Fault Refusal :=
  issueV s ⟨[], .viq, none, packR 39#6 d a 0#5 m (0#1 ++ t ++ 2#4)⟩ noResv
    (fun _ => .cvt .fi d.toNat a.toNat m.toNat 0 t.toNat)

/-- VCVT.NARROW (R184). -/
def execVcvtNarrow (d : BitVec 5) (a : BitVec 5) (m : BitVec 3) (t : BitVec 3) (s : State) : Host.Outcome State Fault Refusal :=
  issueV s ⟨[], .viq, none, packR 39#6 d a 0#5 m (0#1 ++ t ++ 3#4)⟩ noResv
    (fun _ => .cvt .narrow d.toNat a.toNat m.toNat 0 t.toNat)

/-- VCVT.WIDEN (R184). -/
def execVcvtWiden (d : BitVec 5) (a : BitVec 5) (m : BitVec 3) (t : BitVec 3) (s : State) : Host.Outcome State Fault Refusal :=
  issueV s ⟨[], .viq, none, packR 39#6 d a 0#5 m (0#1 ++ t ++ 4#4)⟩ noResv
    (fun _ => .cvt .widen d.toNat a.toNat m.toNat 0 t.toNat)

/-- VCVT.DEQ (R185). -/
def execVcvtDeq (d : BitVec 5) (a : BitVec 5) (m : BitVec 3) (t : BitVec 3) (s : State) : Host.Outcome State Fault Refusal :=
  issueV s ⟨[], .viq, none, packR 39#6 d a 0#5 m (0#1 ++ t ++ 5#4)⟩ noResv
    (fun _ => .cvt .deq d.toNat a.toNat m.toNat 0 t.toNat)

/-- VCVT.QUANT (R185). -/
def execVcvtQuant (d : BitVec 5) (a : BitVec 5) (m : BitVec 3) (s : BitVec 1) (t : BitVec 3) (st : State) : Host.Outcome State Fault Refusal :=
  issueV st ⟨[], .viq, none, packR 39#6 d a 0#5 m (s ++ t ++ 6#4)⟩ noResv
    (fun _ => .cvt .quant d.toNat a.toNat m.toNat s.toNat t.toNat)

/-- VCVT.QMV (R186). -/
def execVcvtQmv (d : BitVec 3) (a : BitVec 5) (m : BitVec 3) (s : State) : Host.Outcome State Fault Refusal :=
  issueV s ⟨[], .viq, none, packR 39#6 (0#2 ++ d) a 0#5 m 7#8⟩ noResv
    (fun _ => .cvt .qmv d.toNat a.toNat m.toNat 0 0)

/-- VCVT.QRD (R186). -/
def execVcvtQrd (d : BitVec 5) (a : BitVec 3) (m : BitVec 3) (s : State) : Host.Outcome State Fault Refusal :=
  issueV s ⟨[], .viq, none, packR 39#6 d (0#2 ++ a) 0#5 m 8#8⟩ noResv
    (fun _ => .cvt .qrd d.toNat a.toNat m.toNat 0 0)

/-- VCVT.DS8E (R187). -/
def execVcvtDs8e (d : BitVec 5) (a : BitVec 5) (m : BitVec 3) (t : BitVec 3) (s : State) : Host.Outcome State Fault Refusal :=
  issueV s ⟨[], .viq, none, packR 39#6 d a 0#5 m (0#1 ++ t ++ 9#4)⟩ noResv
    (fun _ => .cvt .ds8e d.toNat a.toNat m.toNat 0 t.toNat)

/-- VCVT.DS8D (R187). -/
def execVcvtDs8d (d : BitVec 5) (a : BitVec 5) (m : BitVec 3) (s : State) : Host.Outcome State Fault Refusal :=
  issueV s ⟨[], .viq, none, packR 39#6 d a 0#5 m 10#8⟩ noResv
    (fun _ => .cvt .ds8d d.toNat a.toNat m.toNat 0 0)

end Sys2Proof.Machine
end

