-- ==== Sys2Proof/Machine/VectorInt.lean ====
section
/-! DEFINITION. VINT, VINTX, VINTI (R176 to R178) and VIDX (R200): each instruction placed in the VIQ. -/

namespace Sys2Proof.Machine

/-- VINT.ADD (R177). -/
def execVintAdd (d : BitVec 5) (a : BitVec 5) (b : BitVec 5) (m : BitVec 3) (s : State) : Host.Outcome State Fault Refusal :=
  issueV s ⟨[], .viq, none, packR 34#6 d a b m 0#8⟩ noResv
    (fun _ => .int .add d.toNat a.toNat (.vec b.toNat) m.toNat)

/-- VINT.SUB (R177). -/
def execVintSub (d : BitVec 5) (a : BitVec 5) (b : BitVec 5) (m : BitVec 3) (s : State) : Host.Outcome State Fault Refusal :=
  issueV s ⟨[], .viq, none, packR 34#6 d a b m 1#8⟩ noResv
    (fun _ => .int .sub d.toNat a.toNat (.vec b.toNat) m.toNat)

/-- VINT.MUL (R177). -/
def execVintMul (d : BitVec 5) (a : BitVec 5) (b : BitVec 5) (m : BitVec 3) (s : State) : Host.Outcome State Fault Refusal :=
  issueV s ⟨[], .viq, none, packR 34#6 d a b m 3#8⟩ noResv
    (fun _ => .int .mul d.toNat a.toNat (.vec b.toNat) m.toNat)

/-- VINT.MULH (R177). -/
def execVintMulh (d : BitVec 5) (a : BitVec 5) (b : BitVec 5) (m : BitVec 3) (s : State) : Host.Outcome State Fault Refusal :=
  issueV s ⟨[], .viq, none, packR 34#6 d a b m 4#8⟩ noResv
    (fun _ => .int .mulh d.toNat a.toNat (.vec b.toNat) m.toNat)

/-- VINT.MULHU (R177). -/
def execVintMulhu (d : BitVec 5) (a : BitVec 5) (b : BitVec 5) (m : BitVec 3) (s : State) : Host.Outcome State Fault Refusal :=
  issueV s ⟨[], .viq, none, packR 34#6 d a b m 5#8⟩ noResv
    (fun _ => .int .mulhu d.toNat a.toNat (.vec b.toNat) m.toNat)

/-- VINT.DIV (R177). -/
def execVintDiv (d : BitVec 5) (a : BitVec 5) (b : BitVec 5) (m : BitVec 3) (s : State) : Host.Outcome State Fault Refusal :=
  issueV s ⟨[], .viq, none, packR 34#6 d a b m 6#8⟩ noResv
    (fun _ => .int .div d.toNat a.toNat (.vec b.toNat) m.toNat)

/-- VINT.DIVU (R177). -/
def execVintDivu (d : BitVec 5) (a : BitVec 5) (b : BitVec 5) (m : BitVec 3) (s : State) : Host.Outcome State Fault Refusal :=
  issueV s ⟨[], .viq, none, packR 34#6 d a b m 7#8⟩ noResv
    (fun _ => .int .divu d.toNat a.toNat (.vec b.toNat) m.toNat)

/-- VINT.REM (R177). -/
def execVintRem (d : BitVec 5) (a : BitVec 5) (b : BitVec 5) (m : BitVec 3) (s : State) : Host.Outcome State Fault Refusal :=
  issueV s ⟨[], .viq, none, packR 34#6 d a b m 8#8⟩ noResv
    (fun _ => .int .rem d.toNat a.toNat (.vec b.toNat) m.toNat)

/-- VINT.REMU (R177). -/
def execVintRemu (d : BitVec 5) (a : BitVec 5) (b : BitVec 5) (m : BitVec 3) (s : State) : Host.Outcome State Fault Refusal :=
  issueV s ⟨[], .viq, none, packR 34#6 d a b m 9#8⟩ noResv
    (fun _ => .int .remu d.toNat a.toNat (.vec b.toNat) m.toNat)

/-- VINT.AND (R177). -/
def execVintAnd (d : BitVec 5) (a : BitVec 5) (b : BitVec 5) (m : BitVec 3) (s : State) : Host.Outcome State Fault Refusal :=
  issueV s ⟨[], .viq, none, packR 34#6 d a b m 10#8⟩ noResv
    (fun _ => .int .and d.toNat a.toNat (.vec b.toNat) m.toNat)

/-- VINT.OR (R177). -/
def execVintOr (d : BitVec 5) (a : BitVec 5) (b : BitVec 5) (m : BitVec 3) (s : State) : Host.Outcome State Fault Refusal :=
  issueV s ⟨[], .viq, none, packR 34#6 d a b m 11#8⟩ noResv
    (fun _ => .int .or d.toNat a.toNat (.vec b.toNat) m.toNat)

/-- VINT.XOR (R177). -/
def execVintXor (d : BitVec 5) (a : BitVec 5) (b : BitVec 5) (m : BitVec 3) (s : State) : Host.Outcome State Fault Refusal :=
  issueV s ⟨[], .viq, none, packR 34#6 d a b m 12#8⟩ noResv
    (fun _ => .int .xor d.toNat a.toNat (.vec b.toNat) m.toNat)

/-- VINT.SLL (R177). -/
def execVintSll (d : BitVec 5) (a : BitVec 5) (b : BitVec 5) (m : BitVec 3) (s : State) : Host.Outcome State Fault Refusal :=
  issueV s ⟨[], .viq, none, packR 34#6 d a b m 13#8⟩ noResv
    (fun _ => .int .sll d.toNat a.toNat (.vec b.toNat) m.toNat)

/-- VINT.SRL (R177). -/
def execVintSrl (d : BitVec 5) (a : BitVec 5) (b : BitVec 5) (m : BitVec 3) (s : State) : Host.Outcome State Fault Refusal :=
  issueV s ⟨[], .viq, none, packR 34#6 d a b m 14#8⟩ noResv
    (fun _ => .int .srl d.toNat a.toNat (.vec b.toNat) m.toNat)

/-- VINT.SRA (R177). -/
def execVintSra (d : BitVec 5) (a : BitVec 5) (b : BitVec 5) (m : BitVec 3) (s : State) : Host.Outcome State Fault Refusal :=
  issueV s ⟨[], .viq, none, packR 34#6 d a b m 15#8⟩ noResv
    (fun _ => .int .sra d.toNat a.toNat (.vec b.toNat) m.toNat)

/-- VINT.MIN (R177). -/
def execVintMin (d : BitVec 5) (a : BitVec 5) (b : BitVec 5) (m : BitVec 3) (s : State) : Host.Outcome State Fault Refusal :=
  issueV s ⟨[], .viq, none, packR 34#6 d a b m 16#8⟩ noResv
    (fun _ => .int .min d.toNat a.toNat (.vec b.toNat) m.toNat)

/-- VINT.MINU (R177). -/
def execVintMinu (d : BitVec 5) (a : BitVec 5) (b : BitVec 5) (m : BitVec 3) (s : State) : Host.Outcome State Fault Refusal :=
  issueV s ⟨[], .viq, none, packR 34#6 d a b m 17#8⟩ noResv
    (fun _ => .int .minu d.toNat a.toNat (.vec b.toNat) m.toNat)

/-- VINT.MAX (R177). -/
def execVintMax (d : BitVec 5) (a : BitVec 5) (b : BitVec 5) (m : BitVec 3) (s : State) : Host.Outcome State Fault Refusal :=
  issueV s ⟨[], .viq, none, packR 34#6 d a b m 18#8⟩ noResv
    (fun _ => .int .max d.toNat a.toNat (.vec b.toNat) m.toNat)

/-- VINT.MAXU (R177). -/
def execVintMaxu (d : BitVec 5) (a : BitVec 5) (b : BitVec 5) (m : BitVec 3) (s : State) : Host.Outcome State Fault Refusal :=
  issueV s ⟨[], .viq, none, packR 34#6 d a b m 19#8⟩ noResv
    (fun _ => .int .maxu d.toNat a.toNat (.vec b.toNat) m.toNat)

/-- VINT.SADD (R177). -/
def execVintSadd (d : BitVec 5) (a : BitVec 5) (b : BitVec 5) (m : BitVec 3) (s : State) : Host.Outcome State Fault Refusal :=
  issueV s ⟨[], .viq, none, packR 34#6 d a b m 20#8⟩ noResv
    (fun _ => .int .sadd d.toNat a.toNat (.vec b.toNat) m.toNat)

/-- VINT.SADDU (R177). -/
def execVintSaddu (d : BitVec 5) (a : BitVec 5) (b : BitVec 5) (m : BitVec 3) (s : State) : Host.Outcome State Fault Refusal :=
  issueV s ⟨[], .viq, none, packR 34#6 d a b m 21#8⟩ noResv
    (fun _ => .int .saddu d.toNat a.toNat (.vec b.toNat) m.toNat)

/-- VINT.SSUB (R177). -/
def execVintSsub (d : BitVec 5) (a : BitVec 5) (b : BitVec 5) (m : BitVec 3) (s : State) : Host.Outcome State Fault Refusal :=
  issueV s ⟨[], .viq, none, packR 34#6 d a b m 22#8⟩ noResv
    (fun _ => .int .ssub d.toNat a.toNat (.vec b.toNat) m.toNat)

/-- VINT.SSUBU (R177). -/
def execVintSsubu (d : BitVec 5) (a : BitVec 5) (b : BitVec 5) (m : BitVec 3) (s : State) : Host.Outcome State Fault Refusal :=
  issueV s ⟨[], .viq, none, packR 34#6 d a b m 23#8⟩ noResv
    (fun _ => .int .ssubu d.toNat a.toNat (.vec b.toNat) m.toNat)

/-- VINT.MACC (R177). -/
def execVintMacc (d : BitVec 5) (a : BitVec 5) (b : BitVec 5) (m : BitVec 3) (s : State) : Host.Outcome State Fault Refusal :=
  issueV s ⟨[], .viq, none, packR 34#6 d a b m 24#8⟩ noResv
    (fun _ => .int .macc d.toNat a.toNat (.vec b.toNat) m.toNat)

/-- VINT.MERGE (R178). -/
def execVintMerge (d : BitVec 5) (a : BitVec 5) (b : BitVec 5) (m : BitVec 3) (s : State) : Host.Outcome State Fault Refusal :=
  issueV s ⟨[], .viq, none, packR 34#6 d a b m 25#8⟩ noResv
    (fun _ => .int .merge d.toNat a.toNat (.vec b.toNat) m.toNat)

/-- VINT.MV (R177). -/
def execVintMv (d : BitVec 5) (a : BitVec 5) (m : BitVec 3) (s : State) : Host.Outcome State Fault Refusal :=
  issueV s ⟨[], .viq, none, packR 34#6 d a 0#5 m 26#8⟩ noResv
    (fun _ => .int .mv d.toNat a.toNat (.vec a.toNat) m.toNat)

/-- VINTX.ADD (R177). -/
def execVintxAdd (d : BitVec 5) (a : BitVec 5) (b : BitVec 5) (m : BitVec 3) (s : State) : Host.Outcome State Fault Refusal :=
  issueV s ⟨[b.toNat], .viq, none, packR 35#6 d a b m 0#8⟩ noResv
    (fun a0 => .int .add d.toNat a.toNat (.scal (a0.rx b.toNat)) m.toNat)

/-- VINTX.SUB (R177). -/
def execVintxSub (d : BitVec 5) (a : BitVec 5) (b : BitVec 5) (m : BitVec 3) (s : State) : Host.Outcome State Fault Refusal :=
  issueV s ⟨[b.toNat], .viq, none, packR 35#6 d a b m 1#8⟩ noResv
    (fun a0 => .int .sub d.toNat a.toNat (.scal (a0.rx b.toNat)) m.toNat)

/-- VINTX.RSUB (R177). -/
def execVintxRsub (d : BitVec 5) (a : BitVec 5) (b : BitVec 5) (m : BitVec 3) (s : State) : Host.Outcome State Fault Refusal :=
  issueV s ⟨[b.toNat], .viq, none, packR 35#6 d a b m 2#8⟩ noResv
    (fun a0 => .int .rsub d.toNat a.toNat (.scal (a0.rx b.toNat)) m.toNat)

/-- VINTX.MUL (R177). -/
def execVintxMul (d : BitVec 5) (a : BitVec 5) (b : BitVec 5) (m : BitVec 3) (s : State) : Host.Outcome State Fault Refusal :=
  issueV s ⟨[b.toNat], .viq, none, packR 35#6 d a b m 3#8⟩ noResv
    (fun a0 => .int .mul d.toNat a.toNat (.scal (a0.rx b.toNat)) m.toNat)

/-- VINTX.MULH (R177). -/
def execVintxMulh (d : BitVec 5) (a : BitVec 5) (b : BitVec 5) (m : BitVec 3) (s : State) : Host.Outcome State Fault Refusal :=
  issueV s ⟨[b.toNat], .viq, none, packR 35#6 d a b m 4#8⟩ noResv
    (fun a0 => .int .mulh d.toNat a.toNat (.scal (a0.rx b.toNat)) m.toNat)

/-- VINTX.MULHU (R177). -/
def execVintxMulhu (d : BitVec 5) (a : BitVec 5) (b : BitVec 5) (m : BitVec 3) (s : State) : Host.Outcome State Fault Refusal :=
  issueV s ⟨[b.toNat], .viq, none, packR 35#6 d a b m 5#8⟩ noResv
    (fun a0 => .int .mulhu d.toNat a.toNat (.scal (a0.rx b.toNat)) m.toNat)

/-- VINTX.DIV (R177). -/
def execVintxDiv (d : BitVec 5) (a : BitVec 5) (b : BitVec 5) (m : BitVec 3) (s : State) : Host.Outcome State Fault Refusal :=
  issueV s ⟨[b.toNat], .viq, none, packR 35#6 d a b m 6#8⟩ noResv
    (fun a0 => .int .div d.toNat a.toNat (.scal (a0.rx b.toNat)) m.toNat)

/-- VINTX.DIVU (R177). -/
def execVintxDivu (d : BitVec 5) (a : BitVec 5) (b : BitVec 5) (m : BitVec 3) (s : State) : Host.Outcome State Fault Refusal :=
  issueV s ⟨[b.toNat], .viq, none, packR 35#6 d a b m 7#8⟩ noResv
    (fun a0 => .int .divu d.toNat a.toNat (.scal (a0.rx b.toNat)) m.toNat)

/-- VINTX.REM (R177). -/
def execVintxRem (d : BitVec 5) (a : BitVec 5) (b : BitVec 5) (m : BitVec 3) (s : State) : Host.Outcome State Fault Refusal :=
  issueV s ⟨[b.toNat], .viq, none, packR 35#6 d a b m 8#8⟩ noResv
    (fun a0 => .int .rem d.toNat a.toNat (.scal (a0.rx b.toNat)) m.toNat)

/-- VINTX.REMU (R177). -/
def execVintxRemu (d : BitVec 5) (a : BitVec 5) (b : BitVec 5) (m : BitVec 3) (s : State) : Host.Outcome State Fault Refusal :=
  issueV s ⟨[b.toNat], .viq, none, packR 35#6 d a b m 9#8⟩ noResv
    (fun a0 => .int .remu d.toNat a.toNat (.scal (a0.rx b.toNat)) m.toNat)

/-- VINTX.AND (R177). -/
def execVintxAnd (d : BitVec 5) (a : BitVec 5) (b : BitVec 5) (m : BitVec 3) (s : State) : Host.Outcome State Fault Refusal :=
  issueV s ⟨[b.toNat], .viq, none, packR 35#6 d a b m 10#8⟩ noResv
    (fun a0 => .int .and d.toNat a.toNat (.scal (a0.rx b.toNat)) m.toNat)

/-- VINTX.OR (R177). -/
def execVintxOr (d : BitVec 5) (a : BitVec 5) (b : BitVec 5) (m : BitVec 3) (s : State) : Host.Outcome State Fault Refusal :=
  issueV s ⟨[b.toNat], .viq, none, packR 35#6 d a b m 11#8⟩ noResv
    (fun a0 => .int .or d.toNat a.toNat (.scal (a0.rx b.toNat)) m.toNat)

/-- VINTX.XOR (R177). -/
def execVintxXor (d : BitVec 5) (a : BitVec 5) (b : BitVec 5) (m : BitVec 3) (s : State) : Host.Outcome State Fault Refusal :=
  issueV s ⟨[b.toNat], .viq, none, packR 35#6 d a b m 12#8⟩ noResv
    (fun a0 => .int .xor d.toNat a.toNat (.scal (a0.rx b.toNat)) m.toNat)

/-- VINTX.SLL (R177). -/
def execVintxSll (d : BitVec 5) (a : BitVec 5) (b : BitVec 5) (m : BitVec 3) (s : State) : Host.Outcome State Fault Refusal :=
  issueV s ⟨[b.toNat], .viq, none, packR 35#6 d a b m 13#8⟩ noResv
    (fun a0 => .int .sll d.toNat a.toNat (.scal (a0.rx b.toNat)) m.toNat)

/-- VINTX.SRL (R177). -/
def execVintxSrl (d : BitVec 5) (a : BitVec 5) (b : BitVec 5) (m : BitVec 3) (s : State) : Host.Outcome State Fault Refusal :=
  issueV s ⟨[b.toNat], .viq, none, packR 35#6 d a b m 14#8⟩ noResv
    (fun a0 => .int .srl d.toNat a.toNat (.scal (a0.rx b.toNat)) m.toNat)

/-- VINTX.SRA (R177). -/
def execVintxSra (d : BitVec 5) (a : BitVec 5) (b : BitVec 5) (m : BitVec 3) (s : State) : Host.Outcome State Fault Refusal :=
  issueV s ⟨[b.toNat], .viq, none, packR 35#6 d a b m 15#8⟩ noResv
    (fun a0 => .int .sra d.toNat a.toNat (.scal (a0.rx b.toNat)) m.toNat)

/-- VINTX.MIN (R177). -/
def execVintxMin (d : BitVec 5) (a : BitVec 5) (b : BitVec 5) (m : BitVec 3) (s : State) : Host.Outcome State Fault Refusal :=
  issueV s ⟨[b.toNat], .viq, none, packR 35#6 d a b m 16#8⟩ noResv
    (fun a0 => .int .min d.toNat a.toNat (.scal (a0.rx b.toNat)) m.toNat)

/-- VINTX.MINU (R177). -/
def execVintxMinu (d : BitVec 5) (a : BitVec 5) (b : BitVec 5) (m : BitVec 3) (s : State) : Host.Outcome State Fault Refusal :=
  issueV s ⟨[b.toNat], .viq, none, packR 35#6 d a b m 17#8⟩ noResv
    (fun a0 => .int .minu d.toNat a.toNat (.scal (a0.rx b.toNat)) m.toNat)

/-- VINTX.MAX (R177). -/
def execVintxMax (d : BitVec 5) (a : BitVec 5) (b : BitVec 5) (m : BitVec 3) (s : State) : Host.Outcome State Fault Refusal :=
  issueV s ⟨[b.toNat], .viq, none, packR 35#6 d a b m 18#8⟩ noResv
    (fun a0 => .int .max d.toNat a.toNat (.scal (a0.rx b.toNat)) m.toNat)

/-- VINTX.MAXU (R177). -/
def execVintxMaxu (d : BitVec 5) (a : BitVec 5) (b : BitVec 5) (m : BitVec 3) (s : State) : Host.Outcome State Fault Refusal :=
  issueV s ⟨[b.toNat], .viq, none, packR 35#6 d a b m 19#8⟩ noResv
    (fun a0 => .int .maxu d.toNat a.toNat (.scal (a0.rx b.toNat)) m.toNat)

/-- VINTX.SADD (R177). -/
def execVintxSadd (d : BitVec 5) (a : BitVec 5) (b : BitVec 5) (m : BitVec 3) (s : State) : Host.Outcome State Fault Refusal :=
  issueV s ⟨[b.toNat], .viq, none, packR 35#6 d a b m 20#8⟩ noResv
    (fun a0 => .int .sadd d.toNat a.toNat (.scal (a0.rx b.toNat)) m.toNat)

/-- VINTX.SADDU (R177). -/
def execVintxSaddu (d : BitVec 5) (a : BitVec 5) (b : BitVec 5) (m : BitVec 3) (s : State) : Host.Outcome State Fault Refusal :=
  issueV s ⟨[b.toNat], .viq, none, packR 35#6 d a b m 21#8⟩ noResv
    (fun a0 => .int .saddu d.toNat a.toNat (.scal (a0.rx b.toNat)) m.toNat)

/-- VINTX.SSUB (R177). -/
def execVintxSsub (d : BitVec 5) (a : BitVec 5) (b : BitVec 5) (m : BitVec 3) (s : State) : Host.Outcome State Fault Refusal :=
  issueV s ⟨[b.toNat], .viq, none, packR 35#6 d a b m 22#8⟩ noResv
    (fun a0 => .int .ssub d.toNat a.toNat (.scal (a0.rx b.toNat)) m.toNat)

/-- VINTX.SSUBU (R177). -/
def execVintxSsubu (d : BitVec 5) (a : BitVec 5) (b : BitVec 5) (m : BitVec 3) (s : State) : Host.Outcome State Fault Refusal :=
  issueV s ⟨[b.toNat], .viq, none, packR 35#6 d a b m 23#8⟩ noResv
    (fun a0 => .int .ssubu d.toNat a.toNat (.scal (a0.rx b.toNat)) m.toNat)

/-- VINTX.MACC (R177). -/
def execVintxMacc (d : BitVec 5) (a : BitVec 5) (b : BitVec 5) (m : BitVec 3) (s : State) : Host.Outcome State Fault Refusal :=
  issueV s ⟨[b.toNat], .viq, none, packR 35#6 d a b m 24#8⟩ noResv
    (fun a0 => .int .macc d.toNat a.toNat (.scal (a0.rx b.toNat)) m.toNat)

/-- VINTX.MERGE (R178). -/
def execVintxMerge (d : BitVec 5) (a : BitVec 5) (b : BitVec 5) (m : BitVec 3) (s : State) : Host.Outcome State Fault Refusal :=
  issueV s ⟨[b.toNat], .viq, none, packR 35#6 d a b m 25#8⟩ noResv
    (fun a0 => .int .merge d.toNat a.toNat (.scal (a0.rx b.toNat)) m.toNat)

/-- VINTX.MV (R177). -/
def execVintxMv (d : BitVec 5) (b : BitVec 5) (m : BitVec 3) (s : State) : Host.Outcome State Fault Refusal :=
  issueV s ⟨[b.toNat], .viq, none, packR 35#6 d 0#5 b m 26#8⟩ noResv
    (fun a0 => .int .mv d.toNat 0 (.scal (a0.rx b.toNat)) m.toNat)

/-- VINTI.ADD (R177). -/
def execVintiAdd (d : BitVec 5) (a : BitVec 5) (i : BitVec 5) (m : BitVec 3) (s : State) : Host.Outcome State Fault Refusal :=
  issueV s ⟨[], .viq, none, packR 36#6 d a i m 0#8⟩ noResv
    (fun _ => .int .add d.toNat a.toNat (.imm i.toInt) m.toNat)

/-- VINTI.RSUB (R177). -/
def execVintiRsub (d : BitVec 5) (a : BitVec 5) (i : BitVec 5) (m : BitVec 3) (s : State) : Host.Outcome State Fault Refusal :=
  issueV s ⟨[], .viq, none, packR 36#6 d a i m 2#8⟩ noResv
    (fun _ => .int .rsub d.toNat a.toNat (.imm i.toInt) m.toNat)

/-- VINTI.AND (R177). -/
def execVintiAnd (d : BitVec 5) (a : BitVec 5) (i : BitVec 5) (m : BitVec 3) (s : State) : Host.Outcome State Fault Refusal :=
  issueV s ⟨[], .viq, none, packR 36#6 d a i m 10#8⟩ noResv
    (fun _ => .int .and d.toNat a.toNat (.imm i.toInt) m.toNat)

/-- VINTI.OR (R177). -/
def execVintiOr (d : BitVec 5) (a : BitVec 5) (i : BitVec 5) (m : BitVec 3) (s : State) : Host.Outcome State Fault Refusal :=
  issueV s ⟨[], .viq, none, packR 36#6 d a i m 11#8⟩ noResv
    (fun _ => .int .or d.toNat a.toNat (.imm i.toInt) m.toNat)

/-- VINTI.XOR (R177). -/
def execVintiXor (d : BitVec 5) (a : BitVec 5) (i : BitVec 5) (m : BitVec 3) (s : State) : Host.Outcome State Fault Refusal :=
  issueV s ⟨[], .viq, none, packR 36#6 d a i m 12#8⟩ noResv
    (fun _ => .int .xor d.toNat a.toNat (.imm i.toInt) m.toNat)

/-- VINTI.SLL (R177). -/
def execVintiSll (d : BitVec 5) (a : BitVec 5) (i : BitVec 5) (m : BitVec 3) (s : State) : Host.Outcome State Fault Refusal :=
  issueV s ⟨[], .viq, none, packR 36#6 d a i m 13#8⟩ noResv
    (fun _ => .int .sll d.toNat a.toNat (.imm i.toNat) m.toNat)

/-- VINTI.SRL (R177). -/
def execVintiSrl (d : BitVec 5) (a : BitVec 5) (i : BitVec 5) (m : BitVec 3) (s : State) : Host.Outcome State Fault Refusal :=
  issueV s ⟨[], .viq, none, packR 36#6 d a i m 14#8⟩ noResv
    (fun _ => .int .srl d.toNat a.toNat (.imm i.toNat) m.toNat)

/-- VINTI.SRA (R177). -/
def execVintiSra (d : BitVec 5) (a : BitVec 5) (i : BitVec 5) (m : BitVec 3) (s : State) : Host.Outcome State Fault Refusal :=
  issueV s ⟨[], .viq, none, packR 36#6 d a i m 15#8⟩ noResv
    (fun _ => .int .sra d.toNat a.toNat (.imm i.toNat) m.toNat)

/-- VINTI.SADD (R177). -/
def execVintiSadd (d : BitVec 5) (a : BitVec 5) (i : BitVec 5) (m : BitVec 3) (s : State) : Host.Outcome State Fault Refusal :=
  issueV s ⟨[], .viq, none, packR 36#6 d a i m 20#8⟩ noResv
    (fun _ => .int .sadd d.toNat a.toNat (.imm i.toInt) m.toNat)

/-- VINTI.SADDU (R177). -/
def execVintiSaddu (d : BitVec 5) (a : BitVec 5) (i : BitVec 5) (m : BitVec 3) (s : State) : Host.Outcome State Fault Refusal :=
  issueV s ⟨[], .viq, none, packR 36#6 d a i m 21#8⟩ noResv
    (fun _ => .int .saddu d.toNat a.toNat (.imm i.toInt) m.toNat)

/-- VINTI.MERGE (R178). -/
def execVintiMerge (d : BitVec 5) (a : BitVec 5) (i : BitVec 5) (m : BitVec 3) (s : State) : Host.Outcome State Fault Refusal :=
  issueV s ⟨[], .viq, none, packR 36#6 d a i m 25#8⟩ noResv
    (fun _ => .int .merge d.toNat a.toNat (.imm i.toInt) m.toNat)

/-- VINTI.MV (R177). -/
def execVintiMv (d : BitVec 5) (i : BitVec 5) (m : BitVec 3) (s : State) : Host.Outcome State Fault Refusal :=
  issueV s ⟨[], .viq, none, packR 36#6 d 0#5 i m 26#8⟩ noResv
    (fun _ => .int .mv d.toNat 0 (.imm i.toInt) m.toNat)

/-- VIDX (R200). -/
def execVidx (d : BitVec 5) (s : BitVec 11) (t : BitVec 10) (st : State) : Host.Outcome State Fault Refusal :=
  issueV st ⟨[], .viq, none, packW 43#6 d (s ++ t)⟩ noResv
    (fun _ => .vidx d.toNat s.toInt t.toInt)

end Sys2Proof.Machine
end

