-- ==== Sys2Proof/Machine/VectorMemory.lean ====
section
/-! DEFINITION. VLD, VST (R155 to R165), VXCL (R166), TAMW (R161) and DBG.TRMARK (R143): each instruction placed in the VIQ. -/

namespace Sys2Proof.Machine

/-- VLD.UNIT (R155). -/
def execVldUnit (d : BitVec 5) (a : BitVec 5) (m : BitVec 3) (s : State) : Host.Outcome State Fault Refusal :=
  issueV s ⟨[a.toNat], .viq, none, packR 44#6 d a 0#5 m 0#8⟩ noResv
    (fun a0 => .load .unit d.toNat (a0.rx a.toNat) m.toNat)

/-- VLD.STR (R156). -/
def execVldStr (d : BitVec 5) (a : BitVec 5) (b : BitVec 5) (m : BitVec 3) (s : State) : Host.Outcome State Fault Refusal :=
  issueV s ⟨[a.toNat, b.toNat], .viq, none, packR 44#6 d a b m 1#8⟩ noResv
    (fun a0 => .load (.str (a0.rx b.toNat)) d.toNat (a0.rx a.toNat) m.toNat)

/-- VLD.IDX (R156). -/
def execVldIdx (d : BitVec 5) (a : BitVec 5) (b : BitVec 5) (m : BitVec 3) (w : BitVec 2) (s : State) : Host.Outcome State Fault Refusal :=
  issueV s ⟨[a.toNat], .viq, none, packR 44#6 d a b m (0#2 ++ w ++ 2#4)⟩ noResv
    (fun a0 => .load (.idx b.toNat (8 * 2 ^ w.toNat)) d.toNat (a0.rx a.toNat) m.toNat)

/-- VLD.SEG (R156). -/
def execVldSeg (d : BitVec 5) (a : BitVec 5) (m : BitVec 3) (n : BitVec 3) (s : State) : Host.Outcome State Fault Refusal :=
  issueV s ⟨[a.toNat], .viq, none, packR 44#6 d a 0#5 m (0#1 ++ n ++ 3#4)⟩ noResv
    (fun a0 => .load (.seg (n.toNat + 1)) d.toNat (a0.rx a.toNat) m.toNat)

/-- VLD.FF (R160). -/
def execVldFf (d : BitVec 5) (a : BitVec 5) (m : BitVec 3) (s : State) : Host.Outcome State Fault Refusal :=
  issueV s ⟨[a.toNat], .viq, none, packR 44#6 d a 0#5 m 4#8⟩ noResv
    (fun a0 => .load .ff d.toNat (a0.rx a.toNat) m.toNat)

/-- VLD.TENS (R162). -/
def execVldTens (d : BitVec 5) (a : BitVec 5) (t : BitVec 4) (m : BitVec 3) (s : State) : Host.Outcome State Fault Refusal :=
  issueV s ⟨[a.toNat], .viq, none, packR 44#6 d a (0#1 ++ t) m 5#8⟩ noResv
    (fun a0 => .load (.tens t.toNat) d.toNat (a0.rx a.toNat) m.toNat)

/-- VLD.QLD (R158). -/
def execVldQld (d : BitVec 3) (a : BitVec 5) (s : State) : Host.Outcome State Fault Refusal :=
  issueV s ⟨[a.toNat], .viq, none, packR 44#6 (0#2 ++ d) a 0#5 0#3 6#8⟩ noResv
    (fun a0 => .qld d.toNat (a0.rx a.toNat))

/-- VST.UNIT (R155). -/
def execVstUnit (d : BitVec 5) (a : BitVec 5) (m : BitVec 3) (s : State) : Host.Outcome State Fault Refusal :=
  issueV s ⟨[a.toNat], .viq, none, packR 45#6 d a 0#5 m 0#8⟩ (storeResv 1)
    (fun a0 => .store .unit d.toNat (a0.rx a.toNat) m.toNat)

/-- VST.STR (R156). -/
def execVstStr (d : BitVec 5) (a : BitVec 5) (b : BitVec 5) (m : BitVec 3) (s : State) : Host.Outcome State Fault Refusal :=
  issueV s ⟨[a.toNat, b.toNat], .viq, none, packR 45#6 d a b m 1#8⟩ scatterResv
    (fun a0 => .store (.str (a0.rx b.toNat)) d.toNat (a0.rx a.toNat) m.toNat)

/-- VST.IDX (R157). -/
def execVstIdx (d : BitVec 5) (a : BitVec 5) (b : BitVec 5) (m : BitVec 3) (w : BitVec 2) (s : State) : Host.Outcome State Fault Refusal :=
  issueV s ⟨[a.toNat], .viq, none, packR 45#6 d a b m (0#2 ++ w ++ 2#4)⟩ scatterResv
    (fun a0 => .store (.idx b.toNat (8 * 2 ^ w.toNat)) d.toNat (a0.rx a.toNat) m.toNat)

/-- VST.SEG (R156). -/
def execVstSeg (d : BitVec 5) (a : BitVec 5) (m : BitVec 3) (n : BitVec 3) (s : State) : Host.Outcome State Fault Refusal :=
  issueV s ⟨[a.toNat], .viq, none, packR 45#6 d a 0#5 m (0#1 ++ n ++ 3#4)⟩ (storeResv (n.toNat + 1))
    (fun a0 => .store (.seg (n.toNat + 1)) d.toNat (a0.rx a.toNat) m.toNat)

/-- VST.TENS (R162). -/
def execVstTens (d : BitVec 5) (a : BitVec 5) (t : BitVec 4) (m : BitVec 3) (s : State) : Host.Outcome State Fault Refusal :=
  issueV s ⟨[a.toNat], .viq, none, packR 45#6 d a (0#1 ++ t) m 5#8⟩ (storeResv 1)
    (fun a0 => .store (.tens t.toNat) d.toNat (a0.rx a.toNat) m.toNat)

/-- VST.RED (R164). -/
def execVstRed (d : BitVec 5) (a : BitVec 5) (b : BitVec 5) (m : BitVec 3) (x : BitVec 1) (o : BitVec 3) (s : State) : Host.Outcome State Fault Refusal :=
  issueV s ⟨[a.toNat], .viq, none, packR 45#6 d a b m (x ++ o ++ 7#4)⟩ (if x = 1#1 then scatterResv else storeResv 1)
    (fun a0 => .redst o.toNat (if x = 1#1 then some b.toNat else none) d.toNat (a0.rx a.toNat) m.toNat)

/-- VXCL.G (R166). -/
def execVxclG (d : BitVec 5) (b : BitVec 5) (m : BitVec 3) (s : State) : Host.Outcome State Fault Refusal :=
  issueV s ⟨[], .viq, none, packR 46#6 d 0#5 b m 0#8⟩ noResv
    (fun _ => .vxcl false d.toNat b.toNat m.toNat)

/-- VXCL.S (R166). -/
def execVxclS (d : BitVec 5) (b : BitVec 5) (m : BitVec 3) (s : State) : Host.Outcome State Fault Refusal :=
  issueV s ⟨[], .viq, none, packR 46#6 d 0#5 b m 1#8⟩ scatterResv
    (fun _ => .vxcl true d.toNat b.toNat m.toNat)

/-- TAMW (R161). -/
def execTamw (k : BitVec 4) (a : BitVec 5) (s : State) : Host.Outcome State Fault Refusal :=
  issueV s ⟨[a.toNat], .viq, none, packR 51#6 (0#1 ++ k) a 0#5 0#3 0#8⟩ noResv
    (fun a0 => .tamw k.toNat (a0.rx a.toNat))

/-- DBG.TRMARK (R143). -/
def execDbgTrmark (a : BitVec 5) (s : State) : Host.Outcome State Fault Refusal :=
  issueV s ⟨[a.toNat], .viq, none, packR 54#6 0#5 a 0#5 0#3 0#8⟩ noResv
    (fun a0 => .trmark (a0.rx a.toNat))

end Sys2Proof.Machine
end

