-- ==== Sys2Proof/Machine/VectorReduce.lean ====
section
/-! DEFINITION. VRED (R188 to R190), VPERM (R191 to R195) and VMASK (R196 to R199): each instruction placed in the VIQ. -/

namespace Sys2Proof.Machine

/-- VRED.SUM (R189). -/
def execVredSum (d : BitVec 5) (a : BitVec 5) (b : BitVec 5) (m : BitVec 3) (q : BitVec 1) (s : State) : Host.Outcome State Fault Refusal :=
  issueV s ⟨(if q = 1#1 then [d.toNat] else []), .viq, (if q = 1#1 then some d.toNat else none), packR 40#6 d a b m (q ++ 0#7)⟩ noResv
    (fun _ => .red .sum d.toNat a.toNat b.toNat m.toNat q.toNat)

/-- VRED.MIN (R189). -/
def execVredMin (d : BitVec 5) (a : BitVec 5) (b : BitVec 5) (m : BitVec 3) (q : BitVec 1) (s : State) : Host.Outcome State Fault Refusal :=
  issueV s ⟨(if q = 1#1 then [d.toNat] else []), .viq, (if q = 1#1 then some d.toNat else none), packR 40#6 d a b m (q ++ 1#7)⟩ noResv
    (fun _ => .red .min d.toNat a.toNat b.toNat m.toNat q.toNat)

/-- VRED.MINU (R189). -/
def execVredMinu (d : BitVec 5) (a : BitVec 5) (b : BitVec 5) (m : BitVec 3) (q : BitVec 1) (s : State) : Host.Outcome State Fault Refusal :=
  issueV s ⟨(if q = 1#1 then [d.toNat] else []), .viq, (if q = 1#1 then some d.toNat else none), packR 40#6 d a b m (q ++ 2#7)⟩ noResv
    (fun _ => .red .minu d.toNat a.toNat b.toNat m.toNat q.toNat)

/-- VRED.MAX (R189). -/
def execVredMax (d : BitVec 5) (a : BitVec 5) (b : BitVec 5) (m : BitVec 3) (q : BitVec 1) (s : State) : Host.Outcome State Fault Refusal :=
  issueV s ⟨(if q = 1#1 then [d.toNat] else []), .viq, (if q = 1#1 then some d.toNat else none), packR 40#6 d a b m (q ++ 3#7)⟩ noResv
    (fun _ => .red .max d.toNat a.toNat b.toNat m.toNat q.toNat)

/-- VRED.MAXU (R189). -/
def execVredMaxu (d : BitVec 5) (a : BitVec 5) (b : BitVec 5) (m : BitVec 3) (q : BitVec 1) (s : State) : Host.Outcome State Fault Refusal :=
  issueV s ⟨(if q = 1#1 then [d.toNat] else []), .viq, (if q = 1#1 then some d.toNat else none), packR 40#6 d a b m (q ++ 4#7)⟩ noResv
    (fun _ => .red .maxu d.toNat a.toNat b.toNat m.toNat q.toNat)

/-- VRED.AND (R189). -/
def execVredAnd (d : BitVec 5) (a : BitVec 5) (b : BitVec 5) (m : BitVec 3) (q : BitVec 1) (s : State) : Host.Outcome State Fault Refusal :=
  issueV s ⟨(if q = 1#1 then [d.toNat] else []), .viq, (if q = 1#1 then some d.toNat else none), packR 40#6 d a b m (q ++ 5#7)⟩ noResv
    (fun _ => .red .and d.toNat a.toNat b.toNat m.toNat q.toNat)

/-- VRED.OR (R189). -/
def execVredOr (d : BitVec 5) (a : BitVec 5) (b : BitVec 5) (m : BitVec 3) (q : BitVec 1) (s : State) : Host.Outcome State Fault Refusal :=
  issueV s ⟨(if q = 1#1 then [d.toNat] else []), .viq, (if q = 1#1 then some d.toNat else none), packR 40#6 d a b m (q ++ 6#7)⟩ noResv
    (fun _ => .red .or d.toNat a.toNat b.toNat m.toNat q.toNat)

/-- VRED.XOR (R189). -/
def execVredXor (d : BitVec 5) (a : BitVec 5) (b : BitVec 5) (m : BitVec 3) (q : BitVec 1) (s : State) : Host.Outcome State Fault Refusal :=
  issueV s ⟨(if q = 1#1 then [d.toNat] else []), .viq, (if q = 1#1 then some d.toNat else none), packR 40#6 d a b m (q ++ 7#7)⟩ noResv
    (fun _ => .red .xor d.toNat a.toNat b.toNat m.toNat q.toNat)

/-- VRED.FSUMO (R67). -/
def execVredFsumo (d : BitVec 5) (a : BitVec 5) (b : BitVec 5) (m : BitVec 3) (q : BitVec 1) (s : State) : Host.Outcome State Fault Refusal :=
  issueV s ⟨(if q = 1#1 then [d.toNat] else []), .viq, (if q = 1#1 then some d.toNat else none), packR 40#6 d a b m (q ++ 8#7)⟩ noResv
    (fun _ => .red .fsumo d.toNat a.toNat b.toNat m.toNat q.toNat)

/-- VRED.FSUMT (R68). -/
def execVredFsumt (d : BitVec 5) (a : BitVec 5) (b : BitVec 5) (m : BitVec 3) (q : BitVec 1) (s : State) : Host.Outcome State Fault Refusal :=
  issueV s ⟨(if q = 1#1 then [d.toNat] else []), .viq, (if q = 1#1 then some d.toNat else none), packR 40#6 d a b m (q ++ 9#7)⟩ noResv
    (fun _ => .red .fsumt d.toNat a.toNat b.toNat m.toNat q.toNat)

/-- VRED.FMIN (R189). -/
def execVredFmin (d : BitVec 5) (a : BitVec 5) (b : BitVec 5) (m : BitVec 3) (q : BitVec 1) (s : State) : Host.Outcome State Fault Refusal :=
  issueV s ⟨(if q = 1#1 then [d.toNat] else []), .viq, (if q = 1#1 then some d.toNat else none), packR 40#6 d a b m (q ++ 10#7)⟩ noResv
    (fun _ => .red .fmin d.toNat a.toNat b.toNat m.toNat q.toNat)

/-- VRED.FMAX (R189). -/
def execVredFmax (d : BitVec 5) (a : BitVec 5) (b : BitVec 5) (m : BitVec 3) (q : BitVec 1) (s : State) : Host.Outcome State Fault Refusal :=
  issueV s ⟨(if q = 1#1 then [d.toNat] else []), .viq, (if q = 1#1 then some d.toNat else none), packR 40#6 d a b m (q ++ 11#7)⟩ noResv
    (fun _ => .red .fmax d.toNat a.toNat b.toNat m.toNat q.toNat)

/-- VPERM.SLUP (R192). -/
def execVpermSlup (d : BitVec 5) (a : BitVec 5) (b : BitVec 5) (m : BitVec 3) (s : State) : Host.Outcome State Fault Refusal :=
  issueV s ⟨[b.toNat], .viq, none, packR 41#6 d a b m 0#8⟩ noResv
    (fun a0 => .perm .slup d.toNat a.toNat 0 (a0.rx b.toNat) m.toNat)

/-- VPERM.SLDN (R192). -/
def execVpermSldn (d : BitVec 5) (a : BitVec 5) (b : BitVec 5) (m : BitVec 3) (s : State) : Host.Outcome State Fault Refusal :=
  issueV s ⟨[b.toNat], .viq, none, packR 41#6 d a b m 1#8⟩ noResv
    (fun a0 => .perm .sldn d.toNat a.toNat 0 (a0.rx b.toNat) m.toNat)

/-- VPERM.GATHER (R192). -/
def execVpermGather (d : BitVec 5) (a : BitVec 5) (b : BitVec 5) (m : BitVec 3) (s : State) : Host.Outcome State Fault Refusal :=
  issueV s ⟨[], .viq, none, packR 41#6 d a b m 2#8⟩ noResv
    (fun _ => .perm .gather d.toNat a.toNat b.toNat 0 m.toNat)

/-- VPERM.COMPRESS (R193). -/
def execVpermCompress (d : BitVec 5) (a : BitVec 5) (m : BitVec 3) (s : State) : Host.Outcome State Fault Refusal :=
  issueV s ⟨[], .viq, none, packR 41#6 d a 0#5 m 3#8⟩ noResv
    (fun _ => .perm .compress d.toNat a.toNat 0 0 m.toNat)

/-- VPERM.EXPAND (R193). -/
def execVpermExpand (d : BitVec 5) (a : BitVec 5) (m : BitVec 3) (s : State) : Host.Outcome State Fault Refusal :=
  issueV s ⟨[], .viq, none, packR 41#6 d a 0#5 m 4#8⟩ noResv
    (fun _ => .perm .expand d.toNat a.toNat 0 0 m.toNat)

/-- VPERM.XCHG (R194). -/
def execVpermXchg (d : BitVec 5) (a : BitVec 5) (b : BitVec 5) (m : BitVec 3) (s : State) : Host.Outcome State Fault Refusal :=
  issueV s ⟨[b.toNat], .viq, none, packR 41#6 d a b m 5#8⟩ noResv
    (fun a0 => .perm .xchg d.toNat a.toNat 0 (a0.rx b.toNat) m.toNat)

/-- VPERM.MVXS (R195). -/
def execVpermMvxs (d : BitVec 5) (a : BitVec 5) (b : BitVec 5) (s : State) : Host.Outcome State Fault Refusal :=
  issueV s ⟨[d.toNat, b.toNat], .viq, (some d.toNat), packR 41#6 d a b 0#3 6#8⟩ noResv
    (fun a0 => .perm .mvxs d.toNat a.toNat 0 (a0.rx b.toNat) 0)

/-- VPERM.MVSX (R192). -/
def execVpermMvsx (d : BitVec 5) (b : BitVec 5) (m : BitVec 3) (s : State) : Host.Outcome State Fault Refusal :=
  issueV s ⟨[b.toNat], .viq, none, packR 41#6 d 0#5 b m 7#8⟩ noResv
    (fun a0 => .perm .mvsx d.toNat 0 0 (a0.rx b.toNat) m.toNat)

/-- VPERM.BCAST (R192). -/
def execVpermBcast (d : BitVec 5) (a : BitVec 5) (b : BitVec 5) (m : BitVec 3) (s : State) : Host.Outcome State Fault Refusal :=
  issueV s ⟨[b.toNat], .viq, none, packR 41#6 d a b m 8#8⟩ noResv
    (fun a0 => .perm .bcast d.toNat a.toNat 0 (a0.rx b.toNat) m.toNat)

/-- VMASK.EQ (R196). -/
def execVmaskEq (d : BitVec 3) (a : BitVec 5) (b : BitVec 5) (m : BitVec 3) (x : BitVec 1) (s : State) : Host.Outcome State Fault Refusal :=
  issueV s ⟨(if x = 1#1 then [b.toNat] else []), .viq, none, packR 42#6 (0#2 ++ d) a b m (x ++ 0#7)⟩ noResv
    (fun a0 => .cmp .eq d.toNat a.toNat (if x = 1#1 then .scal (a0.rx b.toNat) else .vec b.toNat) m.toNat)

/-- VMASK.NE (R196). -/
def execVmaskNe (d : BitVec 3) (a : BitVec 5) (b : BitVec 5) (m : BitVec 3) (x : BitVec 1) (s : State) : Host.Outcome State Fault Refusal :=
  issueV s ⟨(if x = 1#1 then [b.toNat] else []), .viq, none, packR 42#6 (0#2 ++ d) a b m (x ++ 1#7)⟩ noResv
    (fun a0 => .cmp .ne d.toNat a.toNat (if x = 1#1 then .scal (a0.rx b.toNat) else .vec b.toNat) m.toNat)

/-- VMASK.LT (R196). -/
def execVmaskLt (d : BitVec 3) (a : BitVec 5) (b : BitVec 5) (m : BitVec 3) (x : BitVec 1) (s : State) : Host.Outcome State Fault Refusal :=
  issueV s ⟨(if x = 1#1 then [b.toNat] else []), .viq, none, packR 42#6 (0#2 ++ d) a b m (x ++ 2#7)⟩ noResv
    (fun a0 => .cmp .lt d.toNat a.toNat (if x = 1#1 then .scal (a0.rx b.toNat) else .vec b.toNat) m.toNat)

/-- VMASK.LTU (R196). -/
def execVmaskLtu (d : BitVec 3) (a : BitVec 5) (b : BitVec 5) (m : BitVec 3) (x : BitVec 1) (s : State) : Host.Outcome State Fault Refusal :=
  issueV s ⟨(if x = 1#1 then [b.toNat] else []), .viq, none, packR 42#6 (0#2 ++ d) a b m (x ++ 3#7)⟩ noResv
    (fun a0 => .cmp .ltu d.toNat a.toNat (if x = 1#1 then .scal (a0.rx b.toNat) else .vec b.toNat) m.toNat)

/-- VMASK.LE (R196). -/
def execVmaskLe (d : BitVec 3) (a : BitVec 5) (b : BitVec 5) (m : BitVec 3) (x : BitVec 1) (s : State) : Host.Outcome State Fault Refusal :=
  issueV s ⟨(if x = 1#1 then [b.toNat] else []), .viq, none, packR 42#6 (0#2 ++ d) a b m (x ++ 4#7)⟩ noResv
    (fun a0 => .cmp .le d.toNat a.toNat (if x = 1#1 then .scal (a0.rx b.toNat) else .vec b.toNat) m.toNat)

/-- VMASK.LEU (R196). -/
def execVmaskLeu (d : BitVec 3) (a : BitVec 5) (b : BitVec 5) (m : BitVec 3) (x : BitVec 1) (s : State) : Host.Outcome State Fault Refusal :=
  issueV s ⟨(if x = 1#1 then [b.toNat] else []), .viq, none, packR 42#6 (0#2 ++ d) a b m (x ++ 5#7)⟩ noResv
    (fun a0 => .cmp .leu d.toNat a.toNat (if x = 1#1 then .scal (a0.rx b.toNat) else .vec b.toNat) m.toNat)

/-- VMASK.GT (R196). -/
def execVmaskGt (d : BitVec 3) (a : BitVec 5) (b : BitVec 5) (m : BitVec 3) (x : BitVec 1) (s : State) : Host.Outcome State Fault Refusal :=
  issueV s ⟨(if x = 1#1 then [b.toNat] else []), .viq, none, packR 42#6 (0#2 ++ d) a b m (x ++ 6#7)⟩ noResv
    (fun a0 => .cmp .gt d.toNat a.toNat (if x = 1#1 then .scal (a0.rx b.toNat) else .vec b.toNat) m.toNat)

/-- VMASK.FEQ (R196). -/
def execVmaskFeq (d : BitVec 3) (a : BitVec 5) (b : BitVec 5) (m : BitVec 3) (x : BitVec 1) (s : State) : Host.Outcome State Fault Refusal :=
  issueV s ⟨(if x = 1#1 then [b.toNat] else []), .viq, none, packR 42#6 (0#2 ++ d) a b m (x ++ 7#7)⟩ noResv
    (fun a0 => .cmp .feq d.toNat a.toNat (if x = 1#1 then .scal (a0.rx b.toNat) else .vec b.toNat) m.toNat)

/-- VMASK.FLT (R196). -/
def execVmaskFlt (d : BitVec 3) (a : BitVec 5) (b : BitVec 5) (m : BitVec 3) (x : BitVec 1) (s : State) : Host.Outcome State Fault Refusal :=
  issueV s ⟨(if x = 1#1 then [b.toNat] else []), .viq, none, packR 42#6 (0#2 ++ d) a b m (x ++ 8#7)⟩ noResv
    (fun a0 => .cmp .flt d.toNat a.toNat (if x = 1#1 then .scal (a0.rx b.toNat) else .vec b.toNat) m.toNat)

/-- VMASK.FLE (R196). -/
def execVmaskFle (d : BitVec 3) (a : BitVec 5) (b : BitVec 5) (m : BitVec 3) (x : BitVec 1) (s : State) : Host.Outcome State Fault Refusal :=
  issueV s ⟨(if x = 1#1 then [b.toNat] else []), .viq, none, packR 42#6 (0#2 ++ d) a b m (x ++ 9#7)⟩ noResv
    (fun a0 => .cmp .fle d.toNat a.toNat (if x = 1#1 then .scal (a0.rx b.toNat) else .vec b.toNat) m.toNat)

/-- VMASK.AND (R197). -/
def execVmaskAnd (d : BitVec 3) (a : BitVec 3) (b : BitVec 3) (s : State) : Host.Outcome State Fault Refusal :=
  issueV s ⟨[], .viq, none, packR 42#6 (0#2 ++ d) (0#2 ++ a) (0#2 ++ b) 0#3 10#8⟩ noResv
    (fun _ => .mlogic .and d.toNat a.toNat b.toNat)

/-- VMASK.OR (R197). -/
def execVmaskOr (d : BitVec 3) (a : BitVec 3) (b : BitVec 3) (s : State) : Host.Outcome State Fault Refusal :=
  issueV s ⟨[], .viq, none, packR 42#6 (0#2 ++ d) (0#2 ++ a) (0#2 ++ b) 0#3 11#8⟩ noResv
    (fun _ => .mlogic .or d.toNat a.toNat b.toNat)

/-- VMASK.XOR (R197). -/
def execVmaskXor (d : BitVec 3) (a : BitVec 3) (b : BitVec 3) (s : State) : Host.Outcome State Fault Refusal :=
  issueV s ⟨[], .viq, none, packR 42#6 (0#2 ++ d) (0#2 ++ a) (0#2 ++ b) 0#3 12#8⟩ noResv
    (fun _ => .mlogic .xor d.toNat a.toNat b.toNat)

/-- VMASK.ANDN (R197). -/
def execVmaskAndn (d : BitVec 3) (a : BitVec 3) (b : BitVec 3) (s : State) : Host.Outcome State Fault Refusal :=
  issueV s ⟨[], .viq, none, packR 42#6 (0#2 ++ d) (0#2 ++ a) (0#2 ++ b) 0#3 13#8⟩ noResv
    (fun _ => .mlogic .andn d.toNat a.toNat b.toNat)

/-- VMASK.POPC (R198). -/
def execVmaskPopc (d : BitVec 5) (a : BitVec 3) (m : BitVec 3) (s : State) : Host.Outcome State Fault Refusal :=
  issueV s ⟨[d.toNat], .viq, (some d.toNat), packR 42#6 d (0#2 ++ a) 0#5 m 14#8⟩ noResv
    (fun _ => .popc a.toNat m.toNat)

/-- VMASK.FIRST (R198). -/
def execVmaskFirst (d : BitVec 5) (a : BitVec 3) (m : BitVec 3) (s : State) : Host.Outcome State Fault Refusal :=
  issueV s ⟨[d.toNat], .viq, (some d.toNat), packR 42#6 d (0#2 ++ a) 0#5 m 15#8⟩ noResv
    (fun _ => .first a.toNat m.toNat)

/-- VMASK.CONFL (R199). -/
def execVmaskConfl (d : BitVec 3) (a : BitVec 5) (m : BitVec 3) (s : State) : Host.Outcome State Fault Refusal :=
  issueV s ⟨[], .viq, none, packR 42#6 (0#2 ++ d) a 0#5 m 16#8⟩ noResv
    (fun _ => .confl d.toNat a.toNat m.toNat)

end Sys2Proof.Machine
end

