-- ==== Sys2Proof/Machine/Dispatch.lean ====
section
/-! DEFINITION. One meaning for each row of the opcode table. -/

namespace Sys2Proof.Machine

/-- What the machine does for an instruction, operation or event. -/
def exec (i : Instr) (s : State) : Host.Outcome State Fault Refusal :=
  match i with
  | .sysEcall => Sys2Proof.Machine.execSysEcall s
  | .sysEbreak => Sys2Proof.Machine.execSysEbreak s
  | .sysEret => Sys2Proof.Machine.execSysEret s
  | .sysWfi => Sys2Proof.Machine.execSysWfi s
  | .sysRefsync a => Sys2Proof.Machine.execSysRefsync a s
  | .aluAdd d a b => Sys2Proof.Machine.execAluAdd d a b s
  | .aluSub d a b => Sys2Proof.Machine.execAluSub d a b s
  | .aluAnd d a b => Sys2Proof.Machine.execAluAnd d a b s
  | .aluOr d a b => Sys2Proof.Machine.execAluOr d a b s
  | .aluXor d a b => Sys2Proof.Machine.execAluXor d a b s
  | .aluSll d a b => Sys2Proof.Machine.execAluSll d a b s
  | .aluSrl d a b => Sys2Proof.Machine.execAluSrl d a b s
  | .aluSra d a b => Sys2Proof.Machine.execAluSra d a b s
  | .aluSlt d a b => Sys2Proof.Machine.execAluSlt d a b s
  | .aluSltu d a b => Sys2Proof.Machine.execAluSltu d a b s
  | .aluMin d a b => Sys2Proof.Machine.execAluMin d a b s
  | .aluMax d a b => Sys2Proof.Machine.execAluMax d a b s
  | .aluMinu d a b => Sys2Proof.Machine.execAluMinu d a b s
  | .aluMaxu d a b => Sys2Proof.Machine.execAluMaxu d a b s
  | .aluClz d a => Sys2Proof.Machine.execAluClz d a s
  | .aluPopc d a => Sys2Proof.Machine.execAluPopc d a s
  | .muldivMul d a b => Sys2Proof.Machine.execMuldivMul d a b s
  | .muldivMulh d a b => Sys2Proof.Machine.execMuldivMulh d a b s
  | .muldivMulhu d a b => Sys2Proof.Machine.execMuldivMulhu d a b s
  | .muldivDiv d a b => Sys2Proof.Machine.execMuldivDiv d a b s
  | .muldivDivu d a b => Sys2Proof.Machine.execMuldivDivu d a b s
  | .muldivRem d a b => Sys2Proof.Machine.execMuldivRem d a b s
  | .muldivRemu d a b => Sys2Proof.Machine.execMuldivRemu d a b s
  | .fpsAdd d a b p => Sys2Proof.Machine.execFpsAdd d a b p s
  | .fpsSub d a b p => Sys2Proof.Machine.execFpsSub d a b p s
  | .fpsMul d a b p => Sys2Proof.Machine.execFpsMul d a b p s
  | .fpsDiv d a b p => Sys2Proof.Machine.execFpsDiv d a b p s
  | .fpsSqrt d a p => Sys2Proof.Machine.execFpsSqrt d a p s
  | .fpsFma d a b p => Sys2Proof.Machine.execFpsFma d a b p s
  | .fpsMin d a b p => Sys2Proof.Machine.execFpsMin d a b p s
  | .fpsMax d a b p => Sys2Proof.Machine.execFpsMax d a b p s
  | .fpsCvtOther d a p => Sys2Proof.Machine.execFpsCvtOther d a p s
  | .fpsCvtFromint d a p => Sys2Proof.Machine.execFpsCvtFromint d a p s
  | .fpsCvtFromuint d a p => Sys2Proof.Machine.execFpsCvtFromuint d a p s
  | .fpsCvtToint d a p => Sys2Proof.Machine.execFpsCvtToint d a p s
  | .fpsCvtTouint d a p => Sys2Proof.Machine.execFpsCvtTouint d a p s
  | .fpsCmpEq d a b p => Sys2Proof.Machine.execFpsCmpEq d a b p s
  | .fpsCmpLt d a b p => Sys2Proof.Machine.execFpsCmpLt d a b p s
  | .fpsCmpLe d a b p => Sys2Proof.Machine.execFpsCmpLe d a b p s
  | .fpsClass d a p => Sys2Proof.Machine.execFpsClass d a p s
  | .fpsMvCopy d a p => Sys2Proof.Machine.execFpsMvCopy d a p s
  | .fpsMvNeg d a p => Sys2Proof.Machine.execFpsMvNeg d a p s
  | .fpsMvAbs d a p => Sys2Proof.Machine.execFpsMvAbs d a p s
  | .addi d a i1 => Sys2Proof.Machine.execAddi d a i1 s
  | .andi d a i1 => Sys2Proof.Machine.execAndi d a i1 s
  | .ori d a i1 => Sys2Proof.Machine.execOri d a i1 s
  | .xori d a i1 => Sys2Proof.Machine.execXori d a i1 s
  | .slti d a i1 => Sys2Proof.Machine.execSlti d a i1 s
  | .sltiu d a i1 => Sys2Proof.Machine.execSltiu d a i1 s
  | .shiSlli d a s1 => Sys2Proof.Machine.execShiSlli d a s1 s
  | .shiSrli d a s1 => Sys2Proof.Machine.execShiSrli d a s1 s
  | .shiSrai d a s1 => Sys2Proof.Machine.execShiSrai d a s1 s
  | .lui d w => Sys2Proof.Machine.execLui d w s
  | .auipc d w => Sys2Proof.Machine.execAuipc d w s
  | .ldsB d a o => Sys2Proof.Machine.execLdsB d a o s
  | .ldsH d a o => Sys2Proof.Machine.execLdsH d a o s
  | .ldsW d a o => Sys2Proof.Machine.execLdsW d a o s
  | .ldsD d a o => Sys2Proof.Machine.execLdsD d a o s
  | .ldsBu d a o => Sys2Proof.Machine.execLdsBu d a o s
  | .ldsHu d a o => Sys2Proof.Machine.execLdsHu d a o s
  | .ldsWu d a o => Sys2Proof.Machine.execLdsWu d a o s
  | .stsB d a o => Sys2Proof.Machine.execStsB d a o s
  | .stsH d a o => Sys2Proof.Machine.execStsH d a o s
  | .stsW d a o => Sys2Proof.Machine.execStsW d a o s
  | .stsD d a o => Sys2Proof.Machine.execStsD d a o s
  | .brcEq d a o => Sys2Proof.Machine.execBrcEq d a o s
  | .brcNe d a o => Sys2Proof.Machine.execBrcNe d a o s
  | .brcLt d a o => Sys2Proof.Machine.execBrcLt d a o s
  | .brcGe d a o => Sys2Proof.Machine.execBrcGe d a o s
  | .brcLtu d a o => Sys2Proof.Machine.execBrcLtu d a o s
  | .brcGeu d a o => Sys2Proof.Machine.execBrcGeu d a o s
  | .jal d w => Sys2Proof.Machine.execJal d w s
  | .jalr d a i1 => Sys2Proof.Machine.execJalr d a i1 s
  | .mark a i1 => Sys2Proof.Machine.execMark a i1 s
  | .fenceSv => Sys2Proof.Machine.execFenceSv s
  | .fenceVs => Sys2Proof.Machine.execFenceVs s
  | .fenceVv => Sys2Proof.Machine.execFenceVv s
  | .fenceAll => Sys2Proof.Machine.execFenceAll s
  | .csrRd d c => Sys2Proof.Machine.execCsrRd d c s
  | .csrWr d a c => Sys2Proof.Machine.execCsrWr d a c s
  | .csrSet d a c => Sys2Proof.Machine.execCsrSet d a c s
  | .csrClr d a c => Sys2Proof.Machine.execCsrClr d a c s
  | .vcfgSetvl d a b => Sys2Proof.Machine.execVcfgSetvl d a b s
  | .vcfgSetvlrun d a b k => Sys2Proof.Machine.execVcfgSetvlrun d a b k s
  | .setvli d a v => Sys2Proof.Machine.execSetvli d a v s
  | .vintAdd d a b m => Sys2Proof.Machine.execVintAdd d a b m s
  | .vintSub d a b m => Sys2Proof.Machine.execVintSub d a b m s
  | .vintMul d a b m => Sys2Proof.Machine.execVintMul d a b m s
  | .vintMulh d a b m => Sys2Proof.Machine.execVintMulh d a b m s
  | .vintMulhu d a b m => Sys2Proof.Machine.execVintMulhu d a b m s
  | .vintDiv d a b m => Sys2Proof.Machine.execVintDiv d a b m s
  | .vintDivu d a b m => Sys2Proof.Machine.execVintDivu d a b m s
  | .vintRem d a b m => Sys2Proof.Machine.execVintRem d a b m s
  | .vintRemu d a b m => Sys2Proof.Machine.execVintRemu d a b m s
  | .vintAnd d a b m => Sys2Proof.Machine.execVintAnd d a b m s
  | .vintOr d a b m => Sys2Proof.Machine.execVintOr d a b m s
  | .vintXor d a b m => Sys2Proof.Machine.execVintXor d a b m s
  | .vintSll d a b m => Sys2Proof.Machine.execVintSll d a b m s
  | .vintSrl d a b m => Sys2Proof.Machine.execVintSrl d a b m s
  | .vintSra d a b m => Sys2Proof.Machine.execVintSra d a b m s
  | .vintMin d a b m => Sys2Proof.Machine.execVintMin d a b m s
  | .vintMinu d a b m => Sys2Proof.Machine.execVintMinu d a b m s
  | .vintMax d a b m => Sys2Proof.Machine.execVintMax d a b m s
  | .vintMaxu d a b m => Sys2Proof.Machine.execVintMaxu d a b m s
  | .vintSadd d a b m => Sys2Proof.Machine.execVintSadd d a b m s
  | .vintSaddu d a b m => Sys2Proof.Machine.execVintSaddu d a b m s
  | .vintSsub d a b m => Sys2Proof.Machine.execVintSsub d a b m s
  | .vintSsubu d a b m => Sys2Proof.Machine.execVintSsubu d a b m s
  | .vintMacc d a b m => Sys2Proof.Machine.execVintMacc d a b m s
  | .vintMerge d a b m => Sys2Proof.Machine.execVintMerge d a b m s
  | .vintMv d a m => Sys2Proof.Machine.execVintMv d a m s
  | .vintxAdd d a b m => Sys2Proof.Machine.execVintxAdd d a b m s
  | .vintxSub d a b m => Sys2Proof.Machine.execVintxSub d a b m s
  | .vintxRsub d a b m => Sys2Proof.Machine.execVintxRsub d a b m s
  | .vintxMul d a b m => Sys2Proof.Machine.execVintxMul d a b m s
  | .vintxMulh d a b m => Sys2Proof.Machine.execVintxMulh d a b m s
  | .vintxMulhu d a b m => Sys2Proof.Machine.execVintxMulhu d a b m s
  | .vintxDiv d a b m => Sys2Proof.Machine.execVintxDiv d a b m s
  | .vintxDivu d a b m => Sys2Proof.Machine.execVintxDivu d a b m s
  | .vintxRem d a b m => Sys2Proof.Machine.execVintxRem d a b m s
  | .vintxRemu d a b m => Sys2Proof.Machine.execVintxRemu d a b m s
  | .vintxAnd d a b m => Sys2Proof.Machine.execVintxAnd d a b m s
  | .vintxOr d a b m => Sys2Proof.Machine.execVintxOr d a b m s
  | .vintxXor d a b m => Sys2Proof.Machine.execVintxXor d a b m s
  | .vintxSll d a b m => Sys2Proof.Machine.execVintxSll d a b m s
  | .vintxSrl d a b m => Sys2Proof.Machine.execVintxSrl d a b m s
  | .vintxSra d a b m => Sys2Proof.Machine.execVintxSra d a b m s
  | .vintxMin d a b m => Sys2Proof.Machine.execVintxMin d a b m s
  | .vintxMinu d a b m => Sys2Proof.Machine.execVintxMinu d a b m s
  | .vintxMax d a b m => Sys2Proof.Machine.execVintxMax d a b m s
  | .vintxMaxu d a b m => Sys2Proof.Machine.execVintxMaxu d a b m s
  | .vintxSadd d a b m => Sys2Proof.Machine.execVintxSadd d a b m s
  | .vintxSaddu d a b m => Sys2Proof.Machine.execVintxSaddu d a b m s
  | .vintxSsub d a b m => Sys2Proof.Machine.execVintxSsub d a b m s
  | .vintxSsubu d a b m => Sys2Proof.Machine.execVintxSsubu d a b m s
  | .vintxMacc d a b m => Sys2Proof.Machine.execVintxMacc d a b m s
  | .vintxMerge d a b m => Sys2Proof.Machine.execVintxMerge d a b m s
  | .vintxMv d b m => Sys2Proof.Machine.execVintxMv d b m s
  | .vintiAdd d a i1 m => Sys2Proof.Machine.execVintiAdd d a i1 m s
  | .vintiRsub d a i1 m => Sys2Proof.Machine.execVintiRsub d a i1 m s
  | .vintiAnd d a i1 m => Sys2Proof.Machine.execVintiAnd d a i1 m s
  | .vintiOr d a i1 m => Sys2Proof.Machine.execVintiOr d a i1 m s
  | .vintiXor d a i1 m => Sys2Proof.Machine.execVintiXor d a i1 m s
  | .vintiSll d a i1 m => Sys2Proof.Machine.execVintiSll d a i1 m s
  | .vintiSrl d a i1 m => Sys2Proof.Machine.execVintiSrl d a i1 m s
  | .vintiSra d a i1 m => Sys2Proof.Machine.execVintiSra d a i1 m s
  | .vintiSadd d a i1 m => Sys2Proof.Machine.execVintiSadd d a i1 m s
  | .vintiSaddu d a i1 m => Sys2Proof.Machine.execVintiSaddu d a i1 m s
  | .vintiMerge d a i1 m => Sys2Proof.Machine.execVintiMerge d a i1 m s
  | .vintiMv d i1 m => Sys2Proof.Machine.execVintiMv d i1 m s
  | .vfpAdd d a b m => Sys2Proof.Machine.execVfpAdd d a b m s
  | .vfpSub d a b m => Sys2Proof.Machine.execVfpSub d a b m s
  | .vfpMul d a b m => Sys2Proof.Machine.execVfpMul d a b m s
  | .vfpDiv d a b m => Sys2Proof.Machine.execVfpDiv d a b m s
  | .vfpSqrt d a m => Sys2Proof.Machine.execVfpSqrt d a m s
  | .vfpMin d a b m => Sys2Proof.Machine.execVfpMin d a b m s
  | .vfpMax d a b m => Sys2Proof.Machine.execVfpMax d a b m s
  | .vfpMacc d a b m => Sys2Proof.Machine.execVfpMacc d a b m s
  | .vfpNmacc d a b m => Sys2Proof.Machine.execVfpNmacc d a b m s
  | .vfpExp2 d a m => Sys2Proof.Machine.execVfpExp2 d a m s
  | .vfpSgnj d a b m => Sys2Proof.Machine.execVfpSgnj d a b m s
  | .vfpSgnjn d a b m => Sys2Proof.Machine.execVfpSgnjn d a b m s
  | .vfpSgnjx d a b m => Sys2Proof.Machine.execVfpSgnjx d a b m s
  | .vfpClass d a m => Sys2Proof.Machine.execVfpClass d a m s
  | .vfpMv d a m => Sys2Proof.Machine.execVfpMv d a m s
  | .vfpxAdd d a b m => Sys2Proof.Machine.execVfpxAdd d a b m s
  | .vfpxSub d a b m => Sys2Proof.Machine.execVfpxSub d a b m s
  | .vfpxMul d a b m => Sys2Proof.Machine.execVfpxMul d a b m s
  | .vfpxDiv d a b m => Sys2Proof.Machine.execVfpxDiv d a b m s
  | .vfpxMin d a b m => Sys2Proof.Machine.execVfpxMin d a b m s
  | .vfpxMax d a b m => Sys2Proof.Machine.execVfpxMax d a b m s
  | .vfpxMacc d a b m => Sys2Proof.Machine.execVfpxMacc d a b m s
  | .vfpxNmacc d a b m => Sys2Proof.Machine.execVfpxNmacc d a b m s
  | .vfpxSgnj d a b m => Sys2Proof.Machine.execVfpxSgnj d a b m s
  | .vfpxSgnjn d a b m => Sys2Proof.Machine.execVfpxSgnjn d a b m s
  | .vfpxSgnjx d a b m => Sys2Proof.Machine.execVfpxSgnjx d a b m s
  | .vfpxMv d b m => Sys2Proof.Machine.execVfpxMv d b m s
  | .vcvtFf d a m s1 t => Sys2Proof.Machine.execVcvtFf d a m s1 t s
  | .vcvtIf d a m s1 t => Sys2Proof.Machine.execVcvtIf d a m s1 t s
  | .vcvtFi d a m t => Sys2Proof.Machine.execVcvtFi d a m t s
  | .vcvtNarrow d a m t => Sys2Proof.Machine.execVcvtNarrow d a m t s
  | .vcvtWiden d a m t => Sys2Proof.Machine.execVcvtWiden d a m t s
  | .vcvtDeq d a m t => Sys2Proof.Machine.execVcvtDeq d a m t s
  | .vcvtQuant d a m s1 t => Sys2Proof.Machine.execVcvtQuant d a m s1 t s
  | .vcvtQmv d a m => Sys2Proof.Machine.execVcvtQmv d a m s
  | .vcvtQrd d a m => Sys2Proof.Machine.execVcvtQrd d a m s
  | .vcvtDs8e d a m t => Sys2Proof.Machine.execVcvtDs8e d a m t s
  | .vcvtDs8d d a m => Sys2Proof.Machine.execVcvtDs8d d a m s
  | .vredSum d a b m q => Sys2Proof.Machine.execVredSum d a b m q s
  | .vredMin d a b m q => Sys2Proof.Machine.execVredMin d a b m q s
  | .vredMinu d a b m q => Sys2Proof.Machine.execVredMinu d a b m q s
  | .vredMax d a b m q => Sys2Proof.Machine.execVredMax d a b m q s
  | .vredMaxu d a b m q => Sys2Proof.Machine.execVredMaxu d a b m q s
  | .vredAnd d a b m q => Sys2Proof.Machine.execVredAnd d a b m q s
  | .vredOr d a b m q => Sys2Proof.Machine.execVredOr d a b m q s
  | .vredXor d a b m q => Sys2Proof.Machine.execVredXor d a b m q s
  | .vredFsumo d a b m q => Sys2Proof.Machine.execVredFsumo d a b m q s
  | .vredFsumt d a b m q => Sys2Proof.Machine.execVredFsumt d a b m q s
  | .vredFmin d a b m q => Sys2Proof.Machine.execVredFmin d a b m q s
  | .vredFmax d a b m q => Sys2Proof.Machine.execVredFmax d a b m q s
  | .vpermSlup d a b m => Sys2Proof.Machine.execVpermSlup d a b m s
  | .vpermSldn d a b m => Sys2Proof.Machine.execVpermSldn d a b m s
  | .vpermGather d a b m => Sys2Proof.Machine.execVpermGather d a b m s
  | .vpermCompress d a m => Sys2Proof.Machine.execVpermCompress d a m s
  | .vpermExpand d a m => Sys2Proof.Machine.execVpermExpand d a m s
  | .vpermXchg d a b m => Sys2Proof.Machine.execVpermXchg d a b m s
  | .vpermMvxs d a b => Sys2Proof.Machine.execVpermMvxs d a b s
  | .vpermMvsx d b m => Sys2Proof.Machine.execVpermMvsx d b m s
  | .vpermBcast d a b m => Sys2Proof.Machine.execVpermBcast d a b m s
  | .vmaskEq d a b m x => Sys2Proof.Machine.execVmaskEq d a b m x s
  | .vmaskNe d a b m x => Sys2Proof.Machine.execVmaskNe d a b m x s
  | .vmaskLt d a b m x => Sys2Proof.Machine.execVmaskLt d a b m x s
  | .vmaskLtu d a b m x => Sys2Proof.Machine.execVmaskLtu d a b m x s
  | .vmaskLe d a b m x => Sys2Proof.Machine.execVmaskLe d a b m x s
  | .vmaskLeu d a b m x => Sys2Proof.Machine.execVmaskLeu d a b m x s
  | .vmaskGt d a b m x => Sys2Proof.Machine.execVmaskGt d a b m x s
  | .vmaskFeq d a b m x => Sys2Proof.Machine.execVmaskFeq d a b m x s
  | .vmaskFlt d a b m x => Sys2Proof.Machine.execVmaskFlt d a b m x s
  | .vmaskFle d a b m x => Sys2Proof.Machine.execVmaskFle d a b m x s
  | .vmaskAnd d a b => Sys2Proof.Machine.execVmaskAnd d a b s
  | .vmaskOr d a b => Sys2Proof.Machine.execVmaskOr d a b s
  | .vmaskXor d a b => Sys2Proof.Machine.execVmaskXor d a b s
  | .vmaskAndn d a b => Sys2Proof.Machine.execVmaskAndn d a b s
  | .vmaskPopc d a m => Sys2Proof.Machine.execVmaskPopc d a m s
  | .vmaskFirst d a m => Sys2Proof.Machine.execVmaskFirst d a m s
  | .vmaskConfl d a m => Sys2Proof.Machine.execVmaskConfl d a m s
  | .vidx d s1 t => Sys2Proof.Machine.execVidx d s1 t s
  | .vldUnit d a m => Sys2Proof.Machine.execVldUnit d a m s
  | .vldStr d a b m => Sys2Proof.Machine.execVldStr d a b m s
  | .vldIdx d a b m w => Sys2Proof.Machine.execVldIdx d a b m w s
  | .vldSeg d a m n => Sys2Proof.Machine.execVldSeg d a m n s
  | .vldFf d a m => Sys2Proof.Machine.execVldFf d a m s
  | .vldTens d a t m => Sys2Proof.Machine.execVldTens d a t m s
  | .vldQld d a => Sys2Proof.Machine.execVldQld d a s
  | .vstUnit d a m => Sys2Proof.Machine.execVstUnit d a m s
  | .vstStr d a b m => Sys2Proof.Machine.execVstStr d a b m s
  | .vstIdx d a b m w => Sys2Proof.Machine.execVstIdx d a b m w s
  | .vstSeg d a m n => Sys2Proof.Machine.execVstSeg d a m n s
  | .vstTens d a t m => Sys2Proof.Machine.execVstTens d a t m s
  | .vstRed d a b m x o => Sys2Proof.Machine.execVstRed d a b m x o s
  | .vxclG d b m => Sys2Proof.Machine.execVxclG d b m s
  | .vxclS d b m => Sys2Proof.Machine.execVxclS d b m s
  | .mopOp d a b m r f => Sys2Proof.Machine.execMopOp d a b m r f s
  | .mopOpn d a b m r f => Sys2Proof.Machine.execMopOpn d a b m r f s
  | .zopCfg d a => Sys2Proof.Machine.execZopCfg d a s
  | .zopEnable => Sys2Proof.Machine.execZopEnable s
  | .zopDisable => Sys2Proof.Machine.execZopDisable s
  | .zopZero d => Sys2Proof.Machine.execZopZero d s
  | .zopRd d a b m s1 c l => Sys2Proof.Machine.execZopRd d a b m s1 c l s
  | .zopWr d a b m c l => Sys2Proof.Machine.execZopWr d a b m c l s
  | .zopPatch d a b m x c l => Sys2Proof.Machine.execZopPatch d a b m x c l s
  | .zopScale d a m => Sys2Proof.Machine.execZopScale d a m s
  | .zopMask d a k z => Sys2Proof.Machine.execZopMask d a k z s
  | .mskLd k a => Sys2Proof.Machine.execMskLd k a s
  | .mskCls d a k => Sys2Proof.Machine.execMskCls d a k s
  | .mskGen d a k => Sys2Proof.Machine.execMskGen d a k s
  | .mskCnt d s1 => Sys2Proof.Machine.execMskCnt d s1 s
  | .tamw k a => Sys2Proof.Machine.execTamw k a s
  | .engCpy d a b k x j => Sys2Proof.Machine.execEngCpy d a b k x j s
  | .engTcopy d a b k x j => Sys2Proof.Machine.execEngTcopy d a b k x j s
  | .engRgath d a b k x j => Sys2Proof.Machine.execEngRgath d a b k x j s
  | .engRcopy d a b k x j => Sys2Proof.Machine.execEngRcopy d a b k x j s
  | .engPut d a b k x j => Sys2Proof.Machine.execEngPut d a b k x j s
  | .engGet d a b k x j => Sys2Proof.Machine.execEngGet d a b k x j s
  | .engSig d a b k x j => Sys2Proof.Machine.execEngSig d a b k x j s
  | .engLaunch d a b k x j => Sys2Proof.Machine.execEngLaunch d a b k x j s
  | .syncTlwait a k => Sys2Proof.Machine.execSyncTlwait a k s
  | .syncTlwaitIc a b => Sys2Proof.Machine.execSyncTlwaitIc a b s
  | .syncTlread d k => Sys2Proof.Machine.execSyncTlread d k s
  | .syncTlreadIc d b => Sys2Proof.Machine.execSyncTlreadIc d b s
  | .syncGbar => Sys2Proof.Machine.execSyncGbar s
  | .syncQdrain q => Sys2Proof.Machine.execSyncQdrain q s
  | .syncSheaf => Sys2Proof.Machine.execSyncSheaf s
  | .syncBtinv => Sys2Proof.Machine.execSyncBtinv s
  | .dbgTrmark a => Sys2Proof.Machine.execDbgTrmark a s
  | .dbgWprel a => Sys2Proof.Machine.execDbgWprel a s
  | .advAwait i1 => Sys2Proof.Machine.execAdvAwait i1 s
  | .advBr d a c o => Sys2Proof.Machine.execAdvBr d a c o s
  | .advLoop d o => Sys2Proof.Machine.execAdvLoop d o s
  | .advSet d w => Sys2Proof.Machine.execAdvSet d w s
  | .advIns d w => Sys2Proof.Machine.execAdvIns d w s
  | .advAdd d a b => Sys2Proof.Machine.execAdvAdd d a b s
  | .advAddi d a i1 => Sys2Proof.Machine.execAdvAddi d a i1 s
  | .advMv d a => Sys2Proof.Machine.execAdvMv d a s
  | .advMvArg d => Sys2Proof.Machine.execAdvMvArg d s
  | .advMvId d => Sys2Proof.Machine.execAdvMvId d s
  | .advPf a b => Sys2Proof.Machine.execAdvPf a b s
  | .advPfx a b w => Sys2Proof.Machine.execAdvPfx a b w s
  | .advPlace a b c => Sys2Proof.Machine.execAdvPlace a b c s
  | .advPrio a => Sys2Proof.Machine.execAdvPrio a s
  | .advOrder a => Sys2Proof.Machine.execAdvOrder a s
  | .advOrderShare a => Sys2Proof.Machine.execAdvOrderShare a s
  | .advHalt => Sys2Proof.Machine.execAdvHalt s
  | .fcsrWrite op d a => Sys2Proof.Machine.execFcsrWrite op d a s
  | .fcsrRead d => Sys2Proof.Machine.execFcsrRead d s
  | .srseedWrite op d a => Sys2Proof.Machine.execSrseedWrite op d a s
  | .srseedRead d => Sys2Proof.Machine.execSrseedRead d s
  | .btcfgWrite t op d a => Sys2Proof.Machine.execBtcfgWrite t op d a s
  | .mskshapeWrite op d a => Sys2Proof.Machine.execMskshapeWrite op d a s
  | .docnWrite op d a => Sys2Proof.Machine.execDocnWrite op d a s
  | .zstateWrite op d a => Sys2Proof.Machine.execZstateWrite op d a s
  | .zstateLoad h => Sys2Proof.Machine.execZstateLoad h s
  | .zstateZclr h => Sys2Proof.Machine.execZstateZclr h s
  | .hstatusWrite op d a => Sys2Proof.Machine.execHstatusWrite op d a s
  | .wpctlWrite w op d a => Sys2Proof.Machine.execWpctlWrite w op d a s
  | .commitSliceAcquire h => Sys2Proof.Machine.execCommitSliceAcquire h s
  | .sheafCommit h => Sys2Proof.Machine.execSheafCommit h s
  | .soloTokenGrant => Sys2Proof.Machine.execSoloTokenGrant s
  | .trapLanding h => Sys2Proof.Machine.execTrapLanding h s
  | .holdStop h => Sys2Proof.Machine.execHoldStop h s
  | .tlwaitResume h => Sys2Proof.Machine.execTlwaitResume h s
  | .barrierRelease g => Sys2Proof.Machine.execBarrierRelease g s
  | .qdrainDone h => Sys2Proof.Machine.execQdrainDone h s
  | .wfiWake h => Sys2Proof.Machine.execWfiWake h s
  | .qdeadTimeout h => Sys2Proof.Machine.execQdeadTimeout h s
  | .loadDataDelivery h => Sys2Proof.Machine.execLoadDataDelivery h s
  | .hartEnd h => Sys2Proof.Machine.execHartEnd h s
  | .lqtailWrite die k v => Sys2Proof.Machine.execLqtailWrite die k v s
  | .lqcfgWrite die k v => Sys2Proof.Machine.execLqcfgWrite die k v s
  | .dispatchPacket die k => Sys2Proof.Machine.execDispatchPacket die k s
  | .gangPlace die k at_ => Sys2Proof.Machine.execGangPlace die k at_ s
  | .gangRestore g at_ => Sys2Proof.Machine.execGangRestore g at_ s
  | .grantPost h vlen at_ => Sys2Proof.Machine.execGrantPost h vlen at_ s
  | .preemptRequest g why => Sys2Proof.Machine.execPreemptRequest g why s
  | .preemptStarvationTimeout g => Sys2Proof.Machine.execPreemptStarvationTimeout g s
  | .preemptSplitTimeout h => Sys2Proof.Machine.execPreemptSplitTimeout h s
  | .preemptionLanding h => Sys2Proof.Machine.execPreemptionLanding h s
  | .channelBind h ch => Sys2Proof.Machine.execChannelBind h ch s
  | .engineCommandStart e => Sys2Proof.Machine.execEngineCommandStart e s
  | .engineElementApply h ch id => Sys2Proof.Machine.execEngineElementApply h ch id s
  | .remoteAcknowledge h ch id ack => Sys2Proof.Machine.execRemoteAcknowledge h ch id ack s
  | .remotePutArrival r => Sys2Proof.Machine.execRemotePutArrival r s
  | .remoteGetArrival r => Sys2Proof.Machine.execRemoteGetArrival r s
  | .remoteRcopyArrival r => Sys2Proof.Machine.execRemoteRcopyArrival r s
  | .remoteSigArrival r => Sys2Proof.Machine.execRemoteSigArrival r s
  | .commandSeal src cmd => Sys2Proof.Machine.execCommandSeal src cmd s
  | .packageDown pkg => Sys2Proof.Machine.execPackageDown pkg s
  | .requestArrival q => Sys2Proof.Machine.execRequestArrival q s
  | .requestGrant c => Sys2Proof.Machine.execRequestGrant c s
  | .budgetPeriodStart => Sys2Proof.Machine.execBudgetPeriodStart s
  | .refreshTick p => Sys2Proof.Machine.execRefreshTick p s
  | .refreshEnd p => Sys2Proof.Machine.execRefreshEnd p s
  | .scrubPass c => Sys2Proof.Machine.execScrubPass c s
  | .correctedError src g => Sys2Proof.Machine.execCorrectedError src g s
  | .uncorrectableError src g => Sys2Proof.Machine.execUncorrectableError src g s
  | .pageRetirement r => Sys2Proof.Machine.execPageRetirement r s
  | .adviceLineFetch h => Sys2Proof.Machine.execAdviceLineFetch h s
  | .prefetchAction h => Sys2Proof.Machine.execPrefetchAction h s
  | .indexedPrefetchAction h => Sys2Proof.Machine.execIndexedPrefetchAction h s
  | .placementAction h => Sys2Proof.Machine.execPlacementAction h s
  | .priorityAction h => Sys2Proof.Machine.execPriorityAction h s
  | .channelOrderAction h => Sys2Proof.Machine.execChannelOrderAction h s
  | .rdmaWrite w addr bytes => Sys2Proof.Machine.execRdmaWrite w addr bytes s
  | .rdmaWriteImm w addr bytes imm => Sys2Proof.Machine.execRdmaWriteImm w addr bytes imm s
  | .rdmaRead w addr n => Sys2Proof.Machine.execRdmaRead w addr n s
  | .rdmaUnsupported w => Sys2Proof.Machine.execRdmaUnsupported w s
  | .mread msg addr count => Sys2Proof.Machine.execMread msg addr count s
  | .mwrite msg addr data => Sys2Proof.Machine.execMwrite msg addr data s
  | .imgload msg img => Sys2Proof.Machine.execImgload msg img s
  | .launch msg die packet => Sys2Proof.Machine.execLaunch msg die packet s
  | .characterisationLaunch msg cluster packet => Sys2Proof.Machine.execCharacterisationLaunch msg cluster packet s
  | .managementWrite addr v => Sys2Proof.Machine.execManagementWrite addr v s
  | .shootdownGo => Sys2Proof.Machine.execShootdownGo s
  | .shootdownDone => Sys2Proof.Machine.execShootdownDone s
  | .dumprelWrite v => Sys2Proof.Machine.execDumprelWrite v s
  | .grsplitWrite die v => Sys2Proof.Machine.execGrsplitWrite die v s
  | .pkgnumWrite v => Sys2Proof.Machine.execPkgnumWrite v s
  | .podcfgWrite v => Sys2Proof.Machine.execPodcfgWrite v s
  | .budgetRegisterWrite die cls v => Sys2Proof.Machine.execBudgetRegisterWrite die cls v s
  | .registrationWrite i1 r => Sys2Proof.Machine.execRegistrationWrite i1 r s
  | .revocationDone i1 => Sys2Proof.Machine.execRevocationDone i1 s
  | .trstateWrite cluster v => Sys2Proof.Machine.execTrstateWrite cluster v s
  | .trdbaseWrite cluster v => Sys2Proof.Machine.execTrdbaseWrite cluster v s
  | .trdtailWrite cluster v => Sys2Proof.Machine.execTrdtailWrite cluster v s
  | .traceDrainLine cluster => Sys2Proof.Machine.execTraceDrainLine cluster s
  | .triggerStart die k => Sys2Proof.Machine.execTriggerStart die k s
  | .triggerFreeze die k => Sys2Proof.Machine.execTriggerFreeze die k s
  | .throttleOn => Sys2Proof.Machine.execThrottleOn s
  | .throttleClear => Sys2Proof.Machine.execThrottleClear s
  | .clusterForcedGate cluster => Sys2Proof.Machine.execClusterForcedGate cluster s
  | .clusterGate cluster => Sys2Proof.Machine.execClusterGate cluster s
  | .clusterUngateDone cluster => Sys2Proof.Machine.execClusterUngateDone cluster s
  | .fatalError cause => Sys2Proof.Machine.execFatalError cause s
  | .boundaryRetrain b => Sys2Proof.Machine.execBoundaryRetrain b s
  | .dawn => Sys2Proof.Machine.execDawn s
  | .morning => Sys2Proof.Machine.execMorning s
  | .noon => Sys2Proof.Machine.execNoon s
  | .illegalInstructionWord w => Sys2Proof.Machine.execIllegalInstructionWord w s
  | .queuedInstructionCompletion h => Sys2Proof.Machine.execQueuedInstructionCompletion h s
  | .instructionFetchReturn h => Sys2Proof.Machine.execInstructionFetchReturn h s
  | .systemCoreAnswer h v => Sys2Proof.Machine.execSystemCoreAnswer h v s
  | .systemCoreWrite pa bytes => Sys2Proof.Machine.execSystemCoreWrite pa bytes s
  | .pageAllocation pa size il lsbase lsk => Sys2Proof.Machine.execPageAllocation pa size il lsbase lsk s
  | .debuggerAttach h => Sys2Proof.Machine.execDebuggerAttach h s
  | .debuggerDetach h => Sys2Proof.Machine.execDebuggerDetach h s
  | .clusterUngate cluster => Sys2Proof.Machine.execClusterUngate cluster s

end Sys2Proof.Machine
end

