-- ==== Sys2Proof/Machine/Overtake.lean ====
section
/-! DEFINITION. Reads that return a later write of their sheaf (R169), and what R284 forbids of them: which register contents a queued instruction
takes part in, how far the result of a load reaches through registers, and a stretch of a queue that completes with such reads. -/

namespace Sys2Proof.Machine

/-! ### The register contents that queued instructions read and write -/

/-- Ranges of register contents, each from its first place to below its end: bytes of vector registers, and behind them bits of mask registers, then
one place for each scale register, tile, tensor map and mask program. -/
abbrev Spans := List (Nat × Nat)

/-- The first `len` bytes of the group at vn. -/
def groupSpan (vb n len : Nat) : Spans :=
  (List.range (ceilDiv len vb)).map (fun r => ((n + r) * 131072, (n + r) * 131072 + min vb (len - r * vb)))

/-- The first `len` bits of mn; m0 holds nothing (R32). -/
def maskSpan (n len : Nat) : Spans := if n = 0 then [] else [(2 ^ 23 + n * 2 ^ 21, 2 ^ 23 + n * 2 ^ 21 + len)]

/-- A register that is taken as one place. -/
def placeSpan (n : Nat) : Spans := [(2 ^ 25 + n, 2 ^ 25 + n + 1)]
def scaleSpan (n : Nat) : Spans := placeSpan n
def tileSpan (n : Nat) : Spans := placeSpan (8 + n)
def mapSpan (n : Nat) : Spans := placeSpan (16 + n)
def programSpan (n : Nat) : Spans := placeSpan (32 + n)
/-- SRSEED, from which an instruction that rounds stochastically takes a draw for each rounding (R60). -/
def seedSpan : Spans := placeSpan 64

/-- Two ranges share a place. -/
def Spans.meets (a b : Spans) : Bool := a.any (fun x => b.any (fun y => decide (x.1 < y.2) && decide (y.1 < x.2)))

/-- What is left of ranges without a range. -/
def Spans.without (a : Spans) (y : Nat × Nat) : Spans :=
  (a.flatMap (fun x => [(x.1, min x.2 y.1), (max x.1 y.2, x.2)])).filter (fun x => decide (x.1 < x.2))

/-- Elements 0 to VL − 1 of width `w` of the group at vn. -/
def QEntry.elems (e : QEntry) (n w : Nat) : Spans := groupSpan e.vb n (ceilDiv (e.vl * w) 8)

/-- All of the group at vn. -/
def QEntry.whole (e : QEntry) (n : Nat) : Spans := groupSpan e.vb n (e.lmul * e.vb)

/-- The B operand of an instruction. -/
def QEntry.operand (e : QEntry) : VSrc → Spans
  | .vec n => e.elems n e.sew
  | _ => []

/-- Element widths of the source and of the result of a conversion (R181 to R187). -/
def QEntry.widths (e : QEntry) (f : CvtFn) (t : Nat) : Nat × Nat :=
  let float : Nat := match floatCode t with | some g => g.w | none => 8
  let small : Nat := match narrowCode t with | some (.inl g) => g.w | some (.inr k) => k.1 | none => 8
  match f with
  | .ff => (float, e.sew) | .fi => (float, e.sew) | .ds8e => (float, e.sew)
  | .int => (8 * 2 ^ (t / 2), e.sew)
  | .narrow => (4 * 2 ^ t, e.sew) | .widen => (4 * 2 ^ t, e.sew)
  | .deq => (small, e.sew) | .quant => (e.sew, small)
  | .qmv => (8, 8) | .qrd => (8, 8) | .ds8d => (8, e.sew)

/-- What an instruction does with registers: what it reads of them, what it may write, and whether it then has written all of that. -/
structure Uses where
  reads  : Spans
  writes : Spans
  fully  : Bool
  deriving DecidableEq, Repr

/-- The registers behind the addresses of an access. -/
def QEntry.addresses (e : QEntry) : MemForm → Spans
  | .idx vb ow => e.elems vb ow
  | .tens k => mapSpan k
  | _ => []

/-- The data groups of an access. -/
def QEntry.dataOf (e : QEntry) (f : MemForm) (d : Nat) : Spans := (List.range f.nf).flatMap (fun k => e.elems (d + k * e.lmul) e.sew)

/-- What a queued instruction does with registers, SRSEED apart (R155 to R232). -/
def QEntry.uses (e : QEntry) : Uses :=
  let mk (m : Nat) : Spans := maskSpan m e.vl
  let at_ (n : Nat) : Spans := e.elems n e.sew
  match e.op with
  | .int f d a b m => ⟨at_ a ++ e.operand b ++ mk m ++ (if f = .macc then at_ d else []), at_ d, decide (m = 0) || decide (f = .merge)⟩
  | .fp f d a b m => ⟨at_ a ++ e.operand b ++ mk m ++ (if f = .macc ∨ f = .nmacc then at_ d else []), at_ d, decide (m = 0)⟩
  | .cvt f d a m _ t =>
    let w := e.widths f t
    match f with
    | .qmv => ⟨e.elems a w.1 ++ mk m, scaleSpan d, false⟩
    | .qrd => ⟨scaleSpan a ++ mk m, e.elems d w.2, decide (m = 0)⟩
    | .deq => ⟨e.elems a w.1 ++ scaleSpan (a % 8) ++ mk m, e.elems d w.2, decide (m = 0)⟩
    | .quant => ⟨e.elems a w.1 ++ scaleSpan (d % 8) ++ mk m, e.elems d w.2, decide (m = 0)⟩
    | _ => ⟨e.elems a w.1 ++ mk m, e.elems d w.2, decide (m = 0)⟩
  | .red _ d a b m _ => ⟨at_ a ++ groupSpan e.vb b (ceilDiv e.sew 8) ++ mk m, groupSpan e.vb d (ceilDiv e.sew 8), decide (8 ≤ e.sew) && decide (1 ≤ e.vl)⟩
  | .perm f d a b _ m =>
    match f with
    | .mvxs => ⟨e.whole a, [], true⟩
    | .mvsx => ⟨mk m, at_ d, decide (m = 0)⟩
    | .gather => ⟨e.whole a ++ at_ b ++ mk m, at_ d, decide (m = 0)⟩
    | .slup => ⟨e.whole a ++ mk m, at_ d, false⟩
    | .compress => ⟨at_ a ++ mk m, at_ d, false⟩
    | _ => ⟨e.whole a ++ mk m, at_ d, decide (m = 0)⟩
  | .cmp _ d a b m => ⟨at_ a ++ e.operand b ++ mk m, mk d, decide (m = 0)⟩
  | .mlogic _ d a b => ⟨mk a ++ mk b, mk d, true⟩
  | .confl d a m => ⟨at_ a ++ mk m, mk d, decide (m = 0)⟩
  | .vidx d _ _ => ⟨[], at_ d, true⟩
  | .load f d _ m => ⟨e.addresses f ++ mk m, e.dataOf f d, decide (m = 0)⟩
  | .store f d _ m => ⟨e.dataOf f d ++ e.addresses f ++ mk m, [], true⟩
  | .qld d _ => ⟨[], scaleSpan d, false⟩
  | .vxcl st d b m => if st then ⟨at_ d ++ at_ b ++ mk m, [], true⟩ else ⟨at_ b ++ mk m, at_ d, decide (m = 0)⟩
  | .tamw k _ => ⟨[], mapSpan k, true⟩
  | .mskld k _ => ⟨[], programSpan k, true⟩
  | .mop _ d a b m r f =>
    let na := if 0xE ≤ f then 2 * (r + 1) else r + 1
    let nb := if 0xD ≤ f then 2 else 1
    let ts := (List.range (r + 1)).flatMap (fun k => tileSpan (d + k))
    ⟨groupSpan e.vb a (na * e.vb) ++ groupSpan e.vb b (nb * e.vb) ++ maskSpan m (2 ^ 21)
      ++ (List.range (r + 1)).flatMap (fun k => scaleSpan (mopA f a k % 8)) ++ scaleSpan (b % 8) ++ ts, ts, false⟩
  | .zzero d => ⟨[], tileSpan d, true⟩
  | .zrd t g _ m _ _ _ => ⟨tileSpan t ++ mk m, at_ g, decide (m = 0)⟩
  | .zwr t g _ m _ _ => ⟨at_ g ++ mk m, tileSpan t, false⟩
  | .zpatch t g _ m _ _ _ => ⟨at_ g ++ mk m ++ tileSpan t, tileSpan t, false⟩
  | .zscale t g m => ⟨at_ g ++ mk m ++ tileSpan t, tileSpan t, false⟩
  | .zmask t _ k _ => ⟨programSpan k ++ tileSpan t, tileSpan t, false⟩
  | .mskgen d _ k => ⟨programSpan k, mk d, true⟩
  | .strip | .popc .. | .first .. | .redst .. | .zcfg .. | .zenable | .zdisable | .mskcls .. | .mskcnt .. | .trmark .. => ⟨[], [], true⟩

/-- The mask under which an instruction rounds with FRM: under SR it takes a draw for each active element (R57, R60). -/
def VOp.roundsUnder : VOp → Option Nat
  | .fp f _ _ _ m => match f with
    | .add | .sub | .mul | .div | .sqrt | .macc | .nmacc | .exp2 => some m
    | .min | .max | .sgnj | .sgnjn | .sgnjx | .class_ | .mv => none
  | .cvt f _ _ m _ _ => match f with
    | .ff | .int | .fi | .deq | .quant => some m
    | .narrow | .widen | .qmv | .qrd | .ds8e | .ds8d => none
  | .red f _ _ _ m _ => match f with
    | .fsumo | .fsumt => some m
    | _ => none
  | .zrd _ _ _ m _ c _ => if c = 1 then some m else none
  | _ => none

/-- An instruction that takes draws from SRSEED: the mask that says how many (R60). -/
def QEntry.draws (e : QEntry) : Option Nat := if e.frm = 4 then e.op.roundsUnder else none

/-- The register contents that depend on those of `l`, once an instruction has completed (R284); SRSEED after draws depends on itself and on the mask,
which says how many they are (R60).  R284 does not say how finely a dependence is taken: here everything else that an instruction writes depends on
everything that it reads (logged as assumption 105). -/
def QEntry.spread (e : QEntry) (l : Spans) : Spans :=
  let u := e.uses
  let t :=
    if (match e.draws with | some _ => u.reads ++ seedSpan | none => u.reads).meets l then l ++ u.writes
    else if u.fully then u.writes.foldl Spans.without l else l
  match e.draws with
  | some m => if (maskSpan m e.vl).meets l then t ++ seedSpan else t
  | none => t

/-- The registers that hold the data of a store; none of another instruction. -/
def QEntry.stored (e : QEntry) : Option Spans :=
  match e.op with
  | .store f d _ _ => some (e.dataOf f d)
  | .vxcl true d _ _ => some (e.elems d e.sew)
  | _ => none

/-- In a queue, entry `n` is a store of the sheaf of entry `m`, an earlier one, and its data does not depend through registers on what that has
loaded (R284). -/
def freeOf (q : List QEntry) (m n : Nat) : Bool :=
  match q[m]?, q[n]? with
  | some l, some e =>
    decide (m < n) && decide (l.young = e.young) && (match e.stored with
      | some ds => !ds.meets (((q.take n).drop (m + 1)).foldl (fun t k => k.spread t) l.uses.writes)
      | none => false)
  | _, _ => false

/-! ### A stretch of a queue (R169) -/

/-- Changes the write records of one of a hart's sheaves. -/
def State.updWrites (s : State) (h i : Nat) (f : FMap (List WRec) → FMap (List WRec)) : State :=
  s.updHart h (fun x => { x with sheaves := x.sheaves.modify i (fun sh => { sh with writes := f sh.writes }) })

/-- The head of a queue completes now: what it reads sets off, and is not waited for (logged as assumption 23). -/
def State.runNow (s : State) (h : Nat) : State :=
  let t := s.runHead h
  match (t.hart h).map (·.queue) with
  | some (e :: r) =>
    if e.out.isSome ∧ (s.hart h).map (·.queue.length) = some (r.length + 1) then
      (t.updHart h (fun x => { x with queue := { e with out := some [] } :: r })).runHead h
    else t
  | _ => t

/-- The writes that a queue's instruction at place `n` has left in its sheaf. -/
def State.wrote (s : State) (h : Nat) (e : QEntry) : List (Nat × WRec) :=
  match (s.hart h).bind (·.sheaves[if e.young then 1 else 0]?) with
  | none => []
  | some sh => sh.writes.flatMap (fun p => (p.2.filter (fun w => decide (w.seq = e.seq))).map (fun w => (p.1, w)))

/-- The first `k` entries of a queue complete, one after the other, and no two in one ck: `ck` lets one pass.  `early` gives for each the writes of later
ones that it sees.  None where one of them does not complete. -/
def State.stretch (ck : State → State) (h : Nat) (early : Nat → List (Nat × WRec)) : Nat → Nat → State → Option State
  | 0, _, s => some s
  | k + 1, m, s =>
    let s := if (s.hart h).any (fun x => decide (x.issueAt = s.now + 1)) then ck s else s
    match s.hart h with
    | none => none
    | some x => match x.queue with
      | [] => none
      | e :: r =>
        let i := if e.young then 1 else 0
        let ws := early m
        let t := (s.updWrites h i (fun f => ws.foldl (fun f p => fset [] f p.1 (insertRec p.2 (fget [] f p.1))) f)).runNow h
        let t := t.updWrites h i (fun f => ws.foldl (fun f p => fset [] f p.1 ((fget [] f p.1).filter (fun w => decide (w.seq ≠ p.2.seq)))) f)
        if (t.hart h).map (·.queue.length) = some r.length then State.stretch ck h early k (m + 1) t else none

/-- A stretch of a queue completes so that for each pair in `seen` the load at its first place sees what the store at its second writes: the writes that
are seen are found by trying, and are those that the stores then make. -/
def State.settleEarly (ck : State → State) (h : Nat) (seen : List (Nat × Nat)) (q : List QEntry) (k : Nat) : Nat → List (Nat × Nat × WRec) → State → State
  | 0, _, s => s
  | n + 1, ws, s =>
    match s.stretch ck h (fun m => (ws.filter (fun w => seen.contains (m, w.1))).map Prod.snd) k 0 with
    | none => s
    | some t =>
      let made := ((List.range k).zip q).flatMap (fun p => if seen.any (fun y => decide (y.2 = p.1)) then (t.wrote h p.2).map (p.1, ·) else [])
      if made = ws then t else State.settleEarly ck h seen q k n made s

/-- Loads of a queue see stores that stand behind them in it (R169), where R284 allows that. -/
def State.storeEarly (ck : State → State) (s : State) (h : Nat) (seen : List (Nat × Nat)) : State :=
  match s.hart h with
  | none => s
  | some x =>
    if seen.all (fun p => freeOf x.queue p.1 p.2) then
      let k := seen.foldl (fun k p => max k (p.2 + 1)) 0
      State.settleEarly ck h seen (x.queue.take k) k (seen.length + 2) [] s
    else s

end Sys2Proof.Machine
end

