-- ==== Sys2Proof/Machine/Run.lean ====
section
/-! DEFINITION. What happens next where the schedule does not say: fetching (R71, R72), the advice sequencer (R288), bring-up (R395), and how
a hart goes on (R22, R26, R401). -/

namespace Sys2Proof.Machine

/-! ### Fetching (R71, R72) -/

/-- What the fetch of a word gives: the word, a trap of kind 3 with its cause, or a wait for the word at a physical address (R401). -/
inductive Fetched where
  | word (w : W32)
  | trap (cause : Nat)
  | miss (pa : Nat)
  deriving DecidableEq, Repr

/-- The word at the PC in the instruction buffer (R363). -/
def Hart.buffered (x : Hart) : Option W32 :=
  match x.ibuf with
  | some (b, ws) => if x.arch.pc.toNat / 4096 = b then ffind ws x.arch.pc.toNat else none
  | none => none

/-- Execution that has left the block of the instruction buffer drops it (R363). -/
def State.leaveBlock (s : State) (h : Nat) : State :=
  match s.hart h with
  | none => s
  | some x => match x.ibuf with
    | none => s
    | some (b, _) => if x.arch.pc.toNat / 4096 = b then s else s.setHart h { x with ibuf := none }

/-- Fetches the word at the PC of a hart: from its instruction buffer, as its cluster's instruction cache still holds it, or from committed
memory, which takes a request where timing is kept (R339). -/
def State.fetch (s : State) (x : Hart) : Fetched :=
  let a := x.arch
  if bits a.pc.toNat 63 58 ≠ 0 then .trap 0x03
  else match x.buffered with
    | some w => .word w
    | none => match homeOf s a.grant (a.rcsr cPTROOT) a.pc.toNat kFetch (!a.sup) with
      | none => .trap 0x03
      | some p => match ffind s.ms.code (codeKey a.grant.base p) with
        | some w => .word w
        | none =>
          if poisoned s p then .trap 0x10
          else if s.ms.timed then .miss p
          else .word (BitVec.ofNat 32 (memNat s p 4))

/-- A fetch traps once the sheaf of the word can open (R26, R71). -/
def State.fetchTrap (s : State) (h : Nat) (x : Hart) (cause : Nat) : State :=
  match x.ready s.now with
  | none => s.stall h [] false
  | some y => s.raiseAt h y cause 3 y.arch.pc

/-- The request for a word sets off, and the scalar side waits (R339, R401). -/
def State.fetchMiss (s : State) (h : Nat) (x : Hart) (pa : Nat) : State :=
  (s.setHart h { x with wait := .fetch pa, blocked := true, onLoad := [] }).demands h x.arch.grant.base false .fetch [pa / 64]

/-! ### Moves of the schedule -/

/-- An instruction cache drops a word. -/
def State.codeDrop (s : State) (cluster pa : Nat) : State :=
  { s with ms := { s.ms with code := fdel s.ms.code (codeKey cluster pa) } }

/-- A TLB takes the leaf that the tables hold for an address: it holds 2,048 entries, and one for each page (R316). -/
def State.tlbFill (s : State) (cluster : Nat) (root va : W64) : State :=
  let a := va.toNat % 2 ^ 58
  let mine := s.ms.tlbs.filter (fun t => decide (t.cluster = cluster))
  if 2048 ≤ mine.length || mine.any (fun t => decide (t.ptroot = root) && decide (t.vbase ≤ a) && decide (a < t.vbase + t.size)) then s
  else match leafFor s cluster root a with
    | some (e, size) =>
      { s with ms := { s.ms with tlbs := s.ms.tlbs ++
        [{ cluster := cluster, ptroot := root, vbase := a / size * size, size := size, leaf := BitVec.ofNat 64 e }] } }
    | none => s

/-- A TLB entry of a cluster is evicted. -/
def State.tlbDrop (s : State) (cluster n : Nat) : State :=
  match s.ms.tlbs[n]? with
  | some t => if t.cluster = cluster then { s with ms := { s.ms with tlbs := s.ms.tlbs.eraseIdx n } } else s
  | none => s

/-- A hart's queued work, commits and load data wait for events, or no longer. -/
def State.setAhead (s : State) (h : Nat) (on : Bool) : State := s.updHart h (fun x => { x with ahead := on })

/-! ### Beside the scalar sides (R288, R305, R341, R363) -/

/-- The word that a hart's sequencer executes in this ck, where the kept line holds it: it acts in RUN only, and for no parked hart. -/
def State.adviceWord (s : State) (h : Nat) : Option W32 :=
  match s.hart h with
  | none => none
  | some x =>
    if x.parked then none
    else match x.adv with
      | some a => if a.runFrom ≤ s.now then a.word else none
      | none => none

/-- What a hart's sequencer does next: the line that holds its next word is fetched where it is not kept, and the word executes in this ck if it
may. -/
def State.adviceNext (s : State) (h : Nat) : State × Option W32 :=
  match s.hart h with
  | none => (s, none)
  | some x =>
    if x.parked || x.adv.any (fun a => a.word.isSome) then (s, s.adviceWord h)
    else
      let t := s.adviceFetch h
      (t, t.adviceWord h)

/-- An outcome after which the scalar side of hart `c` runs next. -/
def backTo (c : Nat) : Host.Outcome State Fault Refusal → Host.Outcome State Fault Refusal
  | .next t => .next { t with cur := c }
  | .fault f => .fault f
  | .refused r => .refused r

/-- A word that is no advice instruction (R288). -/
def State.adviceBad (s : State) (h : Nat) : State := s.updHart h Hart.advIdle

/-- A ck of what goes on beside the scalar sides: the memory system, and the sequencers, whose words `run` executes. -/
def State.besideCk (run : Nat → W32 → State → State) (s : State) : State :=
  let t := s.memCk
  t.harts.foldl (fun s e => State.adviceCk run e.1 s) t

/-- The ck that have passed since, one after the other. -/
def State.besides (run : Nat → W32 → State → State) : Nat → State → State
  | 0, s => s
  | n + 1, s =>
    let t := s.atCk s.ms.upTo (State.besideCk run)
    State.besides run n { t with ms := { t.ms with upTo := s.ms.upTo + 1 } }

/-- Nothing goes on beside the scalar sides. -/
def State.quiet (s : State) : Bool := s.mg.stopped || (!s.memBusy && !s.harts.any (fun e => e.2.advBusy))

/-- Before a step: the trace records of past ck are written (R370), and what goes on beside the scalar sides has come to this ck, whose data is
there. -/
def State.begin (run : Nat → W32 → State → State) (s : State) : State :=
  let s := if s.due.isEmpty then s else s.writePast
  if s.quiet then s else (State.besides run (s.now - s.ms.upTo) s).deliverDue

/-- `n` ck pass: one after the other where something goes on in them (R302, R305). -/
def State.pass (run : Nat → W32 → State → State) : Nat → State → State
  | 0, s => s
  | n + 1, s => if s.quiet then s.tick (n + 1) else State.pass run n ((s.tick 1).begin run)

/-! ### How a hart goes on -/

/-- The instructions of a hart that are placed, its commits, traps and stops go on in this ck: always for a prompt hart, and for an ahead one where its
scalar side does not. -/
def Hart.worksOn (x : Hart) : Bool := !x.ahead || x.blocked || decide (x.wait ≠ .none)

/-- It has such work, or a load on its way whose data comes where no timing is kept (R129). -/
def Hart.hasWork (x : Hart) (timed : Bool) : Bool :=
  x.worksOn && (!x.queue.isEmpty || x.commitReady || x.parkReady || x.landReady.isSome || (x.ahead && !timed && !x.pend.isEmpty)
    || (match x.cur with | some sh => sh.trap.isSome || sh.want.isSome | none => false))

/-- That work, in the ck in which the scalar side may go on too: its next queued instruction issues, and what that leads to takes place.  Load data comes
by itself where timing is kept (R363). -/
def State.work (s : State) (h : Nat) : State :=
  let t := if s.ms.timed then s else s.updHart h (fun x => if x.ahead then x.arrived x.pend.dropLast else x)
  (t.completeHead h).conclude h

/-- What a hart's work has led to takes this ck from its scalar side: a landing, a stop, a squash, or a trap or stop to come. -/
def Hart.diverted (x y : Hart) : Bool :=
  decide (y.arch.pc ≠ x.arch.pc) || decide (y.preempt ≠ x.preempt) || decide (y.landing ≠ x.landing) || decide (y.held ≠ x.held) || y.parked || y.gone
  || (match y.cur with | some sh => sh.trap.isSome || sh.want.isSome | none => false)

/-- Nothing happens in this ck but time. -/
def State.idle (s : State) : State := (s.tick 1).rotate

/-- Engines that hold a bound context of some hart. -/
def State.enginesUsed (s : State) : List Nat := s.harts.flatMap (fun e => e.2.chans.filterMap (fun c => c.ctx.map Prod.fst))

/-- A channel that can be bound. -/
def State.bindable (s : State) : Option (Nat × Nat) :=
  s.harts.findSome? (fun e => ((List.range e.2.chans.length).zip e.2.chans).findSome? (fun c =>
    if c.2.ctx.isNone && !c.2.waiting.isEmpty then some (e.1, c.1) else none))

/-- Started commands that have an element to apply or send, or a packet to hand over. -/
def State.movable (s : State) : List (Nat × Nat × Nat) :=
  s.harts.flatMap (fun e => ((List.range e.2.chans.length).zip e.2.chans).flatMap (fun c =>
    (c.2.running.filter (fun r => if r.cmd.fn = .launch then decide (r.sent = 0)
      else !r.cmd.remote || r.wdue.isSome || decide (r.sent < max 1 r.cmd.count))).map
      (fun r => (e.1, c.1, r.cmd.id))))

/-- The one of them whose turn it is in this ck. -/
def State.runnable (s : State) : Option (Nat × Nat × Nat) := s.movable[s.now % max 1 s.movable.length]?

/-- An element on the loopback path arrives (R382). -/
def State.loopArrival (s : State) (f : EngFn) (e : Sys2Proof.RemoteElem) : Host.Outcome State Fault Refusal :=
  match f with
  | .get => execRemoteGetArrival e s
  | .rcopy => execRemoteRcopyArrival e s
  | .sig => execRemoteSigArrival e s
  | _ => execRemotePutArrival e s

/-- The first element on the loopback path that its destination takes now arrives: one that waits there keeps back no other (R382). -/
def State.loopStep (s : State) : Option (Host.Outcome State Fault Refusal) :=
  s.fab.loop.findSome? (fun q => match s.loopArrival q.1 q.2 with
    | .next t => if t.fab.loop.length < s.fab.loop.length then some (.next t) else none
    | _ => none)

/-- An element is applied or sent. -/
def State.applyStep (s : State) : Option (Host.Outcome State Fault Refusal) :=
  s.runnable.map (fun r => execEngineElementApply r.1 r.2.1 r.2.2 s)

/-- The engines do something, where they can: bind a channel, start a command, take what the loopback path brings back, or apply an element here or
at its end (R233, R241, R243, R382). -/
def State.engineStep (s : State) : Host.Outcome State Fault Refusal :=
  match s.bindable with
  | some (h, ch) => execChannelBind h ch s
  | none => match s.enginesUsed.find? (fun e => (nextStart s e).isSome) with
    | some e => execEngineCommandStart e s
    | none => match s.fab.acks.findSome? s.ackTaken with
      | some t => .next t
      | none => ((if s.now % 2 = 0 then s.loopStep <|> s.applyStep else s.applyStep <|> s.loopStep)).getD (.next s)

/-- The engines have something to do. -/
def State.engineBusy (s : State) : Bool :=
  s.bindable.isSome || s.enginesUsed.any (fun e => (nextStart s e).isSome) || !s.fab.acks.isEmpty || !s.fab.loop.isEmpty || s.runnable.isSome

/-- The state after that. -/
def State.engineNext (s : State) : State := match s.engineStep with | .next t => t | _ => s

/-- A ck of the engines while a scalar side waits. -/
def State.engineTick (s : State) : State := s.engineNext.idle

/-- A SYS.REFSYNC whose tick has fallen is complete in the tick's own ck (R356, R363). -/
def Hart.synced (x : Hart) : Hart :=
  let y := match x.cur with | some sh => x.setCur { sh with seq := sh.seq + 1 } | none => x
  { y with wait := .none, arch := x.arch.next, blocked := false }

/-- A hart whose scalar side waits. -/
def State.waiting (s : State) (h : Nat) (x : Hart) : State :=
  let done (t : State) : State := match t.hart h with
    | some y => if y.wait = x.wait then s.engineTick else t
    | none => t
  match x.wait with
  | .none => s
  | .table _ => s.idle
  | .tlwait .. => done (s.resumeTl h) |>.updHart h (fun y => if y.wait = x.wait then y.startDead s.now else y)
  | .icwait .. => done (s.resumeTl h)
  | .gbar .. => done (s.arrive h)
  | .wfi t => if t ≤ s.now ∨ x.preempt ≠ 0 then s.setHart h x.wake else s.engineTick
  | .qdrain _ => done (s.finishDrain h)
  | .refsync _ _ => s.idle
  | .synced => s.setHart h (x.synced)
  | .fetch _ => s.idle
  | .split _ => done (s.splitTrap h)
  | .answer false => done (s.askCores h)
  | .answer true => s.engineTick
  | .zaction _ => done (s.zact h)

/-- What a step does where the schedule is empty: it is done, or the scalar side executes a word. -/
inductive Turn where
  | done (s : State)
  | event (o : Host.Outcome State Fault Refusal)
  | word (s : State) (w : W32)

/-- The scalar side of a hart goes on: it fetches a word to execute. -/
def State.scalarTurn (s : State) (h : Nat) : Turn :=
  let t := s.leaveBlock h
  match t.hart h with
  | none => .done t.idle
  | some x => match t.fetch x with
    | .trap c => .done (t.fetchTrap h x c)
    | .word w => .word t w
    | .miss p => .done ((t.fetchMiss h x p).idle)

/-- The turn of a hart whose work of this ck, which hart `x` before it had, has been done. -/
def State.turnAfter (s : State) (h : Nat) (x : Hart) : Turn :=
  match s.hart h with
  | none => .done s.idle
  | some y =>
    if x.diverted y then .done s.idle
    else if y.wait ≠ .none then .done (s.waiting h y)
    else if y.blocked && s.engineBusy then s.engineNext.scalarTurn h
    else s.scalarTurn h

/-- The turn of a hart: one ck, in which its queued work and its scalar side both go on (R22, R363). -/
def State.hartTurn (s : State) (h : Nat) (x : Hart) : Turn :=
  if x.parked then .done s.engineTick
  else if x.preempt = 2 ∧ x.landing.isNone ∧ x.held.isNone then .event (execPreemptionLanding h s)
  else if x.dead s.now ∧ x.held.isNone ∧ x.breaksLimit ∧ x.preempt = 0 ∧ (x.openSheaf.isSome ∨ x.sheaves.isEmpty) then .event (execQdeadTimeout h s)
  else if x.splitDue s.now then .event (execPreemptSplitTimeout h s)
  else if x.hasWork s.ms.timed then (s.work h).turnAfter h x
  else if x.wait ≠ .none then .done (s.waiting h x)
  else if x.blocked && s.engineBusy then s.engineNext.scalarTurn h
  else s.scalarTurn h

/-- A hart that has ended, of which an error is to be reported or whose commands have all completed (R138, R312). -/
def State.leaving (s : State) : Option Nat :=
  (s.harts.find? (fun e => e.2.gone && (e.2.chans.any (fun c => c.err.isSome) || !e.2.commands))).map Prod.fst

/-- What happens next where the schedule is empty: nothing once the package is stopped (R324); bring-up (R395); a hart that has ended leaves (R138); a free solo token
goes to the first request (R276); a characterisation launch takes its quarter (R362); the dispatchers take and place what waits (R328 to R333);
else the hart whose turn it is goes on. -/
def State.turn (s : State) : Turn :=
  if s.mg.stopped || s.mg.pkg.fail then .done (s.tick 1)
  else if !s.mg.pkg.ready then
    .event (match s.mg.pkg.phase with | 0 => execDawn s | 1 => execMorning s | _ => execNoon s)
  else match s.leaving with
    | some h => .event (execHartEnd h s)
    | none =>
      if s.arb.token.isNone && !s.arb.tokenQ.isEmpty then .event (execSoloTokenGrant s)
      else match s.placeCharac with
        | some ps => .event (execGangPlace 0 8 ps s)
        | none => match s.dispatchNext with
          | some o => .event o
          | none => match s.hart s.cur with
            | none => .done s.engineTick
            | some x => if x.gone then .done s.engineTick else s.hartTurn s.cur x

/-- An event of the schedule that a stopped package still takes: messages and host accesses, which answer for themselves, and the reset
that brings it up again (R324, R396). -/
def afterFatal : Sys2Proof.Instr → Bool
  | .mread _ _ _ | .mwrite _ _ _ | .imgload _ _ | .launch _ _ _ | .characterisationLaunch _ _ _
  | .rdmaWrite _ _ _ | .rdmaWriteImm _ _ _ _ | .rdmaRead _ _ _ | .rdmaUnsupported _ | .dawn => true
  | _ => false

/-! ### A word placed for the next step -/

/-- The pages that `withFetchWord` gives a hart: tables in granary at 0x8_0000_0000_0000, and three pages of 64 KiB behind them. -/
def demoRoot : Nat := 0x8_0000_0000_0000

/-- A leaf of R315 for a 64 KiB page: V, LEAF, R, W, X and U. -/
def demoLeaf (pa : Nat) (user : Bool) : Nat := pa + 1 + 2 + 4 + 8 + 16 + (if user then 32 else 0)

/-- The tables: one entry on each of levels 0 to 2, and leaves for the pages at virtual 0x1_0000 (user), 0x2_0000 and 0x3_0000. -/
def demoTables (s : State) : State :=
  let put (s : State) (a v : Nat) : State := s.store a (leBytes 8 v)
  let r := demoRoot
  let s := put s r (r + 0x2_0000 + 1)
  let s := put s (r + 0x2_0000) (r + 0x4_0000 + 1)
  let s := put s (r + 0x4_0000) (r + 0x5_0000 + 1)
  let s := put s (r + 0x5_0000 + 8) (demoLeaf (r + 0x10_0000) true)
  let s := put s (r + 0x5_0000 + 16) (demoLeaf (r + 0x11_0000) false)
  put s (r + 0x5_0000 + 24) (demoLeaf (r + 0x12_0000) false)

/-- The packet of that hart: ENTRY 0x1_0000, one hart, unchecked addresses, the mask unit and the tiles, VLEN 8,192. -/
def demoPacket : Packet :=
  { die := 0, queue := 8
    bytes := leBytes 8 0x1_0000 ++ leBytes 8 0 ++ leBytes 8 0 ++ leBytes 2 1 ++ leBytes 2 0x0E ++ leBytes 4 8192
      ++ List.replicate 48 0 ++ leBytes 8 0 ++ leBytes 8 demoRoot ++ List.replicate 32 0
    prio := 0, ptroot := BitVec.ofNat 64 demoRoot, eng := none, charac := none, since := 0, advice := none }

/-- A package after Noon with one hart on cluster 0 that has just been launched, and with no timing kept. -/
def State.withHart0 (s : State) : State :=
  let s := demoTables { s with
    ms := { s.ms with timed := false }
    mg := { s.mg with stopped := false, pkg := { s.mg.pkg with phase := 2, ready := true, fail := false } }
    disp := { s.disp with tvec := 0x2_0000, saveptr := 0x3_0000 } }
  let s := s.startGang demoPacket [{ cluster := 0, quarter := 0 }]
  { s with cur := s.nextHart - 1 }

/-- The state from which the next step fetches: with no schedule, and with a hart of its own where none would fetch. -/
def State.readyToFetch (s : State) : State :=
  let t := { s with agenda := [] }
  match t.turn with
  | .word .. => t
  | _ => t.withHart0

/-- Stores a word where hart `s.cur` fetches. -/
def State.placeWord (s : State) (w : W32) : State :=
  match s.hart s.cur with
  | none => s
  | some x =>
    match homeOf s x.arch.grant (x.arch.rcsr cPTROOT) x.arch.pc.toNat kFetch (!x.arch.sup) with
    | some p =>
      let t := ((s.codeDrop x.arch.grant.base p).store p (leBytes 4 w.toNat)).setHart s.cur { x with ibuf := none }
      if s.ms.timed then t.codeFill x.arch.grant.base p else t
    | none => s

end Sys2Proof.Machine
end

