-- ==== Sys2Proof/Machine/Step.lean ====
section
/-! DEFINITION. One step of the machine: the next move of the schedule, or where it is empty what comes next by itself. -/

namespace Sys2Proof.Machine

noncomputable section

/-- The sequencer of a hart executes a word (R288). -/
def runAdvice (h : Nat) (w : W32) (s : State) : State :=
  match decodeAdvice w with
  | .ok i => nextOr s (backTo s.cur (exec i { s with cur := h }))
  | .error _ => s.adviceBad h

/-- A move of the schedule (logged as assumption 1). -/
def runMove (m : Move) (s : State) : Host.Outcome State Fault Refusal :=
  match m with
  | .event i => if s.mg.stopped && !afterFatal i then .next s else exec i s
  | .advance n => .next (s.pass runAdvice n)
  | .select h => .next (if (s.hart h).any (fun x => !x.gone) then { s with cur := h } else s)
  | .advice h =>
    if s.mg.stopped then .next s
    else match s.adviceNext h with
      | (t, none) => .next t
      | (t, some w) => .next (runAdvice h w t)
  | .runAhead h on => .next (s.setAhead h on)
  | .engineRead h ch id i => .next (if s.mg.stopped then s else s.engineRead h ch id i)
  | .tlbFill c root va => .next (s.tlbFill c root va)
  | .tlbDrop c n => .next (s.tlbDrop c n)
  | .codeFill c pa => .next (s.codeFill c pa)
  | .codeDrop c pa => .next (s.codeDrop c pa)
  | .timed on => .next (s.setTimed on)
  | .storeEarly h seen => .next (if s.mg.stopped then s else s.storeEarly (State.pass runAdvice 1) h seen)
  | .power w => .next (s.senseWatts w)
  | .heat c t => .next (s.senseHeat c t)

/-- What a hart does with a fetched word (R71, R96): the instruction it decodes to, or the trap of a word that is none. -/
def execWord (w : W32) (s : State) : Host.Outcome State Fault Refusal :=
  match decode w with
  | .ok i => exec i s
  | .error _ => exec (.illegalInstructionWord w) s

/-- One step, from a state in which what goes on beside the scalar sides has come to this ck. -/
def stepFrom (s : State) : Host.Outcome State Fault Refusal :=
  match s.agenda with
  | m :: ms => runMove m { s with agenda := ms }
  | [] => match s.turn with
    | .done t => .next t
    | .event o => o
    | .word t w => execWord w t

/-- One step. -/
def step (s : State) : Host.Outcome State Fault Refusal := stepFrom (s.begin runAdvice)

/-- The state with an instruction stored where the next step fetches. -/
def State.withFetchWord (s : State) (nbits w : Nat) : State :=
  s.readyToFetch.placeWord (BitVec.ofNat 32 (w % 2 ^ nbits))

end

end Sys2Proof.Machine
end

