-- ==== Sys2Proof/Safety.lean ====
section
/-! DEFINITION. The terms that statements are made in: a safe step, memory in canonical form, a hart that can execute an instruction,
and what an instruction leaves as it was. -/

namespace Sys2Proof.Machine

/-! ### Memory and steps -/

/-- The canonical form of memory: addresses strictly rising, and no entry equal to 0, which an unlisted byte reads as. -/
def Memory.wf (m : FMap Byte) : Bool := fwf 0 m

/-- The memory of a state is in canonical form. -/
def State.MemOk (s : State) : Prop := Memory.wf s.mem = true

/-- An outcome is a next state. -/
def runsOn (o : Host.Outcome State Fault Refusal) : Prop := ∃ t, o = .next t

/-- An outcome is no refusal. -/
def notRefused (o : Host.Outcome State Fault Refusal) : Prop := ∀ r, o ≠ .refused r

/-! ### The scalar side at an instruction -/

/-- The scalar side of the current hart can execute an instruction that reads or writes the registers `rs`: `y` is the hart with a
sheaf open for it (R26, R27), and none of the registers waits for load data or a BQ result (R24, R129). -/
def State.CanRun (s : State) (rs : List Nat) (y : Hart) : Prop :=
  ∃ x, s.hart s.cur = some x ∧ x.ready s.now = some y ∧ ∀ r ∈ rs, y.waitsOn r = false

/-- Of the memory system nothing changes but the requests and the data on their way, and without timing not even they (R339). -/
def State.SetsOff (s t : State) : Prop :=
  t.ms = { s.ms with flights := t.ms.flights, returns := t.ms.returns } ∧ (s.ms.timed = false → t.ms = s.ms)

/-- From `s` to `t` one ck has passed.  Nothing else of the package changes but the current hart, and the requests that set off: every
other hart only counts the ck.  (The count of free values taken is the model's own.) -/
def State.Alone (s t : State) : Prop :=
  t = { s with now := s.now + 1, harts := t.harts, free := t.free, ms := t.ms } ∧ s.SetsOff t ∧
  ∀ h, h ≠ s.cur → t.hart h = (s.hart h).map (Hart.tick 1)

/-- BQ once the registers `rs` have been read or written: the results for them are consumed (R24). -/
def Hart.bqAfter (y : Hart) (rs : List Nat) : List BqEntry := rs.foldl (fun q r => consume r q) y.bq

/-- From `y` to `z` the scalar side has executed one instruction that reads or writes the registers `rs`: the registers and CSRs are
`a`, the sheaf is `sh` with the instruction's place in it taken, the results it consumed have left BQ, and of the counters only those
of time have moved. -/
def Hart.Executed (y z : Hart) (rs : List Nat) (a : Arch) (sh : Sheaf) : Prop :=
  z = { y with arch := a, sheaves := y.sheaves.dropLast ++ [{ sh with seq := sh.seq + 1, asks := [] }], bq := y.bqAfter rs,
               cnt := (Hart.tick 1 { y with blocked := false }).cnt, blocked := false, noProg := 0 }

/-- The instruction `i` of the scalar side, on the registers `rs`, completes wherever it can run and `p` holds of the registers and
CSRs: it changes them by `f`, and nothing else. -/
def Completes (i : Instr) (rs : List Nat) (p : Arch → Prop) (f : Arch → Arch) : Prop :=
  ∀ s y, s.CanRun rs y → p y.arch → ∃ t z sh, exec i s = .next t ∧ s.Alone t ∧ t.hart s.cur = some z ∧
    y.cur = some sh ∧ y.Executed z rs (f y.arch) sh

/-- The same, for an instruction that writes register `d` and goes on to the next word. -/
def Writes (i : Instr) (rs : List Nat) (d : BitVec 5) (f : Arch → W64) : Prop :=
  Completes i (d.toNat :: rs) (fun _ => True) (fun r => (r.wx d.toNat (f r)).next)

/-- Register `n` as an operand. -/
abbrev Arch.r (a : Arch) (n : BitVec 5) : W64 := a.rx n.toNat

/-! ### Scalar loads and stores -/

/-- The address of a scalar access (R126). -/
def Arch.at_ (a : Arch) (r : BitVec 5) (o : BitVec 13) : W64 := a.r r + o.signExtend 64

/-- A recorded write is ordered before a later scalar load of its sheaf: an STS, or a vector write with a FENCE.VS between
(R128, R171). -/
def WRec.isBefore (w : WRec) (sh : Sheaf) : Prop := w.agent = .scalar ∨ w.nVS < sh.nVS

/-- `b` is a byte that a scalar load of the sheaf may return for home address `a` (R128). -/
def ByteSeen (s : State) (sh : Sheaf) (a : Nat) (b : Byte) : Prop :=
  let ws := fget [] sh.writes a
  -- where the sheaf has not written it, the committed byte
  (ws = [] → b = fget 0 s.mem a) ∧
  -- the latest earlier write, where it is ordered before the load and after the writes before it (R169)
  (∀ us w, ws = us ++ [w] → (∀ v ∈ ws, v.seq < sh.seq) → w.isBefore sh → (∀ u ∈ us, u.outlasts w = false) → b = w.val) ∧
  -- an STS after which only unfenced vector writes follow
  (∀ us w vs, ws = us ++ w :: vs → (∀ v ∈ ws, v.seq < sh.seq) → w.agent = .scalar → (∀ v ∈ vs, ¬ v.isBefore sh ∧ v.seq ≠ w.seq) → b = w.val) ∧
  -- in every case the committed byte or one that the sheaf wrote before
  (b = fget 0 s.mem a ∨ ∃ w ∈ ws, b = w.val ∧ w.seq < sh.seq)

/-- What a scalar load of `n` bytes does (R126, R128, R129) where its checks pass, no watchpoint holds and no byte is
poisoned. -/
def Loads (i : Instr) (d a : BitVec 5) (o : BitVec 13) (n : Nat) (signed : Bool) : Prop :=
  ∀ s y sh home, s.CanRun [d.toNat, a.toNat] y → y.cur = some sh → sh.want = none →
    access s y.arch.grant y.arch.csr y.arch.sup (y.arch.at_ a o).toNat n kRead n = .ok { home := home, hold := none } →
    readPoisoned s sh sh.scalarReader home n = false →
    ∃ t z bs, exec i s = .next t ∧ s.Alone t ∧ t.hart s.cur = some z ∧ bs.length = n ∧
      (∀ k < n, ByteSeen s sh (home + k) (bs.getD k 0)) ∧
      ({ y with pend := if y.ahead = true ∨ s.ms.timed = true then
          { reg := d.toNat, issued := s.now, young := decide (2 ≤ y.sheaves.length) } :: y.pend else y.pend } : Hart).Executed z [d.toNat, a.toNat]
        (y.arch.wx d.toNat (if signed then BitVec.ofInt 64 (toSigned (8 * n) (leNat bs)) else BitVec.ofNat 64 (leNat bs))).next
        (sh.addRead home n)

/-- What a scalar store of `n` bytes does (R126, R155, R262) where its checks pass, no watchpoint holds and its entry fits: the
bytes of `xd` join the sheaf's buffer and its write set, and memory itself is unchanged. -/
def Stores (i : Instr) (d a : BitVec 5) (o : BitVec 13) (n : Nat) : Prop :=
  ∀ s y sh home, s.CanRun [d.toNat, a.toNat] y → y.cur = some sh → sh.want = none →
    resvFits y.sheaves (reserve y.arch.grant.scalarQuarter 1 []) = true →
    access s y.arch.grant y.arch.csr y.arch.sup (y.arch.at_ a o).toNat n kWrite n = .ok { home := home, hold := none } →
    ∃ t z sh', exec i s = .next t ∧ s.Alone t ∧ t.hart s.cur = some z ∧
      y.Executed z [d.toNat, a.toNat] y.arch.next sh' ∧
      sh' = { sh.addWrite home n with writes := sh'.writes, resv := addResv sh.resv (reserve y.arch.grant.scalarQuarter 1 []) } ∧
      ∀ k, fget [] sh'.writes k =
        if home ≤ k ∧ k < home + n then
          insertRec { val := BitVec.setWidth 8 ((y.arch.r d).ushiftRight (8 * (k - home))), agent := .scalar, seq := sh.seq, nSV := sh.nSV,
                      nVS := sh.nVS, nVV := sh.nVV } (fget [] sh.writes k)
        else fget [] sh.writes k

/-! ### Traps -/

/-- No solo token stands in the way of what the current hart writes or gives up (R276). -/
def State.NoToken (s : State) : Prop := s.arb.token = none ∨ (s.arb.token = some s.cur ∧ s.arb.heldWrites = [])

/-- The trap of an instruction of `y` can land at once (R265, R276, R309): the hart is in user mode, its one sheaf `sh` holds no earlier
trap or stop, nothing is queued, no pre-emption lands first, and no solo token stands in the way.  The hart is one whose queued work is
done as it is issued. -/
def State.CanLand (s : State) (y : Hart) (sh : Sheaf) : Prop :=
  y.arch.sup = false ∧ y.ahead = false ∧ y.held = none ∧ y.queue = [] ∧ y.sheaves = [sh] ∧ sh.trap = none ∧ sh.want = none ∧
  y.preempted = false ∧ s.NoToken

/-- The CSRs that hold the trap record (R308), and HSTATUS. -/
def recordCsr (n : Nat) : Prop := (0x300 ≤ n ∧ n ≤ 0x307) ∨ n = cHSTATUS

/-- The hart `z` is `y` after a trap has landed at the start of its sheaf `sh` (R307 to R309, R311): registers and CSRs are those of
the checkpoint, but for the record and the mode; the sheaf is gone; and the hart is at the vector in supervisor mode, whose sheaves count their own squashes (R276).
The pc takes the vector without its two low bits (logged as assumption 89). -/
def Hart.Landed (y z : Hart) (sh : Sheaf) (cause kind : Nat) (tpc telem tlane tval : W64) : Prop :=
  z = { y with arch := z.arch, cnt := z.cnt, sheaves := [], queue := [], bq := [], pend := [], wait := .none, blocked := false, onLoad := [],
               noProg := 0, tableAt := none, squash := 0, landing := some { arch := sh.cp, cap := y.cap, squash := y.squash } } ∧
  z.arch = { sh.cp with pc := alignPc (sh.cp.rcsr cTVEC), csr := z.arch.csr } ∧
  z.arch.rcsr 0x300 = BitVec.ofNat 64 (cause + kind * 2 ^ 8 + (if sh.bySplit then 2 ^ 10 else 0)) ∧
  z.arch.rcsr 0x301 = tpc ∧ z.arch.rcsr 0x302 = sh.stripPc ∧ z.arch.rcsr 0x303 = sh.strip ∧
  z.arch.rcsr 0x304 = BitVec.ofNat 64 sh.split ∧ z.arch.rcsr 0x305 = telem ∧ z.arch.rcsr 0x306 = tlane ∧
  z.arch.rcsr 0x307 = tval ∧
  z.arch.rcsr cHSTATUS = setBits (sh.cp.rcsr cHSTATUS) 1 0 1 ∧
  (∀ n, ¬ recordCsr n → z.arch.rcsr n = sh.cp.rcsr n) ∧
  ∀ n, n ≠ cCYCLE → n ≠ cADVIDLE → fget 0 z.cnt n = fget 0 y.cnt n

/-- Executing `i` on the registers `rs` traps, and the trap lands. -/
def Traps (i : Instr) (rs : List Nat) (p : State → Hart → Prop) (cause kind : Nat) (tval : Arch → W64) : Prop :=
  ∀ s y sh, s.CanRun rs y → s.CanLand y sh → p s y → ∃ t z, exec i s = .next t ∧ t.now = s.now + 1 ∧
    t.hart s.cur = some z ∧ y.Landed z sh cause kind y.arch.pc 0 0 (tval y.arch)

/-- Executing `i` on the registers `rs` in supervisor mode traps, and that is a double trap (R312): the hart ends at once, and is gone where no command of
it is under way; the system cores receive its number, the second record and the record that the trap CSRs held, and after them reports of kind 3 of what
its channels leave behind (their form is logged as assumption 20). -/
def DoubleTraps (i : Instr) (rs : List Nat) (p : State → Hart → Prop) (cause kind : Nat) (tval : Arch → W64) : Prop :=
  ∀ s y sh, s.CanRun rs y → y.arch.sup = true → y.ahead = false → y.held = none → y.queue = [] → y.sheaves = [sh] → sh.trap = none →
    sh.want = none → y.preempted = false → p s y →
    ∃ t more, exec i s = .next t ∧ (∀ z, t.hart s.cur = some z → z.gone = true ∧ z.sheaves = [] ∧ z.queue = []) ∧
      ((∀ c ∈ y.chans, c.waiting = [] ∧ c.running = []) → t.hart s.cur = none) ∧
      t.mg.outbox = s.mg.outbox ++ (1, [BitVec.ofNat 64 s.cur, BitVec.ofNat 64 (cause + kind * 2 ^ 8), y.arch.pc, sh.stripPc, sh.strip,
        BitVec.ofNat 64 sh.split, 0, 0, tval y.arch] ++ (List.range 8).map (fun k => y.arch.rcsr (0x300 + k))) :: more ∧
      ∀ r ∈ more, r.1 = 3

/-! ### CSR instructions -/

/-- The old value that a CSR instruction reads, and the value that it writes (R135). -/
def csrOld (s : State) (y : Hart) (d a : BitVec 5) (n : Nat) : W64 := readCsr s { y with bq := y.bqAfter [d.toNat, a.toNat] } n
def csrAsked (s : State) (y : Hart) (op : CsrOp) (d a : BitVec 5) (n : Nat) : W64 :=
  let old := csrOld s y d a n
  match op with
  | .wr => y.arch.r a
  | .set => old ||| y.arch.r a
  | .clr => old &&& ~~~ y.arch.r a

/-- What a CSR instruction does (R135, R136) where R44 allows the access, the CSR's own rule accepts the value, and the wait of R30 or
R136 is over: xd receives the old value, and the CSR the new one without its reserved bits (R10), 1 for a 0 written to SRSEED (R58),
only MODE of HSTATUS (R310).  `op` is none for RD.  A write that asks for an action of ZSTATE is not meant here. -/
def CsrDone (i : Instr) (op : Option CsrOp) (d a : BitVec 5) (n : Nat) : Prop :=
  ∀ s y, s.CanRun [d.toNat, a.toNat] y →
    let old := csrOld s y d a n
    let v : W64 := match op with | none => old | some o => csrAsked s y o d a n
    let writes : Prop := op = some .wr ∨ (op ≠ none ∧ a ≠ 0)
    csrListed n = true → (csrSup n = true → y.arch.sup = true) → (writes → csrWritable y.arch.sup n = true) →
    (writes → csrAccepts y.arch.grant n v = true) → (writes → n = cZSTATE → bits v.toNat 3 2 = 0) →
    (n = cFCSR ∨ n = cSRSEED ∨ n = cZSTATE → y.queue = []) →
    ∃ t z sh, exec i s = .next t ∧ s.Alone t ∧ t.hart s.cur = some z ∧ y.cur = some sh ∧
      y.Executed z [d.toNat, a.toNat] z.arch sh ∧
      z.arch = { (y.arch.wx d.toNat old).next with csr := z.arch.csr } ∧
      (∀ k, k ≠ n → z.arch.rcsr k = y.arch.rcsr k) ∧
      (¬ writes → z.arch.rcsr n = y.arch.rcsr n) ∧
      (writes → z.arch.rcsr n =
        if n = cSRSEED then (if v = 0 then 1 else v)
        else if n = cHSTATUS then setBits (y.arch.rcsr cHSTATUS) 0 0 v.toNat
        else if n = cZSTATE then v &&& 3 else v &&& csrMask n)

/-! ### Instructions that end their sheaf -/

/-- A sheaf of the current hart can end and commit at once: it is the hart's only one, nothing of it is outstanding, and no other
hart holds a slice of the commit arbiter or the solo token, and no pre-emption lands first (R265, R271, R276).  The hart is one whose commits take place as they become
possible. -/
def State.CanEnd (s : State) (rs : List Nat) (y : Hart) (sh : Sheaf) : Prop :=
  s.CanRun rs y ∧ y.ahead = false ∧ y.held = none ∧ y.queue = [] ∧ y.pend = [] ∧ (∀ b ∈ y.bqAfter rs, b.here = true) ∧
  y.sheaves = [sh] ∧ sh.trap = none ∧ sh.want = none ∧ y.preempted = false ∧
  s.arb.token = none ∧ s.arb.slices = [] ∧ s.arb.slicesQ = []

/-- The hart `z` is `y` after its sheaf `sh`, with `n` instructions in it, has ended and committed (R239, R271, R276): the registers
and CSRs are `a`, its commands have issued, and INSTRET has grown. -/
def Hart.Ended (y z : Hart) (sh : Sheaf) (n : Nat) (a : Arch) : Prop :=
  z.arch = a ∧ z.sheaves = [] ∧ z.queue = [] ∧ z.bq = [] ∧ z.landing = y.landing ∧ z.gang = y.gang ∧
  z.chans = (y.issueCmds sh.cmds).chans ∧ (sh.sup = false → z.squash = 0 ∧ z.cap = 0) ∧
  fget 0 z.cnt cINSTRET = fget 0 y.cnt cINSTRET + BitVec.ofNat 64 n ∧
  ∀ k, k ≠ cCYCLE → k ≠ cADVIDLE → k ≠ cINSTRET → fget 0 z.cnt k = fget 0 y.cnt k

/-! ### The vector side at an instruction -/

/-- From `s` to `t` an instruction of the vector side has completed: one ck has passed, other harts only count it, and nothing else of the
package changes but the trace records that are to be written and the requests that set off.  (The count of free values taken is the
model's own.) -/
def State.VAlone (s t : State) : Prop :=
  t = { s with now := s.now + 1, harts := t.harts, free := t.free, due := t.due, ms := t.ms } ∧ s.SetsOff t ∧
  ∀ h, h ≠ s.cur → t.hart h = (s.hart h).map (Hart.tick 1)

/-- No other hart of the cluster has an instruction waiting at the vector sequencer (R335). -/
def State.Undisputed (s : State) (x : Hart) : Prop :=
  x.arch.grant.clusters ≠ 0 ∨ ∀ e ∈ s.harts, e.1 ≠ s.cur → e.2.arch.grant.base = x.arch.grant.base → e.2.queue = []

/-- A vector-side instruction on the scalar registers `rs` is queued and done as it is issued: the hart `y` can run it in user mode, its
one sheaf `sh` is open and holds no trap and no stop, nothing is queued before it and none of it has issued in this ck, BQ has room, and no other hart
is before it at the sequencer. -/
def State.VReady (s : State) (rs : List Nat) (y : Hart) (sh : Sheaf) : Prop :=
  s.CanRun rs y ∧ y.arch.sup = false ∧ y.ahead = false ∧ y.held = none ∧ y.queue = [] ∧ y.sheaves = [sh] ∧
  sh.closed = none ∧ sh.trap = none ∧ sh.want = none ∧ (y.bqAfter rs).length < 16 ∧ y.issueAt ≠ s.now + 1 ∧ s.Undisputed y

/-- What an instruction of `sh` carries when the hart places it in a queue now (R23), for the operand helpers. -/
def Hart.entry (y : Hart) (sh : Sheaf) : QEntry :=
  { unit := .viq, op := .strip, word := 0, pc := y.arch.pc, young := false, seq := sh.seq, nSV := sh.nSV, nVS := sh.nVS, nVV := sh.nVV,
    x := y.arch.x, csr := y.arch.csr, grant := y.arch.grant, sup := false, resv := sh.resv, fresh := false, bq := none, out := none }

/-- VTYPE, VL and the grant are such as SETVL and the dispatcher leave (R17, R36, R37, R146). -/
def QEntry.shapeOk (e : QEntry) : Prop :=
  e.vb ∈ (List.range 10).map (fun k => 256 * 2 ^ k) ∧ vtLegal e.vt = true ∧ e.vl ≤ e.vlmax

/-- The hart `z` is `y` after an instruction of the vector side has been issued and has completed in its sheaf, which is now `sh`, with no read of it outstanding;
`c` is what it charges (R335), `b` the BQ result it leaves, and `now` the ck in which it issues. -/
def Hart.VDone (y z : Hart) (now : Nat) (rs : List Nat) (sh : Sheaf) (c : Nat) (b : List BqEntry) : Prop :=
  z = { y with arch := z.arch, cnt := z.cnt, sheaves := [{ sh with asks := [] }], bq := y.bqAfter rs ++ b, issued := y.issued + 1, issueAt := now + 1, dc := y.dc - (c : Int),
               blocked := false, noProg := 0 } ∧
  ∀ n, n ≠ cCYCLE → n ≠ cADVIDLE → fget 0 z.cnt n = fget 0 y.cnt n

/-- What an instruction of the vector side does to the registers: the flags it raises, the generator and ZSTATE after it, its BQ
result, and what holds of the registers after it. -/
structure VEffect where
  fl   : Nat
  seed : W64
  zst  : W64
  out  : Option W64
  regs : Arch → Prop

/-- The effect of an instruction that raises no flag and takes no draw. -/
def Arch.calm (a : Arch) (regs : Arch → Prop) : VEffect :=
  { fl := 0, seed := a.rcsr cSRSEED, zst := a.rcsr cZSTATE, out := none, regs := regs }

/-- The registers and CSRs `b` are `a` after the effect `q`, whose BQ result goes to register `d`. -/
def Arch.After (a b : Arch) (q : VEffect) (d : Option Nat) : Prop :=
  let x := match d, q.out with | some r, some v => a.wx r v | _, _ => a
  b = { x.next with v := b.v, m := b.m, q := b.q, z := b.z, tam := b.tam, mp := b.mp, csr := b.csr } ∧
  (∀ n, b.rcsr n = if n = cFCSR then a.rcsr cFCSR ||| BitVec.ofNat 64 (q.fl % 32) else if n = cSRSEED then q.seed
    else if n = cZSTATE then q.zst else a.rcsr n) ∧ q.regs b

/-- The banks of vector-side registers (R32). -/
inductive Bank where
  | v | m | q | z | tam | mp
  deriving DecidableEq, Repr

/-- No bank but those listed changes. -/
def Arch.Only (a b : Arch) (ks : List Bank) : Prop :=
  (.v ∉ ks → b.v = a.v) ∧ (.m ∉ ks → b.m = a.m) ∧ (.q ∉ ks → b.q = a.q) ∧ (.z ∉ ks → b.z = a.z) ∧ (.tam ∉ ks → b.tam = a.tam) ∧
  (.mp ∉ ks → b.mp = a.mp)

/-- Of the vector registers only elements of the group of `g` registers based at vd change, and element `i` of width `w` becomes
`f i`, where that is given (R21, R38, R54). -/
def SetsElems (vb w d g : Nat) (f : Nat → Option Nat) (a b : Arch) : Prop :=
  a.Only b [.v] ∧ (∀ i < vb * 8 * g / w, getElem b vb w d i = ((f i).map (· % 2 ^ w)).getD (getElem a vb w d i)) ∧
  ∀ k, k < d * 131072 ∨ (d + g) * 131072 ≤ k → fget 0 b.v k = fget 0 a.v k

/-- Of the mask registers only md changes, and bit `i` becomes `f i`, where that is given. -/
def SetsMask (d : Nat) (f : Nat → Option Bool) (a b : Arch) : Prop :=
  a.Only b [.m] ∧ (∀ i < 2097152, getMask b d i = (f i).getD (getMask a d i)) ∧
  ∀ k, k < d * 2097152 ∨ (d + 1) * 2097152 ≤ k → fget false b.m k = fget false a.m k

/-- Of the scale registers only qd changes, and scale `j` becomes `f j`, where that is given. -/
def SetsScales (d : Nat) (f : Nat → Option Nat) (a b : Arch) : Prop :=
  a.Only b [.q] ∧ (∀ j < 131072, getScale b d j = ((f j).map (· % 256)).getD (getScale a d j)) ∧
  ∀ k, k < d * 131072 ∨ (d + 1) * 131072 ≤ k → fget 0 b.q k = fget 0 a.q k

/-- Of the tiles only cells that `f` gives change: cell (row, col) of tile t becomes `f t row col`. -/
def SetsCells (f : Nat → Nat → Nat → Option Nat) (a b : Arch) : Prop :=
  a.Only b [.z] ∧
  (∀ t < 8, ∀ i < 64, ∀ j < 8192, getCell b t i j = ((f t i j).map (BitVec.ofNat 32 ·)).getD (getCell a t i j))

/-- Executing `i` completes with the effect `q`, in the sheaf `sh`: `c` is its charge, `d` the register its BQ result goes to. -/
def VecStep (i : Instr) (s : State) (y : Hart) (rs : List Nat) (sh : Sheaf) (c : Nat) (d : Option Nat) (q : VEffect) : Prop :=
  ∃ t z, exec i s = .next t ∧ s.VAlone t ∧ t.hart s.cur = some z ∧
    y.VDone z s.now rs sh c (match d with | some r => [{ d := r, here := q.out.isSome }] | none => []) ∧ y.arch.After z.arch q d

/-- Where it can run and `ok` holds, the vector-side instruction `i` on the scalar registers `rs` completes with the effect `eff`, unless
that raises an exception FCSR enables; its sheaf gains a place and nothing else (R22, R38, R62). -/
def VecRuns (i : Instr) (rs : List Nat) (d : Option Nat) (ok : QEntry → Arch → Prop) (eff : QEntry → Arch → VEffect)
    (charge : QEntry → Nat := fun e => max 1 e.vl) : Prop :=
  ∀ s y sh, s.VReady rs y sh → ∀ e, e = y.entry sh → e.shapeOk → ok e y.arch → (eff e y.arch).fl &&& e.fen = 0 →
    VecStep i s y rs { sh with seq := sh.seq + 1 } (charge e) d (eff e y.arch)

/-! ### Elements -/

/-- `f` where a condition holds. -/
def given (p : Prop) [Decidable p] (f : Nat) : Option Nat := if p then some f else none

/-- Element `i` is active under mask `m` (R38). -/
def QEntry.isActive (e : QEntry) (a : Arch) (m i : Nat) : Bool := decide (i < e.vl) && getMask a m i

/-- The generator before the rounding step that `k` others precede (R58, R60). -/
def seedAt (mode : Nat) (s : W64) (k : Nat) : W64 := if mode = 4 then srStep^[k] s else s

/-- How many elements below `i` are active. -/
def QEntry.before (e : QEntry) (a : Arch) (m i : Nat) : Nat := ((e.active a m).filter (· < i)).length

/-- The union of the flags of a list (R62). -/
def unionFlags (l : List Nat) : Nat := l.foldl fOr 0

/-- A rounding step of an element: its code and flags, where the operation has given an exact value and flags of its own. -/
def roundsTo (f : Fmt) (mode : Nat) (sat : Bool) (seed : W64) (x : FV × Nat) : Nat × Nat :=
  let r := roundTo f mode sat (draw mode seed).1 x.1
  (r.1, fOr x.2 (if x.2 &&& fNV ≠ 0 then 0 else r.2))

/-- The effect of an instruction that writes each active element by itself: `f` gives the code and the flags of element `i` from the
generator before its step; `rounds` says that each step takes a draw (R38, R60, R62). -/
def QEntry.elementwise (e : QEntry) (a : Arch) (m : Nat) (rounds : Bool) (w d : Nat) (f : W64 → Nat → Nat × Nat) : VEffect :=
  let g (i : Nat) : W64 := if rounds then seedAt e.frm (a.rcsr cSRSEED) (e.before a m i) else a.rcsr cSRSEED
  { fl := unionFlags ((e.active a m).map (fun i => (f (g i) i).2))
    seed := if rounds then seedAt e.frm (a.rcsr cSRSEED) (e.active a m).length else a.rcsr cSRSEED
    zst := a.rcsr cZSTATE
    out := none
    regs := SetsElems e.vb w d (e.groupOf w) (fun i => if e.isActive a m i then some (f (g i) i).1 else none) a }

/-! ### Vector memory accesses -/

/-- `b` is a byte that a queued read of the sheaf by `r` may return for home address `a` (R169 to R171, R277). -/
def SeenBy (s : State) (sh : Sheaf) (r : Reader) (a : Nat) (b : Byte) : Prop :=
  let ws := fget [] sh.writes a
  -- where the sheaf has not written it, the committed byte
  (ws = [] → b = fget 0 s.mem a) ∧
  -- the latest earlier write, where it is ordered before the read and after the writes before it
  (∀ us w, ws = us ++ [w] → (∀ v ∈ ws, v.seq < r.seq) → ordered w r = true → (∀ u ∈ us, u.outlasts w = false) → b = w.val) ∧
  -- in every case the committed byte, one that the sheaf wrote before, or one of a later access that no rule orders after the read
  (b = fget 0 s.mem a ∨ ∃ w ∈ ws, b = w.val ∧ (w.seq < r.seq ∨ overtakes w r = true))

/-- Bytes that a queued read may return for the home addresses from `a`. -/
def SeenFrom (s : State) (sh : Sheaf) (r : Reader) (a : Nat) (bs : List Byte) : Prop := ∀ k < bs.length, SeenBy s sh r (a + k) (bs.getD k 0)

/-- Bytes of an element of an access. -/
def QEntry.eltBytes (e : QEntry) : Nat := max 1 (e.sew / 8)

/-- The cluster of the grant that makes the access for byte `b` of a register (R20, R316). -/
def Grant.clusterAt (g : Grant) (b : Nat) : Nat := (g.place (b / 64)).1

/-- Field `k` of element `i` of an access passes its checks, with home address `h`: where it has an address, that is aligned, within
bounds and mapped, no watchpoint holds, and what is read is not poisoned (R153). -/
def QEntry.eltOk (s : State) (e : QEntry) (sh : Sheaf) (kind : Nat) (reads idx : Bool) (i : Nat) (x : Option Nat) (h : Nat) : Prop :=
  ∀ a, x = some a → accessAt s (e.clusterOf i) e.grant e.csr false a e.eltBytes kind e.eltBytes = .ok { home := h, hold := none } ∧
    (reads = true → readPoisoned s sh (e.reader idx) h e.eltBytes = false)

/-- The home addresses of the fields of active elements that have an address, in order. -/
def homesOf (e : QEntry) (a : Arch) (f : MemForm) (base : W64) (m : Nat) (h : Nat → Nat → Nat) : List Nat :=
  (places e a f m).filterMap (fun p => (addrOf e a f base p.1 p.2).map (fun _ => h p.1 p.2))

/-- The same, each with the cluster that makes the access (R20, R262). -/
def sitesOf (e : QEntry) (a : Arch) (f : MemForm) (base : W64) (m : Nat) (h : Nat → Nat → Nat) : List (Nat × Nat) :=
  (places e a f m).filterMap (fun p => (addrOf e a f base p.1 p.2).map (fun _ => (e.clusterOf p.1, h p.1 p.2)))

/-- What a vector load does where the checks of every element pass and R159 asks for no trim (R155 to R163): field `k` of element `i`
goes to element `i` of the group at vd + k × LMUL, and a tensor element out of range becomes 0.  Where timing is kept the instruction waits for its data
first (R155, R347). -/
def VLoads (i : Instr) (rs : List Nat) (d : Nat) (form : Arch → MemForm) (base : Arch → W64) (m : Nat) : Prop :=
  ∀ s y sh (h : Nat → Nat → Nat), s.VReady rs y sh → s.ms.timed = false → ∀ e, e = y.entry sh → e.shapeOk →
    let a := y.arch
    let f := form a
    memOk e a f d = true → (sh.byStrip = true → tensTrim e a f (base a) = none) →
    (∀ j k, e.isActive a m j → k < f.nf → e.eltOk s sh kRead true f.isIdx j (addrOf e a f (base a) j k) (h j k)) →
    VecStep i s y rs ((homesOf e a f (base a) m h).foldl (fun x p => x.addRead p e.eltBytes) { sh with seq := sh.seq + 1 }) (max 1 e.vl) none
      (a.calm (fun z => a.Only z [.v] ∧
        (∀ j k, e.isActive a m j → k < f.nf →
          (addrOf e a f (base a) j k = none → getElem z e.vb e.sew (d + k * e.lmul) j = 0) ∧
          ((addrOf e a f (base a) j k).isSome → ∃ bs : List Byte, bs.length = e.eltBytes ∧ SeenFrom s sh (e.reader f.isIdx) (h j k) bs ∧
            getElem z e.vb e.sew (d + k * e.lmul) j =
              if e.sew = 4 then (if j % 2 = 0 then leNat bs % 16 else leNat bs / 16) else leNat bs)) ∧
        (∀ k < f.nf, ∀ j < e.vlmax, e.isActive a m j = false →
          getElem z e.vb e.sew (d + k * e.lmul) j = getElem a e.vb e.sew (d + k * e.lmul) j) ∧
        ∀ n, n < d * 131072 ∨ (d + f.nf * e.lmul) * 131072 ≤ n → fget 0 z.v n = fget 0 a.v n))

/-- Write records `ws` join those of a byte. -/
def joinRecs (ws vs : List WRec) : List WRec := ws.foldl (fun l w => insertRec w l) vs

/-- The record of a byte that an instruction of the vector side writes. -/
def QEntry.wrec (e : QEntry) (idx : Bool) (b : Byte) : WRec :=
  { val := b, agent := if idx then .idx else .vec, seq := e.seq, nSV := e.nSV, nVS := e.nVS, nVV := e.nVV }

/-- What a vector store at SEW of at least 8 does where the checks of every element pass, its reservation fits and R159 asks for no trim
(R155 to R163, R262): the bytes of each element join the buffer of the cluster that makes the access, in ascending order, and memory itself is unchanged. -/
def VStores (i : Instr) (rs : List Nat) (resv : Hart → FMap Nat) (d : Nat) (form : Arch → MemForm) (base : Arch → W64) (m : Nat) : Prop :=
  ∀ s y sh (h : Nat → Nat → Nat), s.VReady rs y sh → ∀ e, e = y.entry sh → e.shapeOk → 8 ≤ e.sew →
    let a := y.arch
    let f := form a
    memOk e a f d = true → (sh.byStrip = true → tensTrim e a f (base a) = none) → resvFits [sh] (resv y) = true →
    (∀ j k, e.isActive a m j → k < f.nf → e.eltOk s sh kWrite false f.isIdx j (addrOf e a f (base a) j k) (h j k)) →
    ∃ ws : FMap (List WRec),
      (∀ b, fget [] ws b = joinRecs ((places e a f m).filterMap (fun p =>
        if (addrOf e a f (base a) p.1 p.2).isSome ∧ h p.1 p.2 ≤ b ∧ b < h p.1 p.2 + e.eltBytes then
          some (e.wrec f.isIdx (BitVec.ofNat 8 (getElem a e.vb e.sew (d + p.2 * e.lmul) p.1 / 2 ^ (8 * (b - h p.1 p.2)))))
        else none)) (fget [] sh.writes b)) ∧
      VecStep i s y rs { (sitesOf e a f (base a) m h).foldl (fun x p => x.addWriteAt (some p.1) p.2 e.eltBytes) { sh with seq := sh.seq + 1 } with
        writes := ws, resv := addResv sh.resv (resv y) } (max 1 e.vl) none (a.calm (fun z => a.Only z []))

/-! ### Fetching -/

/-- The next step fetches the word `w` for the hart `x` at physical address `p`: the schedule is empty, the package runs and nothing else is
due, the hart is in the middle of nothing, its PC is mapped and permitted, and the word is what its cluster's instruction cache still holds,
or else what memory holds, which without timing takes no request (R71, R72, R315, R401). -/
def State.Fetches (s : State) (x : Hart) (p : Nat) (w : W32) : Prop :=
  s.agenda = [] ∧ s.mg.stopped = false ∧ s.mg.pkg.fail = false ∧ s.mg.pkg.ready = true ∧ (s.arb.token.isSome ∨ s.arb.tokenQ = []) ∧
  s.leaving = none ∧ s.placeCharac = none ∧ s.dispatchNext.isNone ∧ s.hart s.cur = some x ∧ x.gone = false ∧ x.parked = false ∧ x.preempt = 0 ∧ x.noProg = 0 ∧
  x.hasWork s.ms.timed = false ∧ x.wait = .none ∧ x.blocked = false ∧ x.ibuf = none ∧ x.arch.pc.toNat < 2 ^ 58 ∧
  homeOf s x.arch.grant (x.arch.rcsr cPTROOT) x.arch.pc.toNat kFetch (!x.arch.sup) = some p ∧
  (ffind s.ms.code (codeKey x.arch.grant.base p) = some w ∨
    (ffind s.ms.code (codeKey x.arch.grant.base p) = none ∧ poisoned s p = false ∧ s.ms.timed = false ∧ w = BitVec.ofNat 32 (memNat s p 4)))

/-! ### Opening a strip -/

/-- The hart can open a strip, and its turn at the vector sequencer is its own: it is in user mode, its work is done as it is issued,
nothing of it is queued or outstanding, none of it has issued in this ck, no pre-emption lands first, and no other hart has an instruction at the sequencer (R26, R265, R335). -/
def State.CanOpen (s : State) (x : Hart) (rs : List Nat) : Prop :=
  s.hart s.cur = some x ∧ x.arch.sup = false ∧ x.ahead = false ∧ x.held = none ∧ x.queue = [] ∧ x.pend = [] ∧ (∀ b ∈ x.bq, b.here = true) ∧
  (∀ r ∈ rs, x.waitsOn r = false) ∧ x.preempted = false ∧ x.issueAt ≠ s.now + 1 ∧ ∀ e ∈ s.harts, e.1 ≠ s.cur → e.2.queue = []

/-- The registers, CSRs and sheaf after a strip with VTYPE `vt` and VL `vl` has opened, on the registers `a` that the grant in force
gives: xd and VL hold the granted length, STRIP has grown, and the new sheaf's checkpoint is the state before the instruction, but for
lanes that a grant change has given up (R19, R23, R27, R146, R334; the last is logged as assumption 83). -/
def Hart.Opened (x z : Hart) (a : Arch) (d : BitVec 5) (vt : W64) (vl : Nat) (rb : Option W64) : Prop :=
  z.arch = { a.wx d.toNat (BitVec.ofNat 64 vl) with
    pc := x.arch.pc + 4, csr := z.arch.csr, stripPc := x.arch.pc, nextSplit := 1, bySplit := false } ∧
  (∀ n, z.arch.rcsr n = if n = cVTYPE then vt else if n = cVL then BitVec.ofNat 64 vl else if n = cSTRIP then a.rcsr cSTRIP + 1
    else if n = cRUNBASE then rb.getD (a.rcsr cRUNBASE) else a.rcsr n) ∧
  z.queue = [] ∧ z.bq = [] ∧ ∃ sh, z.sheaves = [sh] ∧ sh.cp = x.arch.shed a.grant ∧ sh.grant = a.grant ∧ sh.startPc = x.arch.pc ∧ sh.strip = a.rcsr cSTRIP + 1 ∧
    sh.stripPc = x.arch.pc ∧ sh.split = 0 ∧ sh.byStrip = true ∧ sh.bySplit = false ∧ sh.vl = BitVec.ofNat 64 vl ∧ sh.seq = 1 ∧
    sh.writes = [] ∧ sh.reds = [] ∧ sh.cmds = [] ∧ sh.closed = none ∧ sh.trap = none

/-- The strip-opening instruction `i` with destination `d` opens a strip where `ok` holds: with the length `vl`, bounded by the cap of
a strip trim where no sheaf is open (R159); where the sheaf `sh` is open, that ends and commits (R26, R271). -/
def Opens (i : Instr) (rs : List Nat) (d : BitVec 5) (ok : State → Hart → Arch → Prop) (vt : Arch → W64) (vl : State → Arch → Nat)
    (rb : State → Arch → Option W64) : Prop :=
  ∀ s x, s.CanOpen x (d.toNat :: rs) → ok s x x.granted →
    let a := x.granted
    (x.sheaves = [] → ∃ t z, exec i s = .next t ∧ t.hart s.cur = some z ∧ t.mem = s.mem ∧
      x.Opened z a d (vt a) (if x.cap = 0 then vl s a else min (vl s a) x.cap) (rb s a)) ∧
    (∀ sh, x.sheaves = [sh] → sh.closed = none → sh.trap = none → sh.want = none → sh.held = none → sh.sup = false →
      s.arb.token = none → s.arb.slices = [] → s.arb.slicesQ = [] →
      ∃ t z, exec i s = .next t ∧ t.hart s.cur = some z ∧ t.stamp = s.stamp + 1 ∧ x.Opened z a d (vt a) (vl s a) (rb s a))

/-! ### What a write to memory does to open sheaves -/

/-- No hart is held in a HOLD stop, whose squash would rewrite its frame (R274, R322). -/
def State.NoneHeld (s : State) : Prop := ∀ h x, s.hart h = some x → x.held = none

/-- From `s` to `t` the open sheaves that `p` picks have been squashed (R272, R274, R275), but for that of the solo token's holder (R276):
a hart none of whose sheaves `p` picks is as it was, and one whose oldest sheaf it picks is back at that sheaf's checkpoint.  `me` is
none of them. -/
def State.Restarts (s t : State) (me : Option Nat) (p : Sheaf → Prop) : Prop :=
  (∀ k y, some k ≠ me → s.hart k = some y → (∀ r ∈ y.sheaves, ¬ p r) → t.hart k = some y) ∧
  ∀ k y r rs, some k ≠ me → s.hart k = some y → y.sheaves = r :: rs → p r → s.arb.token ≠ some k →
    ∃ z, t.hart k = some z ∧ z.arch = r.cp ∧ z.sheaves = [] ∧ z.queue = []

/-- From `s` to `t` an agent outside sheaves has written: byte `a` of memory is now `f a`, and the open sheaves that had read one of the
granules `gs` are squashed (R275). -/
def State.Wrote (s t : State) (gs : List Nat) (f : Nat → Byte) : Prop :=
  (∀ a, fget 0 t.mem a = f a) ∧ s.Restarts t none (fun r => ∃ g ∈ gs, r.rset.holds 4096 g = true)

/-- Memory of `s` with the bytes `bs` at home address `h`. -/
def State.withBytes (s : State) (h : Nat) (bs : List Byte) (a : Nat) : Byte :=
  if h ≤ a ∧ a < h + bs.length then bs.getD (a - h) 0 else fget 0 s.mem a

/-- The event `i` makes `y` of hart `h`, and changes nothing else of the package. -/
def OnHart (i : Instr) (s : State) (h : Nat) (y : Hart) : Prop := exec i s = .next (s.setHart h y)

/-- The package with the registers `r` in a die's dispatcher region. -/
def State.withDie (s : State) (d : Nat) (r : DieRegs) : State :=
  { s with disp := { s.disp with dieRegs := s.disp.dieRegs.set d r } }

/-- The package with the trace buffer `b` of a cluster. -/
def State.withTrace (s : State) (c : Nat) (b : TraceBuf) : State := { s with traces := s.traces.set c b }

/-- The package with the register block `p`. -/
def State.withPkg (s : State) (p : PkgRegs) : State := { s with mg := { s.mg with pkg := p } }

/-- The sheaf has read nothing of the frame that a landing from `a` writes, which lies in one page (R311, R317). -/
def State.SparesFrame (s : State) (a : Arch) (sh : Sheaf) : Prop :=
  let base := (a.rcsr cSAVEPTR).toNat
  base % 65536 + 0x300 ≤ 65536 ∧ ∀ m, homeOf s a.grant (a.rcsr cPTROOT) base kWrite false = some m →
    sh.rset.meets 4096 (RecSet.range (m / 64) ((m + 0x300 - 1) / 64)) = false

/-- No reply to the message is kept (R397). -/
def State.Unanswered (s : State) (m : Sys2Proof.MsgHead) : Prop :=
  s.mg.replies.find? (fun e => decide (e.1 = m.host) && decide (e.2.1 = m.seq.toNat)) = none

/-- The record of a reply to a message: kind 25, the host, and the words of the reply (logged as assumptions 20 and 85). -/
def replyTo (m : Sys2Proof.MsgHead) (status : Nat) (payload : List W64) : Nat × List W64 :=
  (25, reg64 m.host :: wire m.type.toNat status m.seq.toNat payload)

/-- The package after the reply to a message, which is kept (R397). -/
def State.replied (s : State) (m : Sys2Proof.MsgHead) (status : Nat) (payload : List W64) : State :=
  { s with mg := { s.mg with
    replies := keepReply s.mg.replies m (wire m.type.toNat status m.seq.toNat payload)
    outbox := s.mg.outbox ++ [replyTo m status payload] } }

/-! ### Classes of instruction -/

/-- The instructions of the advice half (R288, R289). -/
def adviceHalf : Instr → Bool
  | .advAwait _ | .advBr _ _ _ _ | .advLoop _ _ | .advSet _ _ | .advIns _ _ | .advAdd _ _ _ | .advAddi _ _ _ | .advMv _ _ | .advMvArg _
  | .advMvId _ | .advPf _ _ | .advPfx _ _ _ | .advPlace _ _ _ | .advPrio _ | .advOrder _ | .advOrderShare _ | .advHalt => true
  | _ => false

/-! ### Exact values -/

/-- The number that a finite exact value stands for, where nothing was cut off. -/
def FV.val : FV → ℚ
  | .fin n m e _ => (if n then -1 else 1) * (m : ℚ) * (2 : ℚ) ^ e
  | _ => 0

/-- A finite value that is exact. -/
def FV.exact : FV → Bool
  | .fin _ _ _ st => !st
  | _ => false

end Sys2Proof.Machine
end

