-- ==== Sys2Proof/Certificates/Slice0/Obligations.lean ====
section
/-! DEFINITION. The statements for the provers. -/

open Sys2Proof Sys2Proof.Machine

/-! ### Integer instructions -/

/-- R122: each ALU function writes xd as its table states. -/
def Obligations.AluResults : Prop :=
  ∀ d a b : Reg,
    Writes (.aluAdd d a b) [a.toNat, b.toNat] d (fun r => r.r a + r.r b) ∧
    Writes (.aluSub d a b) [a.toNat, b.toNat] d (fun r => r.r a - r.r b) ∧
    Writes (.aluAnd d a b) [a.toNat, b.toNat] d (fun r => r.r a &&& r.r b) ∧
    Writes (.aluOr d a b) [a.toNat, b.toNat] d (fun r => r.r a ||| r.r b) ∧
    Writes (.aluXor d a b) [a.toNat, b.toNat] d (fun r => r.r a ^^^ r.r b) ∧
    Writes (.aluSll d a b) [a.toNat, b.toNat] d (fun r => r.r a <<< ((r.r b).extractLsb 5 0)) ∧
    Writes (.aluSrl d a b) [a.toNat, b.toNat] d (fun r => r.r a >>> ((r.r b).extractLsb 5 0)) ∧
    Writes (.aluSra d a b) [a.toNat, b.toNat] d (fun r => (r.r a).sshiftRight' ((r.r b).extractLsb 5 0)) ∧
    Writes (.aluSlt d a b) [a.toNat, b.toNat] d (fun r => if (r.r a).slt (r.r b) then 1 else 0) ∧
    Writes (.aluSltu d a b) [a.toNat, b.toNat] d (fun r => if (r.r a).ult (r.r b) then 1 else 0) ∧
    Writes (.aluMin d a b) [a.toNat, b.toNat] d (fun r => if (r.r b).sle (r.r a) then r.r b else r.r a) ∧
    Writes (.aluMax d a b) [a.toNat, b.toNat] d (fun r => if (r.r a).sle (r.r b) then r.r b else r.r a) ∧
    Writes (.aluMinu d a b) [a.toNat, b.toNat] d (fun r => if (r.r b).ule (r.r a) then r.r b else r.r a) ∧
    Writes (.aluMaxu d a b) [a.toNat, b.toNat] d (fun r => if (r.r a).ule (r.r b) then r.r b else r.r a) ∧
    Writes (.aluClz d a) [a.toNat] d (fun r => (r.r a).clz) ∧
    Writes (.aluPopc d a) [a.toNat] d (fun r => (r.r a).cpop)

/-- R123: each MULDIV function writes xd as its table states, for every operand. -/
def Obligations.MulDivResults : Prop :=
  ∀ d a b : Reg,
    Writes (.muldivMul d a b) [a.toNat, b.toNat] d (fun r => r.r a * r.r b) ∧
    Writes (.muldivMulh d a b) [a.toNat, b.toNat] d
      (fun r => ((r.r a).signExtend 128 * (r.r b).signExtend 128).extractLsb' 64 64) ∧
    Writes (.muldivMulhu d a b) [a.toNat, b.toNat] d
      (fun r => ((r.r a).zeroExtend 128 * (r.r b).zeroExtend 128).extractLsb' 64 64) ∧
    Writes (.muldivDiv d a b) [a.toNat, b.toNat] d
      (fun r => if r.r b = 0 then 0xFFFF_FFFF_FFFF_FFFF#64 else (r.r a).sdiv (r.r b)) ∧
    Writes (.muldivDivu d a b) [a.toNat, b.toNat] d
      (fun r => if r.r b = 0 then 0xFFFF_FFFF_FFFF_FFFF#64 else (r.r a).udiv (r.r b)) ∧
    Writes (.muldivRem d a b) [a.toNat, b.toNat] d (fun r => if r.r b = 0 then r.r a else (r.r a).srem (r.r b)) ∧
    Writes (.muldivRemu d a b) [a.toNat, b.toNat] d (fun r => if r.r b = 0 then r.r a else (r.r a).umod (r.r b))

/-- R124, R125: the immediate forms, the shifts by an immediate, LUI and AUIPC. -/
def Obligations.ImmediateResults : Prop :=
  ∀ (d a : Reg) (i : BitVec 16) (n : BitVec 6) (w : BitVec 21),
    Writes (.addi d a i) [a.toNat] d (fun r => r.r a + i.signExtend 64) ∧
    Writes (.andi d a i) [a.toNat] d (fun r => r.r a &&& i.zeroExtend 64) ∧
    Writes (.ori d a i) [a.toNat] d (fun r => r.r a ||| i.zeroExtend 64) ∧
    Writes (.xori d a i) [a.toNat] d (fun r => r.r a ^^^ i.zeroExtend 64) ∧
    Writes (.slti d a i) [a.toNat] d (fun r => if (r.r a).slt (i.signExtend 64) then 1 else 0) ∧
    Writes (.sltiu d a i) [a.toNat] d (fun r => if (r.r a).ult (i.signExtend 64) then 1 else 0) ∧
    Writes (.shiSlli d a n) [a.toNat] d (fun r => r.r a <<< n) ∧
    Writes (.shiSrli d a n) [a.toNat] d (fun r => r.r a >>> n) ∧
    Writes (.shiSrai d a n) [a.toNat] d (fun r => (r.r a).sshiftRight' n) ∧
    Writes (.lui d w) [] d (fun _ => w.signExtend 64 <<< 12) ∧
    Writes (.auipc d w) [] d (fun r => r.pc + w.signExtend 64 <<< 12)

/-- R130: a conditional branch continues at PC + 4 × sext(OFF) where its condition holds and at PC + 4 otherwise, and
writes no register. -/
def Obligations.BranchesTaken : Prop :=
  ∀ (d a : Reg) (o : BitVec 13),
    let br (c : W64 → W64 → Bool) : Arch → Arch :=
      fun r => { r with pc := if c (r.r d) (r.r a) then r.pc + 4 * o.signExtend 64 else r.pc + 4 }
    Completes (.brcEq d a o) [d.toNat, a.toNat] (fun _ => True) (br (· == ·)) ∧
    Completes (.brcNe d a o) [d.toNat, a.toNat] (fun _ => True) (br (· != ·)) ∧
    Completes (.brcLt d a o) [d.toNat, a.toNat] (fun _ => True) (br (fun x y => x.slt y)) ∧
    Completes (.brcGe d a o) [d.toNat, a.toNat] (fun _ => True) (br (fun x y => !x.slt y)) ∧
    Completes (.brcLtu d a o) [d.toNat, a.toNat] (fun _ => True) (br (fun x y => x.ult y)) ∧
    Completes (.brcGeu d a o) [d.toNat, a.toNat] (fun _ => True) (br (fun x y => !x.ult y))

/-- R131: JAL and an aligned JALR write PC + 4 to xd, which the target of a JALR is computed before, and go on at their
target. -/
def Obligations.JumpsLink : Prop :=
  ∀ (d a : Reg) (i : BitVec 16) (w : BitVec 21),
    Completes (.jal d w) [d.toNat] (fun _ => True)
      (fun r => { r.wx d.toNat (r.pc + 4) with pc := r.pc + 4 * w.signExtend 64 }) ∧
    Completes (.jalr d a i) [d.toNat, a.toNat] (fun r => (r.r a + i.signExtend 64).extractLsb 1 0 = 0)
      (fun r => { r.wx d.toNat (r.pc + 4) with pc := r.r a + i.signExtend 64 })

/-- R32, R121: a write of a scalar register reads back, x0 discards it and reads 0, and no other register changes. -/
def Obligations.RegisterFile : Prop :=
  ∀ (a : Arch) (d r : Nat) (v : W64),
    (a.wx d v).rx r = (if r = 0 then 0 else if r = d then v else a.rx r) ∧ (a.wx 0 v) = a

/-! ### Scalar memory accesses -/

/-- R126, R128: what each scalar load returns, and what it leaves alone. -/
def Obligations.ScalarLoads : Prop :=
  ∀ (d a : Reg) (o : BitVec 13),
    Loads (.ldsB d a o) d a o 1 true ∧ Loads (.ldsH d a o) d a o 2 true ∧ Loads (.ldsW d a o) d a o 4 true ∧
    Loads (.ldsD d a o) d a o 8 false ∧ Loads (.ldsBu d a o) d a o 1 false ∧ Loads (.ldsHu d a o) d a o 2 false ∧
    Loads (.ldsWu d a o) d a o 4 false

/-- R126: what each scalar store places in the sheaf, and what it leaves alone. -/
def Obligations.ScalarStores : Prop :=
  ∀ (d a : Reg) (o : BitVec 13),
    Stores (.stsB d a o) d a o 1 ∧ Stores (.stsH d a o) d a o 2 ∧ Stores (.stsW d a o) d a o 4 ∧
    Stores (.stsD d a o) d a o 8

/-- R127: the checks of a scalar access in their order.  A load or store that fails one traps with its cause and kind, and
TVAL holds the address with its tag.  That a load traps MEMERR where it would read a poisoned byte that its sheaf has written by a write
which is not ordered before it, and that might as well go on, is the model's choice (logged as assumption 72), and so is that the vector gives the
pc without its two low bits (logged as assumption 89). -/
def Obligations.ScalarAccessTraps : Prop :=
  ∀ (d a : Reg) (o : BitVec 13),
    let fails (n kind c : Nat) : State → Hart → Prop := fun s y =>
      (access s y.arch.grant y.arch.csr y.arch.sup (y.arch.at_ a o).toNat n kind n = .error c ∨
        -- an uncorrectable error in the data of a load
        (c = 0x10 ∧ kind = kRead ∧ ∃ x sh, y.cur = some sh ∧ readPoisoned s sh sh.scalarReader x.home n = true ∧
          access s y.arch.grant y.arch.csr y.arch.sup (y.arch.at_ a o).toNat n kind n = .ok x)) ∧
      (kind = kWrite → resvFits y.sheaves (reserve y.arch.grant.scalarQuarter 1 []) = true)
    ∀ c,
      Traps (.ldsB d a o) [d.toNat, a.toNat] (fails 1 kRead c) c 0 (fun r => r.at_ a o) ∧
      Traps (.ldsH d a o) [d.toNat, a.toNat] (fails 2 kRead c) c 0 (fun r => r.at_ a o) ∧
      Traps (.ldsW d a o) [d.toNat, a.toNat] (fails 4 kRead c) c 0 (fun r => r.at_ a o) ∧
      Traps (.ldsD d a o) [d.toNat, a.toNat] (fails 8 kRead c) c 0 (fun r => r.at_ a o) ∧
      Traps (.ldsBu d a o) [d.toNat, a.toNat] (fails 1 kRead c) c 0 (fun r => r.at_ a o) ∧
      Traps (.ldsHu d a o) [d.toNat, a.toNat] (fails 2 kRead c) c 0 (fun r => r.at_ a o) ∧
      Traps (.ldsWu d a o) [d.toNat, a.toNat] (fails 4 kRead c) c 0 (fun r => r.at_ a o) ∧
      Traps (.stsB d a o) [d.toNat, a.toNat] (fails 1 kWrite c) c 1 (fun r => r.at_ a o) ∧
      Traps (.stsH d a o) [d.toNat, a.toNat] (fails 2 kWrite c) c 1 (fun r => r.at_ a o) ∧
      Traps (.stsW d a o) [d.toNat, a.toNat] (fails 4 kWrite c) c 1 (fun r => r.at_ a o) ∧
      Traps (.stsD d a o) [d.toNat, a.toNat] (fails 8 kWrite c) c 1 (fun r => r.at_ a o)

/-- R127, R153: which check of an access fails first: ALIGN, then BOUNDS, then PAGE, then WATCH.  Bounds and watchpoints are not
checked for the supervisor (R312). -/
def Obligations.AccessOrder : Prop :=
  ∀ (s : State) (g : Grant) (csr : FMap W64) (sup : Bool) (a n kind al : Nat), 0 < al →
    let home := homeOf s g (fget 0 csr cPTROOT) a kind (!sup)
    let watch := if sup then none else watchHit csr a n kind
    (access s g csr sup a n kind al = .error 0x02 ↔ a % al ≠ 0) ∧
    (access s g csr sup a n kind al = .error 0x04 ↔ a % al = 0 ∧ sup = false ∧ boundsOk s g csr a n kind = false) ∧
    (access s g csr sup a n kind al = .error 0x03 ↔
      a % al = 0 ∧ (sup = true ∨ boundsOk s g csr a n kind = true) ∧ home = none) ∧
    (access s g csr sup a n kind al = .error 0x05 ↔
      a % al = 0 ∧ (sup = true ∨ boundsOk s g csr a n kind = true) ∧ home.isSome ∧ ∃ w, watch = some (w, false)) ∧
    (∀ x, access s g csr sup a n kind al = .ok x ↔
      a % al = 0 ∧ (sup = true ∨ boundsOk s g csr a n kind = true) ∧ home = some x.home ∧
        ((watch = none ∧ x.hold = none) ∨ ∃ w, watch = some (w, true) ∧ x.hold = some w))

/-- R315: the four-level walk from a table at `root`, without a TLB entry.  A level's entry is a pointer to a table that is aligned to that
table's size, with V 1, LEAF 0, IL, LSBASE, LSK and the reserved bits 0, whatever its U, X, W and R are, or a leaf, which gives a page of
1 GiB, 2 MiB or 64 KiB to the accesses that its own bits permit.  An entry with V 0, a leaf at level 0 and a pointer at level 3 translate
nothing, and neither does a root that is not aligned. -/
def Obligations.WalkFourLevels : Prop :=
  ∀ (s : State) (cl : Nat) (root : W64) (a kind : Nat) (user : Bool) (t1 t2 t3 : Nat),
    s.ms.tlbs = [] → a < 2 ^ 58 →
    let e0 := memNat s (root.toNat + a / 2 ^ 44 * 8) 8
    let e1 := memNat s (t1 + a / 2 ^ 30 % 2 ^ 14 * 8) 8
    let e2 := memNat s (t2 + a / 2 ^ 21 % 2 ^ 9 * 8) 8
    let e3 := memNat s (t3 + a / 2 ^ 16 % 2 ^ 5 * 8) 8
    let pointer (e next align : Nat) : Prop := bit e 0 = true ∧ bit e 1 = false ∧ bits e 7 6 = 0 ∧ bit e 52 = false ∧ bits e 63 53 = 0 ∧
      bits e 51 8 * 256 = next ∧ next % align = 0
    let leaf (e size : Nat) : Prop := bit e 0 = true ∧ bit e 1 = true ∧ bits e 7 6 = 0 ∧ bit e 52 = false ∧ leafOk s e size = true
    let gives (e size : Nat) : Prop := xlate s cl root a kind user =
      if permits e kind user then some (bits e 51 8 * 256 + a % size) else none
    let fails : Prop := xlate s cl root a kind user = none
    (root.toNat % 131072 ≠ 0 → fails) ∧
    (root.toNat % 131072 = 0 →
      (bit e0 0 = false ∨ bit e0 1 = true → fails) ∧
      (pointer e0 t1 131072 →
        (bit e1 0 = false → fails) ∧ (leaf e1 0x4000_0000 → gives e1 0x4000_0000) ∧
        (pointer e1 t2 4096 →
          (bit e2 0 = false → fails) ∧ (leaf e2 0x20_0000 → gives e2 0x20_0000) ∧
          (pointer e2 t3 256 →
            (bit e3 0 = false ∨ bit e3 1 = false → fails) ∧ (leaf e3 0x1_0000 → gives e3 0x1_0000)))))

/-! ### Fences, marks and traps -/

/-- R169 to R171: a fence counts in its sheaf, so that what follows is ordered after what was written before it; FENCE.VS and
FENCE.ALL complete once nothing is queued before them.  A fence changes no register, no CSR and no memory. -/
def Obligations.FencesOrder : Prop :=
  ∀ (s : State) (y : Hart) (sh : Sheaf), s.CanRun [] y → y.cur = some sh →
    let done (i : Instr) (f : Sheaf → Sheaf) : Prop := ∃ t z, exec i s = .next t ∧ s.Alone t ∧ t.hart s.cur = some z ∧
      y.Executed z [] y.arch.next (f sh)
    done .fenceSv (fun x => { x with nSV := x.nSV + 1 }) ∧
    done .fenceVv (fun x => { x with nVV := x.nVV + 1 }) ∧
    (y.queue = [] → done .fenceVs (fun x => { x with nVS := x.nVS + 1 }) ∧
      done .fenceAll (fun x => { x with nSV := x.nSV + 1, nVS := x.nVS + 1, nVV := x.nVV + 1 }))

/-- R96, R97: a word that is no instruction traps ILL, with TVAL the word and no other effect.  The vector gives the pc without its two low bits,
which is the model's choice (logged as assumption 89). -/
def Obligations.IllegalWordTraps : Prop :=
  ∀ w : W32, Traps (.illegalInstructionWord w) [] (fun _ _ => True) 0x01 0 (fun _ => w.zeroExtend 64)

/-- R131, R139, R141, R144, R255, R312: instructions that trap.  A JALR to a misaligned target traps ALIGN with kind 3, and TVAL holds the target; SYS.ERET,
SYS.REFSYNC and DBG.WPREL are the supervisor's, and in user mode each traps ILL; a TLWAIT for a value beyond the last identifier of its channel
traps TLBEYOND with that value.  The vector gives the pc without its two low bits, which is the model's choice (logged as assumption 89). -/
def Obligations.InstructionTraps : Prop :=
  ∀ (d a : Reg) (i : BitVec 16) (k : BitVec 3),
    Traps (.jalr d a i) [d.toNat, a.toNat] (fun _ y => (y.arch.r a + i.signExtend 64).extractLsb 1 0 ≠ 0) 0x02 3
      (fun r => r.r a + i.signExtend 64) ∧
    Traps .sysEret [] (fun _ _ => True) 0x01 0 (fun _ => 0x0000_0003#64) ∧
    Traps (.sysRefsync a) [a.toNat] (fun _ _ => True) 0x01 0 (fun _ => ((encode (.sysRefsync a)).getD 0).zeroExtend 64) ∧
    Traps (.dbgWprel a) [a.toNat] (fun _ _ => True) 0x01 0 (fun _ => ((encode (.dbgWprel a)).getD 0).zeroExtend 64) ∧
    Traps (.syncTlwait a k) [a.toNat] (fun _ y => (y.arch.rcsr (cTID + k.toNat)).toNat < (y.arch.r a).toNat) 0x0A 0 (fun r => r.r a)

/-- R311, R317: a landing writes the frame at SAVEPTR: the resume PC, the 31 scalar registers and the listed CSRs as the checkpoint
has them.  Every byte of memory outside the frame is as it was. -/
def Obligations.TrapFrame : Prop :=
  ∀ (s : State) (y : Hart) (sh : Sheaf) (w : W32) (h : Nat), s.CanRun [] y → s.CanLand y sh →
    (∀ k x, s.hart k = some x → x.held = none) → (sh.cp.rcsr cSAVEPTR).toNat % 4096 = 0 →
    homeOf s sh.cp.grant (sh.cp.rcsr cPTROOT) (sh.cp.rcsr cSAVEPTR).toNat kWrite false = some h →
    ∃ t, exec (.illegalInstructionWord w) s = .next t ∧
      memNat t (h + 0x40) 8 = sh.cp.pc.toNat ∧
      (∀ i < 31, memNat t (h + 0x48 + 8 * i) 8 = (sh.cp.rx (i + 1)).toNat) ∧
      memNat t (h + 0x140) 8 = (sh.cp.rcsr cVL).toNat ∧ memNat t (h + 0x148) 8 = (sh.cp.rcsr cVTYPE).toNat ∧
      memNat t (h + 0x150) 8 = (sh.cp.rcsr cFCSR).toNat ∧ memNat t (h + 0x160) 8 = (sh.cp.rcsr cSRSEED).toNat ∧
      (∀ a, a < h ∨ h + 0x300 ≤ a → fget 0 t.mem a = fget 0 s.mem a)

/-! ### CSR and SYS instructions -/

/-- R44, R135, R136, R58, R310: the CSR instructions, and the rows that name one of their registers, read and write as their rules say.  The numbers
that R44 lists, who may access and write each, and what each reads: VCP, the mask unit counters, the timeline and inbound counters, CHBIND,
CHERR, GBARC, WPHIT and the counters of events read their state, and every other CSR what it holds. -/
def Obligations.CsrInstructions : Prop :=
  (∀ (d a : Reg) (c : BitVec 12) (op : CsrOp) (t : BitVec 2) (w : BitVec 4),
    CsrDone (.csrRd d c) none d 0 c.toNat ∧ CsrDone (.csrWr d a c) (some .wr) d a c.toNat ∧
    CsrDone (.csrSet d a c) (some .set) d a c.toNat ∧ CsrDone (.csrClr d a c) (some .clr) d a c.toNat ∧
    CsrDone (.fcsrWrite op d a) (some op) d a cFCSR ∧ CsrDone (.fcsrRead d) none d 0 cFCSR ∧
    CsrDone (.srseedWrite op d a) (some op) d a cSRSEED ∧ CsrDone (.srseedRead d) none d 0 cSRSEED ∧
    CsrDone (.btcfgWrite t op d a) (some op) d a (0x12 + 4 * t.toNat) ∧
    CsrDone (.mskshapeWrite op d a) (some op) d a cMSKSHAPE ∧ CsrDone (.docnWrite op d a) (some op) d a cDOCN ∧
    CsrDone (.zstateWrite op d a) (some op) d a cZSTATE ∧ CsrDone (.hstatusWrite op d a) (some op) d a cHSTATUS ∧
    CsrDone (.wpctlWrite w op d a) (some op) d a (0x420 + w.toNat)) ∧
  -- the rows of R44 by access
  (let run (lo n : Nat) : List Nat := (List.range n).map (lo + ·)
   let userRo := run 0x000 6 ++ [0x007, 0x009] ++ run 0x100 9 ++ run 0x118 3 ++ run 0x200 18 ++ [0x218] ++ run 0x240 64 ++ run 0x500 6 ++ run 0x510 4
   let userRw := [0x006, 0x008] ++ run 0x010 3 ++ run 0x014 3 ++ run 0x018 3 ++ run 0x01C 3 ++ run 0x110 3
   let supRo := [0x310, 0x430, 0x441]
   let supRw := run 0x300 13 ++ run 0x400 48 ++ [0x440, 0x450]
   (∀ n < 4096,
     (csrListed n = true ↔ n ∈ userRo ++ userRw ++ supRo ++ supRw) ∧
     (csrListed n = true → (csrSup n = true ↔ n ∈ supRo ++ supRw)) ∧
     (csrWritable false n = true ↔ n ∈ userRw) ∧ (csrWritable true n = true ↔ n ∈ userRw ++ supRw ++ [cZSTATE])) ∧
   -- what each reads
   ∀ (s : State) (x : Hart),
     readCsr s x cVCP = (match x.sheaves with | [] => x.arch.pc | sh :: _ => sh.startPc) ∧
     (∀ k < 3, readCsr s x (0x118 + k) = fget 0 s.mskcnt (x.arch.grant.base * 3 + k)) ∧
     (∀ k < 8, ∀ c, x.chans[k]? = some c → readCsr s x (0x200 + k) = BitVec.ofNat 64 c.tl ∧
       ((readCsr s x 0x210).getLsbD k = true ↔ c.ctx.isSome) ∧ ((readCsr s x 0x211).getLsbD k = true ↔ c.err.isSome)) ∧
     (∀ g, ffind s.gangs x.gang = some g → g.gen < 2 ^ 32 → g.arrived.length ≤ 64 →
       bits (readCsr s x 0x218).toNat 63 32 = g.gen ∧ bits (readCsr s x 0x218).toNat 31 0 = g.arrived.length) ∧
     (∀ k < 64, readCsr s x (0x240 + k) = fget 0 x.ic k) ∧
     (x.held = none → readCsr s x cWPHIT = 0) ∧ (∀ w < 16, x.held = some w → readCsr s x cWPHIT = BitVec.ofNat 64 (16 + w)) ∧
     (∀ n ∈ run 0x500 6 ++ run 0x510 4 ++ [cTRLOSS], readCsr s x n = fget 0 x.cnt n) ∧
     ∀ n ∈ [cVL, cVTYPE, cVLENB, cGRANT, cSTRIP, cFCSR, cRUNBASE, cSRSEED, cHARTINFO, cZSTATE, cDOCB, cDOCN, cMSKSHAPE, cTRCTL, cBNDTAB] ++
         run 0x010 3 ++ run 0x014 3 ++ run 0x018 3 ++ run 0x01C 3 ++ run 0x100 8 ++ run 0x208 8 ++ run 0x300 13 ++ [cADVPTR] ++ run 0x400 48,
       readCsr s x n = x.arch.rcsr n)

/-- R44, R135, R97, R312: a CSR instruction on a number that the map does not list, on a supervisor's CSR in user mode, or that writes a CSR it may not
write, traps ILL, and so does a write of a value that the CSR's rule rejects (R39, R43, R225, R320); so do the rows that name one of their
registers.  In supervisor mode that is a double trap.  The vector gives the pc without its two low bits, and the report of a double trap has its form,
which are the model's choices (logged as assumptions 89 and 20). -/
def Obligations.CsrRefusals : Prop :=
  ∀ (d a : Reg) (c : BitVec 12) (op : CsrOp) (t : BitVec 2) (w : BitVec 4),
    let word (i : Instr) : Arch → W64 := fun _ => ((encode i).getD 0).zeroExtend 64
    -- the word of a row is that of the CSR instruction on its register
    let code (o : CsrOp) (n : Nat) : Instr := match o with
      | .wr => .csrWr d a (BitVec.ofNat 12 n) | .set => .csrSet d a (BitVec.ofNat 12 n) | .clr => .csrClr d a (BitVec.ofNat 12 n)
    let writes (o : CsrOp) : Prop := o = .wr ∨ a ≠ 0
    let user (i : Instr) (o : CsrOp) (n : Nat) : Prop := Traps i [d.toNat, a.toNat]
      (fun s y => csrListed n = false ∨ csrSup n = true ∨
        (writes o ∧ (csrWritable false n = false ∨ csrAccepts y.arch.grant n (csrAsked s y o d a n) = false))) 0x01 0 (word (code o n))
    let sup (i : Instr) (o : CsrOp) (n : Nat) : Prop := DoubleTraps i [d.toNat, a.toNat]
      (fun s y => csrListed n = false ∨
        (writes o ∧ (csrWritable true n = false ∨ csrAccepts y.arch.grant n (csrAsked s y o d a n) = false))) 0x01 0 (word (code o n))
    let both (i : Instr) (o : CsrOp) (n : Nat) : Prop := user i o n ∧ sup i o n
    Traps (.csrRd d c) [d.toNat, 0] (fun _ _ => csrListed c.toNat = false ∨ csrSup c.toNat = true) 0x01 0 (word (.csrRd d c)) ∧
    DoubleTraps (.csrRd d c) [d.toNat, 0] (fun _ _ => csrListed c.toNat = false) 0x01 0 (word (.csrRd d c)) ∧
    both (.csrWr d a c) .wr c.toNat ∧ both (.csrSet d a c) .set c.toNat ∧ both (.csrClr d a c) .clr c.toNat ∧
    both (.fcsrWrite op d a) op cFCSR ∧ both (.srseedWrite op d a) op cSRSEED ∧ both (.btcfgWrite t op d a) op (0x12 + 4 * t.toNat) ∧
    both (.mskshapeWrite op d a) op cMSKSHAPE ∧ both (.docnWrite op d a) op cDOCN ∧ both (.zstateWrite op d a) op cZSTATE ∧
    both (.hstatusWrite op d a) op cHSTATUS ∧ both (.wpctlWrite w op d a) op (0x420 + w.toNat)

/-- R137, R264, R266, R307, R311: SYS.ECALL and SYS.EBREAK of a user end the sheaf before them, which commits, and then trap with TPC their own
address at a forced split point: the landing state is the state at the instruction, and SPLIT is set.  INSTRET counts the committed sheaf without the
call itself, and the vector gives the pc without its two low bits: both are the model's choices (logged as assumptions 17 and 89). -/
def Obligations.CallsTrap : Prop :=
  ∀ (s : State) (y : Hart) (sh : Sheaf), s.CanEnd [] y sh → y.arch.sup = false → sh.sup = false → y.preempt = 0 →
    let enters (i : Instr) (cause : Nat) : Prop := ∃ t z, exec i s = .next t ∧ t.hart s.cur = some z ∧
      t.stamp = s.stamp + 1 ∧
      z.arch = { y.arch with pc := alignPc (y.arch.rcsr cTVEC), csr := z.arch.csr, nextSplit := y.arch.nextSplit + 1 } ∧
      z.arch.rcsr cTCAUSE = BitVec.ofNat 64 (cause + 2 ^ 10) ∧ z.arch.rcsr cTPC = y.arch.pc ∧
      z.arch.rcsr 0x302 = y.arch.stripPc ∧ z.arch.rcsr 0x303 = y.arch.rcsr cSTRIP ∧ z.arch.rcsr 0x304 = BitVec.ofNat 64 y.arch.nextSplit ∧
      z.arch.rcsr 0x305 = 0 ∧ z.arch.rcsr 0x306 = 0 ∧ z.arch.rcsr 0x307 = 0 ∧
      z.arch.rcsr cHSTATUS = setBits (y.arch.rcsr cHSTATUS) 1 0 1 ∧
      (∀ n, ¬ recordCsr n → z.arch.rcsr n = y.arch.rcsr n) ∧
      z.sheaves = [] ∧ z.wait = .none ∧
      z.landing = some { arch := { y.arch with nextSplit := y.arch.nextSplit + 1 }, cap := 0, squash := 0 } ∧
      fget 0 z.cnt cINSTRET = fget 0 y.cnt cINSTRET + BitVec.ofNat 64 sh.seq
    enters .sysEcall 0x0C ∧ enters .sysEbreak 0x0D

/-- R10, R58, R139, R313: SYS.ERET returns to user mode.  x1 to x31 and the CSRs that the frame gives, FCSR, SRSEED, DOCB, DOCN, MSKSHAPE and
BT0BASE to BT3CFG, are reloaded from it, without their reserved bits and with 1 for a 0 in SRSEED; everything else of the
landing state comes from the hart's own copy, tiles and ZSTATE stay as the supervisor leaves them, and the hart resumes at TPC + 4
after ECALL and EBREAK and else at the landing point.  That a TPC of the supervisor's own making counts without its two low bits is the model's choice
(logged as assumption 89). -/
def Obligations.EretReturns : Prop :=
  ∀ (s : State) (x : Hart) (sh : Sheaf) (l : Landing), s.CanEnd [] x sh → x.arch.sup = true →
    sh.writes = [] → sh.reds = [] → s.arb.heldWrites = [] → x.landing = some l →
    let frame (off : Nat) (old : W64) : W64 :=
      (s.peek x.arch.grant (x.arch.rcsr cPTROOT) ((x.arch.rcsr cSAVEPTR).toNat + off)).getD old
    let reloaded (n off : Nat) : W64 := match s.peek x.arch.grant (x.arch.rcsr cPTROOT) ((x.arch.rcsr cSAVEPTR).toNat + off) with
      | some v => if n = cSRSEED then (if v = 0 then 1 else v) else v &&& csrMask n
      | none => l.arch.rcsr n
    (∀ k < 4, btcfgOk (reloaded (0x12 + 4 * k) (0x1A0 + 24 * k)) = true) →
    mskshapeOk l.arch.grant (reloaded cMSKSHAPE 0x180) = true →
    ∃ t z, exec .sysEret s = .next t ∧ t.hart s.cur = some z ∧
      z.arch.sup = false ∧ z.landing = none ∧ z.sheaves = [] ∧ z.cap = l.cap ∧ z.squash = l.squash ∧
      z.arch.pc = (if bits (x.arch.rcsr cTCAUSE).toNat 7 0 = 0x0C ∨ bits (x.arch.rcsr cTCAUSE).toNat 7 0 = 0x0D
        then alignPc (x.arch.rcsr cTPC + 4) else l.arch.pc) ∧
      (∀ i < 31, z.arch.rx (i + 1) = frame (0x48 + 8 * i) (l.arch.rx (i + 1))) ∧
      (∀ e ∈ [(cFCSR, 0x150), (cSRSEED, 0x160), (cDOCB, 0x170), (cDOCN, 0x178), (cMSKSHAPE, 0x180)],
        z.arch.rcsr e.1 = reloaded e.1 e.2) ∧
      (∀ k < 4, ∀ j < 3, z.arch.rcsr (0x10 + 4 * k + j) = reloaded (0x10 + 4 * k + j) (0x190 + 24 * k + 8 * j)) ∧
      (∀ n ∈ [cVL, cVTYPE, cSTRIP, cRUNBASE] ++ (List.range 8).map (cZCFG + ·) ++ (List.range 8).map (cTID + ·),
        z.arch.rcsr n = l.arch.rcsr n) ∧
      z.arch.rcsr cZSTATE = x.arch.rcsr cZSTATE ∧ z.arch.z = x.arch.z ∧
      z.arch.v = l.arch.v ∧ z.arch.m = l.arch.m ∧ z.arch.q = l.arch.q ∧ z.arch.tam = l.arch.tam ∧ z.arch.mp = l.arch.mp ∧
      z.arch.nextSplit = l.arch.nextSplit

/-- R312: a trap in supervisor mode is a double trap: the hart ends at once, and the system cores receive its record and the record that the
trap CSRs held.  The form of the report, its kind 1 and the order hart, second record, first record, is the model's choice (logged as assumption
20), and so are that of the reports of kind 3 that may follow for what the hart's channels leave behind, and that a hart keeps its grant while commands
of it are under way. -/
def Obligations.DoubleTrapEnds : Prop :=
  ∀ (w : W32) (k : BitVec 3) (a : Reg),
    DoubleTraps (.illegalInstructionWord w) [] (fun _ _ => True) 0x01 0 (fun _ => w.zeroExtend 64) ∧
    DoubleTraps (.syncTlwait a k) [a.toNat] (fun _ y => (y.arch.rcsr (cTID + k.toNat)).toNat < (y.arch.r a).toNat) 0x0A 0 (fun r => r.r a)

/-- R140 to R142, R287, R312: SYS.WFI changes no register and waits for at most 65,536 ck; SYS.REFSYNC completes at once for a number that names
no pseudo-channel and else waits for its sequencer's tick of bank 0, which may have fallen in this ck; an ECALL of the supervisor goes to the system cores
once its sheaf has committed, and waits for their answer; MARK changes no
semantic state, and in user mode its delivery changes the sequencer as R287's table says.  That INSTRET does not count the supervisor's ECALL, and
the form of what the system cores receive, are the model's choices (logged as assumptions 17 and 20). -/
def Obligations.WaitsAndMarks : Prop :=
  (∀ s y, s.CanRun [] y → ∃ t z, exec .sysWfi s = .next t ∧ s.Alone t ∧ t.hart s.cur = some z ∧
    z = { y with wait := .wfi (s.now + 65536), blocked := true, onLoad := [], noProg := 0, cnt := (Hart.tick 1 { y with blocked := false }).cnt }) ∧
  (∀ (a : Reg) (s : State) (y : Hart) (sh : Sheaf), s.CanRun [a.toNat] y → y.arch.sup = true → y.cur = some sh →
    (Config.pseudoChannels s.bare ≤ (y.arch.r a).toNat → ∃ t z, exec (.sysRefsync a) s = .next t ∧ s.Alone t ∧
      t.hart s.cur = some z ∧ y.Executed z [a.toNat] y.arch.next sh) ∧
    ((y.arch.r a).toNat < Config.pseudoChannels s.bare → y.pend = [] → ∃ t z, exec (.sysRefsync a) s = .next t ∧
      t.hart s.cur = some z ∧ z.arch = y.arch ∧ t.mem = s.mem ∧
      z.wait = (if s.tickedNow (y.arch.r a).toNat then .synced else .refsync (y.arch.r a).toNat s.now) ∧
      (s.tickedNow (y.arch.r a).toNat = true → (t.ctl (y.arch.r a).toNat).owed = []))) ∧
  (∀ s y sh, s.CanEnd [] y sh → y.arch.sup = true → sh.sup = true → ∃ t z, exec .sysEcall s = .next t ∧
    t.hart s.cur = some z ∧ z.wait = .answer true ∧ y.Ended z sh sh.seq y.arch ∧
    t.mg.outbox = s.mg.outbox ++ [(2, BitVec.ofNat 64 s.cur :: (List.range 8).map (fun i => y.arch.rcsr (0x300 + i)) ++ [y.arch.rcsr cSAVEPTR])]) ∧
  (∀ (a : Reg) (i : BitVec 16) (s : State) (y : Hart), s.CanRun [a.toNat] y → ∃ t z sh, exec (.mark a i) s = .next t ∧
    s.Alone t ∧ t.hart s.cur = some z ∧ y.cur = some sh ∧
    z = { y with arch := y.arch.next, sheaves := y.sheaves.dropLast ++ [{ sh with seq := sh.seq + 1, asks := [] }], bq := y.bqAfter [a.toNat],
                 blocked := false, noProg := 0, adv := z.adv, cnt := z.cnt } ∧
    (∀ n, n ≠ cCYCLE → n < cADVDROP → fget 0 z.cnt n = fget 0 y.cnt n) ∧
    (y.adv = none ∨ y.arch.sup = true → y.Executed z [a.toNat] y.arch.next sh) ∧
    (∀ v, y.adv = some v → y.arch.sup = false → ∃ b, z.adv = some b ∧ b.lastId = i.toNat ∧ b.lastArg = y.arch.r a ∧ b.p = v.p ∧ b.queue = v.queue ∧
      (v.mode = .await i.toNat → b.mode = .run ∧ b.apc = v.apc) ∧
      (v.mode ≠ .await i.toNat → ∀ e, markBlock s y i.toNat = some e → b.mode = .run ∧ b.apc = e) ∧
      (v.mode ≠ .await i.toNat → markBlock s y i.toNat = none → b.mode = .idle) ∧
      fget 0 z.cnt cADVREALIGN = fget 0 y.cnt cADVREALIGN + (if v.mode = .await i.toNat ∨ v.mode = .idle then 0 else 1)))

/-- R144, R322: DBG.WPREL ends a HOLD stop.  A release goes on in the same sheaf at the resume point in user mode; an abort discards the
sheaf, makes the record one of a WATCH trap with HOLD 0, and leaves the hart in the supervisor with the sheaf's checkpoint as what ERET returns
to. -/
def Obligations.HoldStopEnds : Prop :=
  ∀ (a : Reg) (s : State) (x : Hart) (k : Sheaf) (l : Landing) (w v : Nat) (tr : Trap),
    s.hart s.cur = some x → x.arch.sup = true → x.held = some w → x.sheaves = [k] → k.held = some (v, tr) →
    k.want = none → k.trap = none → k.closed = none → x.queue = [] → x.bq = [] → x.pend = [] → x.ahead = false →
    (s.arb.token = some s.cur → s.arb.heldWrites = []) → x.landing = some l →
    (bit (x.arch.r a).toNat 0 = false → ∀ b, s.reload x.arch (({ l.arch with
        v := x.arch.v, m := x.arch.m, q := x.arch.q, tam := x.arch.tam, mp := x.arch.mp } : Arch).shapesOf x.arch) = some b →
      ∃ t z, exec (.dbgWprel a) s = .next t ∧ t.hart s.cur = some z ∧ z.arch = b ∧ z.arch.sup = false ∧
        z.arch.pc = l.arch.pc ∧ z.held = none ∧ z.landing = none ∧ z.sheaves = [{ k with held := none }] ∧ t.mem = s.mem) ∧
    (bit (x.arch.r a).toNat 0 = true →
      ∃ t z, exec (.dbgWprel a) s = .next t ∧ t.hart s.cur = some z ∧ z.held = none ∧ z.sheaves = [] ∧
        z.arch.pc = x.arch.pc + 4 ∧ z.arch.sup = true ∧
        z.arch.rcsr 0x300 = BitVec.ofNat 64 (tr.cause + tr.kind * 2 ^ 8 + (if k.bySplit then 2 ^ 10 else 0)) ∧
        z.arch.rcsr 0x301 = tr.tpc ∧ z.arch.rcsr 0x302 = k.stripPc ∧ z.arch.rcsr 0x303 = k.strip ∧
        z.arch.rcsr 0x304 = BitVec.ofNat 64 k.split ∧ z.arch.rcsr 0x305 = tr.telem ∧ z.arch.rcsr 0x306 = tr.tlane ∧ z.arch.rcsr 0x307 = tr.tval ∧
        z.landing = some { arch := k.cp, cap := x.cap, squash := x.squash } ∧
        z.arch.v = k.cp.v ∧ z.arch.m = k.cp.m ∧ z.arch.q = k.cp.q ∧ z.arch.z = k.cp.z ∧
        ∀ i < 8, z.arch.rcsr (cZCFG + i) = k.cp.rcsr (cZCFG + i))

/-! ### Synchronisation -/

/-- R150, R254 to R260: the SYNC instructions.  SHEAF, GBAR and TLWAIT end the sheaf, which commits; TLWAIT goes on where its counter is
reached, GBAR arrives at the barrier; TLREAD reads a counter and QDRAIN waits without ending the sheaf; BTINV empties the block-table
cache. -/
def Obligations.SyncInstructions : Prop :=
  (∀ s y sh, s.CanEnd [] y sh → ∃ t z, exec .syncSheaf s = .next t ∧ t.hart s.cur = some z ∧ t.stamp = s.stamp + 1 ∧
    z.wait = .none ∧ y.Ended z sh (sh.seq + 1) y.arch.next) ∧
  (∀ s y sh q, s.CanEnd [] y sh → y.parked = false → ffind s.gangs y.gang = some q →
    ∃ t z, exec .syncGbar s = .next t ∧ t.hart s.cur = some z ∧ t.stamp = s.stamp + 1 ∧ y.Ended z sh (sh.seq + 1) y.arch.next ∧
      (q.live.all (fun h => (s.cur :: q.arrived).contains h) = false → z.wait = .gbar q.gen true ∧
        ffind t.gangs y.gang = some { q with arrived := s.cur :: q.arrived }) ∧
      (q.live ≠ [] → q.live.contains s.cur = true → q.live.all (fun h => (s.cur :: q.arrived).contains h) = true → z.wait = .none ∧
        ffind t.gangs y.gang = some { q with arrived := [], gen := (q.gen + 1) % 2 ^ 32 })) ∧
  (∀ (a : Reg) (k : BitVec 3) s y sh c, s.CanEnd [a.toNat] y sh → y.parked = false → y.chans[k.toNat]? = some c →
    c.err = none → (y.arch.r a).toNat ≤ (y.arch.rcsr (cTID + k.toNat)).toNat →
    ∃ t z, exec (.syncTlwait a k) s = .next t ∧ t.hart s.cur = some z ∧ y.Ended z sh (sh.seq + 1) y.arch.next ∧
      z.wait = (if (y.arch.r a).toNat ≤ c.tl then .none else .tlwait k.toNat (y.arch.r a) y.arch.pc)) ∧
  (∀ (a b : Reg) s y sh, s.CanEnd [a.toNat, b.toNat] y sh → y.parked = false → s.bare = false →
    ∃ t z, exec (.syncTlwaitIc a b) s = .next t ∧ t.hart s.cur = some z ∧ y.Ended z sh (sh.seq + 1) y.arch.next ∧
      let n := (y.arch.r b).toNat % 64
      z.wait = (if (y.arch.r a).toNat ≤ (fget 0 y.ic n).toNat then .none else .icwait n (y.arch.r a) y.arch.pc)) ∧
  (∀ (d : Reg) (k : BitVec 3) s y, s.CanRun [d.toNat] y → ∃ t z sh, exec (.syncTlread d k) s = .next t ∧ s.Alone t ∧
    t.hart s.cur = some z ∧ y.cur = some sh ∧ y.Executed z [d.toNat]
      (y.arch.wx d.toNat (BitVec.ofNat 64 ((y.chans[k.toNat]?.map (·.tl)).getD 0))).next sh) ∧
  (∀ (d b : Reg) s y, s.CanRun [d.toNat, b.toNat] y → ∃ t z sh, exec (.syncTlreadIc d b) s = .next t ∧ s.Alone t ∧
    t.hart s.cur = some z ∧ y.cur = some sh ∧ y.Executed z [d.toNat, b.toNat]
      (y.arch.wx d.toNat (fget 0 y.ic ((y.arch.r b).toNat % 64))).next sh) ∧
  (∀ (q : BitVec 4) s y, s.CanRun [] y → y.qdrained q.toNat = true → ∃ t z, exec (.syncQdrain q) s = .next t ∧ s.Alone t ∧
    t.hart s.cur = some z ∧ z.arch = y.arch.next ∧ z.wait = .none ∧ z.bq = (if bit q.toNat 3 then [] else y.bq)) ∧
  (∀ s y, s.CanRun [] y → y.sheaves.length ≤ y.front + 1 → ∃ t z sh, exec .syncBtinv s = .next t ∧ s.Alone t ∧
    t.hart s.cur = some z ∧ y.cur = some sh ∧ ({ y with btcache := [] } : Hart).Executed z [] y.arch.next sh)

/-! ### The vector side -/

/-- R177: the element functions of VINT, as arithmetic of bit vectors of the width. -/
def Obligations.IntegerFunctions : Prop :=
  ∀ (w : Nat) (a y d : BitVec w), 0 < w →
    let is (f : IntFn) (r : BitVec w) : Prop := intElem f w a.toNat y.toNat d.toNat = r.toNat
    let ones : BitVec w := BitVec.allOnes w
    let k := y.toNat % w
    is .add (a + y) ∧ is .sub (a - y) ∧ is .rsub (y - a) ∧ is .mul (a * y) ∧
    is .mulh (BitVec.ofInt w (a.toInt * y.toInt / 2 ^ w)) ∧ is .mulhu (BitVec.ofNat w (a.toNat * y.toNat / 2 ^ w)) ∧
    is .div (if y = 0 then ones else a.sdiv y) ∧ is .divu (if y = 0 then ones else a / y) ∧
    is .rem (if y = 0 then a else a.srem y) ∧ is .remu (if y = 0 then a else a % y) ∧
    is .and (a &&& y) ∧ is .or (a ||| y) ∧ is .xor (a ^^^ y) ∧
    is .sll (a <<< k) ∧ is .srl (a >>> k) ∧ is .sra (a.sshiftRight k) ∧
    is .min (if a.slt y then a else y) ∧ is .minu (if a < y then a else y) ∧
    is .max (if y.slt a then a else y) ∧ is .maxu (if y < a then a else y) ∧
    is .sadd (BitVec.ofInt w (max (-2 ^ (w - 1)) (min (2 ^ (w - 1) - 1) (a.toInt + y.toInt)))) ∧
    is .ssub (BitVec.ofInt w (max (-2 ^ (w - 1)) (min (2 ^ (w - 1) - 1) (a.toInt - y.toInt)))) ∧
    is .saddu (BitVec.ofNat w (min (2 ^ w - 1) (a.toNat + y.toNat))) ∧ is .ssubu (BitVec.ofNat w (a.toNat - y.toNat)) ∧
    is .macc (d + a * y) ∧ is .merge y ∧ is .mv y

/-- R174, R176 to R178, R200: VINT, VINTX, VINTI and VIDX write each active element as their function states and leave every other
element, the rest of the registers and the flags unchanged; MERGE and VIDX write every element below VL. -/
def Obligations.VectorIntegers : Prop :=
  ∀ (d a b : Reg) (i5 : BitVec 5) (m : BitVec 3) (st : BitVec 11) (sp : BitVec 10),
    -- the function `f` of va and an operand, into vd
    let arith (i : Instr) (rs : List Nat) (f : IntFn) (usesA : Bool) (src : Arch → VSrc) : Prop :=
      VecRuns i rs none
        (fun e x => e.isInt ∧ e.groupHere d.toNat ∧ (usesA → e.groupHere a.toNat) ∧ e.srcOk (src x))
        (fun e x => x.calm (SetsElems e.vb e.sew d.toNat e.lmul (fun j => given (e.isActive x m.toNat j)
          (intElem f e.sew (getElem x e.vb e.sew a.toNat j) (e.src x (src x) j) (getElem x e.vb e.sew d.toNat j))) x))
    let merge (i : Instr) (rs : List Nat) (src : Arch → VSrc) : Prop :=
      VecRuns i rs none
        (fun e x => e.isInt ∧ e.groupHere d.toNat ∧ e.groupHere a.toNat ∧ e.srcOk (src x))
        (fun e x => x.calm (SetsElems e.vb e.sew d.toNat e.lmul (fun j => given (j < e.vl)
          (if getMask x m.toNat j then e.src x (src x) j else getElem x e.vb e.sew a.toNat j)) x))
    let vec : Arch → VSrc := fun _ => .vec b.toNat
    let sca : Arch → VSrc := fun x => .scal (x.r b)
    let imm : Arch → VSrc := fun _ => .imm i5.toInt
    let sft : Arch → VSrc := fun _ => .imm i5.toNat
    arith (.vintAdd d a b m) [] .add true vec ∧ arith (.vintSub d a b m) [] .sub true vec ∧ arith (.vintMul d a b m) [] .mul true vec ∧
    arith (.vintMulh d a b m) [] .mulh true vec ∧ arith (.vintMulhu d a b m) [] .mulhu true vec ∧
    arith (.vintDiv d a b m) [] .div true vec ∧ arith (.vintDivu d a b m) [] .divu true vec ∧ arith (.vintRem d a b m) [] .rem true vec ∧
    arith (.vintRemu d a b m) [] .remu true vec ∧ arith (.vintAnd d a b m) [] .and true vec ∧ arith (.vintOr d a b m) [] .or true vec ∧
    arith (.vintXor d a b m) [] .xor true vec ∧ arith (.vintSll d a b m) [] .sll true vec ∧ arith (.vintSrl d a b m) [] .srl true vec ∧
    arith (.vintSra d a b m) [] .sra true vec ∧ arith (.vintMin d a b m) [] .min true vec ∧ arith (.vintMinu d a b m) [] .minu true vec ∧
    arith (.vintMax d a b m) [] .max true vec ∧ arith (.vintMaxu d a b m) [] .maxu true vec ∧
    arith (.vintSadd d a b m) [] .sadd true vec ∧ arith (.vintSaddu d a b m) [] .saddu true vec ∧
    arith (.vintSsub d a b m) [] .ssub true vec ∧ arith (.vintSsubu d a b m) [] .ssubu true vec ∧
    arith (.vintMacc d a b m) [] .macc true vec ∧ merge (.vintMerge d a b m) [] vec ∧
    arith (.vintMv d a m) [] .mv true (fun _ => .vec a.toNat) ∧ arith (.vintxAdd d a b m) [b.toNat] .add true sca ∧
    arith (.vintxSub d a b m) [b.toNat] .sub true sca ∧ arith (.vintxRsub d a b m) [b.toNat] .rsub true sca ∧
    arith (.vintxMul d a b m) [b.toNat] .mul true sca ∧ arith (.vintxMulh d a b m) [b.toNat] .mulh true sca ∧
    arith (.vintxMulhu d a b m) [b.toNat] .mulhu true sca ∧ arith (.vintxDiv d a b m) [b.toNat] .div true sca ∧
    arith (.vintxDivu d a b m) [b.toNat] .divu true sca ∧ arith (.vintxRem d a b m) [b.toNat] .rem true sca ∧
    arith (.vintxRemu d a b m) [b.toNat] .remu true sca ∧ arith (.vintxAnd d a b m) [b.toNat] .and true sca ∧
    arith (.vintxOr d a b m) [b.toNat] .or true sca ∧ arith (.vintxXor d a b m) [b.toNat] .xor true sca ∧
    arith (.vintxSll d a b m) [b.toNat] .sll true sca ∧ arith (.vintxSrl d a b m) [b.toNat] .srl true sca ∧
    arith (.vintxSra d a b m) [b.toNat] .sra true sca ∧ arith (.vintxMin d a b m) [b.toNat] .min true sca ∧
    arith (.vintxMinu d a b m) [b.toNat] .minu true sca ∧ arith (.vintxMax d a b m) [b.toNat] .max true sca ∧
    arith (.vintxMaxu d a b m) [b.toNat] .maxu true sca ∧ arith (.vintxSadd d a b m) [b.toNat] .sadd true sca ∧
    arith (.vintxSaddu d a b m) [b.toNat] .saddu true sca ∧ arith (.vintxSsub d a b m) [b.toNat] .ssub true sca ∧
    arith (.vintxSsubu d a b m) [b.toNat] .ssubu true sca ∧ arith (.vintxMacc d a b m) [b.toNat] .macc true sca ∧
    merge (.vintxMerge d a b m) [b.toNat] sca ∧ arith (.vintxMv d b m) [b.toNat] .mv false sca ∧
    arith (.vintiAdd d a i5 m) [] .add true imm ∧ arith (.vintiRsub d a i5 m) [] .rsub true imm ∧
    arith (.vintiAnd d a i5 m) [] .and true imm ∧ arith (.vintiOr d a i5 m) [] .or true imm ∧
    arith (.vintiXor d a i5 m) [] .xor true imm ∧ arith (.vintiSadd d a i5 m) [] .sadd true imm ∧
    arith (.vintiSaddu d a i5 m) [] .saddu true imm ∧ arith (.vintiSll d a i5 m) [] .sll true sft ∧
    arith (.vintiSrl d a i5 m) [] .srl true sft ∧ arith (.vintiSra d a i5 m) [] .sra true sft ∧ merge (.vintiMerge d a i5 m) [] imm ∧
    arith (.vintiMv d i5 m) [] .mv false imm ∧ VecRuns (.vidx d st sp) [] none (fun e _ => e.isInt ∧ e.groupHere d.toNat)
      (fun e x => x.calm (SetsElems e.vb e.sew d.toNat e.lmul
        (fun j => given (j < e.vl) (BitVec.ofInt e.sew (st.toInt + j * sp.toInt)).toNat) x))

/-- R60 to R62, R179, R180: VFP and VFPX write each active element as their function states and OR the flags of all of them into FCSR;
under SR each rounding step of an active element, in ascending order, takes the next draw.  What a step gives where FRM is 5 to 7 is the model's choice
(logged as assumption 100), here and in every statement on an instruction that rounds. -/
def Obligations.VectorFloats : Prop :=
  ∀ (d a b : Reg) (m : BitVec 3),
    let rounds (i : Instr) (rs : List Nat) (src : Arch → VSrc) (f : Nat → FV → FV → FV → FV × Nat) : Prop :=
      VecRuns i rs none
        (fun e x => e.isFloat ∧ 16 ≤ e.sew ∧ e.groupHere d.toNat ∧ e.groupHere a.toNat ∧ e.srcOk (src x))
        (fun e x => e.elementwise x m.toNat true e.sew d.toNat (fun g j =>
          roundsTo e.fmt e.frm false g (f e.frm (e.fmt.decode (getElem x e.vb e.sew a.toNat j)) (e.fmt.decode (e.src x (src x) j))
            (e.fmt.decode (getElem x e.vb e.sew d.toNat j)))))
    let moves (i : Instr) (rs : List Nat) (usesA : Bool) (src : Arch → VSrc) (f : Fmt → Nat → Nat → Nat × Nat) : Prop :=
      VecRuns i rs none
        (fun e x => e.isFloat ∧ e.groupHere d.toNat ∧ (usesA → e.groupHere a.toNat) ∧ e.srcOk (src x))
        (fun e x => e.elementwise x m.toNat false e.sew d.toNat (fun _ j =>
          f e.fmt (getElem x e.vb e.sew a.toNat j) (e.src x (src x) j)))
    let sgn (t : Fmt) (neg : Bool) (x : Nat) : Nat × Nat := (t.withSign neg (x % 2 ^ (t.w - 1)), 0)
    let s (t : Fmt) (x : Nat) : Bool := x.testBit (t.w - 1)
    let vec : Arch → VSrc := fun _ => .vec b.toNat
    let own : Arch → VSrc := fun _ => .vec a.toNat
    let sca : Arch → VSrc := fun x => .scal (x.r b)
    rounds (.vfpAdd d a b m) [] vec (fun r x y _ => sumFV r [x, y]) ∧
    rounds (.vfpSub d a b m) [] vec (fun r x y _ => sumFV r [x, y.negate]) ∧ rounds (.vfpMul d a b m) [] vec (fun _ x y _ => mulFV x y) ∧
    rounds (.vfpDiv d a b m) [] vec (fun _ x y _ => divFV x y) ∧ rounds (.vfpMacc d a b m) [] vec (fun r x y z => fmaFV r x y z) ∧
    rounds (.vfpNmacc d a b m) [] vec (fun r x y z => fmaFV r x.negate y z) ∧ rounds (.vfpSqrt d a m) [] own (fun _ x _ _ => sqrtFV x) ∧
    rounds (.vfpExp2 d a m) [] own (fun _ x _ _ => exp2FV x) ∧ moves (.vfpMin d a b m) [] true vec (fun t x y => minmax t false x y) ∧
    moves (.vfpMax d a b m) [] true vec (fun t x y => minmax t true x y) ∧
    moves (.vfpSgnj d a b m) [] true vec (fun t x y => sgn t (s t y) x) ∧
    moves (.vfpSgnjn d a b m) [] true vec (fun t x y => sgn t (!s t y) x) ∧
    moves (.vfpSgnjx d a b m) [] true vec (fun t x y => sgn t (s t x != s t y) x) ∧
    moves (.vfpClass d a m) [] true own (fun t x _ => (Nat.log2 (classOf t x), 0)) ∧
    moves (.vfpMv d a m) [] true own (fun _ _ y => (y, 0)) ∧ rounds (.vfpxAdd d a b m) [b.toNat] sca (fun r x y _ => sumFV r [x, y]) ∧
    rounds (.vfpxSub d a b m) [b.toNat] sca (fun r x y _ => sumFV r [x, y.negate]) ∧
    rounds (.vfpxMul d a b m) [b.toNat] sca (fun _ x y _ => mulFV x y) ∧
    rounds (.vfpxDiv d a b m) [b.toNat] sca (fun _ x y _ => divFV x y) ∧
    rounds (.vfpxMacc d a b m) [b.toNat] sca (fun r x y z => fmaFV r x y z) ∧
    rounds (.vfpxNmacc d a b m) [b.toNat] sca (fun r x y z => fmaFV r x.negate y z) ∧
    moves (.vfpxMin d a b m) [b.toNat] true sca (fun t x y => minmax t false x y) ∧
    moves (.vfpxMax d a b m) [b.toNat] true sca (fun t x y => minmax t true x y) ∧
    moves (.vfpxSgnj d a b m) [b.toNat] true sca (fun t x y => sgn t (s t y) x) ∧
    moves (.vfpxSgnjn d a b m) [b.toNat] true sca (fun t x y => sgn t (!s t y) x) ∧
    moves (.vfpxSgnjx d a b m) [b.toNat] true sca (fun t x y => sgn t (s t x != s t y) x) ∧
    moves (.vfpxMv d b m) [b.toNat] false sca (fun _ _ y => (y, 0))

/-- R181 to R187, R52, R55, R56: VCVT.  Each conversion reads a group of its source width and writes active elements of its destination
width; QMV and QRD move scales. -/
def Obligations.VectorConversions : Prop :=
  ∀ (d a : Reg) (q : BitVec 3) (m : BitVec 3) (sat : BitVec 1) (t : BitVec 3),
    let conv (i : Instr) (ok : QEntry → Prop) (rounds : Bool) (w : QEntry → Nat) (f : QEntry → Arch → W64 → Nat → Nat × Nat) : Prop :=
      VecRuns i [] none (fun e _ => ok e) (fun e x => e.elementwise x m.toNat rounds (w e) d.toNat (f e x))
    let toInt (w : Nat) (sg : Bool) (mode : Nat) (g : W64) (x : FV) : Nat × Nat :=
      let r := toIntFV w sg mode (draw mode g).1 x
      ((BitVec.ofInt w r.1).toNat, r.2)
    let iw := 8 * 2 ^ (t.toNat / 2)
    let nw := 4 * 2 ^ t.toNat
    let half (e : QEntry) : Prop := e.isFloat ∧ (e.sew = 16 ∨ e.sew = 32)
    let clamp (e : QEntry) (k : Int) : Nat :=
      (BitVec.ofInt e.sew (if e.isSigned then max (-2 ^ (e.sew - 1)) (min (2 ^ (e.sew - 1) - 1) k) else min (2 ^ e.sew - 1) k)).toNat
    let src (e : QEntry) (x : Arch) (w j : Nat) : Nat := getElem x e.vb w a.toNat j
    (∀ f, floatCode t.toNat = some f →
      conv (.vcvtFf d a m sat t) (fun e => e.isFloat ∧ e.cvtOk d.toNat a.toNat f.w ∧ satOk sat.toNat e.fmt) true (·.sew)
        (fun e x g j => let v := f.decode (src e x f.w j); roundsTo e.fmt e.frm (sat == 1) g (v, if v.isSig then fNV else 0)) ∧
      conv (.vcvtFi d a m t) (fun e => e.isInt ∧ 8 ≤ e.sew ∧ e.cvtOk d.toNat a.toNat f.w) true (·.sew)
        (fun e x g j => toInt e.sew e.isSigned e.frm g (f.decode (src e x f.w j))) ∧
      (1 ≤ t.toNat → t.toNat ≤ 3 → conv (.vcvtDs8e d a m t) (fun e => vtCls e.vt = 3 ∧ e.cvtOk d.toNat a.toNat f.w) false (fun _ => 8)
        (fun e x _ j => let v := f.decode (src e x f.w j)
          let r := roundDs8 e.frm v; (r.1, fOr r.2 (if v.isSig then fNV else 0))))) ∧
    conv (.vcvtIf d a m sat t) (fun e => e.isFloat ∧ e.cvtOk d.toNat a.toNat iw ∧ satOk sat.toNat e.fmt) true (·.sew)
      (fun e x g j => let k := src e x iw j
        roundsTo e.fmt e.frm (sat == 1) g (ofIntFV (if t.toNat % 2 = 0 then (BitVec.ofNat iw k).toInt else k), 0)) ∧
    conv (.vcvtNarrow d a m t) (fun e => e.isInt ∧ e.sew < nw ∧ t.toNat ≤ 4 ∧ e.cvtOk d.toNat a.toNat nw) false (·.sew)
      (fun e x _ j => let k := src e x nw j; (clamp e (if e.isSigned then (BitVec.ofNat nw k).toInt else k), 0)) ∧
    conv (.vcvtWiden d a m t) (fun e => e.isInt ∧ nw < e.sew ∧ t.toNat ≤ 4 ∧ e.cvtOk d.toNat a.toNat nw) false (·.sew)
      (fun e x _ j => let k := src e x nw j
        (if e.isSigned then (BitVec.ofInt e.sew (BitVec.ofNat nw k).toInt).toNat else k, 0)) ∧
    (∀ f, narrowCode t.toNat = some (.inl f) →
      conv (.vcvtDeq d a m t) (fun e => half e ∧ e.cvtOk d.toNat a.toNat f.w) true (·.sew)
        (fun e x g j => roundsTo e.fmt e.frm false g
          (mulFV (f.decode (src e x f.w j)) (scaleFV (getScale x (a.toNat % 8) (j / vtBlk e.vt))))) ∧
      conv (.vcvtQuant d a m sat t) (fun e => half e ∧ e.cvtOk a.toNat d.toNat f.w) true (fun _ => f.w)
        (fun e x g j => let k := getScale x (d.toNat % 8) (j / vtBlk e.vt)
          let v := e.fmt.decode (src e x e.sew j)
          roundsTo f e.frm (sat == 1) g (if v.isNan ∨ k = 255 then (.nan false, fNV) else (unscale v k, 0)))) ∧
    (∀ w sg, narrowCode t.toNat = some (.inr (w, sg)) →
      conv (.vcvtDeq d a m t) (fun e => half e ∧ e.cvtOk d.toNat a.toNat w) true (·.sew)
        (fun e x g j => let k := src e x w j
          roundsTo e.fmt e.frm false g (mulFV (ofIntFV (if sg then (BitVec.ofNat w k).toInt else k))
            (scaleFV (getScale x (a.toNat % 8) (j / vtBlk e.vt))))) ∧
      conv (.vcvtQuant d a m 0 t) (fun e => half e ∧ e.cvtOk a.toNat d.toNat w) true (fun _ => w)
        (fun e x g j => let k := getScale x (d.toNat % 8) (j / vtBlk e.vt)
          let v := e.fmt.decode (src e x e.sew j)
          toInt w sg e.frm g (if v.isNan ∨ k = 255 then .nan false else unscale v k))) ∧
    conv (.vcvtDs8d d a m) (fun e => half e ∧ e.cvtOk d.toNat a.toNat 8) false (·.sew)
      (fun e x _ j => ((roundTo e.fmt 0 false 0 (ds8FV (src e x 8 j))).1, 0)) ∧
    VecRuns (.vcvtQmv q a m) [] none (fun e _ => e.sew = 8 ∧ vtCls e.vt = 1 ∧ e.lmul = 1)
      (fun e x => x.calm (SetsScales q.toNat (fun j => given (e.isActive x m.toNat j) (src e x 8 j)) x)) ∧
    VecRuns (.vcvtQrd d q m) [] none (fun e _ => e.sew = 8 ∧ vtCls e.vt = 1 ∧ e.lmul = 1)
      (fun e x => x.calm (SetsElems e.vb 8 d.toNat 1 (fun j => given (e.isActive x m.toNat j) (getScale x q.toNat j)) x))

/-- R66 to R68, R188 to R190: a reduction combines its start value, element 0 of vb, with the selected elements; with VL of at least 1 it
writes element 0 of vd, and its BQ form delivers the result extended to 64 bits. -/
def Obligations.VectorReductions : Prop :=
  ∀ (d a b : Reg) (m : BitVec 3) (q : BitVec 1),
    let red (i : Instr) (ok : QEntry → Prop) (f : QEntry → Arch → (Nat → Nat) → Nat → Nat × Nat × W64) : Prop :=
      VecRuns i (if q = 1 then [d.toNat] else []) (if q = 1 then some d.toNat else none) (fun e _ => ok e ∧ e.groupHere a.toNat)
        (fun e x =>
          let start := getElem x e.vb e.sew b.toNat 0
          let r := f e x (getElem x e.vb e.sew a.toNat) start
          let some? := decide (1 ≤ e.vl)
          { fl := if some? then r.2.1 else 0
            seed := if some? then r.2.2 else x.rcsr cSRSEED
            zst := x.rcsr cZSTATE
            out := if q = 1 then some (if e.isSigned then BitVec.ofInt 64 (BitVec.ofNat e.sew (if some? then r.1 else start)).toInt
                else BitVec.ofNat 64 (if some? then r.1 else start)) else none
            regs := SetsElems e.vb e.sew d.toNat 1 (fun j => given (some? ∧ j = 0) r.1) x })
    let int (i : Instr) (f : IntFn) : Prop := red i (fun e => e.isInt)
      (fun e x v start => ((e.active x m.toNat).foldl (fun r j => intElem f e.sew r (v j) 0) start, 0, x.rcsr cSRSEED))
    let least (i : Instr) (big : Bool) : Prop := red i (fun e => e.isFloat)
      (fun e x v start =>
        let r := (e.active x m.toNat).foldl (fun (r : Nat × Nat) j => let o := minmax e.fmt big r.1 (v j); (o.1, fOr r.2 o.2)) (start, 0)
        (r.1, r.2, x.rcsr cSRSEED))
    let wide (e : QEntry) : Prop := e.isFloat ∧ 16 ≤ e.sew
    int (.vredSum d a b m q) .add ∧ int (.vredMin d a b m q) .min ∧ int (.vredMinu d a b m q) .minu ∧ int (.vredMax d a b m q) .max ∧
    int (.vredMaxu d a b m q) .maxu ∧ int (.vredAnd d a b m q) .and ∧ int (.vredOr d a b m q) .or ∧ int (.vredXor d a b m q) .xor ∧
    least (.vredFmin d a b m q) false ∧ least (.vredFmax d a b m q) true ∧
    -- one after the other, in ascending order
    red (.vredFsumo d a b m q) wide (fun e x v start =>
      (e.active x m.toNat).foldl (fun (r : Nat × Nat × W64) j =>
        let o := roundsTo e.fmt e.frm false r.2.2 (sumFV e.frm [e.fmt.decode r.1, e.fmt.decode (v j)])
        (o.1, fOr r.2.1 o.2, (draw e.frm r.2.2).2)) (start, 0, x.rcsr cSRSEED)) ∧
    -- the binary tree over the elements, level by level, and then the start value
    red (.vredFsumt d a b m q) wide (fun e x v start =>
      let leaves := (List.range (2 ^ Nat.clog 2 e.vl)).map (fun j => given (e.isActive x m.toNat j) (v j))
      let t := treeSum e.fmt e.frm e.fen 32 leaves (VAcc.start x)
      match t.1 with
      | none => (start, t.2.fl, t.2.seed)
      | some y =>
        let o := roundsTo e.fmt e.frm false t.2.seed (sumFV e.frm [e.fmt.decode start, e.fmt.decode y])
        (o.1, fOr t.2.fl o.2, (draw e.frm t.2.seed).2))

/-- R191 to R195: the permutations read all their sources before they write, within the domain of each element: the whole group in a
grant of one die, and a die's segment of a register in a larger one. -/
def Obligations.VectorPermutations : Prop :=
  ∀ (d a b : Reg) (m : BitVec 3),
    let perm (i : Instr) (rs : List Nat) (ok : QEntry → Prop) (f : QEntry → Arch → (Nat → Nat) → Nat → Option Nat) : Prop :=
      VecRuns i rs none (fun e _ => ok e)
        (fun e x => x.calm (SetsElems e.vb e.sew d.toNat e.lmul
          (fun j => if e.isActive x m.toNat j then f e x (getElem x e.vb e.sew a.toNat) j else none) x))
    let two (e : QEntry) : Prop := e.groupHere d.toNat ∧ e.groupHere a.toNat
    perm (.vpermSlup d a b m) [b.toNat] two (fun e x v j => given ((x.r b).toNat ≤ e.rank j) (v (j - (x.r b).toNat))) ∧
    perm (.vpermSldn d a b m) [b.toNat] two (fun e x v j =>
      some (if e.rank j + (x.r b).toNat < e.domSize then v (j + (x.r b).toNat) else 0)) ∧
    perm (.vpermGather d a b m) [] (fun e => two e ∧ e.groupHere b.toNat) (fun e x v j =>
      let r := getElem x e.vb e.sew b.toNat j
      some (if r < e.domSize then v (e.domBase j + r) else 0)) ∧
    perm (.vpermBcast d a b m) [b.toNat] two (fun e x v j =>
      some (if (x.r b).toNat < e.domSize then v (e.domBase j + (x.r b).toNat) else 0)) ∧
    perm (.vpermMvsx d b m) [b.toNat] (fun e => e.groupHere d.toNat) (fun e x _ _ => some ((x.r b).toNat % 2 ^ e.sew)) ∧
    perm (.vpermXchg d a b m) [b.toNat] two (fun e x v j =>
      let n := e.dieCount
      let sz := e.perReg / n
      some (v (j / e.perReg * e.perReg + (j % e.perReg / sz ^^^ (x.r b).toNat % n) * sz + j % sz))) ∧
    -- element j receives the selected element of which it is the place
    VecRuns (.vpermCompress d a m) [] none (fun e _ => two e)
      (fun e x => x.calm (SetsElems e.vb e.sew d.toNat e.lmul (fun j =>
        ((e.active x m.toNat).find? (fun i => e.domBase i + selBelow e x m.toNat i = j)).map (getElem x e.vb e.sew a.toNat)) x)) ∧
    perm (.vpermExpand d a m) [] two (fun e x v j => some (v (e.domBase j + selBelow e x m.toNat j))) ∧
    VecRuns (.vpermMvxs d a b) [d.toNat, b.toNat] (some d.toNat) (fun e _ => e.groupHere a.toNat)
      (fun e x => { x.calm (fun z => x.Only z []) with
        out := some (e.extend (if (x.r b).toNat < e.vlmax then getElem x e.vb e.sew a.toNat (x.r b).toNat else 0)) })

/-- R196 to R199: compares and CONFL write the active bits of a mask, the mask logic every bit below VL; POPC and FIRST deliver to the BQ. -/
def Obligations.VectorMasks : Prop :=
  ∀ (d : BitVec 3) (a b r : Reg) (m p q : BitVec 3) (x : BitVec 1),
    let cmp (i : Instr) (fl : Bool) (f : Fmt → (w : Nat) → BitVec w → BitVec w → Bool × Nat) : Prop :=
      VecRuns i (if x = 1 then [b.toNat] else []) none
        (fun e _ => (if fl then e.isFloat else e.isInt) ∧ e.groupHere a.toNat ∧ (x = 0 → e.groupHere b.toNat) ∧ d ≠ 0)
        (fun e s =>
          let y (j : Nat) : BitVec e.sew := if x = 1 then (s.r b).setWidth e.sew else BitVec.ofNat e.sew (getElem s e.vb e.sew b.toNat j)
          let o (j : Nat) : Bool × Nat := f e.fmt e.sew (BitVec.ofNat e.sew (getElem s e.vb e.sew a.toNat j)) (y j)
          { s.calm (SetsMask d.toNat (fun j => if e.isActive s m.toNat j then some (o j).1 else none) s) with
            fl := unionFlags ((e.active s m.toNat).map (fun j => (o j).2)) })
    let logic (i : Instr) (f : Bool → Bool → Bool) : Prop :=
      VecRuns i [] none (fun _ _ => d ≠ 0) (fun e s =>
        s.calm (SetsMask d.toNat (fun j => if j < e.vl then some (f (getMask s p.toNat j) (getMask s q.toNat j)) else none) s))
    cmp (.vmaskEq d a b m x) false (fun _ _ u v => (u == v, 0)) ∧ cmp (.vmaskNe d a b m x) false (fun _ _ u v => (u != v, 0)) ∧
    cmp (.vmaskLt d a b m x) false (fun _ _ u v => (u.slt v, 0)) ∧ cmp (.vmaskLtu d a b m x) false (fun _ _ u v => (u.ult v, 0)) ∧
    cmp (.vmaskLe d a b m x) false (fun _ _ u v => (u.sle v, 0)) ∧ cmp (.vmaskLeu d a b m x) false (fun _ _ u v => (u.ule v, 0)) ∧
    cmp (.vmaskGt d a b m x) false (fun _ _ u v => (v.slt u, 0)) ∧
    cmp (.vmaskFeq d a b m x) true (fun t _ u v => relate t 0 u.toNat v.toNat) ∧
    cmp (.vmaskFlt d a b m x) true (fun t _ u v => relate t 1 u.toNat v.toNat) ∧
    cmp (.vmaskFle d a b m x) true (fun t _ u v => relate t 2 u.toNat v.toNat) ∧
    logic (.vmaskAnd d p q) (· && ·) ∧ logic (.vmaskOr d p q) (· || ·) ∧ logic (.vmaskXor d p q) (· != ·) ∧
    logic (.vmaskAndn d p q) (fun u v => u && !v) ∧
    VecRuns (.vmaskPopc r p m) [r.toNat] (some r.toNat) (fun _ _ => True) (fun e s => { s.calm (fun z => s.Only z []) with
      out := some (BitVec.ofNat 64 ((e.active s m.toNat).countP (getMask s p.toNat))) }) ∧
    VecRuns (.vmaskFirst r p m) [r.toNat] (some r.toNat) (fun _ _ => True) (fun e s => { s.calm (fun z => s.Only z []) with
      out := some (match (e.active s m.toNat).find? (getMask s p.toNat) with
        | some i => BitVec.ofNat 64 i
        | none => 0xFFFF_FFFF_FFFF_FFFF#64) }) ∧
    VecRuns (.vmaskConfl d a m) [] none (fun e _ => d ≠ 0 ∧ e.groupHere a.toNat) (fun e s =>
      s.calm (SetsMask d.toNat (fun j => if e.isActive s m.toNat j then some (decide (∃ i < j, e.isActive s m.toNat i ∧
        getElem s e.vb e.sew a.toNat i = getElem s e.vb e.sew a.toNat j)) else none) s))

/-- R97, R98, R308, R309: a queued instruction that traps does so at its own address, with no effect of its sheaf left: ILL for the wrong
class of VTYPE (R176, R179) and for a quarter hart's MOP (R18), FPX for an enabled flag, with the lowest element that raises one (R39).  It has been issued,
and is charged (R335).  The vector gives the pc without its two low bits, which is the model's choice (logged as assumption 89). -/
def Obligations.VectorTraps : Prop :=
  ∀ (d a b : Reg) (m : BitVec 3) (z r : BitVec 3) (f : BitVec 4) (s : State) (y : Hart) (sh : Sheaf), s.VReady [] y sh →
    y.preempted = false → s.NoToken →
    let e := y.entry sh
    let traps (i : Instr) (charge cause : Nat) (telem tlane tval : W64) : Prop := ∃ t x, exec i s = .next t ∧ t.hart s.cur = some x ∧
      ({ y with issued := y.issued + 1, issueAt := s.now + 1, dc := y.dc - (charge : Int), noProg := 0 } : Hart).Landed x sh cause 0 y.arch.pc telem tlane tval
    let n := max 1 e.vl
    (e.isInt = false → traps (.vintAdd d a b m) n 0x01 0 0 (((encode (.vintAdd d a b m)).getD 0).zeroExtend 64)) ∧
    (e.isFloat = false → traps (.vfpAdd d a b m) n 0x01 0 0 (((encode (.vfpAdd d a b m)).getD 0).zeroExtend 64)) ∧
    (e.grant.clusters = 0 → traps (.mopOp z a b m r f) (max 1 ((r.toNat + 1) * e.vl)) 0x01 0 0 (((encode (.mopOp z a b m r f)).getD 0).zeroExtend 64)) ∧
    (e.shapeOk → e.isFloat = true → 16 ≤ e.sew → e.frm ≠ 4 → e.groupHere d.toNat → e.groupHere a.toNat → e.groupHere b.toNat →
      let fl (j : Nat) : Nat := (roundsTo e.fmt e.frm false 0 (sumFV e.frm [e.fmt.decode (getElem y.arch e.vb e.sew a.toNat j),
        e.fmt.decode (getElem y.arch e.vb e.sew b.toNat j)])).2
      ∀ j, (e.active y.arch m.toNat).find? (fun j => fl j &&& e.fen ≠ 0) = some j →
        traps (.vfpAdd d a b m) n 0x0E j (e.grant.tlane (j * e.sew / 8 % e.vb))
          (BitVec.ofNat 64 (unionFlags ((e.active y.arch m.toNat).map fl) &&& e.fen)))

/-- R153, R155 to R163: what each vector load reads, and what it leaves alone.  That a vector store which a read sees hides an STS before it that no
FENCE.SV orders is the model's choice (logged as assumption 101), here and wherever a queued read is spoken of (`SeenBy`). -/
def Obligations.VectorLoads : Prop :=
  ∀ (d a b : Reg) (m n : BitVec 3) (w : BitVec 2) (t : BitVec 4),
    VLoads (.vldUnit d a m) [a.toNat] d.toNat (fun _ => .unit) (·.r a) m.toNat ∧
    VLoads (.vldStr d a b m) [a.toNat, b.toNat] d.toNat (fun x => .str (x.r b)) (·.r a) m.toNat ∧
    VLoads (.vldIdx d a b m w) [a.toNat] d.toNat (fun _ => .idx b.toNat (8 * 2 ^ w.toNat)) (·.r a) m.toNat ∧
    VLoads (.vldSeg d a m n) [a.toNat] d.toNat (fun _ => .seg (n.toNat + 1)) (·.r a) m.toNat ∧
    VLoads (.vldFf d a m) [a.toNat] d.toNat (fun _ => .ff) (·.r a) m.toNat ∧
    VLoads (.vldTens d a t m) [a.toNat] d.toNat (fun _ => .tens t.toNat) (·.r a) m.toNat

/-- R155 to R157, R162, R262, R263: what each vector store places in the sheaf, and what it leaves alone.  VST.UNIT at SEW 4 writes the
bytes that hold an active element; the nibble of an element that is not active keeps the value the byte is read with.  Where timing is kept that read
waits for its data first (R155, R347). -/
def Obligations.VectorStores : Prop :=
  (∀ (d a b : Reg) (m n : BitVec 3) (w : BitVec 2) (t : BitVec 4),
    VStores (.vstUnit d a m) [a.toNat] (storeResv 1) d.toNat (fun _ => .unit) (·.r a) m.toNat ∧
    VStores (.vstStr d a b m) [a.toNat, b.toNat] scatterResv d.toNat (fun x => .str (x.r b)) (·.r a) m.toNat ∧
    VStores (.vstIdx d a b m w) [a.toNat] scatterResv d.toNat (fun _ => .idx b.toNat (8 * 2 ^ w.toNat)) (·.r a) m.toNat ∧
    VStores (.vstSeg d a m n) [a.toNat] (storeResv (n.toNat + 1)) d.toNat (fun _ => .seg (n.toNat + 1)) (·.r a) m.toNat ∧
    VStores (.vstTens d a t m) [a.toNat] (storeResv 1) d.toNat (fun _ => .tens t.toNat) (·.r a) m.toNat) ∧
  ∀ (d a : Reg) (m : BitVec 3) (s : State) (y : Hart) (sh : Sheaf) (h : Nat → Nat), s.VReady [a.toNat] y sh → s.ms.timed = false →
    ∀ e, e = y.entry sh → e.shapeOk → e.sew = 4 → e.groupHere d.toNat → resvFits [sh] (storeResv 1 y) = true →
    let act (j : Nat) : Bool := e.isActive y.arch m.toNat j
    -- byte k holds elements 2k and 2k + 1
    (∀ k, act (2 * k) || act (2 * k + 1) → accessAt s (e.grant.clusterAt (k % e.vb)) e.grant e.csr false
        (((y.arch.r a).toNat + k) % 2 ^ 64) 1 kWrite 1 = .ok { home := h k, hold := none } ∧
      ((act (2 * k) && act (2 * k + 1)) = false → readPoisoned s sh (e.reader false) (h k) 1 = false)) →
    ∃ (old : Nat → Byte) (ws : FMap (List WRec)) (sh' : Sheaf),
      (∀ k, act (2 * k) != act (2 * k + 1) → SeenBy s sh (e.reader false) (h k) (old k)) ∧
      (∀ p, fget [] ws p = joinRecs (((List.range ((e.vl + 1) / 2)).filter (fun k => (act (2 * k) || act (2 * k + 1)) && h k == p)).map (fun k =>
        e.wrec false (BitVec.ofNat 8 (
          (if act (2 * k) then getElem y.arch e.vb 4 d.toNat (2 * k) else (old k).toNat % 16) +
          16 * (if act (2 * k + 1) then getElem y.arch e.vb 4 d.toNat (2 * k + 1) else (old k).toNat / 16))))) (fget [] sh.writes p)) ∧
      sh' = { sh with seq := sh.seq + 1, writes := ws, rset := sh'.rset, wset := sh'.wset, puts := sh'.puts, resv := addResv sh.resv (storeResv 1 y) } ∧
      VecStep (.vstUnit d a m) s y [a.toNat] sh' (max 1 e.vl) none (y.arch.calm (fun z => y.arch.Only z []))

/-- R158, R161, R164, R166, R167, R143: VLD.QLD, TAMW, VST.RED, the two VXCL and DBG.TRMARK, where their checks pass.  Where timing is kept those that
read wait for their data first (R155, R347). -/
def Obligations.OtherVectorAccesses : Prop :=
  ∀ (d a b : Reg) (q : BitVec 3) (k : BitVec 4) (m o : BitVec 3) (x : BitVec 1),
    (∀ s y sh (h : Nat → Nat), s.VReady [a.toNat] y sh → s.ms.timed = false → ∀ e, e = y.entry sh → e.shapeOk →
      let n := (e.vl + vtBlk e.vt - 1) / vtBlk e.vt
      (∀ j < n, accessAt s (e.grant.clusterAt (j % e.vb)) e.grant e.csr false (((y.arch.r a).toNat + j) % 2 ^ 64) 1 kRead 1 =
          .ok { home := h j, hold := none } ∧ readPoisoned s sh (e.reader false) (h j) 1 = false) →
      VecStep (.vldQld q a) s y [a.toNat] ((List.range n).foldl (fun x j => x.addRead (h j) 1) { sh with seq := sh.seq + 1 }) (max 1 e.vl) none
        (y.arch.calm (fun z => ∃ f : Nat → Byte, (∀ j < n, SeenBy s sh (e.reader false) (h j) (f j)) ∧
          SetsScales q.toNat (fun j => given (j < n) (f j).toNat) y.arch z))) ∧
    (∀ s y sh hs, s.VReady [a.toNat] y sh → s.ms.timed = false → ∀ e, e = y.entry sh → longCheck s e sh (y.arch.r a).toNat 128 128 = .ok (hs, none) →
      let seen (bs : List Byte) : Prop := bs.length = 128 ∧ ∀ j < 128, SeenBy s sh (e.reader false) (hs.getD (j / 8) 0 + j % 8) (bs.getD j 0)
      (∀ bs, seen bs → (TensMap.ofBytes bs).isSome) →
      VecStep (.tamw k a) s y [a.toNat] (hs.foldl (fun x p => x.addRead p 8) { sh with seq := sh.seq + 1 }) (max 1 e.vl) none
        (y.arch.calm (fun z => y.arch.Only z [.tam] ∧ ∃ bs, seen bs ∧
          ∀ j, fget 0 z.tam j = if k.toNat * 128 ≤ j ∧ j < k.toNat * 128 + 128 then bs.getD (j - k.toNat * 128) 0 else fget 0 y.arch.tam j))) ∧
    (∀ s y sh ty op (h : Nat → Nat), s.VReady [a.toNat] y sh → ∀ e, e = y.entry sh → e.shapeOk → aluTypeOf e.vt = some ty →
      aluOpOf o.toNat = some op → e.groupHere d.toNat → (x = 1 → e.groupHere b.toNat) →
      let resv := if x = 1 then scatterResv y else storeResv 1 y
      resvFits [sh] resv = true →
      let w := e.sew / 8
      (∀ j ∈ e.active y.arch m.toNat, accessAt s (e.grant.clusterAt (j * w % e.vb)) e.grant e.csr false (((y.arch.r a).toNat +
        (if x = 1 then getElem y.arch e.vb e.sew b.toNat j else j * w)) % 2 ^ 64) w kReduce w = .ok { home := h j, hold := none }) →
      let sh' := (e.active y.arch m.toNat).foldl (fun (x : Sheaf) j => x.addRedAt (some (e.clusterOf j)) (h j) w) { sh with seq := sh.seq + 1 }
      VecStep (.vstRed d a b m x o) s y [a.toNat] { sh' with
          reds := sh.reds ++ (e.active y.arch m.toNat).map (fun j =>
            { home := h j, ty := ty, op := op, val := BitVec.ofNat 64 (getElem y.arch e.vb e.sew d.toNat j) })
          resv := addResv sh.resv resv } (max 1 e.vl) none (y.arch.calm (fun z => y.arch.Only z []))) ∧
    (∀ s y sh, s.VReady [] y sh → ∀ e, e = y.entry sh → e.shapeOk → e.grant.clusters ≠ 0 → e.sew = 32 →
      e.groupHere d.toNat → e.groupHere b.toNat →
      let u (j : Nat) : Nat := getElem y.arch e.vb 32 b.toNat j
      -- bits 23 to 21 select a cluster of the aligned group of eight (R166)
      let cl (j : Nat) : Nat := e.grant.base / 8 * 8 + u j / 2 ^ 21 % 8
      let h (j : Nat) : Nat := scratchHome (cl j) (u j % 2 ^ 21)
      let ok (kind j : Nat) : Prop := u j % 4 = 0 ∧ u j < 2 ^ 24 ∧ gangHolds s y.gang (cl j) = true ∧ watchHit e.csr (h j) 4 kind = none
      (s.ms.timed = false → (∀ j ∈ e.active y.arch m.toNat, ok kRead j ∧ readPoisoned s sh (e.reader true) (h j) 4 = false) →
        VecStep (.vxclG d b m) s y [] ((e.active y.arch m.toNat).foldl (fun x j => x.addRead (h j) 4) { sh with seq := sh.seq + 1 })
          (max 1 e.vl) none (y.arch.calm (fun z => ∃ f : Nat → List Byte,
            (∀ j ∈ e.active y.arch m.toNat, (f j).length = 4 ∧ SeenFrom s sh (e.reader true) (h j) (f j)) ∧
            SetsElems e.vb 32 d.toNat e.lmul (fun j => given (e.isActive y.arch m.toNat j) (leNat (f j))) y.arch z))) ∧
      (resvFits [sh] (scatterResv y) = true → (∀ j ∈ e.active y.arch m.toNat, ok kWrite j) →
        ∃ ws : FMap (List WRec),
          (∀ p, fget [] ws p = joinRecs ((e.active y.arch m.toNat).filterMap (fun j => if h j ≤ p ∧ p < h j + 4 then
            some (e.wrec true (BitVec.ofNat 8 (getElem y.arch e.vb 32 d.toNat j / 2 ^ (8 * (p - h j))))) else none)) (fget [] sh.writes p)) ∧
          VecStep (.vxclS d b m) s y [] { (e.active y.arch m.toNat).foldl (fun x j => x.addWriteAt (some (e.clusterOf j)) (h j) 4) { sh with seq := sh.seq + 1 } with
            writes := ws, resv := addResv sh.resv (scatterResv y) } (max 1 e.vl) none (y.arch.calm (fun z => y.arch.Only z [])))) ∧
    VecRuns (.dbgTrmark a) [a.toNat] none (fun _ _ => True) (fun _ z => z.calm (fun t => z.Only t []))

/-! ### Tiles and masks -/

/-- R206 to R209: an outer product updates the cells of rows that its mask selects, in the columns below VL, of each of its tiles; in the integer
forms a cell gains, or with OPN loses, the sum of the products, modulo 2^32, and no flag is raised. -/
def Obligations.OuterProducts : Prop :=
  ∀ (d : BitVec 3) (a b : Reg) (m r : BitVec 3) (f : BitVec 4),
    let mop (i : Instr) (neg : Bool) : Prop :=
      VecRuns i [] none
        (fun e x => e.hasZ ∧ mopOk d.toNat a.toNat b.toNat r.toNat f.toNat ∧ x.zen ∧
          ∀ k ≤ r.toNat, zcfgOk e.grant (fget 0 e.csr (cZCFG + (d.toNat + k))) ∧ e.zew (d.toNat + k) = (mopForm f.toNat).ew)
        (fun e x =>
          let t (k : Nat) : Nat := d.toNat + k
          let cells := (List.range (r.toNat + 1)).flatMap (fun k => (List.range (e.zrows (t k))).flatMap (fun i =>
            (List.range (min e.vl (e.zcols (t k)))).filterMap (fun j => if getMask x m.toNat (64 * k + i) then some (k, i, j) else none)))
          let new (k i j : Nat) : Nat × Nat := mopCell e x x neg (t k) (mopA f.toNat a.toNat k) b.toNat f.toNat i j
          { fl := unionFlags (cells.map (fun c => (new c.1 c.2.1 c.2.2).2))
            seed := x.rcsr cSRSEED
            zst := if cells = [] then x.rcsr cZSTATE else x.rcsr cZSTATE ||| 2
            out := none
            regs := SetsCells (fun n i j => if d.toNat ≤ n ∧ (n - d.toNat, i, j) ∈ cells then some (new (n - d.toNat) i j).1 else none) x })
        (fun e => max 1 ((r.toNat + 1) * e.vl))
    mop (.mopOp d a b m r f) false ∧ mop (.mopOpn d a b m r f) true ∧
    -- the integer forms (R209): the sum of the products, modulo 2^32, and no flag
    (∀ (e : QEntry) (a0 cur : Arch) (neg : Bool) (t va vb f i j w w' : Nat) (sg sg' : Bool),
      (mopForm f).ew = true → (mopForm f).fa = some (.inr (w, sg)) → (mopForm f).fb = some (.inr (w', sg')) →
      let val (w : Nat) (sg : Bool) (x : Nat) : Int := if sg then (BitVec.ofNat w x).toInt else x
      let p : Int := ((List.range (mopForm f).n).map (fun g =>
        val w sg (subElem a0 e.vb w va i g) * val w' sg' (subElem a0 e.vb w' vb j g))).sum
      let r := mopCell e a0 cur neg t va vb f i j
      BitVec.ofNat 32 r.1 = getCell cur t i j + BitVec.ofInt 32 (if neg then -p else p) ∧ r.1 < 2 ^ 32 ∧ r.2 = 0)

/-- R202, R204, R211 to R217: the ZOP instructions on slices, patches and whole tiles, where tile state is enabled and their checks pass;
what disabled tile state holds is free.  That ZOP.RD takes no rounding draw for an element whose cell lies outside the shape, and gives it zero
bits in every format, are the model's choices (logged as assumptions 37 and 99). -/
def Obligations.TileOperations : Prop :=
  ∀ (d : BitVec 3) (a b : Reg) (m : BitVec 3) (sat x c l : BitVec 1),
    let t := d.toNat
    let shape (e : QEntry) : Prop := e.hasZ ∧ zcfgOk e.grant (fget 0 e.csr (cZCFG + t))
    let dirty (y : Arch) (cells : Bool) : W64 := if cells then y.rcsr cZSTATE ||| 2 else y.rcsr cZSTATE
    -- the cell of element j of a slice or patch from (r0, c0)
    let at_ (r0 c0 j : Nat) : Nat × Nat := if l = 1 then (r0 + j, c0) else (r0, c0 + j)
    let inside (e : QEntry) (p : Nat × Nat) : Bool := decide (p.1 < e.zrows t) && decide (p.2 < e.zcols t)
    let slice (k : Nat) (j : Nat) : Nat × Nat := if l = 1 then (j, k) else (k, j)
    VecRuns (.zopRd d a b m sat c l) [b.toNat] none
      (fun e y => shape e ∧ sliceCheck e t a.toNat (sat == 1) (c == 1) = .ok ∧ y.zen ∧
        (y.r b).toNat < if l = 1 then e.zcols t else e.zrows t)
      (fun e y =>
        let k := (y.r b).toNat
        let rounds (j : Nat) : Bool := c == 1 && e.isFloat && inside e (slice k j)
        let before (j : Nat) : Nat := ((e.active y m.toNat).filter (fun i => decide (i < j) && rounds i)).length
        let new (j : Nat) : Nat × Nat :=
          if inside e (slice k j) then
            let o := cellToElem e { VAcc.start y with seed := seedAt e.frm (y.rcsr cSRSEED) (before j) } (c == 1) (sat == 1) j
              (getCell y t (slice k j).1 (slice k j).2).toNat
            (o.1, o.2.fl)
          else (0, 0)
        { fl := unionFlags ((e.active y m.toNat).map (fun j => (new j).2))
          seed := seedAt e.frm (y.rcsr cSRSEED) ((e.active y m.toNat).filter rounds).length
          zst := y.rcsr cZSTATE
          out := none
          regs := SetsElems e.vb e.sew a.toNat e.lmul (fun j => given (e.isActive y m.toNat j) (new j).1) y }) ∧
    VecRuns (.zopWr d a b m c l) [b.toNat] none
      (fun e y => shape e ∧ sliceCheck e t a.toNat false (c == 1) = .ok ∧ y.zen ∧ (y.r b).toNat < if l = 1 then e.zcols t else e.zrows t)
      (fun e y =>
        let k := (y.r b).toNat
        let js := (e.active y m.toNat).filter (fun j => inside e (slice k j))
        let new (j : Nat) : Nat × Nat := elemToCell e (c == 1) (getElem y e.vb e.sew a.toNat j)
        { fl := unionFlags (js.map (fun j => (new j).2)), seed := y.rcsr cSRSEED, zst := dirty y (js != []), out := none
          regs := SetsCells (fun n i p => if n = t then (js.find? (fun j => slice k j = (i, p))).map (fun j => (new j).1) else none) y }) ∧
    VecRuns (.zopPatch d a b m x c l) [b.toNat] none
      (fun e y => shape e ∧ sliceCheck e t a.toNat false (c == 1) = .ok ∧ y.zen ∧ (y.r b).toNat < 2 ^ 32 ∧
        (y.r b).toNat % 2 ^ 16 < e.zrows t ∧ (y.r b).toNat / 2 ^ 16 < e.zcols t)
      (fun e y =>
        let at_ := at_ ((y.r b).toNat % 2 ^ 16) ((y.r b).toNat / 2 ^ 16)
        let js := (e.active y m.toNat).filter (fun j => inside e (at_ j))
        let new (j : Nat) : Nat × Nat :=
          let o := elemToCell e (c == 1) (getElem y e.vb e.sew a.toNat j)
          let r := patchCell (e.zew t) (x == 1) (getCell y t (at_ j).1 (at_ j).2).toNat o.1
          (r.1, fOr o.2 r.2)
        { fl := unionFlags (js.map (fun j => (new j).2)), seed := y.rcsr cSRSEED, zst := dirty y (js != []), out := none
          regs := SetsCells (fun n i p => if n = t then (js.find? (fun j => at_ j = (i, p))).map (fun j => (new j).1) else none) y }) ∧
    VecRuns (.zopScale d a m) [] none
      (fun e y => shape e ∧ e.isFloat ∧ e.sew = 32 ∧ e.groupHere a.toNat ∧ y.zen ∧ e.zew t = false)
      (fun e y =>
        let js := (e.active y m.toNat).filter (fun i => decide (i < e.zrows t))
        let new (i p : Nat) : Nat × Nat := roundsTo fp32 0 false 0
          (mulFV (fp32.decode (getCell y t i p).toNat) (fp32.decode (getElem y e.vb 32 a.toNat i)))
        { fl := unionFlags (js.flatMap (fun i => (List.range (e.zcols t)).map (fun p => (new i p).2))), seed := y.rcsr cSRSEED
          zst := dirty y (js != []), out := none
          regs := SetsCells (fun n i p => if n = t ∧ i ∈ js ∧ p < e.zcols t then some (new i p).1 else none) y }) ∧
    VecRuns (.zopZero d) [] none (fun e y => e.hasZ ∧ y.zen)
      (fun _ y => { y.calm (SetsCells (fun n _ _ => given (n = t) 0) y) with zst := y.rcsr cZSTATE ||| 2 }) ∧
    VecRuns .zopEnable [] none (fun e y => e.hasZ ∧ y.zen) (fun _ y => y.calm (fun z => y.Only z [])) ∧
    VecRuns .zopDisable [] none (fun e _ => e.hasZ)
      (fun _ y => { y.calm (fun z => y.Only z [.z] ∧ (y.zen = false → z.z = y.z)) with
        zst := if y.zen then setBits (y.rcsr cZSTATE) 0 0 0 else y.rcsr cZSTATE }) ∧
    (∀ s y sh, s.VReady [a.toNat] y sh → (y.entry sh).hasZ = true → zcfgOk y.arch.grant (y.arch.r a) = true →
      ∃ u z, exec (.zopCfg d a) s = .next u ∧ s.VAlone u ∧ u.hart s.cur = some z ∧
        y.VDone z s.now [a.toNat] { sh with seq := sh.seq + 1 } (max 1 (y.entry sh).vl) [] ∧
        z.arch = { y.arch.next with csr := z.arch.csr } ∧
        ∀ n, z.arch.rcsr n = if n = cZCFG + t then y.arch.r a else y.arch.rcsr n)

/-- R223, R224, R227 to R231: the mask unit.  A program with SAMEDOC reads the document table as a load does (`readDocs`), and
where timing is kept what reads waits for its data first (R347).
That MSK.CLS of a grant of several clusters counts in the counters of its lowest one is the model's choice (logged as assumption 40). -/
def Obligations.MaskUnit : Prop :=
  ∀ (d : BitVec 3) (r a : Reg) (k : BitVec 2) (x : BitVec 1),
    (∀ s y sh hs, s.VReady [a.toNat] y sh → s.ms.timed = false → ∀ e, e = y.entry sh → needsMask e.csr = true →
      longCheck s e sh (y.arch.r a).toNat 72 8 = .ok (hs, none) →
      let seen (bs : List Byte) : Prop := bs.length = 72 ∧ ∀ j < 72, SeenBy s sh (e.reader false) (hs.getD (j / 8) 0 + j % 8) (bs.getD j 0)
      (∀ bs, seen bs → imageBad bs = none) →
      VecStep (.mskLd k a) s y [a.toNat] (hs.foldl (fun x p => x.addRead p 8) { sh with seq := sh.seq + 1 }) (max 1 e.vl) none
        (y.arch.calm (fun z => y.arch.Only z [.mp] ∧ ∃ bs, seen bs ∧
          ∀ j, fget 0 z.mp j = if k.toNat * 72 ≤ j ∧ j < k.toNat * 72 + 72 then
            (if j - k.toNat * 72 < 8 + 4 * (bs.getD 0 0).toNat then bs.getD (j - k.toNat * 72) 0 else 0) else fget 0 y.arch.mp j))) ∧
    (∀ s y sh docs, ∀ e, e = y.entry sh → needsMask e.csr = true → maskProgram y.arch k.toNat ≠ [] →
      readDocs s e { sh with seq := sh.seq + 1, asks := [] } (maskProgram y.arch k.toNat) = .ok docs → docs.hold = none →
      s.ms.timed = false ∨ docs.sheaf.asks = [] →
      let prog := maskProgram y.arch k.toNat
      let q0 := (y.arch.r a).toNat % 2 ^ 32
      let k0 := (y.arch.r a).toNat / 2 ^ 32
      let one (i : Nat) (j : Nat) : Bool := evalAt docs.tab (q0 + i) (k0 + j) prog []
      let shp := (y.arch.rcsr cMSKSHAPE).toNat
      (s.VReady [r.toNat, a.toNat] y sh → bits shp 29 16 ≤ 64 * max e.grant.clusters 1 →
        let c := evalClass docs.tab q0 (q0 + bits shp 6 0 - 1) k0 (k0 + bits shp 29 16 - 1) prog []
        ∃ t z, exec (.mskCls r a k) s = .next t ∧ s.VAlone { t with mskcnt := s.mskcnt } ∧ t.hart s.cur = some z ∧
          y.VDone z s.now [r.toNat, a.toNat] docs.sheaf (max 1 e.vl) [{ d := r.toNat, here := true }] ∧
          y.arch.After z.arch { y.arch.calm (fun z => y.arch.Only z []) with out := some (BitVec.ofNat 64 c) } (some r.toNat) ∧
          ∀ n, fget 0 t.mskcnt n = if n = e.grant.base * 3 + c then fget 0 s.mskcnt n + 1 else fget 0 s.mskcnt n) ∧
      (s.VReady [a.toNat] y sh → e.shapeOk → d ≠ 0 → VecStep (.mskGen d a k) s y [a.toNat] docs.sheaf (max 1 e.vl) none
        (y.arch.calm (SetsMask d.toNat (fun j => if j < e.vl then some (one 0 j) else none) y.arch))) ∧
      (s.VReady [a.toNat] y sh → e.hasZ → zcfgOk e.grant (fget 0 e.csr (cZCFG + d.toNat)) = true → y.arch.zen = true →
        (x = 0 → e.zew d.toNat = false) →
        let cells := (List.range (e.zrows d.toNat)).flatMap (fun i => (List.range (e.zcols d.toNat)).filterMap (fun j =>
          if one i j then none else some (i, j)))
        VecStep (.zopMask d a k x) s y [a.toNat] docs.sheaf (max 1 e.vl) none
          { y.arch.calm (SetsCells (fun n i j => if n = d.toNat ∧ (i, j) ∈ cells then some (if x = 1 then 0 else 0xFF80_0000) else none) y.arch) with
            zst := if cells = [] then y.arch.rcsr cZSTATE else y.arch.rcsr cZSTATE ||| 2 })) ∧
    (∀ (sel : BitVec 2) s y sh, s.VReady [r.toNat] y sh → ∀ e, e = y.entry sh → needsMask e.csr = true →
      let n (i : Nat) : W64 := fget 0 s.mskcnt (e.grant.base * 3 + i)
      VecStep (.mskCnt r sel) s y [r.toNat] { sh with seq := sh.seq + 1 } (max 1 e.vl) (some r.toNat)
        { y.arch.calm (fun z => y.arch.Only z []) with out := some (if sel = 3 then n 0 + n 1 + n 2 else n sel.toNat) })

/-- R226 to R228: a class computed by intervals is sound.  Where MSK.CLS says that a tile is full, the program is 1 at each of its cells;
where it says empty, at none. -/
def Obligations.MaskClassSound : Prop :=
  ∀ (tab prog : List Nat) (q0 q1 k0 k1 q k : Nat), q0 ≤ q → q ≤ q1 → k0 ≤ k → k ≤ k1 →
    (evalClass tab q0 q1 k0 k1 prog [] = 2 → evalAt tab q k prog [] = true) ∧
    (evalClass tab q0 q1 k0 k1 prog [] = 0 → evalAt tab q k prog [] = false)

/-! ### Strips -/

/-- R146 to R149: SETVL and SETVLI grant min(request, VLMAX) of the VTYPE given, and VLMAX where A is x0; SETVLRUN grants the rest of a run
within its block, from the block table's entry, and sets RUNBASE; a request of 0 reads no entry.  That a strip trim's cap bounds no length
where a sheaf is open, and that a checkpoint gives up the lanes that a grant change has taken, are the model's choices (logged as
assumptions 47 and 83). -/
def Obligations.StripsOpen : Prop :=
  ∀ (d a b : Reg) (v : BitVec 11) (k : BitVec 2),
    let len (vt : Arch → W64) : State → Arch → Nat := fun _ r =>
      if a = 0 then vlmax r.grant (vt r) else min (r.r a).toNat (vlmax r.grant (vt r))
    let t := 4 * k.toNat
    let cfg (r : Arch) : Nat := (r.rcsr (0x12 + t)).toNat
    let blk (r : Arch) : Nat := (r.r a).toNat / 2 ^ bits (cfg r) 3 0
    let off (r : Arch) : Nat := (r.r a).toNat % 2 ^ bits (cfg r) 3 0
    let ea (r : Arch) : Nat := ((r.rcsr (0x10 + t)).toNat + 4 * blk r) % 2 ^ 64
    let entry (s : State) (r : Arch) : Nat :=
      memNat s ((homeOf s r.grant (r.rcsr cPTROOT) (ea r) kRead true).getD 0) 4
    Opens (.setvli d a v) [a.toNat] d (fun _ _ _ => vtLegal (v.zeroExtend 64) = true) (fun _ => v.zeroExtend 64) (len (fun _ => v.zeroExtend 64))
      (fun _ _ => none) ∧
    Opens (.vcfgSetvl d a b) [a.toNat, b.toNat] d (fun _ x _ => vtLegal (x.arch.r b) = true) (fun r => r.r b) (len (fun r => r.r b))
      (fun _ _ => none) ∧
    Opens (.vcfgSetvlrun d a b k) [a.toNat, b.toNat] d
      (fun s x r => r.r b ≠ 0 ∧ ea r % 4 = 0 ∧ boundsOk s r.grant r.csr (ea r) 4 kRead = true ∧
        (∃ h, homeOf s r.grant (r.rcsr cPTROOT) (ea r) kRead true = some h ∧ poisoned s h = false ∧
          -- where timing is kept its data has come
          (s.ms.timed = true → x.tableAt = some h)) ∧
        entry s r ≠ 0xFFFF_FFFF ∧
        ∀ c, ffind x.btcache (k.toNat * 2 ^ 64 + blk r) = some c → c = BitVec.ofNat 32 (entry s r))
      (·.rcsr cVTYPE)
      (fun _ r => min (min (r.r b).toNat (vlmax r.grant (r.rcsr cVTYPE))) (2 ^ bits (cfg r) 3 0 - off r))
      (fun s r => some (BitVec.ofNat 64 ((r.rcsr (0x11 + t)).toNat + (entry s r * 2 ^ bits (cfg r) 3 0 + off r) * bits (cfg r) 31 16))) ∧
    Opens (.vcfgSetvlrun d a b k) [a.toNat, b.toNat] d (fun _ _ r => r.r b = 0) (·.rcsr cVTYPE) (fun _ _ => 0) (fun _ _ => none)

/-- R36, R97, R147, R309: a strip with an illegal VTYPE where no sheaf is open traps ILL at its own address; VTYPE and VL are as before.  The vector gives
the pc without its two low bits, which is the model's choice (logged as assumption 89). -/
def Obligations.IllegalStripTraps : Prop :=
  ∀ (d a : Reg) (v : BitVec 11) (s : State) (x : Hart), s.CanOpen x [d.toNat, a.toNat] → s.NoToken → x.sheaves = [] → x.cap = 0 →
    vtLegal (v.zeroExtend 64) = false →
    ∃ t z, exec (.setvli d a v) s = .next t ∧ t.hart s.cur = some z ∧ z.arch.pc = alignPc (x.arch.rcsr cTVEC) ∧ z.arch.sup = true ∧
      z.arch.rcsr cTPC = x.arch.pc ∧ bits (z.arch.rcsr cTCAUSE).toNat 7 0 = 0x01 ∧
      z.arch.rcsr 0x307 = ((encode (.setvli d a v)).getD 0).zeroExtend 64 ∧ z.arch.rcsr 0x303 = x.arch.rcsr cSTRIP + 1 ∧
      z.arch.rcsr cVTYPE = x.arch.rcsr cVTYPE ∧ z.arch.rcsr cVL = x.arch.rcsr cVL ∧ z.arch.x = x.arch.x ∧ z.arch.v = x.arch.v ∧
      z.landing = some { arch := x.arch, cap := x.cap, squash := x.squash }

/-! ### Floating point -/

/-- R47, R57 to R59, R61, R64: Round.  A result that is finite is a code of the format with no other finite value strictly between it and
the exact value; under RNE none is nearer, and a tie goes to an even code.  A value within the format's range gives a finite result, on the
side the mode names, and raises NX where it is not exact. -/
def Obligations.RoundCorrect : Prop :=
  ∀ f ∈ [fp64, fp32, fp16, bf16, e5m2, e4m3, fp4], ∀ (mode u : Nat) (neg : Bool) (m : Nat) (e : Int), mode ≤ 4 → u < 2 ^ 32 →
    let x : ℚ := (FV.fin neg m e false).val
    let r := roundTo f mode false u (.fin neg m e false)
    let v : ℚ := (f.decode r.1).val
    let fin (c : Nat) : Prop := c < 2 ^ f.w ∧ (f.decode c).exact = true
    (fin r.1 → mode = 0 → ∀ c, fin c → |v - x| ≤ |(f.decode c).val - x| ∧
      (|v - x| = |(f.decode c).val - x| → (f.decode c).val ≠ v → r.1 % 2 = 0)) ∧
    ((∃ c, fin c ∧ |x| ≤ (f.decode c).val) → fin r.1 ∧
      (∀ c, fin c → ¬ (v < (f.decode c).val ∧ (f.decode c).val < x) ∧ ¬ (x < (f.decode c).val ∧ (f.decode c).val < v)) ∧
      (mode = 1 → |v| ≤ |x|) ∧ (mode = 2 → v ≤ x) ∧ (mode = 3 → x ≤ v) ∧
      (r.2 &&& fNX ≠ 0 ↔ v ≠ x) ∧ (v = x → r.2 = 0))

/-- R57, R61, R65, R69: sums, products and fused products are exact, and a quotient or root is exact or a truncation that says so. -/
def Obligations.ExactOperations : Prop :=
  (∀ a b c : FV, a.exact = true → b.exact = true → c.exact = true → ∀ mode,
    (mulFV a b).1.exact = true ∧ (mulFV a b).1.val = a.val * b.val ∧ (mulFV a b).2 = 0 ∧
    (fmaFV mode a b c).1.exact = true ∧ (fmaFV mode a b c).1.val = a.val * b.val + c.val ∧ (fmaFV mode a b c).2 = 0) ∧
  (∀ (xs : List FV) (mode : Nat), (∀ x ∈ xs, x.exact = true) →
    (sumFV mode xs).1.exact = true ∧ (sumFV mode xs).1.val = (xs.map FV.val).sum ∧ (sumFV mode xs).2 = 0) ∧
  (∀ a b : FV, a.exact = true → b.exact = true → b.val ≠ 0 → ∃ n m e st, (divFV a b).1 = .fin n m e st ∧ (divFV a b).2 = 0 ∧
    let lo : ℚ := (FV.fin n m e st).val
    let hi : ℚ := (FV.fin n (m + 1) e st).val
    (st = false → lo = a.val / b.val) ∧ (st = true → |lo| < |a.val / b.val| ∧ |a.val / b.val| < |hi| ∧ (n = true ↔ a.val / b.val < 0))) ∧
  (∀ a : FV, a.exact = true → 0 < a.val → ∃ m e st, (sqrtFV a).1 = .fin false m e st ∧ (sqrtFV a).2 = 0 ∧
    let lo : ℚ := (FV.fin false m e st).val
    let hi : ℚ := (FV.fin false (m + 1) e st).val
    (st = false → lo ^ 2 = a.val) ∧ (st = true → lo ^ 2 < a.val ∧ a.val < hi ^ 2))

/-- R39, R60, R62, R132 to R134: each FPS function writes its code, or its integer, to xd and ORs its flags into FCSR, where it raises none that is
enabled; a function that rounds takes a draw under SR.  What a step gives where FRM is 5 to 7 is the model's choice (logged as assumption 100). -/
def Obligations.ScalarFloats : Prop :=
  ∀ (d a b : Reg) (p : BitVec 1),
    let fps (i : Instr) (rs : List Nat) (rounds : Bool) (f : Nat → Nat → Arch → Nat × Nat) : Prop :=
      ∀ s y, s.CanRun (d.toNat :: rs) y →
        let mode := frm y.arch.csr
        let seed := y.arch.rcsr cSRSEED
        let r := f mode (draw mode seed).1 y.arch
        (rounds = true → mode = 4 → y.queue = []) → r.2 &&& fen y.arch.csr = 0 →
        ∃ t z sh, exec i s = .next t ∧ s.Alone t ∧ t.hart s.cur = some z ∧ y.cur = some sh ∧
          y.Executed z (d.toNat :: rs) z.arch sh ∧
          z.arch = { (y.arch.wx d.toNat (BitVec.ofNat 64 r.1)).next with csr := z.arch.csr } ∧
          ∀ n, z.arch.rcsr n = if n = cFCSR then y.arch.rcsr cFCSR ||| BitVec.ofNat 64 (r.2 % 32)
            else if n = cSRSEED ∧ rounds = true ∧ mode = 4 then srStep seed else y.arch.rcsr n
    let t : Fmt := if p = 1 then fp64 else fp32
    let o : Fmt := if p = 1 then fp32 else fp64
    let code (f : Fmt) (r : Arch) (n : Reg) : Nat := (r.r n).toNat % 2 ^ f.w
    let val (r : Arch) (n : Reg) : FV := t.decode (code t r n)
    let round (mode u : Nat) (x : FV × Nat) : Nat × Nat :=
      let r := roundTo t mode false u x.1
      (r.1, fOr x.2 (if x.2 &&& fNV ≠ 0 then 0 else r.2))
    let toInt (sg : Bool) (mode u : Nat) (x : FV) : Nat × Nat := let r := toIntFV 64 sg mode u x; ((BitVec.ofInt 64 r.1).toNat, r.2)
    let ab := [a.toNat, b.toNat]
    fps (.fpsAdd d a b p) ab true (fun m u r => round m u (sumFV m [val r a, val r b])) ∧
    fps (.fpsSub d a b p) ab true (fun m u r => round m u (sumFV m [val r a, (val r b).negate])) ∧
    fps (.fpsMul d a b p) ab true (fun m u r => round m u (mulFV (val r a) (val r b))) ∧
    fps (.fpsDiv d a b p) ab true (fun m u r => round m u (divFV (val r a) (val r b))) ∧
    fps (.fpsSqrt d a p) [a.toNat] true (fun m u r => round m u (sqrtFV (val r a))) ∧
    fps (.fpsFma d a b p) ab true (fun m u r => round m u (fmaFV m (val r a) (val r b) (val r d))) ∧
    fps (.fpsMin d a b p) ab false (fun _ _ r => minmax t false (code t r a) (code t r b)) ∧
    fps (.fpsMax d a b p) ab false (fun _ _ r => minmax t true (code t r a) (code t r b)) ∧
    -- FP64 to FP32 rounds; FP32 to FP64 is exact
    fps (.fpsCvtOther d a p) [a.toNat] (p == 0) (fun m u r =>
      let x := o.decode (code o r a); round (if p = 0 then m else 0) u (x, if x.isSig then fNV else 0)) ∧
    fps (.fpsCvtFromint d a p) [a.toNat] true (fun m u r => round m u (ofIntFV (r.r a).toInt, 0)) ∧
    fps (.fpsCvtFromuint d a p) [a.toNat] true (fun m u r => round m u (ofIntFV (r.r a).toNat, 0)) ∧
    fps (.fpsCvtToint d a p) [a.toNat] true (fun m u r => toInt true m u (val r a)) ∧
    fps (.fpsCvtTouint d a p) [a.toNat] true (fun m u r => toInt false m u (val r a)) ∧
    fps (.fpsCmpEq d a b p) ab false (fun _ _ r => let c := relate t 0 (code t r a) (code t r b); (c.1.toNat, c.2)) ∧
    fps (.fpsCmpLt d a b p) ab false (fun _ _ r => let c := relate t 1 (code t r a) (code t r b); (c.1.toNat, c.2)) ∧
    fps (.fpsCmpLe d a b p) ab false (fun _ _ r => let c := relate t 2 (code t r a) (code t r b); (c.1.toNat, c.2)) ∧
    fps (.fpsClass d a p) [a.toNat] false (fun _ _ r => (classOf t (code t r a), 0)) ∧
    fps (.fpsMvCopy d a p) [a.toNat] false (fun _ _ r => moveSign t 0 (code t r a)) ∧
    fps (.fpsMvNeg d a p) [a.toNat] false (fun _ _ r => moveSign t 1 (code t r a)) ∧
    fps (.fpsMvAbs d a p) [a.toNat] false (fun _ _ r => moveSign t 2 (code t r a))

/-! ### Encodings and steps -/

/-- R71, R73 to R97, R289, R290: every well-formed instruction that has a word decodes from it, with each operand at each value its field
admits, in its own half of the code space. -/
def Obligations.DecodeEncode : Prop :=
  ∀ (i : Instr) (w : W32), i.wf = true → encode i = some w →
    (adviceHalf i = false → decode w = .ok i) ∧ (adviceHalf i = true → decodeAdvice w = .ok i)

/-- R76, R77, R96, R289: no bit of a word is dropped.  A word that decodes is the word of its instruction, so a reserved bit that is not 0 never
decodes, and the instruction passes every check of its fields. -/
def Obligations.EncodeDecode : Prop :=
  ∀ (i : Instr) (w : W32),
    (decode w = .ok i → encode i = some w ∧ i.wf = true ∧ adviceHalf i = false) ∧
    (decodeAdvice w = .ok i → encode i = some w ∧ i.wf = true ∧ adviceHalf i = true)

/-- R71, R73, R74, R80, R81, R84 to R94, R145, R236, R254, R289: words written out from the encoding tables decode to their instructions, and reserved ones are
refused. -/
def Obligations.DecodedWords : Prop :=
  decode 0b000001_00011_00001_00010_000_00000000#32 = .ok (.aluAdd 3 1 2) ∧
  decode 0b000010_00101_00110_00111_000_00000100#32 = .ok (.muldivDivu 5 6 7) ∧
  decode 0b000100_00001_00010_1111111111111111#32 = .ok (.addi 1 2 0xFFFF) ∧
  decode 0b001101_00100_00101_011_1111111111000#32 = .ok (.ldsD 4 5 0x1FF8) ∧
  decode 0b001111_00001_00010_000_0000000000100#32 = .ok (.brcEq 1 2 4) ∧
  decode 0b010000_00001_000000000000000000010#32 = .ok (.jal 1 2) ∧
  decode 0b010100_00001_00010_0001_000000000110#32 = .ok (.csrWr 1 2 6) ∧
  decode 0b100001_00001_00010_00000_00000010011#32 = .ok (.setvli 1 2 0x13) ∧
  decode 0b100010_01000_10000_11000_001_00000000#32 = .ok (.vintAdd 8 16 24 1) ∧
  decode 0b100101_00001_00010_00011_000_00000000#32 = .ok (.vfpAdd 1 2 3 0) ∧
  decode 0b101100_00100_00011_00000_010_00000000#32 = .ok (.vldUnit 4 3 2) ∧
  decode 0b110000_00010_00100_00101_001_001_0_0000#32 = .ok (.mopOp 2 4 5 1 1 0) ∧
  decode 0b110100_00001_00010_00100_011_0_000_0000#32 = .ok (.engCpy 1 2 4 3 0 0) ∧
  decode 0b110101_00000_00110_00000_010_00000000#32 = .ok (.syncTlwait 6 2) ∧
  decodeAdvice 0b000010_00001_00010_010_0000000000011#32 = .ok (.advBr 1 2 2 3) ∧
  -- the word of zeros, a reserved bit, an odd register pair, a write of m0
  decode 0#32 = .error .unlistedFunction ∧ decode 0b000001_00011_00001_00010_001_00000000#32 = .error .reservedField ∧
  decode 0b110100_00001_00011_00100_011_0_000_0000#32 = .error .badPair ∧
  decode 0b101010_00000_00001_00010_000_00000000#32 = .error .maskZeroDestination

/-- R71, R96: once what goes on beside the scalar sides has come to this ck, a step of a hart that fetches runs the instruction that the
word at its PC decodes to, and nothing else; a word that is none is an illegal instruction word.  Where nothing goes on beside the scalar sides, a
step starts from the state itself. -/
def Obligations.StepRunsDecoded : Prop :=
  (∀ (s : State) (x : Hart) (p : Nat) (w : W32), let t := s.begin runAdvice
    t.Fetches x p w →
      (∀ i, decode w = .ok i → step s = exec i t) ∧ (∀ r, decode w = .error r → step s = exec (.illegalInstructionWord w) t)) ∧
  ∀ s : State, s.due = [] → s.quiet = true → s.begin runAdvice = s

/-- R342: memory keeps its canonical form, so that equal memories are equal data, in every step of every state. -/
def Obligations.MemoryStaysCanonical : Prop :=
  ∀ s t : State, s.MemOk → step s = .next t → t.MemOk

/-- R3, R4, R340, R376, R394, R395: after power-on a part is at the start of Dawn, with no hart, DONE set, trace buffers off, memory in canonical
form, and the registers of its own dies and clusters.  The budgets at their defaults, AB 8 and the fields of PKGSTAT at power-on are
the model's choice (logged as assumption 12), and so is the empty bad-page list (logged as assumption 5). -/
def Obligations.ResetState : Prop :=
  ∀ bare : Bool,
  let s := State.resetOf bare
  State.reset = State.resetOf false ∧ s.bare = bare ∧ s.disp.dieRegs.length = (if bare then 1 else 4) ∧
  s.traces.length = (if bare then 32 else 128) ∧ s.mg.gates.length = (if bare then 32 else 128) ∧
  s.MemOk ∧ s.harts = [] ∧ s.gangs = [] ∧ s.mg.pkg.phase = 0 ∧ s.mg.pkg.ready = false ∧ s.mg.pkg.fail = false ∧ s.mg.pkg.sddone = true ∧
  s.mg.stopped = false ∧ s.ms.bad = [] ∧ s.ms.pages = [] ∧ (∀ b ∈ s.traces, b.state = 0) ∧
  ∀ r ∈ s.disp.dieRegs, r.ab = 8 ∧ r.budget.map (·.toNat) =
    [24 + 64 * 2 ^ 8, 12 + 64 * 2 ^ 8, 8 * 2 ^ 8, 4 + 16 * 2 ^ 8, 1 + 8 * 2 ^ 8, 4 + 48 * 2 ^ 8]

/-! ### Commands and advice -/

/-- R236, R239, R240: an ENG instruction gives its channel's next identifier to its command and to xd, captures its operands, its AFTER condition
and, for TCOPY, its tensor maps, and places the command in the sheaf; nothing is issued before the sheaf commits. -/
def Obligations.EngineIssue : Prop :=
  ∀ (d a b : Reg) (k : BitVec 3) (x : BitVec 1) (j : BitVec 3),
    let a1 := a.toNat + 1
    let b1 := b.toNat + 1
    let issues (i : Instr) (fn : EngFn) : Prop := ∀ s y sh, s.CanRun [d.toNat, a.toNat, a1, b.toNat, b1] y → y.cur = some sh →
      y.eqUsed < 16 → (fn = .tcopy → y.tamwQueued = false) →
      let r := y.arch
      let id := r.rcsr (cTID + k.toNat) + 1
      let map (n : Nat) : List Byte := if fn = .tcopy then fgetMany 0 r.tam (bits (r.rx b1).toNat (n + 3) n * 128) 128 else []
      let c : Cmd := {
        fn := fn, ch := k.toNat, id := id.toNat, after := if x = 1 then some (j.toNat, r.r d) else none
        xa := r.r a, xa1 := r.rx a1, xb := r.r b, xb1 := r.rx b1, sup := r.sup, smap := map 0, dmap := map 4, mmap := map 12 }
      ∃ t z, exec i s = .next t ∧ s.Alone t ∧ t.hart s.cur = some z ∧
        y.Executed z [d.toNat, a.toNat, a1, b.toNat, b1] ((r.wcsr (cTID + k.toNat) id).wx d.toNat id).next { sh with cmds := sh.cmds ++ [c] }
    issues (.engCpy d a b k x j) .cpy ∧ issues (.engTcopy d a b k x j) .tcopy ∧ issues (.engRgath d a b k x j) .rgath ∧
    issues (.engRcopy d a b k x j) .rcopy ∧ issues (.engPut d a b k x j) .put ∧ issues (.engGet d a b k x j) .get ∧
    issues (.engSig d a b k x j) .sig ∧ issues (.engLaunch d a b k x j) .launch

/-- R288 to R292: each instruction of the sequencer, in RUN, changes its registers, APC, MODE and action queue as its row states, and nothing else
of the package; an action waits while eight are queued. -/
def Obligations.AdviceInstructions : Prop :=
  ∀ (d a b : BitVec 4) (c : BitVec 2) (o : BitVec 13) (w : BitVec 21) (i : BitVec 16) (s : State) (x : Hart) (v : Adv),
    s.hart s.cur = some x → x.adv = some v → v.mode = .run → v.runFrom ≤ s.now →
    let does (i : Instr) (z : Adv) : Prop := exec i s = .next (s.setHart s.cur { x with adv := some { z with runFrom := s.now + 1 } })
    let next (z : Adv) : Adv := { z with apc := (z.apc + 4) % 2 ^ 32 }
    let jump (z : Adv) : Adv := { z with apc := (BitVec.ofNat 32 z.apc + 4 * o.signExtend 32).toNat }
    let p (n : BitVec 4) : W64 := fget 0 v.p n.toNat
    let set (n : BitVec 4) (y : W64) : Adv := { v with p := fset 0 v.p n.toNat y }
    let queue (t : AdvAct) : Adv := if v.queue.length < 8 then next { v with queue := v.queue ++ [t], headAt := if v.queue = [] then s.now else v.headAt } else v
    let branch (k : BitVec 3) (q : Bool) : Prop := does (.advBr d a k o) (if q then jump v else next v)
    does (.advAwait i) { next v with mode := .await i.toNat } ∧ does .advHalt { v with mode := .idle } ∧
    branch 0 (p d == p a) ∧ branch 1 (p d != p a) ∧ branch 2 ((p d).ult (p a)) ∧ branch 3 ((p a).ule (p d)) ∧ branch 4 true ∧
    does (.advLoop d o) (if p d = 1 then next (set d 0) else jump (set d (p d - 1))) ∧
    does (.advSet d w) (next (set d (w.signExtend 64))) ∧
    does (.advIns d w) (next (set d (p d <<< 21 ||| w.zeroExtend 64))) ∧
    does (.advAdd d a b) (next (set d (p a + p b))) ∧ does (.advAddi d a i) (next (set d (p a + i.signExtend 64))) ∧
    does (.advMv d a) (next (set d (p a))) ∧ does (.advMvArg d) (next (set d v.lastArg)) ∧
    does (.advMvId d) (next (set d (BitVec.ofNat 64 v.lastId))) ∧
    does (.advPf a b) (queue (.pf (p a) (p b))) ∧
    (a.toNat % 2 = 0 → b.toNat % 2 = 0 → does (.advPfx a b c) (queue (.pfx (p a) (p (a + 1)) (p b) (p (b + 1)) (8 * 2 ^ c.toNat)))) ∧
    does (.advPlace a b c) (queue (.place (p a) (p b) c.toNat)) ∧ does (.advPrio a) (queue (.prio (p a))) ∧
    does (.advOrder a) (queue (.order (p a))) ∧ does (.advOrderShare a) (queue (.share (p a)))

/-! ### Events of a hart -/

/-- R22, R42, R129, R138, R271 to R276, R309, R310, R312, R321, R401: the events by which a hart goes on: the commit arbiter, the commit of its oldest
sheaf and what that squashes, landing traps and stops, queued work, load data and fetches, the actions of ZSTATE, answers of the system cores,
the debugger's mark and the end of the hart.  That the end of a hart is reported as a record of kind 4 with the hart's number, and that a hart which
ends while commands of it are under way keeps its grant until they have completed, are the model's choices (logged as assumption 20), and so is that the
vector gives the pc without its two low bits (logged as assumption 89). -/
def Obligations.HartEvents : Prop :=
  ∀ (s : State) (h : Nat) (x : Hart), s.hart h = some x →
    (∀ sh d ds, x.sheaves[x.front]? = some sh → x.commitReady = true → s.tokenBlocks h sh = false → s.slicesWanted h sh = d :: ds →
      let mine : Prop := fget none s.arb.slices d = none ∧ ∀ r, s.arb.slicesQ.find? (fun r => decide (r.1 = d)) = some r → r.2 = h
      ∃ a, exec (.commitSliceAcquire h) s = .next { s with arb := a } ∧ a.token = s.arb.token ∧ a.tokenQ = s.arb.tokenQ ∧
        (∀ k, k ≠ d → fget none a.slices k = fget none s.arb.slices k) ∧
        (mine → fget none a.slices d = some h) ∧
        (¬ mine → fget none a.slices d = fget none s.arb.slices d ∧ (d, h) ∈ a.slicesQ)) ∧
    -- the writes of the sheaf reach memory together, its commands issue, and what has read its writes is squashed
    (∀ sh, x.sheaves = [sh] → sh.held = none → x.commitReady = true → s.tokenBlocks h sh = false → s.slicesWanted h sh = [] → sh.reds = [] →
      s.NoneHeld → s.arb.heldWrites = [] → ∃ t z, exec (.sheafCommit h) s = .next t ∧ t.hart h = some z ∧ t.stamp = s.stamp + 1 ∧ t.now = s.now ∧
        t.gangs = s.gangs ∧ t.disp = s.disp ∧ t.fab = s.fab ∧ s.SetsOff t ∧ t.mg = s.mg ∧
        z.arch = x.arch ∧ z.sheaves = [] ∧ z.chans = (x.issueCmds sh.cmds).chans ∧
        fget 0 z.cnt cINSTRET = fget 0 x.cnt cINSTRET + BitVec.ofNat 64 sh.seq ∧
        (∀ a, (∀ e ∈ sh.writes, e.1 = a → e.2 = []) → fget 0 t.mem a = fget 0 s.mem a) ∧
        (∀ a us (w : WRec), (∃ e ∈ sh.writes, e.1 = a) → (∀ e ∈ sh.writes, e.1 = a → e.2 = us ++ [w]) →
          (∀ u ∈ us, u.seq = w.seq ∨ ordered u { agent := w.agent, seq := w.seq, nSV := w.nSV, nVS := w.nVS, nVV := w.nVV } = true) →
          fget 0 t.mem a = w.val) ∧
        s.Restarts t (some h) (fun r => (r.rset.meets 4096 sh.wset || r.rset.meets 2048 sh.dset) = true)) ∧
    (∀ k ks, s.arb.token = none → s.arb.tokenQ = k :: ks →
      exec .soloTokenGrant s = .next { s with arb := { s.arb with token := some k, tokenQ := ks } }) ∧
    (∀ sh u, x.arch.sup = false → x.held = none → x.sheaves = [sh] → sh.trap = some u → u.opener = false →
      sh.want = none → x.preempted = false → s.arb.token = none →
      (∀ e ∈ x.queue, e.young = false → u.seq ≤ e.seq) →
      ∃ t z, exec (.trapLanding h) s = .next t ∧ t.hart h = some z ∧ t.now = s.now ∧
        x.Landed z sh u.cause u.kind u.tpc u.telem u.tlane u.tval) ∧
    -- the hart is held in the sheaf after instruction I, in the supervisor (R321)
    (∀ sh k, x.sheaves = [sh] → sh.want = some k → x.parkReady = true → s.arb.token = none → s.NoneHeld →
      s.SparesFrame { x.arch with csr := k.csr } sh →
      ∃ t z sh', exec (.holdStop h) s = .next t ∧ t.hart h = some z ∧ z.held = some k.wp ∧ z.sheaves = [sh'] ∧
        sh'.held = some (k.wp, k.trap) ∧ sh'.cp = sh.cp ∧ sh'.closed = none ∧
        z.arch.sup = true ∧ z.arch.pc = alignPc (fget 0 k.csr cTVEC) ∧ z.arch.rcsr cTPC = k.trap.tpc ∧
        (k.trap.cause < 256 → k.trap.kind < 4 → bit (z.arch.rcsr cTCAUSE).toNat 11 = true) ∧
        z.arch.x = k.x ∧ z.arch.v = x.arch.v ∧ z.arch.m = x.arch.m ∧ z.arch.q = x.arch.q ∧ z.arch.z = x.arch.z ∧
        ∃ l, z.landing = some l ∧ l.arch.pc = k.trap.tpc + 4 ∧ l.arch.x = k.x) ∧
    -- what a queued instruction does is what it does where it is issued (`runVOp`)
    (∀ e es sh d, x.queue = e :: es → e.young = false → e.op.isStrip = false → (∀ v, e.op ≠ .trmark v) → x.sheaves = [sh] →
      sh.trap = none → sh.want = none → d.sheaf.want = none →
      (x.arch.grant.clusters ≠ 0 ∨ ∀ r ∈ s.harts, r.1 ≠ h → r.2.arch.grant.base = x.arch.grant.base → r.2.queue = []) →
      -- none of the hart has issued in this ck, which passes
      x.issueAt ≠ s.now + 1 → runVOp s x.gang e x.arch { sh with asks := [] } (sh.byStrip && !e.sup) = .done d → d.hold = none → d.acc.fl &&& e.fen = 0 →
      -- where timing is kept what it reads has come
      s.ms.timed = false ∨ d.sheaf.asks = [] ∨ e.out = some [] →
      ∃ t z, exec (.queuedInstructionCompletion h) s = .next t ∧ t.hart h = some z ∧ t.mem = s.mem ∧ t.now = s.now + 1 ∧ z.issueAt = s.now + 1 ∧
        z.queue.map (·.op) = es.map (·.op) ∧ z.sheaves = [{ d.sheaf with asks := [] }] ∧ z.issued = x.issued + 1 ∧
        z.arch = (match e.bq, d.acc.bq with
          | some r, some v => ((d.acc.arch.orFlags d.acc.fl).wcsr cSRSEED d.acc.seed).wx r v
          | _, _ => (d.acc.arch.orFlags d.acc.fl).wcsr cSRSEED d.acc.seed)) ∧
    -- a stall on load data ends once every load that it waits for has its data
    (∀ rs r, s.ms.timed = false → x.pend = rs ++ [r] → let l := x.onLoad.filter (fun n => rs.any (fun p => decide (p.reg = n)))
      OnHart (.loadDataDelivery h) s h { x with pend := rs, onLoad := l, blocked := x.blocked && (x.onLoad.isEmpty || !l.isEmpty) }) ∧
    OnHart (.instructionFetchReturn h) s h { x with blocked := x.blocked && !x.onLoad.isEmpty } ∧
    (∀ z, x.wait = .zaction true → x.sheaves = [] → s.loadTiles x = .ok z →
      OnHart (.zstateLoad h) s h { x with wait := .none, arch := { x.arch with z := z }.wcsr cZSTATE 1 } ∧
      let g := x.arch.grant
      let bs := s.peekRange g (x.arch.rcsr cPTROOT) ((x.arch.rcsr cSAVEPTR).toNat + 0xC40 + 54 * g.vlenb) (131072 * g.clusters)
      ∀ n < 8, ∀ i < 64, ∀ j < 64 * g.clusters, j < 8192 →
        getCell { x.arch with z := z } n i j = BitVec.ofNat 32 (leNat ((bs.drop (4 * ((n * 64 + i) * (64 * g.clusters) + j))).take 4))) ∧
    (x.wait = .zaction false → x.sheaves = [] →
      OnHart (.zstateZclr h) s h { x with wait := .none, arch := { x.arch with z := [] }.wcsr cZSTATE 1 }) ∧
    (∀ v, x.wait = .answer true → x.sheaves = [] →
      let a : W64 := if x.charac then (if x.arch.rx 10 = 0 then 1 else 0) else v
      (a ≠ 1 → OnHart (.systemCoreAnswer h v) s h { x with wait := .none, arch := (x.arch.wx 10 a).next }) ∧
      (a = 1 → ∃ t, exec (.systemCoreAnswer h v) s = .next t ∧ (∀ z, t.hart h = some z → z.gone = true) ∧
        ((∀ c ∈ x.chans, c.waiting = [] ∧ c.running = []) → t.hart h = none))) ∧
    (let marked (i : Instr) (v : Nat) : Prop := ∃ z, OnHart i s h z ∧ z = { x with arch := z.arch, sheaves := z.sheaves, landing := z.landing } ∧
        (let f (a : Arch) : Arch := a.wcsr cHSTATUS (setBits (a.rcsr cHSTATUS) 11 11 v)
         z.arch = f x.arch ∧ z.sheaves = x.sheaves.map (fun r => { r with cp := f r.cp }) ∧
         z.landing = x.landing.map (fun l => { l with arch := f l.arch }))
     marked (.debuggerAttach h) 1 ∧ marked (.debuggerDetach h) 0) ∧
    -- ECALL service 0 (R138, R258, R329): the hart ends, with the last of its gang the gang, and the barrier no longer waits for it
    (∀ l g, x.landing = some l → bits (x.arch.rcsr cTCAUSE).toNat 7 0 = 0x0C → l.arch.rx 10 = 0 → x.gone = false →
      (∀ c ∈ x.chans, c.err = none ∧ c.waiting = [] ∧ c.running = []) → ffind s.gangs x.gang = some g → g.eng = none → s.arb.heldWrites = [] →
      let rest := { g with live := g.live.erase h, arrived := g.arrived.erase h, normal := g.normal + 1 }
      let passes : Prop := rest.live ≠ [] ∧ ∀ k ∈ rest.live, k ∈ rest.arrived
      ∃ t, exec (.hartEnd h) s = .next t ∧ t.hart h = none ∧ t.mem = s.mem ∧ t.now = s.now ∧
        t.mg = { s.mg with outbox := s.mg.outbox ++ [(4, [BitVec.ofNat 64 h])] } ∧
        (¬ passes → ∀ k, k ≠ h → t.hart k = s.hart k) ∧
        (passes → ∀ k, k ≠ h → t.hart k = if k ∈ rest.live then (s.hart k).map (fun y => if y.parked then y
          else match y.wait with | .gbar _ true => { y with wait := .none, blocked := false } | _ => y.wake) else s.hart k) ∧
        ffind t.gangs x.gang = (if rest.live = [] then none else
          if ∀ k ∈ rest.live, k ∈ rest.arrived then some { rest with gen := (g.gen + 1) % 2 ^ 32, arrived := [] } else some rest) ∧
        (rest.live = [] → ∀ r, s.disp.dieRegs[g.die]? = some r → ∃ r', t.disp.dieRegs[g.die]? = some r' ∧
          fget 0 r'.lqdone g.queue = fget 0 r.lqdone g.queue + 1)) ∧
    -- one that has ended at once is gone when its commands are (R138, R312)
    (x.gone = true → (∀ c ∈ x.chans, c.err = none ∧ c.waiting = [] ∧ c.running = []) →
      exec (.hartEnd h) s = .next { s with harts := fdel s.harts h }) ∧
    (∀ pa bs, physOk s pa bs.length = true → s.tokenHolds pa bs.length = false → bs ≠ [] → s.NoneHeld →
      ∃ t, exec (.systemCoreWrite pa bs) s = .next t ∧ t.now = s.now ∧ t.gangs = s.gangs ∧ t.mg = s.mg ∧
        s.Wrote t (granules pa bs.length) (s.withBytes pa bs))

/-- R25, R140, R255, R256, R258, R259, R308, R338: the events that end waits.  What breaks a limit of R25 (`breaksLimit`), and that the vector gives the pc
without its two low bits, are the model's choices (logged as assumptions 92 and 89). -/
def Obligations.WaitEvents : Prop :=
  (∀ (s : State) (h : Nat) (x : Hart), s.hart h = some x → x.parked = false →
    -- TLWAIT on a channel, and the error it delivers; TLWAIT on an inbound counter
    (∀ ch v pc c, x.sheaves = [] → x.wait = .tlwait ch v pc → x.chans[ch]? = some c →
      (c.err = none → v.toNat ≤ c.tl → OnHart (.tlwaitResume h) s h { x with wait := .none, blocked := false, noProg := 0 }) ∧
      (∀ e, c.err = some e → x.arch.sup = false → x.preempted = false → s.arb.token = none → ∃ t z, exec (.tlwaitResume h) s = .next t ∧ t.hart h = some z ∧
        z.arch.pc = alignPc (x.arch.rcsr cTVEC) ∧ z.arch.sup = true ∧ z.wait = .none ∧
        bits (z.arch.rcsr cTCAUSE).toNat 7 0 = 0x0F ∧ z.arch.rcsr cTPC = pc ∧ z.arch.rcsr 0x305 = BitVec.ofNat 64 e.applied ∧
        z.arch.rcsr 0x306 = BitVec.ofNat 64 (ch * 256 + e.code) ∧ z.arch.rcsr 0x307 = BitVec.ofNat 64 e.id ∧
        z.chans[ch]? = some { c with waiting := [], done := [], tl := (x.arch.rcsr (cTID + ch)).toNat, err := none } ∧
        z.landing = some { arch := x.arch, cap := x.cap, squash := x.squash })) ∧
    (∀ n v pc, x.sheaves = [] → x.wait = .icwait n v pc → v.toNat ≤ (fget 0 x.ic n).toNat →
      OnHart (.tlwaitResume h) s h { x with wait := .none, blocked := false, noProg := 0 }) ∧
    (∀ q ss sh, x.wait = .qdrain q → x.qdrained q = true → x.sheaves = ss ++ [sh] →
      OnHart (.qdrainDone h) s h { x with wait := .none, arch := x.arch.next, blocked := false, bq := if bit q 3 then [] else x.bq,
                                          sheaves := ss ++ [{ sh with seq := sh.seq + 1 }] }) ∧
    (∀ u ss sh, x.wait = .wfi u → u ≤ s.now ∨ x.preempt ≠ 0 → x.sheaves = ss ++ [sh] →
      OnHart (.wfiWake h) s h { x with wait := .none, arch := x.arch.next, blocked := false,
                                       sheaves := ss ++ [{ sh with seq := sh.seq + 1 }] }) ∧
    -- QDEAD, where a limit is broken: at the instruction that cannot go on, or at a TLWAIT
    (∀ sh, x.dead s.now = true → x.breaksLimit = true → x.preempt = 0 → x.wait = .none → x.atOpener = false → ({ s with cur := h } : State).CanLand x sh →
      sh.closed = none → sh.held = none → ∃ t z, exec (.qdeadTimeout h) s = .next t ∧ t.hart h = some z ∧
        ({ x with noProg := 0 } : Hart).Landed z sh 0x0B 0 x.arch.pc 0 0 x.stalled) ∧
    (∀ ch v pc, x.dead s.now = true → x.breaksLimit = true → x.preempt = 0 → x.held = none → x.arch.sup = false → x.sheaves = [] → x.wait = .tlwait ch v pc → s.arb.token = none →
      ∃ t z, exec (.qdeadTimeout h) s = .next t ∧ t.hart h = some z ∧ z.arch.pc = alignPc (x.arch.rcsr cTVEC) ∧ z.arch.sup = true ∧ z.wait = .none ∧
        bits (z.arch.rcsr cTCAUSE).toNat 7 0 = 0x0B ∧ z.arch.rcsr cTPC = pc ∧ bit (z.arch.rcsr 0x307).toNat 4 = true ∧
        z.landing = some { arch := x.arch, cap := x.cap, squash := x.squash }) ∧
    -- a program that keeps both limits never traps QDEAD
    (x.breaksLimit = false → exec (.qdeadTimeout h) s = .next s) ∧
    -- 2^20 ck after the count began
    (x.dead s.now = true ↔ x.noProg ≠ 0 ∧ (x.noProg - 1) + 2 ^ 20 ≤ s.now)) ∧
  -- a barrier at which every live hart of the gang waits
  (∀ (s : State) (g : Nat) (q : Gang), ffind s.gangs g = some q → q.live ≠ [] →
    (∀ h ∈ q.live, ∃ x n b, s.hart h = some x ∧ x.gang = g ∧ x.parked = false ∧ x.sheaves = [] ∧ x.wait = .gbar n b ∧
      q.arrived.contains h = b ∧ (b = true → n = q.gen)) →
    ∃ t, exec (.barrierRelease g) s = .next t ∧ t.mem = s.mem ∧ t.now = s.now ∧
      ffind t.gangs g = some { q with gen := (q.gen + 1) % 2 ^ 32, arrived := [] } ∧
      (∀ h ∉ q.live, t.hart h = s.hart h) ∧
      ∀ h ∈ q.live, ∀ x, s.hart h = some x → t.hart h = some { x with wait := .none, blocked := false })

/-! ### Launches -/

/-- R328 to R330, R334, R336, R337, R362, R397: queue registers, packets taken and checked, launches of the system cores, elastic grants and pre-emption.
The form of the reply (`replyTo`), the status and the reason that a rejected characterisation launch is answered with, that a launch which names an
advice image since replaced is rejected (`adviceAt`), that DC is 0 after a pre-emption, that a rejected packet leaves the round-robin of its die as it
is, and that a gang's band is that of its launch (`neededBy`), are the model's choices (logged as assumptions 20, 85, 61, 98, 91, 109 and 106). -/
def Obligations.LaunchEvents : Prop :=
  ∀ s : State,
    -- the advice image that a packet names is the one in force as it is accepted (R120)
    let accepted (p : Packet) : Packet :=
      { p with since := s.now, advice := if pAdvice p.bytes = 0 then none else s.adviceAt p.ptroot (pAdvice p.bytes) }
    (∀ (die k : Nat) (v : W64) (r : DieRegs), s.disp.dieRegs[die]? = some r →
      (∃ r', exec (.lqtailWrite die k v) s = .next (s.withDie die r') ∧ r' = { r with lqtail := r'.lqtail } ∧
        ∀ j, fget 0 r'.lqtail j = if j = k ∧ k < 8 then v.toNat % 2 ^ 32 else fget 0 r.lqtail j) ∧
      (∃ r', exec (.lqcfgWrite die k v) s = .next (s.withDie die r') ∧ r' = { r with lqcfg := r'.lqcfg } ∧
        ∀ j, fget 0 r'.lqcfg j = if j = k ∧ k < 8 then
            (if 1 ≤ bits v.toNat 4 0 ∧ bits v.toNat 4 0 ≤ 16 then v &&& 0x1071F#64 else v &&& 0x71F#64) else fget 0 r.lqcfg j) ∧
      -- the packet at the head of the queue whose turn it is
      (∀ p, s.nextQueue die = some k → s.queueHead die k = some p → ∃ r' : DieRegs,
        fget 0 r'.lqhead k = (fget 0 r.lqhead k + 1) % 2 ^ 32 ∧
        (packetReason s p = none → r' = { r with lqhead := r'.lqhead } ∧
          exec (.dispatchPacket die k) s = .next { s.withDie die r' with disp := { (s.withDie die r').disp with
            inner := if k = 8 then s.disp.inner.erase p else s.disp.inner
            packets := s.disp.packets ++ [accepted p] } }) ∧
        (∀ c, packetReason s p = some c → k < 8 → p.eng = none → p.die = die → p.queue = k →
          exec (.dispatchPacket die k) s = .next (s.withDie die r') ∧
          r' = { r with lqhead := r'.lqhead, lqerr := r'.lqerr, lqdone := r'.lqdone } ∧
          fget 0 r'.lqdone k = fget 0 r.lqdone k + 1 ∧
          fget 0 r'.lqerr k = BitVec.ofNat 64 (fget 0 r.lqhead k * 2 ^ 32 + min (bits (fget 0 r.lqerr k).toNat 31 16 + 1) 0xFFFF * 2 ^ 16 + c)))) ∧
    -- the checks of R330
    (∀ p : Packet, packetReason s p = none ↔
      let b := p.bytes
      pEntry b % 4 = 0 ∧ bits (pEntry b) 63 58 = 0 ∧ 1 ≤ pGang b ∧ pGang b ≤ 64 ∧ pVlen b ∈ vlenRows ∧
      pFlags b < 128 ∧ (∀ y ∈ b.drop 96, y = 0) ∧ (bit (pFlags b) 0 = true → pGang b ≤ 1) ∧ (bit (pFlags b) 1 = true → 8192 ≤ pVlen b) ∧
      pVlen b * pGang b ≤ Config.clusters s.bare * 8192 ∧ (p.eng = none ↔ fieldAt b 88 8 ≠ 0) ∧
      (pAdvice b ≠ 0 → (s.adviceAt p.ptroot (pAdvice b)).isSome = true) ∧
      (p.charac.isSome = true → pGang b = 1 ∧ pVlen b = 2048 ∧ pFlags b % 16 = 0)) ∧
    -- launches by the system cores, which are answered
    (∀ (m : Sys2Proof.MsgHead) (die cluster : Nat) (bs : List Byte), s.mg.pkg.ready = true → bs.length = 128 → s.Unanswered m →
      headOk m 4 136 = true →
      (die < Config.dies s.bare → exec (.launch m die bs) s =
        .next (({ s with disp := { s.disp with inner := s.disp.inner ++ [corePacket s die bs none] } } : State).replied m 0 [])) ∧
      (cluster < Config.clusters s.bare →
        let p := corePacket s (cluster / 32) bs (some cluster)
        exec (.characterisationLaunch m cluster bs) s = .next (match packetReason s p with
          | none => ({ s with disp := { s.disp with charQ := s.disp.charQ ++ [accepted p] } } : State).replied m 0 []
          | some c => s.replied m 2 [BitVec.ofNat 64 c]))) ∧
    (∀ (h vlen : Nat) (p : Sys2Proof.Place) (x : Hart), s.hart h = some x → elastic x.arch.csr = true → x.parked = false → x.gone = false → vlen ∈ vlenRows →
      vlen ≤ x.vlen → (needsZ x.arch.csr = true → 8192 ≤ vlen) → s.placeFree (some h) vlen p = true →
      -- none grows before one of a higher priority that can, nor takes a quarter that a characterisation launch waits for
      (vlen ≤ 8 * (x.posted.getD x.arch.grant).vlenb ∨ ∀ e ∈ s.harts, s.prioOf x < s.prioOf e.2 → s.growable e.1 e.2 = false) →
      (∀ q ∈ s.disp.charQ, ∀ c, q.charac = some c → 4 * c ∈ placeLanes vlen p → 4 * c ∈ x.arch.grant.lanes) →
      OnHart (.grantPost h vlen p) s h { x with posted := some (grantAt vlen p) }) ∧
    -- pre-emption: asked of every hart of the gang that is not pre-empted yet
    (∀ (g : Nat) (q : Gang), ffind s.gangs g = some q →
      let asked (x : Hart) : Hart :=
        if x.parked ∨ x.charac ∨ x.preempt ≠ 0 then x
        else { x.wake with preempt := if x.wake.sheaves = [] ∧ x.wake.landing = none then 2 else 1, noProg := 0 }
      let asks (i : Instr) : Prop := ∃ t, exec i s = .next t ∧ t = { s with harts := t.harts } ∧
        ∀ h, t.hart h = if h ∈ q.live then (s.hart h).map asked else s.hart h
      asks (.preemptRequest g .systemCore) ∧ (s.yields q = true → asks (.preemptRequest g .yield)) ∧
      (s.neededBy g q = true → asks (.preemptRequest g .higherPriority)) ∧
      -- unless an elastic hart is to be shrunk in its place (R334)
      (∀ p ∈ s.disp.packets, p.prio = q.prio → p.since + 2 ^ 22 ≤ s.now → q.placedAt + 2 ^ 22 ≤ s.now →
        s.shrinkFirst { p.waiter with prio := p.prio + 1 } q = false → asks (.preemptStarvationTimeout g)) ∧
      ((∀ p ∈ s.disp.packets, p.prio = q.prio → p.since + 2 ^ 22 ≤ s.now → s.shrinkFirst { p.waiter with prio := p.prio + 1 } q = true) →
        exec (.preemptStarvationTimeout g) s = .next s)) ∧
    -- the forced split of a long sheaf, on a hart whose commits wait for events
    (∀ (h : Nat) (x : Hart) (sh : Sheaf), s.hart h = some x → x.sheaves = [sh] → sh.closed = none → sh.held = none → x.preempt = 1 →
      x.landing = none → sh.openedAt + 2 ^ 18 ≤ s.now → (x.wait = .none ∨ (∃ q, x.wait = .qdrain q) ∨ (∃ a, x.wait = .fetch a) ∨ ∃ a, x.wait = .table a) → (∀ b ∈ x.bq, b.here = true) → x.ahead = true →
      OnHart (.preemptSplitTimeout h) s h { x with
        sheaves := [{ sh with closed := some .split }], arch := { x.arch with bySplit := true }, bq := [], wait := .none }) ∧
    -- a pre-emption lands: the hart stands at the start of its oldest sheaf, and the gang waits for its restore once all have landed
    (∀ (h : Nat) (x : Hart) (q : Gang), s.hart h = some x → x.preempt = 2 → x.landing = none → x.held = none → x.parked = false →
      ffind s.gangs x.gang = some q → h ∈ q.live → s.arb.token = none → (∀ k ∈ q.live, k = h ∨ s.hart k = none) →
      (∀ e ∈ s.disp.restore, e.1 ≠ x.gang) → ∃ t z, exec (.preemptionLanding h) s = .next t ∧ t.hart h = some z ∧ z.parked = true ∧ z.preempt = 0 ∧ z.dc = 0 ∧ z.sheaves = [] ∧
        z.queue = [] ∧ z.wait = x.savedWait ∧ z.chans = x.chans ∧ z.lanes = [] ∧
        z.arch = (match x.sheaves with | r :: _ => r.cp | [] => x.arch) ∧
        t.disp.restore = s.disp.restore ++ [(x.gang, t.now)])

/-- R15, R46, R317, R318, R327, R332: a gang is placed whole, each hart in the state of a new hart on cleared scratchpads; a pre-empted gang is restored
from its save areas.  The numbers of harts and gangs and the launch identity, that the pc comes without its two low bits, and that the clearing and the
reload of a scratchpad squash no sheaf, are the model's choices (logged as assumptions 34, 89 and 104). -/
def Obligations.GangsStart : Prop :=
  (∀ (s : State) (die k : Nat) (ps : List Sys2Proof.Place) (p : Packet) (r : DieRegs), s.disp.charQ = [] →
    s.disp.packets.find? (fun p => decide (p.die = die) && decide (p.queue = k)) = some p → p.eng = none → p.charac = none →
    s.disp.dieRegs[die]? = some r →
    let n := pGang p.bytes
    let v := pVlen p.bytes
    s.placementOk die v n ps = true → s.orderOk die p.waiter ps = true →
    ∃ t, exec (.gangPlace die k ps) s = .next t ∧ t.now = s.now ∧ t.disp.packets = s.disp.packets.erase p ∧
      t.disp.dieRegs[die]? = some { r with rr := k } ∧ t.nextGang = s.nextGang + 1 ∧ t.nextHart = s.nextHart + n ∧
      ffind t.gangs s.nextGang = some {
        ident := s.nextGang % 2 ^ 48, size := n, live := (List.range n).map (s.nextHart + ·), gen := 0, arrived := [], prio := p.prio, die := p.die, queue := p.queue, eng := none, normal := 0, placedAt := s.now } ∧
      (∀ g, g ≠ s.nextGang → ffind t.gangs g = ffind s.gangs g) ∧
      (∀ h, (h < s.nextHart ∨ s.nextHart + n ≤ h) → t.hart h = s.hart h) ∧
      (∀ i < n, ∀ q, ps[i]? = some q → let g := grantAt v q
        (∀ o < g.scratch, fget 0 t.mem (g.windowHome o) = 0) ∧
        ∃ x, t.hart (s.nextHart + i) = some x ∧ x.gang = s.nextGang ∧ x.index = i ∧ x.size = n ∧ x.sheaves = [] ∧ x.queue = [] ∧
          x.wait = .none ∧ x.parked = false ∧ x.landing = none ∧ (p.advice = none → x.adv = none) ∧ x.vlen = v ∧ x.effPrio = p.prio ∧ x.dc = 0 ∧
          (∀ c ∈ x.chans, c.ctx = none ∧ c.waiting = [] ∧ c.running = [] ∧ c.tl = 0 ∧ c.err = none) ∧ x.chans.length = 8 ∧
          x.arch.grant = g ∧ x.arch.pc = BitVec.ofNat 64 (pEntry p.bytes) ∧ x.arch.v = [] ∧ x.arch.m = [] ∧ x.arch.q = [] ∧ x.arch.z = [] ∧
          x.arch.tam = [] ∧ x.arch.mp = [] ∧
          x.arch.rx 10 = BitVec.ofNat 64 (fieldAt p.bytes 16 8) ∧
          (∀ j < 6, x.arch.rx (11 + j) = BitVec.ofNat 64 (fieldAt p.bytes (32 + 8 * j) 8)) ∧
          x.arch.rx 17 = BitVec.ofNat 64 (n * 65536 + i) ∧ (∀ j, j < 10 ∨ 17 < j → x.arch.rx j = 0) ∧
          x.arch.rcsr cVL = 0 ∧ x.arch.rcsr cVTYPE = 3 ∧ x.arch.rcsr cVLENB = BitVec.ofNat 64 g.vlenb ∧ x.arch.rcsr cSTRIP = 0 ∧
          x.arch.rcsr cFCSR = 0 ∧ x.arch.rcsr cSRSEED = 1 ∧ x.arch.rcsr cHARTINFO = BitVec.ofNat 64 (n * 65536 + i) ∧
          (∀ c < 8, x.arch.rcsr (cZCFG + c) = zcfgReset g ∧ x.arch.rcsr (cTID + c) = 0) ∧ x.arch.rcsr cZSTATE = 0 ∧
          x.arch.rcsr cTVEC = s.disp.tvec ∧ x.arch.rcsr cSUPSCR = s.disp.supscr ∧ x.arch.rcsr cPTROOT = p.ptroot ∧
          x.arch.rcsr cBNDTAB = BitVec.ofNat 64 (fieldAt p.bytes 80 8) ∧ x.arch.sup = false ∧ ∀ c, fget 0 x.cnt c = 0) ∧
      ∀ a, a < 0xF_0000_0000_0000 → fget 0 t.mem a = fget 0 s.mem a) ∧
  -- a gang of one hart is restored: its save area, within one page, gives all but the tiles
  (∀ (s : State) (g h home : Nat) (q : Gang) (x : Hart) (e : Nat × Nat) (p : Sys2Proof.Place), ffind s.gangs g = some q →
    q.live = [h] → s.hart h = some x → s.disp.restore.find? (fun e => decide (e.1 = g)) = some e →
    let vb := x.arch.grant.vlenb
    let w : Waiter := { prio := q.prio, vlen := 8 * vb, size := 1, restore := true, queue := q.queue }
    s.placementOk q.die (8 * vb) 1 [p] = true → s.orderOk q.die w [p] = true →
    let n := grantAt (8 * vb) p
    let base := (x.arch.rcsr cSAVEPTR).toNat
    n.vlenb = vb → base % 65536 + (0xC40 + 54 * vb) ≤ 65536 → homeOf s n (x.arch.rcsr cPTROOT) base kRead false = some home →
    let word (o : Nat) : Nat := memNat s (home + o) 8
    ∃ t z, exec (.gangRestore g [p]) s = .next t ∧ t.hart h = some z ∧ (∀ k, k ≠ h → t.hart k = s.hart k) ∧
      t.disp.restore = s.disp.restore.erase e ∧ t.disp.dieRegs = s.disp.dieRegs ∧
      z.parked = false ∧ z.chans = x.chans ∧ z.sheaves = x.sheaves ∧ z.arch.grant = n ∧ z.arch.rcsr cZSTATE = 0 ∧
      z.arch.pc = alignPc (BitVec.ofNat 64 (word 0x40)) ∧ (∀ i < 31, (z.arch.rx (i + 1)).toNat = word (0x48 + 8 * i)) ∧
      z.cap = word 0x20 ∧ z.squash = word 0x18 / 2 ^ 32 ∧ z.arch.nextSplit = word 0x18 % 2 ^ 32 ∧
      -- the wait of a SYNC instruction that the hart was in (R261)
      z.wait = (if bit (word 0) 50 then
        (match word 0x30 % 256 with
          | 1 => .tlwait (word 0x30 % 2 ^ 32 / 256) (BitVec.ofNat 64 (word 0x28)) (z.arch.pc - 4)
          | 2 => .icwait (word 0x30 % 2 ^ 32 / 256) (BitVec.ofNat 64 (word 0x28)) (z.arch.pc - 4)
          | 3 => .gbar (word 0x28) (decide (word 0x30 / 2 ^ 32 = 1))
          | _ => .none)
        else .none) ∧
      (z.arch.rcsr cSTRIP).toNat = word 0x10 ∧ (z.arch.rcsr cVL).toNat = word 0x140 ∧ (z.arch.rcsr cRUNBASE).toNat = word 0x158 ∧
      -- without reserved bits (R10), and a generator that is not 0 (R58)
      (∀ e ∈ [(cVTYPE, 0x148), (cFCSR, 0x150), (cMSKSHAPE, 0x180)], z.arch.rcsr e.1 = BitVec.ofNat 64 (word e.2) &&& csrMask e.1) ∧
      (z.arch.rcsr cSRSEED).toNat = (if word 0x160 = 0 then 1 else word 0x160) ∧
      (∀ c < 8, z.arch.rcsr (cZCFG + c) = BitVec.ofNat 64 (word (0x1F0 + 8 * c)) &&& csrMask (cZCFG + c) ∧
        (z.arch.rcsr (cTID + c)).toNat = word (0x230 + 8 * c)) ∧
      (fget 0 z.cnt cINSTRET).toNat = word 0x278 ∧
      (∀ k < 32, ∀ b < vb, fget 0 z.arch.v (k * 131072 + b) = fget 0 s.mem (home + (0x300 + k * vb + b))) ∧
      (∀ k < 7, ∀ b < 2 * vb, ∀ i < 8, getMask z.arch (k + 1) (8 * b + i) =
        bit (fget 0 s.mem (home + (0x300 + 32 * vb + k * (2 * vb) + b))).toNat i) ∧
      (∀ k < 8, ∀ b < vb, fget 0 z.arch.q (k * 131072 + b) = fget 0 s.mem (home + (0x300 + 46 * vb + k * vb + b))) ∧
      (∀ j < 2048, fget 0 z.arch.tam j = fget 0 s.mem (home + (0x300 + 54 * vb + j))) ∧
      ∀ j < 288, fget 0 z.arch.mp j = fget 0 s.mem (home + (0xB00 + 54 * vb + j)))

/-! ### Events of the package -/

/-- R233, R235, R237, R241, R243, R244, R250, R251, R256, R384: the copy engines: binding a channel, starting a command, applying and sending its elements,
and what a destination acknowledges, where no timing is kept.  That a command toward a package that is down ends with LINK at 0 as it starts, and
the form of what a remote element is sent as, are the model's choices (logged as assumptions 49 and 20). -/
def Obligations.EngineEvents : Prop :=
  ∀ (s : State) (h ch : Nat) (x : Hart) (c : Chan), s.hart h = some x → x.chans[ch]? = some c →
    -- a context that no channel holds, on a nearest die that has one
    (∀ d, d < Config.dies s.bare → freeContexts s d ≠ [] → c.ctx = none → c.waiting ≠ [] →
      let here := x.arch.grant.base / 32
      ∃ n e, exec (.channelBind h ch) s = .next (({ s with free := n } : State).setHart h (x.setChan ch { c with ctx := some e })) ∧
        e.2 < 64 ∧ (∀ k y, s.hart k = some y → ∀ b ∈ y.chans, b.ctx ≠ some e) ∧ hops here (e.1 / 16) ≤ hops here d) ∧
    -- an engine starts one command in a ck
    (∀ e, fget 0 s.fab.started e = s.now + 1 → exec (.engineCommandStart e) s = .next s) ∧
    (∀ e k, fget 0 s.fab.started e ≠ s.now + 1 → nextStart s e = some (h, ch) → x.startable ch = some k → x.wait = .none →
      let run : Run := { cmd := k, applied := 0, sent := 0, asked := 0, early := [], due := [], writes := [], wdue := none, metas := [], gang := none }
      let begun : Chan := { c with waiting := c.waiting.drop 1, running := c.running ++ [run] }
      ∃ f, f = { s.fab with engines := f.engines, started := f.started } ∧ fget 63 f.engines e = (c.ctx.map Prod.snd).getD 63 ∧
        fget 0 f.started e = s.now + 1 ∧
        let starts (d : Chan) : State := ({ s with fab := f } : State).setHart h { x.setChan ch d with noProg := 0 }
        (∀ code, k.operands = some code → exec (.engineCommandStart e) s = .next (starts
          { begun with running := begun.running.filter (fun r => decide (r.cmd.id ≠ k.id)), err := some { id := k.id, applied := 0, code := code } })) ∧
        (k.operands = none → k.count = 0 → k.raises = false → exec (.engineCommandStart e) s = .next (starts (begun.complete k.id))) ∧
        (k.operands = none → k.count ≠ 0 → k.remote = false → k.fn ≠ .sig → k.fn ≠ .launch →
          exec (.engineCommandStart e) s = .next (starts begun)) ∧
        (k.operands = none → k.count ≠ 0 → k.remote = true → s.bare = false →
          exec (.engineCommandStart e) s = .next (starts (if s.fab.down.contains (xPkg k.xb1) then
            { begun with running := begun.running.filter (fun r => decide (r.cmd.id ≠ k.id)), err := some { id := k.id, applied := 0, code := 6 } }
            else begun))) ∧
        -- a LAUNCH reads its packet granule by granule and submits it
        (∀ bs, s.ms.timed = false → k.operands = none → k.fn = .launch → readPacket s x k = .ok bs →
          exec (.engineCommandStart e) s = .next { starts { begun with
              running := begun.running.map (fun r => if r.cmd.id = k.id then { r with sent := 1 } else r) } with
            disp := { s.disp with inner := s.disp.inner ++ [launchPacket s h ch k.id x bs] } }) ∧
        ∀ p q, let a := k.xa.toNat
          let home (b : Nat) : Option Nat := homeOf s x.arch.grant (x.arch.rcsr cPTROOT) b kRead (!k.sup)
          x.parked = false → (k.sup = true ∨ boundsOk s x.arch.grant x.arch.csr a 128 kRead = true) → home a = some p → home (a + 64) = some q →
          poisoned s p = false → poisoned s q = false → readPacket s x k = .ok (memBytes s p 64 ++ memBytes s q 64)) ∧
    -- TL is the largest identifier up to which every command has completed (R235)
    (∀ id, let d := c.complete id
      d.running = c.running.filter (fun r => decide (r.cmd.id ≠ id)) ∧ c.tl ≤ d.tl ∧ (∀ i, c.tl < i → i ≤ d.tl → i = id ∨ i ∈ c.done) ∧
      d.tl + 1 ≠ id ∧ d.tl + 1 ∉ c.done) ∧
    (∀ id r ctx, s.ms.timed = false → c.ctx = some ctx → c.run id = some r → x.parked = false →
      let w := r.cmd.esize
      let from_ (i : Nat) : Except Nat Nat := engAccess s x r.cmd.sup ((r.cmd.xa1.toNat + i * w) % 2 ^ 64) w kRead
      -- CPY: one element, or the error of its check
      (∀ hs hd, r.cmd.fn = .cpy → ffind r.early r.applied = none → s.NoneHeld → from_ r.applied = .ok hs →
        engAccess s x r.cmd.sup ((r.cmd.xa.toNat + r.applied * w) % 2 ^ 64) w kWrite = .ok hd → s.tokenHolds hd w = false →
        ∃ t z d, exec (.engineElementApply h ch id) s = .next t ∧ t.hart h = some z ∧ z.chans[ch]? = some d ∧ t.now = s.now ∧
          t.gangs = s.gangs ∧ t.mg = s.mg ∧
          (∀ a, fget 0 t.mem a = if hd ≤ a ∧ a < hd + w then fget 0 s.mem (hs + (a - hd)) else fget 0 s.mem a) ∧
          (r.applied + 1 ≠ r.cmd.count → d.run id = some { r with applied := r.applied + 1, early := fdel r.early r.applied, wdue := none }) ∧
          (r.applied + 1 = r.cmd.count → d = c.complete id)) ∧
      (∀ code, r.cmd.fn = .cpy → ffind r.early r.applied = none → from_ r.applied = .error code → c.err = none →
        OnHart (.engineElementApply h ch id) s h { x.setChan ch { c with
          running := c.running.filter (fun r => decide (r.cmd.id ≠ id)), err := some { id := id, applied := r.applied, code := code } } with noProg := 0 }) ∧
      -- PUT: one element is sent to its package; one of this package takes the loopback path (R382)
      (∀ hs, r.cmd.fn = .put → ffind r.early r.sent = none → r.sent < r.cmd.count → bits (r.cmd.remoteAddr r.sent).toNat 63 58 = 0 →
        from_ r.sent = .ok hs →
        let pkg := xPkg r.cmd.xb1
        let data := BitVec.ofNat 64 (memNat s hs w)
        ∃ t z d, exec (.engineElementApply h ch id) s = .next t ∧ t.hart h = some z ∧ z.chans[ch]? = some d ∧ t.mem = s.mem ∧
          d.run id = some { r with sent := r.sent + 1 } ∧
          (s.link pkg ≠ 0 → t.fab = s.fab ∧ t.mg.outbox = s.mg.outbox ++ [(16, [BitVec.ofNat 64 pkg, BitVec.ofNat 64 (s.link pkg), BitVec.ofNat 64 h,
            BitVec.ofNat 64 (ctx.1 * 64 + ctx.2), BitVec.ofNat 64 id, BitVec.ofNat 64 r.sent, r.cmd.xa, r.cmd.xa + BitVec.ofNat 64 (r.sent * w),
            r.cmd.xb1, data])]) ∧
          (s.link pkg = 0 → t.mg = s.mg ∧ t.fab.loop = s.fab.loop ++ [(.put, r.cmd.elem s h ctx r.sent data)])) ∧
      -- an element whose address has a tag is not sent: the command ends with OPERAND there (R384)
      (r.cmd.fn = .put → r.sent < r.cmd.count → r.applied = r.sent → c.err = none → bits (r.cmd.xa + BitVec.ofNat 64 (r.sent * w)).toNat 63 58 ≠ 0 →
        OnHart (.engineElementApply h ch id) s h { x.setChan ch { c with
          running := c.running.filter (fun r => decide (r.cmd.id ≠ id)), err := some { id := id, applied := r.applied, code := 3 } } with noProg := 0 })) ∧
    -- what comes back over a link speaks of elements that have been sent
    (∀ id r (ack : Sys2Proof.RemoteAck), c.run id = some r → r.cmd.remote = true → r.cmd.fn ≠ .get → s.link (xPkg r.cmd.xb1) ≠ 0 →
      (h, ch, id, ack) ∉ s.fab.acks →
      (r.sent = 0 ∨ r.sent < ack.applied → exec (.remoteAcknowledge h ch id ack) s = .next s) ∧ (r.sent ≠ 0 → ack.applied ≤ r.sent →
      let told (d : Chan) : Prop := OnHart (.remoteAcknowledge h ch id ack) s h { x.setChan ch d with noProg := 0 }
      (ack.code ≠ 0 → c.err = none → told { c with
        running := c.running.filter (fun r => decide (r.cmd.id ≠ id))
        err := some { id := id, applied := max r.applied ack.applied, code := ack.code } }) ∧
      (ack.code = 0 → ack.applied = r.cmd.count → r.cmd.count ≤ r.sent → x.wait = .none → told (c.complete id)) ∧
      (ack.code = 0 → r.applied < ack.applied → ack.applied < r.cmd.count →
        told { c with running := c.running.map (fun q => if q.cmd.id = id then { q with applied := ack.applied } else q) })))

/-- R249, R253, R380, R383 to R390: the destination side of remote commands, registrations and their revocation, host RDMA, packages that are down and
boundaries that retrain.  That a signal is checked as an access of one byte, and the forms of what is reported, are the model's choices (logged
as assumptions 26 and 20); so are the binding that tells the harts of a context apart, where the duplicate window ends and that it is one of Ultra Ethernet links alone, the place of
a window's key, and that an RDMA read changes nothing but what is reported (logged as assumptions 50, 51, 52 and 28). -/
def Obligations.FabricEvents : Prop :=
  ∀ s : State, s.bare = false →
    (∀ (e : Sys2Proof.RemoteElem),
      let r := s.fab.remote e.pkg e.ctx e.life e.cmd
      -- a duplicate changes nothing (R387): one whose number has been applied, or over Ultra Ethernet one below the window
      (s.isDup e.pkg e.ctx e.seq = true ↔ (ffind s.fab.dup (dupKey e.pkg e.ctx e.seq)).isSome = true ∨
        (s.link e.pkg = 2 ∧ e.seq + 65536 ≤ s.fab.topSeq e.pkg e.ctx)) ∧
      (s.isDup e.pkg e.ctx e.seq = true → s.link e.pkg ≠ 0 → exec (.remotePutArrival e) s = .next s ∧ exec (.remoteGetArrival e) s = .next s ∧
        exec (.remoteRcopyArrival e) s = .next s ∧ exec (.remoteSigArrival e) s = .next s) ∧
      (s.mg.stopped = false → s.isDup e.pkg e.ctx e.seq = false → r.sealed = false → e.index = r.applied → xSig e.xctl = false →
        r.raises = none → s.NoneHeld →
        let head (n code : Nat) : List W64 :=
          [BitVec.ofNat 64 e.pkg, BitVec.ofNat 64 e.ctx, BitVec.ofNat 64 e.life, BitVec.ofNat 64 e.cmd, BitVec.ofNat 64 n, BitVec.ofNat 64 code]
        -- over the loopback path: the element that this package carries, and its acknowledgement on the way back (R382)
        (∀ i g p ch, s.link e.pkg = 0 → (.put, e) ∈ s.fab.loop → e.bytes ≠ 0 →
          s.regCheck e.pkg e.addr.toNat e.bytes permPut kWrite = some (i, g, p) → e.data.length = e.bytes → s.tokenHolds p e.bytes = false →
          boundTo s (e.ctx / 64) (e.ctx % 64) = some (e.life, ch) →
          ∃ t, exec (.remotePutArrival e) s = .next t ∧ s.Wrote t (granules p e.bytes) (s.withBytes p e.data) ∧ t.mg = s.mg ∧
            t.fab.loop = s.fab.loop.erase (.put, e) ∧
            t.fab.acks = s.fab.acks ++ [(e.life, ch, e.cmd, { applied := r.applied + 1, data := [], code := 0 })]) ∧
        (s.link e.pkg = 0 → (∀ q ∈ s.fab.loop, q.2 ≠ e) → exec (.remotePutArrival e) s = .next s) ∧
        (s.link e.pkg ≠ 0 →
        let applied (t : State) (i : Nat) (data : List Byte) : Prop := t.now = s.now ∧ t.gangs = s.gangs ∧
          (ffind t.fab.dup (dupKey e.pkg e.ctx e.seq)).isSome = true ∧
          t.fab.remote e.pkg e.ctx e.life e.cmd =
            { r with applied := r.applied + 1, regs := if r.regs.contains i then r.regs else r.regs ++ [i], sealed := e.last } ∧
          t.mg = { s.mg with outbox := s.mg.outbox ++ [(21, head (r.applied + 1) 0 ++ data.map (fun b => b.setWidth 64))] }
        (∀ i g p, e.bytes ≠ 0 → s.regCheck e.pkg e.addr.toNat e.bytes permPut kWrite = some (i, g, p) → e.data.length = e.bytes →
          s.tokenHolds p e.bytes = false →
          ∃ t, exec (.remotePutArrival e) s = .next t ∧ applied t i [] ∧ s.Wrote t (granules p e.bytes) (s.withBytes p e.data)) ∧
        (e.bytes ≠ 0 → s.regCheck e.pkg e.addr.toNat e.bytes permPut kWrite = none →
          ∃ t, exec (.remotePutArrival e) s = .next t ∧ t.mem = s.mem ∧ t.harts = s.harts ∧ (t.fab.remote e.pkg e.ctx e.life e.cmd).sealed = true ∧
            t.mg.outbox = s.mg.outbox ++ [(21, head r.applied 5)]) ∧
        (∀ i g p, e.bytes ≠ 0 → s.regCheck e.pkg e.addr.toNat e.bytes permGet kRead = some (i, g, p) → poisoned s p = false →
          ∃ t, exec (.remoteGetArrival e) s = .next t ∧ applied t i (memBytes s p e.bytes) ∧ t.mem = s.mem ∧ t.harts = s.harts) ∧
        (∀ i g p op, e.bytes ≠ 0 → s.regCheck e.pkg e.addr.toNat e.bytes permReduce kReduce = some (i, g, p) → xOp e.xctl = some op →
          e.bytes = (xType e.xctl).bytes → e.data.length = e.bytes → s.tokenHolds p e.bytes = false →
          ∃ t, exec (.remoteRcopyArrival e) s = .next t ∧ applied t i [] ∧ s.Wrote t (granules p e.bytes)
            (s.withBytes p (leBytes e.bytes (aluApply (xType e.xctl) op (memNat s p e.bytes) (leNat e.data))))) ∧
        (∀ i g p k y, s.regCheck e.pkg e.addr.toNat 1 permSignal kRead = some (i, g, p) → s.owner g = some k → s.hart k = some y →
          let n := xIcn e.xctl
          ∃ t, exec (.remoteSigArrival e) s = .next t ∧ applied t i [] ∧ t.mem = s.mem ∧ (∀ j, j ≠ k → t.hart j = s.hart j) ∧
            let v := BitVec.ofNat 64 (leNat e.data)
            let z : Hart := { y with ic := fset 0 y.ic n (fget 0 y.ic n + v) }
            t.hart k = some (if v = 0 then z else z.wake))))) ∧
    (∀ src cmd, let pkg := src / 4096 % 8192
      let ctx := src % 4096
      let life := src / 4096 / 8192
      let r := s.fab.remote pkg ctx life cmd
      s.link pkg ≠ 0 → ∃ t, exec (.commandSeal src cmd) s = .next t ∧ t = { s with fab := t.fab, mg := t.mg } ∧
        t.fab.remote pkg ctx life cmd = { r with sealed := true } ∧
        t.mg.outbox = s.mg.outbox ++ [(21, [BitVec.ofNat 64 pkg, BitVec.ofNat 64 ctx, BitVec.ofNat 64 life, BitVec.ofNat 64 cmd,
          BitVec.ofNat 64 r.applied, 6])]) ∧
    -- every command toward a package that is down ends with LINK at the count last acknowledged
    (∀ pkg, ∃ t, exec (.packageDown pkg) s = .next t ∧ pkg ∈ t.fab.down ∧ t.mem = s.mem ∧
      ∀ h x, s.hart h = some x → ∃ z, t.hart h = some z ∧ z.arch = x.arch ∧ z.sheaves = x.sheaves ∧
        ∀ (ch : Nat) (c : Chan), x.chans[ch]? = some c →
          ((∀ r ∈ c.running, r.cmd.remote = true → xPkg r.cmd.xb1 ≠ pkg) → z.chans[ch]? = some c) ∧
          ∀ r, c.running = [r] → r.cmd.remote = true → xPkg r.cmd.xb1 = pkg → c.err = none →
            z.chans[ch]? = some { c with running := [], err := some { id := r.cmd.id, applied := r.applied, code := 6 } }) ∧
    -- an entry keeps its res bits 0, and one whose VALID is cleared is being revoked until no command it accepted is under way
    (∀ (i : Nat) (g : Sys2Proof.Registration), i < 256 → ∃ t, exec (.registrationWrite i g) s = .next t ∧
      t = { s with fab := { s.fab with regs := t.fab.regs, revoked := t.fab.revoked } } ∧
      (∀ j, fget none t.fab.regs j = if j = i then some { g with
          owner := g.owner &&& 0xFFFF_FFFF_FFFF_003F#64, ctl := g.ctl &&& 0x8000_000F_1FFF_1FFF#64 }
        else fget none s.fab.regs j) ∧
      ∀ o, fget none s.fab.regs i = some o → bit o.ctl.toNat 63 = true → bit g.ctl.toNat 63 = false → fget false t.fab.revoked i = true) ∧
    (∀ i, (∀ r ∈ s.fab.remotes, i ∈ r.regs → r.sealed = true) → ∃ t, exec (.revocationDone i) s = .next t ∧
      t = { s with fab := { s.fab with revoked := t.fab.revoked } } ∧
      ∀ j, fget false t.fab.revoked j = if j = i then false else fget false s.fab.revoked j) ∧
    -- host RDMA: a remote key names a window in force, once READY is set (R389, R396)
    (∀ w g, s.window w = some g → s.mg.pkg.ready = true ∧ bit g.ctl.toNat 63 = true ∧
      ∃ e ∈ s.fab.windows, ∃ u, e.2 = some u ∧ u.key.toNat = w ∧ u.entry = g) ∧
    -- an access within one element of eight bytes
    (∀ (w : Nat) (a : W64) (bs : List Byte) (n : Nat) (imm : BitVec 32) (g : Sys2Proof.Registration) (p : Nat), s.window w = some g →
      (bs ≠ [] → a.toNat % 8 + bs.length ≤ 8 → s.NoneHeld → s.windowCheck g permPut kWrite a.toNat bs.length = some p →
        s.tokenHolds p bs.length = false →
        (∃ t, exec (.rdmaWrite w a bs) s = .next t ∧ t.mg.outbox = s.mg.outbox ++ [(23, [BitVec.ofNat 64 w])] ∧
          s.Wrote t (granules p bs.length) (s.withBytes p bs)) ∧
        (imm.toNat < 64 → ∃ t, exec (.rdmaWriteImm w a bs imm) s = .next t ∧ t.mg.outbox = s.mg.outbox ++ [(23, [BitVec.ofNat 64 w])] ∧
          (∀ b, fget 0 t.mem b = s.withBytes p bs b) ∧
          ∀ k x, bit g.ctl.toNat permSignal = true → s.owner g = some k → s.hart k = some x →
            ∃ z, t.hart k = some z ∧ fget 0 z.ic imm.toNat = fget 0 x.ic imm.toNat + 1)) ∧
      (n ≠ 0 → a.toNat % 8 + n ≤ 8 → s.windowCheck g permGet kRead a.toNat n = some p → poisoned s p = false →
        exec (.rdmaRead w a n) s = .next (s.report 24 (BitVec.ofNat 64 w :: (memBytes s p n).map (fun b => b.setWidth 64))))) ∧
    -- no window: refused with a NAK
    (∀ (w : Nat) (a : W64) (bs : List Byte) (n : Nat) (imm : BitVec 32),
      let nak : Host.Outcome State Fault Refusal := .next (s.report 22 [BitVec.ofNat 64 w])
      exec (.rdmaUnsupported w) s = nak ∧
      (s.window w = none → exec (.rdmaWrite w a bs) s = nak ∧ exec (.rdmaWriteImm w a bs imm) s = nak ∧ exec (.rdmaRead w a n) s = nak)) ∧
    ∀ b n, s.fab.bounds[b]? = some n → exec (.boundaryRetrain b) s = .next { s with fab := { s.fab with bounds := s.fab.bounds.set b (n + 1) } }

/-- R275, R276, R340, R341, R344, R348, R350, R352 to R361: the memory system: requests and their grants, budgets, refresh, scrubbing, errors, allocation and
retirement of pages, and the granary split.  That the error source 4 and those above name a hart, and that such a squash does not count toward
solo mode, are the model's choices (logged as assumption 32), and so are that the accesses of scrubbing are spread evenly, that retirement squashes what has
written the old page, and that a request is a hit by the lookup as it sets off (logged as assumptions 95, 110 and 111). -/
def Obligations.MemoryEvents : Prop :=
  ∀ s : State,
    -- a request at the controller and the bank of its granule, where no tick is due: accepted, or sent back while the bank is being refreshed
    (∀ (q : Sys2Proof.MemReq) (c bank : Nat), resourceOf s q.granule q.write q.hit = some (c, bank) → ctlExists s c = true → s.ticked c = s →
      ∃ k', (bank / 4, s.now) ∈ k'.arrival ∧ k' = { s.ctl c with arrival := k'.arrival } ∧
        ((s.ctl c).refreshing s.now bank = none →
          exec (.requestArrival q) s = .next (s.setCtl c { k' with waiting := (s.ctl c).waiting ++ [(s.now, bank, q)] })) ∧
        ∀ e, (s.ctl c).refreshing s.now bank = some e →
          let t := s.setCtl c k'
          let again : State := { t with ms := { t.ms with flights := t.ms.flights ++ [(s.now + 8 * max 1 (ceilDiv (e - s.now) 8), q)] } }
          (∀ h x, q.cls = .d → q.hart = some h → s.hart h = some x →
            exec (.requestArrival q) s = .next (again.setHart h (x.count cMEMRETRY 1))) ∧
          (q.cls ≠ .d → exec (.requestArrival q) s = .next again)) ∧
    -- at most one grant in a ck, and none past the period's slots
    (∀ (c : Nat) (b : Sys2Proof.BudClass) (w : Nat × Nat × Sys2Proof.MemReq), ctlExists s c = true → s.ticked c = s →
      let k := (s.ctl c).at s.now
      k.granted ≠ s.now + 1 → k.total < periodSlots c → s.eligible c k (fun b => !(k.ready s.now b).isEmpty) = some b →
      s.pick (k.ready s.now b) = some w →
      exec (.requestGrant c) s =
        .next (((s.setCtl c { k.charge b 1 with waiting := k.waiting.erase w, granted := s.now + 1 }).fillOn w.2.2).sendBack c w.2.2)) ∧
    -- within a class the oldest, and of a hart's channels the one it prefers (R298)
    (∀ (w v : Nat × Nat × Sys2Proof.MemReq) (ws : List (Nat × Nat × Sys2Proof.MemReq)), s.pick (w :: ws) = some v → v ∈ w :: ws ∧ v.1 = w.1 ∧
      (w.2.2.chan = none → v = w) ∧
      ∀ h a, w.2.2.hart = some h → v.2.2.chan = some a → w.2.2.chan ≠ none → v.2.2.hart = some h ∧
        ∀ u ∈ w :: ws, u.1 = w.1 → u.2.2.hart = some h → ∀ b, u.2.2.chan = some b → (s.channelOrder h).idxOf a ≤ (s.channelOrder h).idxOf b) ∧
    -- a class below its FLOOR goes first (R341), and a granted read of HBM4E leaves its line in the line store (R350)
    (∀ (c : Nat) (k : Ctl) (waits : Sys2Proof.BudClass → Bool) (b : Sys2Proof.BudClass), s.eligible c k waits = some b →
      let under (b : Sys2Proof.BudClass) : Prop := k.used b * 64 < bits (s.budget (ctlDie c) b) 6 0 * periodSlots c
      waits b = true ∧ ∀ b', waits b' = true → under b' → under b) ∧
    (∀ (q : Sys2Proof.MemReq), q.write = false → q.cls = .d → q.hit = false → isHbm s q.granule = true →
      lineUnits s (homeDie s (q.granule * 64)) ≠ 0 → poisoned s (q.granule * 64) = false → (∀ h, q.hart = some h → (s.hart h).isSome = true) →
      (fget none (s.fillOn q).ms.lines q.granule).isSome = true) ∧
    -- a period starts once the ticks so far have been judged and charged in their own periods
    (s.now % 4096 = 0 → let u := s.tickedAll
      ∃ t, exec .budgetPeriodStart s = .next t ∧
      t = { u with ms := { u.ms with ctls := t.ms.ctls }, disp := { u.disp with dieRegs := t.disp.dieRegs } } ∧
      (∀ c, fget none t.ms.ctls c = (fget none u.ms.ctls c).map (fun k =>
        if k.period < u.now / 4096 then { k with period := u.now / 4096, use := List.replicate 6 0 } else k)) ∧
      ∀ (d : Nat) (r : DieRegs), u.disp.dieRegs[d]? = some r →
        t.disp.dieRegs[d]? = some { r with budget := if r.budAt < u.now / 4096 then r.budNext else r.budget }) ∧
    -- a tick is judged and timed at the ck in which it falls, and the next falls 586 ck later
    (∀ p, p < Config.pseudoChannels s.bare → let due := (s.ctl p).due
      let k := (s.ctl p).at due
      (s.now < due → exec (.refreshTick p) s = .next s) ∧
      (due ≤ s.now →
        (k.tick % 16 ≠ 0 → ∃ k', exec (.refreshTick p) s = .next (s.setCtl p k') ∧ k'.tick = k.tick + 1 ∧ k'.due = due + 586 ∧
          k'.waiting = k.waiting ∧
          let bank := k.tick % 16
          let late : Bool := k.groupBusy due bank || ({ s with now := due } : State).refused p k
          (late = false → k.owed = [] → (bank, due + 384) ∈ k'.busy ∧ k'.owed = []) ∧
          (late = true → k.owed = [] → k'.owed = [bank] ∧ k'.busy = k.busy) ∧
          (late = true → 8 ≤ k.owed.length → k'.owed = [] ∧ k'.busy = (List.range 16).map (fun b => (b, due + 840)))) ∧
        -- SYS.REFSYNC waits for a tick of bank 0 in or after the ck in which its first stage ended
        ∀ h x n, k.tick % 16 = 0 → s.hart h = some x → x.wait = .refsync p n → ∃ t, exec (.refreshTick p) s = .next t ∧ t.mem = s.mem ∧ t.now = s.now ∧
          (n ≤ due → t.hart h = some { x with wait := .synced } ∧ (t.ctl p).owed = []) ∧ (due < n → t.hart h = some x)) ∧
      exec (.refreshEnd p) s = .next (s.setCtl p { s.ctl p with busy := (s.ctl p).busy.filter (fun b => decide (s.now < b.2)) })) ∧
    -- the granted access of a placement gives a line that is still there its class (R296)
    (∀ (q : Sys2Proof.MemReq) h cls l, q.write = false → q.cls = .a → q.hart = some h → q.dest = .place cls → cls < 2 →
      fget none s.ms.lines q.granule = some l → fget none (s.fillOn q).ms.lines q.granule = some { l with cls := cls, owner := none }) ∧
    -- scrubbing: one access to each granule in 2^40 ck, from bank to bank; one that meets a refresh comes again, and none is made where it is stopped
    (∀ c, ctlExists s c = true → let k := s.ctl c
      let n := scrubGranules s c
      let due := if k.rescrub = 0 then (k.scrubs + 1) * 2 ^ 40 / n else k.rescrub
      let bank := if c < 1024 then k.scrubs % 16 else 0
      let p := k.at due
      let made : Ctl := { p with scrubs := k.scrubs + 1, rescrub := 0 }
      let does (k' : Ctl) : Prop := exec (.scrubPass c) s = .next (s.setCtl c k')
      -- where no tick and no further access is due
      (c < Config.pseudoChannels s.bare → s.now < k.due) →
        (s.now < due → exec (.scrubPass c) s = .next s) ∧
        (due ≤ s.now → s.now < (k.scrubs + 2) * 2 ^ 40 / n →
          (s.scrubHeld c = true → does made) ∧
          (s.scrubHeld c = false →
            (∀ e, p.refreshing due bank = some e → let again := due + 8 * max 1 (ceilDiv (e - due) 8)
              s.now < again → does { p.arrive due bank with rescrub := again }) ∧
            (p.refreshing due bank = none →
              (due = s.now → does { made.arrive due bank with waiting := k.waiting ++ [(due, bank, scrubReq)] }) ∧
              -- one whose ck is over has had the slot that R341 gave it there
              (due < s.now → p.granted ≠ due + 1 → p.total < periodSlots c → p.ready due .m = [] →
                ({ s with now := due } : State).eligible c p (fun b => decide (b = .m) || !(p.ready due b).isEmpty) = some .m →
                does { (made.arrive due bank).charge .m 1 with granted := due + 1 }))))) ∧
    (∀ (src g : Nat) (r : DieRegs), s.disp.dieRegs[homeDie s (g * 64)]? = some r → r.faultAt g src = none → r.faqTail - r.faqHead < 256 →
      let d := homeDie s (g * 64)
      let before := (fget [] s.ms.ecc g).filter (fun t => decide (s.now < t + 2 ^ 32))
      (∃ m r', exec (.correctedError src g) s = .next (({ s with ms := { s.ms with ecc := m } } : State).withDie d r') ∧
        fget [] m g = before ++ [s.now] ∧
        (before.length < 2 → r' = r) ∧
        (2 ≤ before.length → r' = { r with faq := r'.faq, faqTail := r.faqTail + 1 } ∧ (g, 1, src, 2) ∈ r'.faq)) ∧
      (src ≤ 3 → ∃ t r', exec (.uncorrectableError src g) s = .next t ∧
        t = ({ s with poison := t.poison, ms := t.ms } : State).withDie d r' ∧
        r' = { r with faq := r'.faq, faqTail := r.faqTail + 1 } ∧ (g, 1, src, 1) ∈ r'.faq ∧
        (src ≤ 2 → t.ms = s.ms ∧ ∀ n, fget false t.poison n = if n = g then true else fget false s.poison n) ∧
        (src = 3 → t.poison = s.poison ∧ t.ms = { s.ms with lines := t.ms.lines } ∧
          ∀ n, fget none t.ms.lines n = if n = g then none else fget none s.ms.lines n))) ∧
    -- an error in a sheaf buffer or a register file: the affected sheaf re-executes, and that does not count toward solo mode
    (∀ src h x sh shs, 4 ≤ src → s.hart h = some x → x.held = none → x.sheaves = sh :: shs →
      ∃ t, exec (.uncorrectableError src h) s = .next t ∧ t.mem = s.mem ∧ (∀ k, k ≠ h → t.hart k = s.hart k) ∧
        (src = 4 → ∃ z, t.hart h = some z ∧ z.arch = sh.cp ∧ z.sheaves = [] ∧ z.squash = x.squash) ∧
        ∀ y, src ≠ 4 → shs = [y] → ∃ z, t.hart h = some z ∧ z.arch = y.cp ∧ z.sheaves = [sh] ∧ z.squash = x.squash) ∧
    (∀ (pa size : Nat) (il : Bool) (b k : Nat), (size = 0x1_0000 ∨ size = 0x20_0000 ∨ size = 0x4000_0000) → pa % size = 0 →
      s.allocatable pa size = true → interleaveOk s il b k = true → s.tokenMeets pa size = false → s.NoneHeld →
      ∃ t, exec (.pageAllocation pa size il b k) s = .next t ∧ t.now = s.now ∧ t.mg = s.mg ∧
        fget none t.ms.pages pa = some { size := size, il := il, lsbase := b, lsk := k } ∧
        (∀ a, fget 0 t.mem a = if pa ≤ a ∧ a < pa + size then 0 else fget 0 s.mem a) ∧
        ∀ g, pa / 64 ≤ g → g < pa / 64 + size / 64 → fget false t.poison g = false) ∧
    -- retirement of a page without data: it is withheld
    (∀ (r : Sys2Proof.Retirement), pageOf s r.old = none → r.old < Config.hbmBytes s.bare → (∀ b ∈ s.ms.bad, b.1 ≠ r.old / 0x1_0000) →
      s.ms.bad.length < 4096 → exec (.pageRetirement r) s = .next { s with ms := { s.ms with bad := s.ms.bad ++ [(r.old / 0x1_0000, r.reason)] } }) ∧
    -- retirement: the data move to the new page, the leaf names it, and the old page is withheld
    (∀ (r : Sys2Proof.Retirement) (base : Nat) (p : Page), pageOf s r.old = some (base, p) → r.new % p.size = 0 → p.size % 64 = 0 → base % 64 = 0 →
      s.allocatable r.new p.size = true → meets base p.size r.new p.size = false → s.tokenMeets r.new p.size = false → s.tokenUses base p.size = false →
      r.hart = none → s.NoneHeld →
      (∀ g, base / 64 ≤ g → g < base / 64 + p.size / 64 → fget false s.poison g = false) →
      meets r.leaf 8 base p.size = false → meets r.leaf 8 r.new p.size = false → s.tokenHolds r.leaf 8 = false →
      s.ms.bad.length + p.size / 0x1_0000 ≤ 4096 → (∀ b ∈ s.ms.bad, b.1 < base / 0x1_0000 ∨ base / 0x1_0000 + p.size / 0x1_0000 ≤ b.1) →
      ∃ t, exec (.pageRetirement r) s = .next t ∧ fget none t.ms.pages r.new = some p ∧ fget none t.ms.pages base = none ∧
        t.ms.bad = s.ms.bad ++ (List.range (p.size / 0x1_0000)).map (fun i => (base / 0x1_0000 + i, r.reason)) ∧
        -- what has read, written or reduced in the old page starts again
        (let old := RecSet.range (base / 64) ((base + p.size - 1) / 64)
         ∀ k y sh ss, s.hart k = some y → y.sheaves = sh :: ss →
          (sh.rset.meets 4096 old || sh.wset.meets 4096 old || sh.dset.meets 2048 old) = true →
          ∃ z, t.hart k = some z ∧ z.arch = sh.cp ∧ z.sheaves = [] ∧ z.queue = []) ∧
        (∀ e ∈ t.ms.tlbs, let a := bits e.leaf.toNat 51 8 * 256
          ¬ (base ≤ a ∧ a < base + p.size)) ∧
        -- the leaf names its part of the new page
        (let a := bits (memNat s r.leaf 8) 51 8 * 256
         memNat t r.leaf 8 = (memNat s r.leaf 8 - a + (a - base + r.new)) % 2 ^ 64) ∧
        ∀ a, ¬ (r.leaf ≤ a ∧ a < r.leaf + 8) → fget 0 t.mem a =
          if r.new ≤ a ∧ a < r.new + p.size then fget 0 s.mem (base + (a - r.new)) else fget 0 s.mem a) ∧
    ∀ (die cls : Nat) (v : W64) (r : DieRegs), s.disp.dieRegs[die]? = some r →
      (exec (.grsplitWrite die v) s = .next (if s.mg.pkg.ready = false ∧ s.mg.stopped = false ∧ bits v.toNat 3 0 ≤ 12
        then s.withDie die { r with ab := bits v.toNat 3 0 } else s)) ∧
      let l := r.budNext.set cls (v &&& 0x7F7F#64)
      let legal : Prop := (∀ u ∈ l, bits u.toNat 14 8 ≤ 64 ∧ bits u.toNat 6 0 ≤ bits u.toNat 14 8) ∧ (l.map (fun u => bits u.toNat 6 0)).sum ≤ 64
      -- a change applies from the period after this one
      (s.tickedAll = s → (legal → exec (.budgetRegisterWrite die cls v) s =
          .next (s.withDie die { r with budget := if r.budAt < s.now / 4096 then r.budNext else r.budget, budNext := l, budAt := s.now / 4096 })) ∧
        (¬ legal → exec (.budgetRegisterWrite die cls v) s = .next s))

/-- R288, R292 to R298, R305, R339: the sequencer's line fetch, and its actions as they finish; where a range is spoken of, it lies in one granule.
Where timing is kept the fetch of a line is a request of class A. -/
def Obligations.AdviceActions : Prop :=
  ∀ (s : State) (h : Nat) (x : Hart) (a : Adv), s.hart h = some x → x.adv = some a → x.parked = false →
    let va := (a.base + a.apc) / 64 * 64
    -- only in RUN
    (a.mode ≠ .run → a.asked = none → exec (.adviceLineFetch h) s = .next s) ∧
    (∀ p, a.mode = .run → a.apc < a.size → a.word = none → a.asked = none → homeOf s x.arch.grant (x.arch.rcsr cPTROOT) va kRead false = some p →
      (s.ms.timed = false → poisoned s (p / 64 * 64) = false →
        OnHart (.adviceLineFetch h) s h { x with adv := some { a with line := some (va, memBytes s (p / 64 * 64) 64) } }) ∧
      (s.ms.timed = true → ∃ t, exec (.adviceLineFetch h) s = .next t ∧ t.mem = s.mem ∧
        t.hart h = some { x with adv := some { a with asked := some (s.now, va, p / 64 * 64) } } ∧ ((resourceOf s (p / 64) false (s.holdsLine (p / 64))).isSome = true →
          ∃ f ∈ t.ms.flights, f.2 = { granule := p / 64, cls := .a, write := false, hart := some h, chan := none, dest := .fetch, issued := s.now,
                                         hit := s.holdsLine (p / 64) }))) ∧
    ∀ act ts, a.queue = act :: ts →
      -- the action leaves the queue; ADVDROP and ADVCLAMP count what is dropped and clamped
      let ends (i : Instr) (b : Adv) (drop clamp : Nat) (q : State → Prop) : Prop := ∃ t z, exec i s = .next t ∧ t.mem = s.mem ∧ t.now = s.now ∧
        t.hart h = some z ∧ (∀ k, k ≠ h → t.hart k = s.hart k) ∧ z = { x with adv := some { b with queue := ts, headAt := s.now }, cnt := z.cnt } ∧
        (∀ n, fget 0 z.cnt n = fget 0 x.cnt n + (if n = cADVDROP then BitVec.ofNat 64 drop else if n = cADVCLAMP then BitVec.ofNat 64 clamp else 0)) ∧ q t
      let one (b n p : Nat) : Prop := n ≠ 0 ∧ b % 64 + n ≤ 64 ∧ b < 2 ^ 64 ∧ pieceHome s x.arch.grant x.arch.csr { va := b, len := n } = some p
      let fits (p : Nat) : Prop := s.ms.timed = false ∧ isHbm s (p / 64) = true ∧ lineUnits s (homeDie s (p / 64 * 64)) ≠ 0 ∧ poisoned s (p / 64 * 64) = false
      (∀ b n p, act = .pf b n → one b.toNat n.toNat p → fits p →
        ends (.prefetchAction h) a 0 0 (fun t => (fget none t.ms.lines (p / 64)).isSome = true)) ∧
      (∀ b n, act = .pf b n → n.toNat ≠ 0 → b.toNat % 64 + n.toNat ≤ 64 → pieceHome s x.arch.grant x.arch.csr { va := b.toNat, len := n.toNat } = none →
        ends (.prefetchAction h) a 1 0 (fun t => t.ms = s.ms)) ∧
      -- the array's one entry u names the row at BASE + u × ROW
      (∀ arr base row (w : Nat) p q, act = .pfx arr 1 base row w → w ∈ [8, 16, 32, 64] → arr.toNat % (w / 8) = 0 → one arr.toNat (w / 8) p →
        poisoned s (p / 64 * 64) = false →
        let u := memNat s p (w / 8)
        u ≠ 2 ^ w - 1 → one ((base.toNat + u * row.toNat) % 2 ^ 64) row.toNat q → fits q →
        ends (.indexedPrefetchAction h) a 0 0 (fun t => (fget none t.ms.lines (q / 64)).isSome = true)) ∧
      -- a placement: where timing is kept each line takes its class in an access of class A
      (∀ b n (cls : Nat) p l, act = .place b n cls → cls < 2 → one b.toNat n.toNat p → fget none s.ms.lines (p / 64) = some l →
        let ws := a.windows ++ [{ base := b.toNat, len := n.toNat, cls := cls }]
        ends (.placementAction h) { a with windows := ws.drop (ws.length - 4) } 0 0 (fun t =>
          (s.ms.timed = false → fget none t.ms.lines (p / 64) = some { l with cls := cls, owner := none }) ∧
          (s.ms.timed = true → t.ms.lines = s.ms.lines ∧ ((resourceOf s (p / 64) false true).isSome = true →
            ∃ f ∈ t.ms.flights, f.2 = { granule := p / 64, cls := .a, write := false, hart := some h, chan := none, dest := .place cls, issued := s.now,
                                         hit := true })))) ∧
      (∀ r, act = .prio r → let top := bits (x.arch.rcsr cHSTATUS).toNat 6 4
        ends (.priorityAction h) { a with request := some (min r.toNat top) } 0 (if top < r.toNat then 1 else 0) (fun t => t.ms = s.ms)) ∧
      (∀ v, act = .order v → let order := preference (v.toNat % 2 ^ 24)
        order.Perm (List.range 8) ∧ order.head? = some (v.toNat % 8) ∧
        ends (.channelOrderAction h) { a with prefer := order } 0 (if v.toNat < 2 ^ 24 then 0 else 1) (fun t => t.ms = s.ms)) ∧
      ∀ v, act = .share v → let w := max 1 (min v.toNat 16)
        ends (.channelOrderAction h) { a with weight := w } 0 (if w = v.toNat then 0 else 1) (fun t => t.ms = s.ms)

/-- R117, R119, R120, R316, R323, R324, R365, R366, R376 to R378, R393 to R399: messages, registers, shootdowns, trace control and draining, triggers,
power, the fatal error, and bring-up, where a failure of Dawn or Morning is free (Config.bringUpFailure, logged as assumption 9).  The model's
choices in it are the forms of replies and reports (logged as assumptions 20 and 85), the step from FROZEN to ON (53), the counts of a gated
cluster's records (54), when throttling is judged (55), Dawn after a fatal error (59), the limit of an MREAD (60), the status of a refused image (61),
an advice file of no bytes (81), the loader's mapping (86), what counts as a fatal error (87) and where .marks of an advice image stands (98). -/
def Obligations.ManagementEvents : Prop :=
  ∀ s : State,
    (∀ (m : Sys2Proof.MsgHead) (addr n : Nat) (v : W64) (img : Sys2Proof.ImagePair),
      -- what is sent and not kept
      let sends (r : Nat × List W64) : State := { s with mg := { s.mg with outbox := s.mg.outbox ++ [r] } }
      -- a message answered before gets the kept reply (R397)
      (∀ e, s.mg.replies.find? (fun e => decide (e.1 = m.host) && decide (e.2.1 = m.seq.toNat)) = some e →
        exec (.mread m addr n) s = .next (sends (25, BitVec.ofNat 64 m.host :: e.2.2)) ∧
        exec (.mwrite m addr [v]) s = .next (sends (25, BitVec.ofNat 64 m.host :: e.2.2))) ∧
      -- TYPE, LENGTH and the res bytes of a header (R397)
      (∀ ty len, headOk m ty len = true ↔ m.type.toNat = ty ∧ m.length.toNat = len ∧ len ≤ 1024 ∧ m.res = 0) ∧
      (s.Unanswered m →
        (s.mg.pkg.ready = true → n ≤ 128 → headOk m 1 16 = true →
          exec (.mread m addr n) s = .next (s.replied m 0 ((List.range n).map (fun i => s.readMgmt (addr + 8 * i))))) ∧
        (s.mg.pkg.ready = false → s.mg.stopped = false → 0x100 ≤ addr → exec (.mread m addr n) s = .next (sends (replyTo m 1 []))) ∧
        (s.mg.pkg.ready = true → headOk m 1 16 = false → exec (.mread m addr n) s = .next (sends (replyTo m 3 []))) ∧
        (s.mg.pkg.ready = true → headOk m 2 16 = true → exec (.mwrite m addr [v]) s = .next ((s.writeMgmt false addr v).replied m 0 [])) ∧
        -- the two files of an image pair are read through its host window
        (∀ a b, s.mg.pkg.ready = true → headOk m 3 56 = true → s.fileBytes img.window img.semantic = some a →
          s.fileBytes img.window img.advice = some b →
          (semanticOk a = false → exec (.imgload m img) s = .next (s.replied m 2 [])) ∧
          (∀ st ws t, s.load img a b = some (st, ws, t) → exec (.imgload m img) s = .next (t.replied m st ws) ∧ (semanticOk a = true →
            let r := if b = [] then 0 else adviceReason a b Config.serial
            st = 0 ∧ ws = [BitVec.ofNat 64 r] ∧ t.now = s.now ∧ t.mg.outbox = s.mg.outbox ∧
            (b = [] ∨ r ≠ 0 → t.mg.images = s.mg.images) ∧
            (b ≠ [] → r = 0 → ∃ i, t.mg.images = i :: s.mg.images ∧ i.root = img.ptroot ∧ i.marks = img.marks ∧ i.base % 64 = 0 ∧
                i.hash = leNat (imageHash a)) ∧
            -- an image that is loaded and has one section on one page: its leaf, and then its contents (R117)
            (∀ q lf p bs, b = [] → s.mg.loaded.any (fun l => l.is img.ptroot (leNat (imageHash a))) = false →
              allOf ((imageSections a).map (s.sectionMaps img.ptroot)) = some [(q, lf)] →
              allOf ((imageSections a).map (s.sectionPuts img.ptroot 0)) = some [(p, bs)] → s.NoneHeld →
              ∀ k, fget 0 t.mem k = if p ≤ k ∧ k < p + bs.length then bs.getD (k - p) 0 else s.withBytes q lf k)))))) ∧
    -- the leaf of a section: readable, and writable where FLAGS bit 3 is set (R117)
    (∀ (e : Nat) (w x : Bool), let l := loaderLeaf e w x
      l / 64 = e / 64 ∧ l % 4 = e % 4 ∧ bit l 2 = true ∧ bit l 3 = w ∧ bit l 4 = x ∧ bit l 5 = true) ∧
    -- registers (R329, R348, R381, R394)
    (∀ (v : W64) (d k : Nat) (r : DieRegs), let p := s.mg.pkg
      let early : Prop := p.ready = false ∧ s.mg.stopped = false
      exec (.pkgnumWrite v) s = .next (if early then s.withPkg { p with pkgnum := v &&& 0x1FFF#64 } else s) ∧
      exec (.podcfgWrite v) s = .next (if early then s.withPkg { p with podcfg := v &&& 0x3FF_E000_1FFF#64 } else s) ∧
      exec (.managementWrite 0x10 v) s = exec (.pkgnumWrite v) s ∧
      exec (.managementWrite 0x40 v) s = .next (s.withPkg { p with sdroot := v &&& 0xF_FFFF_FFFF_FFFF#64 }) ∧
      (s.mg.callsThrottle s.hottest = false →
        exec (.managementWrite 0x80 v) s = .next (s.withPkg { p with pwrcap := v &&& 0xFFFF#64 })) ∧
      (d < Config.dies s.bare → k < 8 → s.disp.dieRegs[d]? = some r →
        exec (.managementWrite (0x0100_0000_0000 + d * 0x10_0000 + k * 64) v) s =
          .next (s.withDie d { r with lqbase := fset 0 r.lqbase k (v &&& 0xF_FFFF_FFFF_FF80#64) })) ∧
      exec (.dumprelWrite v) s = .next (if bit v.toNat 0 = true ∧ p.dumpBit = true then
        { s with mg := { s.mg with withheld := false, pkg := { p with dumpBit := false } } } else s)) ∧
    (s.mg.pkg.sddone = true → exec .shootdownGo s = .next (s.withPkg { s.mg.pkg with sddone := false })) ∧
    (s.mg.pkg.sddone = false → ∃ ts, exec .shootdownDone s =
        .next (({ s with ms := { s.ms with tlbs := ts } } : State).withPkg { s.mg.pkg with sddone := true }) ∧
      ∀ e, e ∈ ts ↔ e ∈ s.ms.tlbs ∧
        ¬ (e.ptroot = s.mg.pkg.sdroot ∧ e.vbase < s.mg.pkg.sdhigh.toNat ∧ s.mg.pkg.sdlow.toNat < e.vbase + e.size)) ∧
    -- trace buffers (R366, R376): off, armed, on and frozen
    -- (one of a cluster that is not gated; the registers of a gated one keep their values, R378)
    (∀ (c : Nat) (v : W64), s.due = [] → s.liveTrace c = none → exec (.trstateWrite c v) s = .next s ∧ exec (.trdbaseWrite c v) s = .next s ∧
      exec (.trdtailWrite c v) s = .next s ∧ exec (.traceDrainLine c) s = .next s) ∧
    (∀ (c : Nat) (b : TraceBuf) (v : W64), s.due = [] → s.liveTrace c = some b →
      let writes (n : Nat) : Prop := bits v.toNat 1 0 = n
      (writes 0 → exec (.trstateWrite c v) s = .next (s.withTrace c { b with state := 0, lines := [], open_ := [] })) ∧
      (writes 1 → exec (.trstateWrite c v) s = .next (s.withTrace c { b with state := 1 })) ∧
      (writes 2 → b.state = 0 ∨ b.state = 3 → exec (.trstateWrite c v) s = .next (s.withTrace c { b with state := 2, fresh := true })) ∧
      (writes 2 → b.state = 2 → exec (.trstateWrite c v) s = .next s) ∧
      -- a start from ARMED writes TRIG and then TSYNC, and freezing closes the line, both after the records of the ck (R370)
      (writes 2 → b.state = 1 → ∃ t, exec (.trstateWrite c v) s = .next t ∧
        t = { s.withTrace c { b with state := 2, fresh := false } with due := t.due } ∧
        t.due.map (fun r => (r.cluster, r.ck, r.head, r.rest)) = [(c, s.now, header 0 1 0 2 7, [0]), (c, s.now, 1, [])]) ∧
      (writes 3 → ∃ t, exec (.trstateWrite c v) s = .next t ∧ t = { s.withTrace c { b with state := 3 } with due := t.due } ∧
        (({ t with now := s.now + 1 } : State).writePast).traces[c]? = some { b.close with state := 3 }) ∧
      exec (.trdbaseWrite c v) s = .next (s.withTrace c { b with dbase := v &&& 0xF_FFFF_FFFF_FFC0#64, dhead := 0 }) ∧
      exec (.trdtailWrite c v) s = .next (s.withTrace c { b with dtail := v.toNat }) ∧
      ∀ l ls, b.lines = l :: ls → b.asked = false → b.canDrain = true → physOk s b.ringAddr 64 = true → s.tokenHolds b.ringAddr 64 = false → l.length = 8 →
        s.ms.timed = false → s.NoneHeld → ∃ t, exec (.traceDrainLine c) s = .next t ∧
          t.traces[c]? = some { b with lines := ls, dhead := b.dhead + 1 } ∧
          s.Wrote t (granules b.ringAddr 64) (s.withBytes b.ringAddr (l.flatMap (fun w => leBytes 8 w.toNat)))) ∧
    -- triggers (R377) of events 2 to 5 start and freeze the buffers of the clusters they select
    (∀ (die k ctl : Nat) (w : W64) (r : DieRegs), s.due = [] → s.disp.dieRegs[die]? = some r → r.trig[k]? = some (w, ctl) → 2 ≤ bits ctl 3 0 → bits ctl 3 0 ≤ 5 →
      let fires (i : Instr) (was : Nat → Prop) (now : Nat) : Prop := ∃ t, exec i s = .next t ∧ t = { s with traces := t.traces, due := t.due } ∧
        ∀ n b, s.traces[n]? = some b →
          let acts : Prop := n / 32 = die ∧ bit w.toNat (n % 32) = true ∧ s.liveTrace n = some b ∧ was b.state
          ∃ d, t.traces[n]? = some d ∧ (¬ acts → d = b) ∧ (acts → d.state = now ∧
            ∃ q ∈ t.due, q.cluster = n ∧ q.ck = s.now ∧ q.head = header 0 (bits ctl 3 0) 0 2 7 ∧ q.rest = [BitVec.ofNat 64 (bits w.toNat 63 32)])
      (bits ctl 5 4 = 0 → fires (.triggerStart die k) (fun n => n = 1 ∨ n = 3) 2) ∧
      (bits ctl 5 4 = 1 → fires (.triggerFreeze die k) (fun n => n = 2) 3)) ∧
    -- power (R378, R379, R398, R399)
    (let called : Prop := (if s.mg.pkg.pwrcap = 0 then 2400 else s.mg.pkg.pwrcap.toNat) < s.mg.power ∨ ∃ e ∈ s.mg.heat, 95 * 16 < e.2
     (called → exec .throttleOn s = .next (s.withPkg { s.mg.pkg with throt := true })) ∧ (¬ called → exec .throttleOn s = .next s) ∧
     (¬ called → s.mg.hotAt + 2400000 ≤ s.now + 1 → exec .throttleClear s = .next (s.withPkg { s.mg.pkg with throt := false })) ∧
     (called → exec .throttleClear s = .next s)) ∧
    (∀ (c : Nat) (g : Gate) (b : TraceBuf), c < Config.clusters s.bare → s.mg.gates[c]? = some g → s.traces[c]? = some b →
      s.due = [] →
      (g.gated = false → (∀ e ∈ s.harts, e.2.onCluster c = false) → b.lines = [] → b.open_ = [] →
        exec (.clusterGate c) s = .next ((s.withTrace c { b with state := 3 }).setGate c { gated := true, readyAt := 0 })) ∧
      (g.gated = false → 105 * 16 < fget 0 s.mg.heat c → ∃ t d, exec (.clusterForcedGate c) s = .next t ∧ t.mem = s.mem ∧ t.mg.gates[c]? = some { gated := true, readyAt := 0 } ∧
        t.traces[c]? = some d ∧ d.lines = [] ∧ d.open_ = [] ∧ d.lossc = b.lossc + b.held ∧
        ∀ n q, ffind s.gangs n = some q → (∃ h ∈ q.live, ∃ x, s.hart h = some x ∧ x.onCluster c = true) →
          ∀ k ∈ q.live, ∀ y, s.hart k = some y → y.parked = false → y.charac = false → ∃ z, t.hart k = some z ∧ z.preempt ≠ 0) ∧
      (g.gated = true → g.readyAt = 0 → exec (.clusterUngate c) s = .next (s.setGate c { gated := true, readyAt := s.now + 48000 })) ∧
      (g.readyAt ≠ 0 → g.readyAt ≤ s.now → exec (.clusterUngateDone c) s = .next (s.setGate c { gated := false, readyAt := 0 }))) ∧
    -- a fatal error stops the package; the dump goes to its region alone (R324)
    (∀ cause, s.mg.stopped = false → (cause % 4 = 2 → (s.fatal cause = true ↔ ∃ n < 32, 115 * 16 < fget 0 s.mg.heat (cause / 4 * 32 + n))) ∧
      (s.fatal cause = false → exec (.fatalError cause) s = .next s) ∧
      (s.fatal cause = true → ∃ t, exec (.fatalError cause) s = .next t ∧ t.harts = s.harts ∧ t.mg.stopped = true ∧ t.mg.pkg.ready = false ∧
      (s.mg.withheld = false → t.mem = s.mem) ∧ (s.mg.withheld = true → t.mg.pkg.dumpBit = true))) ∧
    (let f := Config.bringUpFailure
     (s.mg.stopped = false → s.mg.pkg.phase = 0 → s.mg.pkg.fail = false → exec .dawn s =
        .next (s.withPkg (if 1 ≤ f ∧ f ≤ 4 then { s.mg.pkg with fail := true, code := f } else { s.mg.pkg with phase := 1 }))) ∧
     (s.mg.stopped = true → ∃ t, exec .dawn s = .next t ∧ t.harts = [] ∧ t.gangs = [] ∧ t.mem = s.mem ∧ t.ms.bad = s.ms.bad ∧
        t.mg.pkg.dumpBit = s.mg.pkg.dumpBit ∧ t.mg.stopped = false ∧ t.mg.pkg.ready = false) ∧
     (s.mg.pkg.phase = 1 → s.mg.pkg.fail = false → ∃ t, exec .morning s = .next t ∧
        (f = 5 ∨ f = 6 → t = s.withPkg { s.mg.pkg with fail := true, code := f }) ∧
        (¬ (f = 5 ∨ f = 6) → t = { s with mem := t.mem, poison := [], mg := { s.mg with
            withheld := t.mg.withheld, pkg := { s.mg.pkg with phase := 2, dumpbase := t.mg.pkg.dumpbase } } } ∧
          (s.mg.pkg.dumpBit = false → t.mem = []))) ∧
     (s.mg.pkg.phase = 2 → s.mg.pkg.ready = false → s.mg.stopped = false → s.mg.pkg.fail = false → exec .noon s =
        .next { s.withPkg { s.mg.pkg with ready := true } with
          stamp := 0, now := 0, disp := { s.disp with dieRegs := s.disp.dieRegs.map (fun r => { r with budget := r.budNext, budAt := 0 }) }
          ms := { s.ms with ctls := [], flights := [], returns := [], upTo := 0 }
          mg := { s.mg with pkg := { s.mg.pkg with ready := true }, hotAt := 0 } }))
end

