-- ==== Sys2Proof/Laws/Exec.lean ====
section
/-! SUPPORT. Each constructor's arm of `exec`, so that proofs rewrite with the arm they need and never unfold the dispatch. -/

namespace Sys2Proof.Machine

theorem exec_sysEcall s : exec .sysEcall s = execSysEcall s := rfl
theorem exec_sysEbreak s : exec .sysEbreak s = execSysEbreak s := rfl
theorem exec_sysEret s : exec .sysEret s = execSysEret s := rfl
theorem exec_sysWfi s : exec .sysWfi s = execSysWfi s := rfl
theorem exec_sysRefsync a s : exec (.sysRefsync a) s = execSysRefsync a s := rfl
theorem exec_aluAdd d a b s : exec (.aluAdd d a b) s = execAluAdd d a b s := rfl
theorem exec_aluSub d a b s : exec (.aluSub d a b) s = execAluSub d a b s := rfl
theorem exec_aluAnd d a b s : exec (.aluAnd d a b) s = execAluAnd d a b s := rfl
theorem exec_aluOr d a b s : exec (.aluOr d a b) s = execAluOr d a b s := rfl
theorem exec_aluXor d a b s : exec (.aluXor d a b) s = execAluXor d a b s := rfl
theorem exec_aluSll d a b s : exec (.aluSll d a b) s = execAluSll d a b s := rfl
theorem exec_aluSrl d a b s : exec (.aluSrl d a b) s = execAluSrl d a b s := rfl
theorem exec_aluSra d a b s : exec (.aluSra d a b) s = execAluSra d a b s := rfl
theorem exec_aluSlt d a b s : exec (.aluSlt d a b) s = execAluSlt d a b s := rfl
theorem exec_aluSltu d a b s : exec (.aluSltu d a b) s = execAluSltu d a b s := rfl
theorem exec_aluMin d a b s : exec (.aluMin d a b) s = execAluMin d a b s := rfl
theorem exec_aluMax d a b s : exec (.aluMax d a b) s = execAluMax d a b s := rfl
theorem exec_aluMinu d a b s : exec (.aluMinu d a b) s = execAluMinu d a b s := rfl
theorem exec_aluMaxu d a b s : exec (.aluMaxu d a b) s = execAluMaxu d a b s := rfl
theorem exec_aluClz d a s : exec (.aluClz d a) s = execAluClz d a s := rfl
theorem exec_aluPopc d a s : exec (.aluPopc d a) s = execAluPopc d a s := rfl
theorem exec_muldivMul d a b s : exec (.muldivMul d a b) s = execMuldivMul d a b s := rfl
theorem exec_muldivMulh d a b s : exec (.muldivMulh d a b) s = execMuldivMulh d a b s := rfl
theorem exec_muldivMulhu d a b s : exec (.muldivMulhu d a b) s = execMuldivMulhu d a b s := rfl
theorem exec_muldivDiv d a b s : exec (.muldivDiv d a b) s = execMuldivDiv d a b s := rfl
theorem exec_muldivDivu d a b s : exec (.muldivDivu d a b) s = execMuldivDivu d a b s := rfl
theorem exec_muldivRem d a b s : exec (.muldivRem d a b) s = execMuldivRem d a b s := rfl
theorem exec_muldivRemu d a b s : exec (.muldivRemu d a b) s = execMuldivRemu d a b s := rfl
theorem exec_fpsAdd d a b p s : exec (.fpsAdd d a b p) s = execFpsAdd d a b p s := rfl
theorem exec_fpsSub d a b p s : exec (.fpsSub d a b p) s = execFpsSub d a b p s := rfl
theorem exec_fpsMul d a b p s : exec (.fpsMul d a b p) s = execFpsMul d a b p s := rfl
theorem exec_fpsDiv d a b p s : exec (.fpsDiv d a b p) s = execFpsDiv d a b p s := rfl
theorem exec_fpsSqrt d a p s : exec (.fpsSqrt d a p) s = execFpsSqrt d a p s := rfl
theorem exec_fpsFma d a b p s : exec (.fpsFma d a b p) s = execFpsFma d a b p s := rfl
theorem exec_fpsMin d a b p s : exec (.fpsMin d a b p) s = execFpsMin d a b p s := rfl
theorem exec_fpsMax d a b p s : exec (.fpsMax d a b p) s = execFpsMax d a b p s := rfl
theorem exec_fpsCvtOther d a p s : exec (.fpsCvtOther d a p) s = execFpsCvtOther d a p s := rfl
theorem exec_fpsCvtFromint d a p s : exec (.fpsCvtFromint d a p) s = execFpsCvtFromint d a p s := rfl
theorem exec_fpsCvtFromuint d a p s : exec (.fpsCvtFromuint d a p) s = execFpsCvtFromuint d a p s := rfl
theorem exec_fpsCvtToint d a p s : exec (.fpsCvtToint d a p) s = execFpsCvtToint d a p s := rfl
theorem exec_fpsCvtTouint d a p s : exec (.fpsCvtTouint d a p) s = execFpsCvtTouint d a p s := rfl
theorem exec_fpsCmpEq d a b p s : exec (.fpsCmpEq d a b p) s = execFpsCmpEq d a b p s := rfl
theorem exec_fpsCmpLt d a b p s : exec (.fpsCmpLt d a b p) s = execFpsCmpLt d a b p s := rfl
theorem exec_fpsCmpLe d a b p s : exec (.fpsCmpLe d a b p) s = execFpsCmpLe d a b p s := rfl
theorem exec_fpsClass d a p s : exec (.fpsClass d a p) s = execFpsClass d a p s := rfl
theorem exec_fpsMvCopy d a p s : exec (.fpsMvCopy d a p) s = execFpsMvCopy d a p s := rfl
theorem exec_fpsMvNeg d a p s : exec (.fpsMvNeg d a p) s = execFpsMvNeg d a p s := rfl
theorem exec_fpsMvAbs d a p s : exec (.fpsMvAbs d a p) s = execFpsMvAbs d a p s := rfl
theorem exec_addi d a i1 s : exec (.addi d a i1) s = execAddi d a i1 s := rfl
theorem exec_andi d a i1 s : exec (.andi d a i1) s = execAndi d a i1 s := rfl
theorem exec_ori d a i1 s : exec (.ori d a i1) s = execOri d a i1 s := rfl
theorem exec_xori d a i1 s : exec (.xori d a i1) s = execXori d a i1 s := rfl
theorem exec_slti d a i1 s : exec (.slti d a i1) s = execSlti d a i1 s := rfl
theorem exec_sltiu d a i1 s : exec (.sltiu d a i1) s = execSltiu d a i1 s := rfl
theorem exec_shiSlli d a s1 s : exec (.shiSlli d a s1) s = execShiSlli d a s1 s := rfl
theorem exec_shiSrli d a s1 s : exec (.shiSrli d a s1) s = execShiSrli d a s1 s := rfl
theorem exec_shiSrai d a s1 s : exec (.shiSrai d a s1) s = execShiSrai d a s1 s := rfl
theorem exec_lui d w s : exec (.lui d w) s = execLui d w s := rfl
theorem exec_auipc d w s : exec (.auipc d w) s = execAuipc d w s := rfl
theorem exec_ldsB d a o s : exec (.ldsB d a o) s = execLdsB d a o s := rfl
theorem exec_ldsH d a o s : exec (.ldsH d a o) s = execLdsH d a o s := rfl
theorem exec_ldsW d a o s : exec (.ldsW d a o) s = execLdsW d a o s := rfl
theorem exec_ldsD d a o s : exec (.ldsD d a o) s = execLdsD d a o s := rfl
theorem exec_ldsBu d a o s : exec (.ldsBu d a o) s = execLdsBu d a o s := rfl
theorem exec_ldsHu d a o s : exec (.ldsHu d a o) s = execLdsHu d a o s := rfl
theorem exec_ldsWu d a o s : exec (.ldsWu d a o) s = execLdsWu d a o s := rfl
theorem exec_stsB d a o s : exec (.stsB d a o) s = execStsB d a o s := rfl
theorem exec_stsH d a o s : exec (.stsH d a o) s = execStsH d a o s := rfl
theorem exec_stsW d a o s : exec (.stsW d a o) s = execStsW d a o s := rfl
theorem exec_stsD d a o s : exec (.stsD d a o) s = execStsD d a o s := rfl
theorem exec_brcEq d a o s : exec (.brcEq d a o) s = execBrcEq d a o s := rfl
theorem exec_brcNe d a o s : exec (.brcNe d a o) s = execBrcNe d a o s := rfl
theorem exec_brcLt d a o s : exec (.brcLt d a o) s = execBrcLt d a o s := rfl
theorem exec_brcGe d a o s : exec (.brcGe d a o) s = execBrcGe d a o s := rfl
theorem exec_brcLtu d a o s : exec (.brcLtu d a o) s = execBrcLtu d a o s := rfl
theorem exec_brcGeu d a o s : exec (.brcGeu d a o) s = execBrcGeu d a o s := rfl
theorem exec_jal d w s : exec (.jal d w) s = execJal d w s := rfl
theorem exec_jalr d a i1 s : exec (.jalr d a i1) s = execJalr d a i1 s := rfl
theorem exec_mark a i1 s : exec (.mark a i1) s = execMark a i1 s := rfl
theorem exec_fenceSv s : exec .fenceSv s = execFenceSv s := rfl
theorem exec_fenceVs s : exec .fenceVs s = execFenceVs s := rfl
theorem exec_fenceVv s : exec .fenceVv s = execFenceVv s := rfl
theorem exec_fenceAll s : exec .fenceAll s = execFenceAll s := rfl
theorem exec_csrRd d c s : exec (.csrRd d c) s = execCsrRd d c s := rfl
theorem exec_csrWr d a c s : exec (.csrWr d a c) s = execCsrWr d a c s := rfl
theorem exec_csrSet d a c s : exec (.csrSet d a c) s = execCsrSet d a c s := rfl
theorem exec_csrClr d a c s : exec (.csrClr d a c) s = execCsrClr d a c s := rfl
theorem exec_vcfgSetvl d a b s : exec (.vcfgSetvl d a b) s = execVcfgSetvl d a b s := rfl
theorem exec_vcfgSetvlrun d a b k s : exec (.vcfgSetvlrun d a b k) s = execVcfgSetvlrun d a b k s := rfl
theorem exec_setvli d a v s : exec (.setvli d a v) s = execSetvli d a v s := rfl
theorem exec_vintAdd d a b m s : exec (.vintAdd d a b m) s = execVintAdd d a b m s := rfl
theorem exec_vintSub d a b m s : exec (.vintSub d a b m) s = execVintSub d a b m s := rfl
theorem exec_vintMul d a b m s : exec (.vintMul d a b m) s = execVintMul d a b m s := rfl
theorem exec_vintMulh d a b m s : exec (.vintMulh d a b m) s = execVintMulh d a b m s := rfl
theorem exec_vintMulhu d a b m s : exec (.vintMulhu d a b m) s = execVintMulhu d a b m s := rfl
theorem exec_vintDiv d a b m s : exec (.vintDiv d a b m) s = execVintDiv d a b m s := rfl
theorem exec_vintDivu d a b m s : exec (.vintDivu d a b m) s = execVintDivu d a b m s := rfl
theorem exec_vintRem d a b m s : exec (.vintRem d a b m) s = execVintRem d a b m s := rfl
theorem exec_vintRemu d a b m s : exec (.vintRemu d a b m) s = execVintRemu d a b m s := rfl
theorem exec_vintAnd d a b m s : exec (.vintAnd d a b m) s = execVintAnd d a b m s := rfl
theorem exec_vintOr d a b m s : exec (.vintOr d a b m) s = execVintOr d a b m s := rfl
theorem exec_vintXor d a b m s : exec (.vintXor d a b m) s = execVintXor d a b m s := rfl
theorem exec_vintSll d a b m s : exec (.vintSll d a b m) s = execVintSll d a b m s := rfl
theorem exec_vintSrl d a b m s : exec (.vintSrl d a b m) s = execVintSrl d a b m s := rfl
theorem exec_vintSra d a b m s : exec (.vintSra d a b m) s = execVintSra d a b m s := rfl
theorem exec_vintMin d a b m s : exec (.vintMin d a b m) s = execVintMin d a b m s := rfl
theorem exec_vintMinu d a b m s : exec (.vintMinu d a b m) s = execVintMinu d a b m s := rfl
theorem exec_vintMax d a b m s : exec (.vintMax d a b m) s = execVintMax d a b m s := rfl
theorem exec_vintMaxu d a b m s : exec (.vintMaxu d a b m) s = execVintMaxu d a b m s := rfl
theorem exec_vintSadd d a b m s : exec (.vintSadd d a b m) s = execVintSadd d a b m s := rfl
theorem exec_vintSaddu d a b m s : exec (.vintSaddu d a b m) s = execVintSaddu d a b m s := rfl
theorem exec_vintSsub d a b m s : exec (.vintSsub d a b m) s = execVintSsub d a b m s := rfl
theorem exec_vintSsubu d a b m s : exec (.vintSsubu d a b m) s = execVintSsubu d a b m s := rfl
theorem exec_vintMacc d a b m s : exec (.vintMacc d a b m) s = execVintMacc d a b m s := rfl
theorem exec_vintMerge d a b m s : exec (.vintMerge d a b m) s = execVintMerge d a b m s := rfl
theorem exec_vintMv d a m s : exec (.vintMv d a m) s = execVintMv d a m s := rfl
theorem exec_vintxAdd d a b m s : exec (.vintxAdd d a b m) s = execVintxAdd d a b m s := rfl
theorem exec_vintxSub d a b m s : exec (.vintxSub d a b m) s = execVintxSub d a b m s := rfl
theorem exec_vintxRsub d a b m s : exec (.vintxRsub d a b m) s = execVintxRsub d a b m s := rfl
theorem exec_vintxMul d a b m s : exec (.vintxMul d a b m) s = execVintxMul d a b m s := rfl
theorem exec_vintxMulh d a b m s : exec (.vintxMulh d a b m) s = execVintxMulh d a b m s := rfl
theorem exec_vintxMulhu d a b m s : exec (.vintxMulhu d a b m) s = execVintxMulhu d a b m s := rfl
theorem exec_vintxDiv d a b m s : exec (.vintxDiv d a b m) s = execVintxDiv d a b m s := rfl
theorem exec_vintxDivu d a b m s : exec (.vintxDivu d a b m) s = execVintxDivu d a b m s := rfl
theorem exec_vintxRem d a b m s : exec (.vintxRem d a b m) s = execVintxRem d a b m s := rfl
theorem exec_vintxRemu d a b m s : exec (.vintxRemu d a b m) s = execVintxRemu d a b m s := rfl
theorem exec_vintxAnd d a b m s : exec (.vintxAnd d a b m) s = execVintxAnd d a b m s := rfl
theorem exec_vintxOr d a b m s : exec (.vintxOr d a b m) s = execVintxOr d a b m s := rfl
theorem exec_vintxXor d a b m s : exec (.vintxXor d a b m) s = execVintxXor d a b m s := rfl
theorem exec_vintxSll d a b m s : exec (.vintxSll d a b m) s = execVintxSll d a b m s := rfl
theorem exec_vintxSrl d a b m s : exec (.vintxSrl d a b m) s = execVintxSrl d a b m s := rfl
theorem exec_vintxSra d a b m s : exec (.vintxSra d a b m) s = execVintxSra d a b m s := rfl
theorem exec_vintxMin d a b m s : exec (.vintxMin d a b m) s = execVintxMin d a b m s := rfl
theorem exec_vintxMinu d a b m s : exec (.vintxMinu d a b m) s = execVintxMinu d a b m s := rfl
theorem exec_vintxMax d a b m s : exec (.vintxMax d a b m) s = execVintxMax d a b m s := rfl
theorem exec_vintxMaxu d a b m s : exec (.vintxMaxu d a b m) s = execVintxMaxu d a b m s := rfl
theorem exec_vintxSadd d a b m s : exec (.vintxSadd d a b m) s = execVintxSadd d a b m s := rfl
theorem exec_vintxSaddu d a b m s : exec (.vintxSaddu d a b m) s = execVintxSaddu d a b m s := rfl
theorem exec_vintxSsub d a b m s : exec (.vintxSsub d a b m) s = execVintxSsub d a b m s := rfl
theorem exec_vintxSsubu d a b m s : exec (.vintxSsubu d a b m) s = execVintxSsubu d a b m s := rfl
theorem exec_vintxMacc d a b m s : exec (.vintxMacc d a b m) s = execVintxMacc d a b m s := rfl
theorem exec_vintxMerge d a b m s : exec (.vintxMerge d a b m) s = execVintxMerge d a b m s := rfl
theorem exec_vintxMv d b m s : exec (.vintxMv d b m) s = execVintxMv d b m s := rfl
theorem exec_vintiAdd d a i1 m s : exec (.vintiAdd d a i1 m) s = execVintiAdd d a i1 m s := rfl
theorem exec_vintiRsub d a i1 m s : exec (.vintiRsub d a i1 m) s = execVintiRsub d a i1 m s := rfl
theorem exec_vintiAnd d a i1 m s : exec (.vintiAnd d a i1 m) s = execVintiAnd d a i1 m s := rfl
theorem exec_vintiOr d a i1 m s : exec (.vintiOr d a i1 m) s = execVintiOr d a i1 m s := rfl
theorem exec_vintiXor d a i1 m s : exec (.vintiXor d a i1 m) s = execVintiXor d a i1 m s := rfl
theorem exec_vintiSll d a i1 m s : exec (.vintiSll d a i1 m) s = execVintiSll d a i1 m s := rfl
theorem exec_vintiSrl d a i1 m s : exec (.vintiSrl d a i1 m) s = execVintiSrl d a i1 m s := rfl
theorem exec_vintiSra d a i1 m s : exec (.vintiSra d a i1 m) s = execVintiSra d a i1 m s := rfl
theorem exec_vintiSadd d a i1 m s : exec (.vintiSadd d a i1 m) s = execVintiSadd d a i1 m s := rfl
theorem exec_vintiSaddu d a i1 m s : exec (.vintiSaddu d a i1 m) s = execVintiSaddu d a i1 m s := rfl
theorem exec_vintiMerge d a i1 m s : exec (.vintiMerge d a i1 m) s = execVintiMerge d a i1 m s := rfl
theorem exec_vintiMv d i1 m s : exec (.vintiMv d i1 m) s = execVintiMv d i1 m s := rfl
theorem exec_vfpAdd d a b m s : exec (.vfpAdd d a b m) s = execVfpAdd d a b m s := rfl
theorem exec_vfpSub d a b m s : exec (.vfpSub d a b m) s = execVfpSub d a b m s := rfl
theorem exec_vfpMul d a b m s : exec (.vfpMul d a b m) s = execVfpMul d a b m s := rfl
theorem exec_vfpDiv d a b m s : exec (.vfpDiv d a b m) s = execVfpDiv d a b m s := rfl
theorem exec_vfpSqrt d a m s : exec (.vfpSqrt d a m) s = execVfpSqrt d a m s := rfl
theorem exec_vfpMin d a b m s : exec (.vfpMin d a b m) s = execVfpMin d a b m s := rfl
theorem exec_vfpMax d a b m s : exec (.vfpMax d a b m) s = execVfpMax d a b m s := rfl
theorem exec_vfpMacc d a b m s : exec (.vfpMacc d a b m) s = execVfpMacc d a b m s := rfl
theorem exec_vfpNmacc d a b m s : exec (.vfpNmacc d a b m) s = execVfpNmacc d a b m s := rfl
theorem exec_vfpExp2 d a m s : exec (.vfpExp2 d a m) s = execVfpExp2 d a m s := rfl
theorem exec_vfpSgnj d a b m s : exec (.vfpSgnj d a b m) s = execVfpSgnj d a b m s := rfl
theorem exec_vfpSgnjn d a b m s : exec (.vfpSgnjn d a b m) s = execVfpSgnjn d a b m s := rfl
theorem exec_vfpSgnjx d a b m s : exec (.vfpSgnjx d a b m) s = execVfpSgnjx d a b m s := rfl
theorem exec_vfpClass d a m s : exec (.vfpClass d a m) s = execVfpClass d a m s := rfl
theorem exec_vfpMv d a m s : exec (.vfpMv d a m) s = execVfpMv d a m s := rfl
theorem exec_vfpxAdd d a b m s : exec (.vfpxAdd d a b m) s = execVfpxAdd d a b m s := rfl
theorem exec_vfpxSub d a b m s : exec (.vfpxSub d a b m) s = execVfpxSub d a b m s := rfl
theorem exec_vfpxMul d a b m s : exec (.vfpxMul d a b m) s = execVfpxMul d a b m s := rfl
theorem exec_vfpxDiv d a b m s : exec (.vfpxDiv d a b m) s = execVfpxDiv d a b m s := rfl
theorem exec_vfpxMin d a b m s : exec (.vfpxMin d a b m) s = execVfpxMin d a b m s := rfl
theorem exec_vfpxMax d a b m s : exec (.vfpxMax d a b m) s = execVfpxMax d a b m s := rfl
theorem exec_vfpxMacc d a b m s : exec (.vfpxMacc d a b m) s = execVfpxMacc d a b m s := rfl
theorem exec_vfpxNmacc d a b m s : exec (.vfpxNmacc d a b m) s = execVfpxNmacc d a b m s := rfl
theorem exec_vfpxSgnj d a b m s : exec (.vfpxSgnj d a b m) s = execVfpxSgnj d a b m s := rfl
theorem exec_vfpxSgnjn d a b m s : exec (.vfpxSgnjn d a b m) s = execVfpxSgnjn d a b m s := rfl
theorem exec_vfpxSgnjx d a b m s : exec (.vfpxSgnjx d a b m) s = execVfpxSgnjx d a b m s := rfl
theorem exec_vfpxMv d b m s : exec (.vfpxMv d b m) s = execVfpxMv d b m s := rfl
theorem exec_vcvtFf d a m s1 t s : exec (.vcvtFf d a m s1 t) s = execVcvtFf d a m s1 t s := rfl
theorem exec_vcvtIf d a m s1 t s : exec (.vcvtIf d a m s1 t) s = execVcvtIf d a m s1 t s := rfl
theorem exec_vcvtFi d a m t s : exec (.vcvtFi d a m t) s = execVcvtFi d a m t s := rfl
theorem exec_vcvtNarrow d a m t s : exec (.vcvtNarrow d a m t) s = execVcvtNarrow d a m t s := rfl
theorem exec_vcvtWiden d a m t s : exec (.vcvtWiden d a m t) s = execVcvtWiden d a m t s := rfl
theorem exec_vcvtDeq d a m t s : exec (.vcvtDeq d a m t) s = execVcvtDeq d a m t s := rfl
theorem exec_vcvtQuant d a m s1 t s : exec (.vcvtQuant d a m s1 t) s = execVcvtQuant d a m s1 t s := rfl
theorem exec_vcvtQmv d a m s : exec (.vcvtQmv d a m) s = execVcvtQmv d a m s := rfl
theorem exec_vcvtQrd d a m s : exec (.vcvtQrd d a m) s = execVcvtQrd d a m s := rfl
theorem exec_vcvtDs8e d a m t s : exec (.vcvtDs8e d a m t) s = execVcvtDs8e d a m t s := rfl
theorem exec_vcvtDs8d d a m s : exec (.vcvtDs8d d a m) s = execVcvtDs8d d a m s := rfl
theorem exec_vredSum d a b m q s : exec (.vredSum d a b m q) s = execVredSum d a b m q s := rfl
theorem exec_vredMin d a b m q s : exec (.vredMin d a b m q) s = execVredMin d a b m q s := rfl
theorem exec_vredMinu d a b m q s : exec (.vredMinu d a b m q) s = execVredMinu d a b m q s := rfl
theorem exec_vredMax d a b m q s : exec (.vredMax d a b m q) s = execVredMax d a b m q s := rfl
theorem exec_vredMaxu d a b m q s : exec (.vredMaxu d a b m q) s = execVredMaxu d a b m q s := rfl
theorem exec_vredAnd d a b m q s : exec (.vredAnd d a b m q) s = execVredAnd d a b m q s := rfl
theorem exec_vredOr d a b m q s : exec (.vredOr d a b m q) s = execVredOr d a b m q s := rfl
theorem exec_vredXor d a b m q s : exec (.vredXor d a b m q) s = execVredXor d a b m q s := rfl
theorem exec_vredFsumo d a b m q s : exec (.vredFsumo d a b m q) s = execVredFsumo d a b m q s := rfl
theorem exec_vredFsumt d a b m q s : exec (.vredFsumt d a b m q) s = execVredFsumt d a b m q s := rfl
theorem exec_vredFmin d a b m q s : exec (.vredFmin d a b m q) s = execVredFmin d a b m q s := rfl
theorem exec_vredFmax d a b m q s : exec (.vredFmax d a b m q) s = execVredFmax d a b m q s := rfl
theorem exec_vpermSlup d a b m s : exec (.vpermSlup d a b m) s = execVpermSlup d a b m s := rfl
theorem exec_vpermSldn d a b m s : exec (.vpermSldn d a b m) s = execVpermSldn d a b m s := rfl
theorem exec_vpermGather d a b m s : exec (.vpermGather d a b m) s = execVpermGather d a b m s := rfl
theorem exec_vpermCompress d a m s : exec (.vpermCompress d a m) s = execVpermCompress d a m s := rfl
theorem exec_vpermExpand d a m s : exec (.vpermExpand d a m) s = execVpermExpand d a m s := rfl
theorem exec_vpermXchg d a b m s : exec (.vpermXchg d a b m) s = execVpermXchg d a b m s := rfl
theorem exec_vpermMvxs d a b s : exec (.vpermMvxs d a b) s = execVpermMvxs d a b s := rfl
theorem exec_vpermMvsx d b m s : exec (.vpermMvsx d b m) s = execVpermMvsx d b m s := rfl
theorem exec_vpermBcast d a b m s : exec (.vpermBcast d a b m) s = execVpermBcast d a b m s := rfl
theorem exec_vmaskEq d a b m x s : exec (.vmaskEq d a b m x) s = execVmaskEq d a b m x s := rfl
theorem exec_vmaskNe d a b m x s : exec (.vmaskNe d a b m x) s = execVmaskNe d a b m x s := rfl
theorem exec_vmaskLt d a b m x s : exec (.vmaskLt d a b m x) s = execVmaskLt d a b m x s := rfl
theorem exec_vmaskLtu d a b m x s : exec (.vmaskLtu d a b m x) s = execVmaskLtu d a b m x s := rfl
theorem exec_vmaskLe d a b m x s : exec (.vmaskLe d a b m x) s = execVmaskLe d a b m x s := rfl
theorem exec_vmaskLeu d a b m x s : exec (.vmaskLeu d a b m x) s = execVmaskLeu d a b m x s := rfl
theorem exec_vmaskGt d a b m x s : exec (.vmaskGt d a b m x) s = execVmaskGt d a b m x s := rfl
theorem exec_vmaskFeq d a b m x s : exec (.vmaskFeq d a b m x) s = execVmaskFeq d a b m x s := rfl
theorem exec_vmaskFlt d a b m x s : exec (.vmaskFlt d a b m x) s = execVmaskFlt d a b m x s := rfl
theorem exec_vmaskFle d a b m x s : exec (.vmaskFle d a b m x) s = execVmaskFle d a b m x s := rfl
theorem exec_vmaskAnd d a b s : exec (.vmaskAnd d a b) s = execVmaskAnd d a b s := rfl
theorem exec_vmaskOr d a b s : exec (.vmaskOr d a b) s = execVmaskOr d a b s := rfl
theorem exec_vmaskXor d a b s : exec (.vmaskXor d a b) s = execVmaskXor d a b s := rfl
theorem exec_vmaskAndn d a b s : exec (.vmaskAndn d a b) s = execVmaskAndn d a b s := rfl
theorem exec_vmaskPopc d a m s : exec (.vmaskPopc d a m) s = execVmaskPopc d a m s := rfl
theorem exec_vmaskFirst d a m s : exec (.vmaskFirst d a m) s = execVmaskFirst d a m s := rfl
theorem exec_vmaskConfl d a m s : exec (.vmaskConfl d a m) s = execVmaskConfl d a m s := rfl
theorem exec_vidx d s1 t s : exec (.vidx d s1 t) s = execVidx d s1 t s := rfl
theorem exec_vldUnit d a m s : exec (.vldUnit d a m) s = execVldUnit d a m s := rfl
theorem exec_vldStr d a b m s : exec (.vldStr d a b m) s = execVldStr d a b m s := rfl
theorem exec_vldIdx d a b m w s : exec (.vldIdx d a b m w) s = execVldIdx d a b m w s := rfl
theorem exec_vldSeg d a m n s : exec (.vldSeg d a m n) s = execVldSeg d a m n s := rfl
theorem exec_vldFf d a m s : exec (.vldFf d a m) s = execVldFf d a m s := rfl
theorem exec_vldTens d a t m s : exec (.vldTens d a t m) s = execVldTens d a t m s := rfl
theorem exec_vldQld d a s : exec (.vldQld d a) s = execVldQld d a s := rfl
theorem exec_vstUnit d a m s : exec (.vstUnit d a m) s = execVstUnit d a m s := rfl
theorem exec_vstStr d a b m s : exec (.vstStr d a b m) s = execVstStr d a b m s := rfl
theorem exec_vstIdx d a b m w s : exec (.vstIdx d a b m w) s = execVstIdx d a b m w s := rfl
theorem exec_vstSeg d a m n s : exec (.vstSeg d a m n) s = execVstSeg d a m n s := rfl
theorem exec_vstTens d a t m s : exec (.vstTens d a t m) s = execVstTens d a t m s := rfl
theorem exec_vstRed d a b m x o s : exec (.vstRed d a b m x o) s = execVstRed d a b m x o s := rfl
theorem exec_vxclG d b m s : exec (.vxclG d b m) s = execVxclG d b m s := rfl
theorem exec_vxclS d b m s : exec (.vxclS d b m) s = execVxclS d b m s := rfl
theorem exec_mopOp d a b m r f s : exec (.mopOp d a b m r f) s = execMopOp d a b m r f s := rfl
theorem exec_mopOpn d a b m r f s : exec (.mopOpn d a b m r f) s = execMopOpn d a b m r f s := rfl
theorem exec_zopCfg d a s : exec (.zopCfg d a) s = execZopCfg d a s := rfl
theorem exec_zopEnable s : exec .zopEnable s = execZopEnable s := rfl
theorem exec_zopDisable s : exec .zopDisable s = execZopDisable s := rfl
theorem exec_zopZero d s : exec (.zopZero d) s = execZopZero d s := rfl
theorem exec_zopRd d a b m s1 c l s : exec (.zopRd d a b m s1 c l) s = execZopRd d a b m s1 c l s := rfl
theorem exec_zopWr d a b m c l s : exec (.zopWr d a b m c l) s = execZopWr d a b m c l s := rfl
theorem exec_zopPatch d a b m x c l s : exec (.zopPatch d a b m x c l) s = execZopPatch d a b m x c l s := rfl
theorem exec_zopScale d a m s : exec (.zopScale d a m) s = execZopScale d a m s := rfl
theorem exec_zopMask d a k z s : exec (.zopMask d a k z) s = execZopMask d a k z s := rfl
theorem exec_mskLd k a s : exec (.mskLd k a) s = execMskLd k a s := rfl
theorem exec_mskCls d a k s : exec (.mskCls d a k) s = execMskCls d a k s := rfl
theorem exec_mskGen d a k s : exec (.mskGen d a k) s = execMskGen d a k s := rfl
theorem exec_mskCnt d s1 s : exec (.mskCnt d s1) s = execMskCnt d s1 s := rfl
theorem exec_tamw k a s : exec (.tamw k a) s = execTamw k a s := rfl
theorem exec_engCpy d a b k x j s : exec (.engCpy d a b k x j) s = execEngCpy d a b k x j s := rfl
theorem exec_engTcopy d a b k x j s : exec (.engTcopy d a b k x j) s = execEngTcopy d a b k x j s := rfl
theorem exec_engRgath d a b k x j s : exec (.engRgath d a b k x j) s = execEngRgath d a b k x j s := rfl
theorem exec_engRcopy d a b k x j s : exec (.engRcopy d a b k x j) s = execEngRcopy d a b k x j s := rfl
theorem exec_engPut d a b k x j s : exec (.engPut d a b k x j) s = execEngPut d a b k x j s := rfl
theorem exec_engGet d a b k x j s : exec (.engGet d a b k x j) s = execEngGet d a b k x j s := rfl
theorem exec_engSig d a b k x j s : exec (.engSig d a b k x j) s = execEngSig d a b k x j s := rfl
theorem exec_engLaunch d a b k x j s : exec (.engLaunch d a b k x j) s = execEngLaunch d a b k x j s := rfl
theorem exec_syncTlwait a k s : exec (.syncTlwait a k) s = execSyncTlwait a k s := rfl
theorem exec_syncTlwaitIc a b s : exec (.syncTlwaitIc a b) s = execSyncTlwaitIc a b s := rfl
theorem exec_syncTlread d k s : exec (.syncTlread d k) s = execSyncTlread d k s := rfl
theorem exec_syncTlreadIc d b s : exec (.syncTlreadIc d b) s = execSyncTlreadIc d b s := rfl
theorem exec_syncGbar s : exec .syncGbar s = execSyncGbar s := rfl
theorem exec_syncQdrain q s : exec (.syncQdrain q) s = execSyncQdrain q s := rfl
theorem exec_syncSheaf s : exec .syncSheaf s = execSyncSheaf s := rfl
theorem exec_syncBtinv s : exec .syncBtinv s = execSyncBtinv s := rfl
theorem exec_dbgTrmark a s : exec (.dbgTrmark a) s = execDbgTrmark a s := rfl
theorem exec_dbgWprel a s : exec (.dbgWprel a) s = execDbgWprel a s := rfl
theorem exec_advAwait i1 s : exec (.advAwait i1) s = execAdvAwait i1 s := rfl
theorem exec_advBr d a c o s : exec (.advBr d a c o) s = execAdvBr d a c o s := rfl
theorem exec_advLoop d o s : exec (.advLoop d o) s = execAdvLoop d o s := rfl
theorem exec_advSet d w s : exec (.advSet d w) s = execAdvSet d w s := rfl
theorem exec_advIns d w s : exec (.advIns d w) s = execAdvIns d w s := rfl
theorem exec_advAdd d a b s : exec (.advAdd d a b) s = execAdvAdd d a b s := rfl
theorem exec_advAddi d a i1 s : exec (.advAddi d a i1) s = execAdvAddi d a i1 s := rfl
theorem exec_advMv d a s : exec (.advMv d a) s = execAdvMv d a s := rfl
theorem exec_advMvArg d s : exec (.advMvArg d) s = execAdvMvArg d s := rfl
theorem exec_advMvId d s : exec (.advMvId d) s = execAdvMvId d s := rfl
theorem exec_advPf a b s : exec (.advPf a b) s = execAdvPf a b s := rfl
theorem exec_advPfx a b w s : exec (.advPfx a b w) s = execAdvPfx a b w s := rfl
theorem exec_advPlace a b c s : exec (.advPlace a b c) s = execAdvPlace a b c s := rfl
theorem exec_advPrio a s : exec (.advPrio a) s = execAdvPrio a s := rfl
theorem exec_advOrder a s : exec (.advOrder a) s = execAdvOrder a s := rfl
theorem exec_advOrderShare a s : exec (.advOrderShare a) s = execAdvOrderShare a s := rfl
theorem exec_advHalt s : exec .advHalt s = execAdvHalt s := rfl
theorem exec_fcsrWrite op d a s : exec (.fcsrWrite op d a) s = execFcsrWrite op d a s := rfl
theorem exec_fcsrRead d s : exec (.fcsrRead d) s = execFcsrRead d s := rfl
theorem exec_srseedWrite op d a s : exec (.srseedWrite op d a) s = execSrseedWrite op d a s := rfl
theorem exec_srseedRead d s : exec (.srseedRead d) s = execSrseedRead d s := rfl
theorem exec_btcfgWrite t op d a s : exec (.btcfgWrite t op d a) s = execBtcfgWrite t op d a s := rfl
theorem exec_mskshapeWrite op d a s : exec (.mskshapeWrite op d a) s = execMskshapeWrite op d a s := rfl
theorem exec_docnWrite op d a s : exec (.docnWrite op d a) s = execDocnWrite op d a s := rfl
theorem exec_zstateWrite op d a s : exec (.zstateWrite op d a) s = execZstateWrite op d a s := rfl
theorem exec_zstateLoad h s : exec (.zstateLoad h) s = execZstateLoad h s := rfl
theorem exec_zstateZclr h s : exec (.zstateZclr h) s = execZstateZclr h s := rfl
theorem exec_hstatusWrite op d a s : exec (.hstatusWrite op d a) s = execHstatusWrite op d a s := rfl
theorem exec_wpctlWrite w op d a s : exec (.wpctlWrite w op d a) s = execWpctlWrite w op d a s := rfl
theorem exec_commitSliceAcquire h s : exec (.commitSliceAcquire h) s = execCommitSliceAcquire h s := rfl
theorem exec_sheafCommit h s : exec (.sheafCommit h) s = execSheafCommit h s := rfl
theorem exec_soloTokenGrant s : exec .soloTokenGrant s = execSoloTokenGrant s := rfl
theorem exec_trapLanding h s : exec (.trapLanding h) s = execTrapLanding h s := rfl
theorem exec_holdStop h s : exec (.holdStop h) s = execHoldStop h s := rfl
theorem exec_tlwaitResume h s : exec (.tlwaitResume h) s = execTlwaitResume h s := rfl
theorem exec_barrierRelease g s : exec (.barrierRelease g) s = execBarrierRelease g s := rfl
theorem exec_qdrainDone h s : exec (.qdrainDone h) s = execQdrainDone h s := rfl
theorem exec_wfiWake h s : exec (.wfiWake h) s = execWfiWake h s := rfl
theorem exec_qdeadTimeout h s : exec (.qdeadTimeout h) s = execQdeadTimeout h s := rfl
theorem exec_loadDataDelivery h s : exec (.loadDataDelivery h) s = execLoadDataDelivery h s := rfl
theorem exec_hartEnd h s : exec (.hartEnd h) s = execHartEnd h s := rfl
theorem exec_lqtailWrite die k v s : exec (.lqtailWrite die k v) s = execLqtailWrite die k v s := rfl
theorem exec_lqcfgWrite die k v s : exec (.lqcfgWrite die k v) s = execLqcfgWrite die k v s := rfl
theorem exec_dispatchPacket die k s : exec (.dispatchPacket die k) s = execDispatchPacket die k s := rfl
theorem exec_gangPlace die k at_ s : exec (.gangPlace die k at_) s = execGangPlace die k at_ s := rfl
theorem exec_gangRestore g at_ s : exec (.gangRestore g at_) s = execGangRestore g at_ s := rfl
theorem exec_grantPost h vlen at_ s : exec (.grantPost h vlen at_) s = execGrantPost h vlen at_ s := rfl
theorem exec_preemptRequest g why s : exec (.preemptRequest g why) s = execPreemptRequest g why s := rfl
theorem exec_preemptStarvationTimeout g s : exec (.preemptStarvationTimeout g) s = execPreemptStarvationTimeout g s := rfl
theorem exec_preemptSplitTimeout h s : exec (.preemptSplitTimeout h) s = execPreemptSplitTimeout h s := rfl
theorem exec_preemptionLanding h s : exec (.preemptionLanding h) s = execPreemptionLanding h s := rfl
theorem exec_channelBind h ch s : exec (.channelBind h ch) s = execChannelBind h ch s := rfl
theorem exec_engineCommandStart e s : exec (.engineCommandStart e) s = execEngineCommandStart e s := rfl
theorem exec_engineElementApply h ch id s : exec (.engineElementApply h ch id) s = execEngineElementApply h ch id s := rfl
theorem exec_remoteAcknowledge h ch id ack s : exec (.remoteAcknowledge h ch id ack) s = execRemoteAcknowledge h ch id ack s := rfl
theorem exec_remotePutArrival r s : exec (.remotePutArrival r) s = execRemotePutArrival r s := rfl
theorem exec_remoteGetArrival r s : exec (.remoteGetArrival r) s = execRemoteGetArrival r s := rfl
theorem exec_remoteRcopyArrival r s : exec (.remoteRcopyArrival r) s = execRemoteRcopyArrival r s := rfl
theorem exec_remoteSigArrival r s : exec (.remoteSigArrival r) s = execRemoteSigArrival r s := rfl
theorem exec_commandSeal src cmd s : exec (.commandSeal src cmd) s = execCommandSeal src cmd s := rfl
theorem exec_packageDown pkg s : exec (.packageDown pkg) s = execPackageDown pkg s := rfl
theorem exec_requestArrival q s : exec (.requestArrival q) s = execRequestArrival q s := rfl
theorem exec_requestGrant c s : exec (.requestGrant c) s = execRequestGrant c s := rfl
theorem exec_budgetPeriodStart s : exec .budgetPeriodStart s = execBudgetPeriodStart s := rfl
theorem exec_refreshTick p s : exec (.refreshTick p) s = execRefreshTick p s := rfl
theorem exec_refreshEnd p s : exec (.refreshEnd p) s = execRefreshEnd p s := rfl
theorem exec_scrubPass c s : exec (.scrubPass c) s = execScrubPass c s := rfl
theorem exec_correctedError src g s : exec (.correctedError src g) s = execCorrectedError src g s := rfl
theorem exec_uncorrectableError src g s : exec (.uncorrectableError src g) s = execUncorrectableError src g s := rfl
theorem exec_pageRetirement r s : exec (.pageRetirement r) s = execPageRetirement r s := rfl
theorem exec_adviceLineFetch h s : exec (.adviceLineFetch h) s = execAdviceLineFetch h s := rfl
theorem exec_prefetchAction h s : exec (.prefetchAction h) s = execPrefetchAction h s := rfl
theorem exec_indexedPrefetchAction h s : exec (.indexedPrefetchAction h) s = execIndexedPrefetchAction h s := rfl
theorem exec_placementAction h s : exec (.placementAction h) s = execPlacementAction h s := rfl
theorem exec_priorityAction h s : exec (.priorityAction h) s = execPriorityAction h s := rfl
theorem exec_channelOrderAction h s : exec (.channelOrderAction h) s = execChannelOrderAction h s := rfl
theorem exec_rdmaWrite w addr bytes s : exec (.rdmaWrite w addr bytes) s = execRdmaWrite w addr bytes s := rfl
theorem exec_rdmaWriteImm w addr bytes imm s : exec (.rdmaWriteImm w addr bytes imm) s = execRdmaWriteImm w addr bytes imm s := rfl
theorem exec_rdmaRead w addr n s : exec (.rdmaRead w addr n) s = execRdmaRead w addr n s := rfl
theorem exec_rdmaUnsupported w s : exec (.rdmaUnsupported w) s = execRdmaUnsupported w s := rfl
theorem exec_mread msg addr count s : exec (.mread msg addr count) s = execMread msg addr count s := rfl
theorem exec_mwrite msg addr data s : exec (.mwrite msg addr data) s = execMwrite msg addr data s := rfl
theorem exec_imgload msg img s : exec (.imgload msg img) s = execImgload msg img s := rfl
theorem exec_launch msg die packet s : exec (.launch msg die packet) s = execLaunch msg die packet s := rfl
theorem exec_characterisationLaunch msg cluster packet s : exec (.characterisationLaunch msg cluster packet) s = execCharacterisationLaunch msg cluster packet s := rfl
theorem exec_managementWrite addr v s : exec (.managementWrite addr v) s = execManagementWrite addr v s := rfl
theorem exec_shootdownGo s : exec .shootdownGo s = execShootdownGo s := rfl
theorem exec_shootdownDone s : exec .shootdownDone s = execShootdownDone s := rfl
theorem exec_dumprelWrite v s : exec (.dumprelWrite v) s = execDumprelWrite v s := rfl
theorem exec_grsplitWrite die v s : exec (.grsplitWrite die v) s = execGrsplitWrite die v s := rfl
theorem exec_pkgnumWrite v s : exec (.pkgnumWrite v) s = execPkgnumWrite v s := rfl
theorem exec_podcfgWrite v s : exec (.podcfgWrite v) s = execPodcfgWrite v s := rfl
theorem exec_budgetRegisterWrite die cls v s : exec (.budgetRegisterWrite die cls v) s = execBudgetRegisterWrite die cls v s := rfl
theorem exec_registrationWrite i1 r s : exec (.registrationWrite i1 r) s = execRegistrationWrite i1 r s := rfl
theorem exec_revocationDone i1 s : exec (.revocationDone i1) s = execRevocationDone i1 s := rfl
theorem exec_trstateWrite cluster v s : exec (.trstateWrite cluster v) s = execTrstateWrite cluster v s := rfl
theorem exec_trdbaseWrite cluster v s : exec (.trdbaseWrite cluster v) s = execTrdbaseWrite cluster v s := rfl
theorem exec_trdtailWrite cluster v s : exec (.trdtailWrite cluster v) s = execTrdtailWrite cluster v s := rfl
theorem exec_traceDrainLine cluster s : exec (.traceDrainLine cluster) s = execTraceDrainLine cluster s := rfl
theorem exec_triggerStart die k s : exec (.triggerStart die k) s = execTriggerStart die k s := rfl
theorem exec_triggerFreeze die k s : exec (.triggerFreeze die k) s = execTriggerFreeze die k s := rfl
theorem exec_throttleOn s : exec .throttleOn s = execThrottleOn s := rfl
theorem exec_throttleClear s : exec .throttleClear s = execThrottleClear s := rfl
theorem exec_clusterForcedGate cluster s : exec (.clusterForcedGate cluster) s = execClusterForcedGate cluster s := rfl
theorem exec_clusterGate cluster s : exec (.clusterGate cluster) s = execClusterGate cluster s := rfl
theorem exec_clusterUngateDone cluster s : exec (.clusterUngateDone cluster) s = execClusterUngateDone cluster s := rfl
theorem exec_fatalError cause s : exec (.fatalError cause) s = execFatalError cause s := rfl
theorem exec_boundaryRetrain b s : exec (.boundaryRetrain b) s = execBoundaryRetrain b s := rfl
theorem exec_dawn s : exec .dawn s = execDawn s := rfl
theorem exec_morning s : exec .morning s = execMorning s := rfl
theorem exec_noon s : exec .noon s = execNoon s := rfl
theorem exec_illegalInstructionWord w s : exec (.illegalInstructionWord w) s = execIllegalInstructionWord w s := rfl
theorem exec_queuedInstructionCompletion h s : exec (.queuedInstructionCompletion h) s = execQueuedInstructionCompletion h s := rfl
theorem exec_instructionFetchReturn h s : exec (.instructionFetchReturn h) s = execInstructionFetchReturn h s := rfl
theorem exec_systemCoreAnswer h v s : exec (.systemCoreAnswer h v) s = execSystemCoreAnswer h v s := rfl
theorem exec_systemCoreWrite pa bytes s : exec (.systemCoreWrite pa bytes) s = execSystemCoreWrite pa bytes s := rfl
theorem exec_pageAllocation pa size il lsbase lsk s : exec (.pageAllocation pa size il lsbase lsk) s = execPageAllocation pa size il lsbase lsk s := rfl
theorem exec_debuggerAttach h s : exec (.debuggerAttach h) s = execDebuggerAttach h s := rfl
theorem exec_debuggerDetach h s : exec (.debuggerDetach h) s = execDebuggerDetach h s := rfl
theorem exec_clusterUngate cluster s : exec (.clusterUngate cluster) s = execClusterUngate cluster s := rfl

end Sys2Proof.Machine
end

