-- ==== Sys2Proof/Laws/FMap.lean ====
section
/-! SUPPORT. Laws of the sparse store: a read after a write, what a write leaves alone, and that every operation keeps the
canonical form. -/

namespace Sys2Proof.Machine

variable {β : Type}

/-! ### Reads after writes -/

theorem ffind_fins_self (m : FMap β) (n : Nat) (v : β) : ffind (fins m n v) n = some v := by
  induction m with
  | nil => simp [fins, ffind]
  | cons e r ih =>
    obtain ⟨k, w⟩ := e
    simp only [fins]
    split
    · simp [ffind]
    · split
      · simp [ffind]
      · rename_i h _; simp [ffind, h, ih]

theorem ffind_fins_ne (m : FMap β) {n k : Nat} (v : β) (h : k ≠ n) : ffind (fins m n v) k = ffind m k := by
  induction m with
  | nil => simp [fins, ffind, h]
  | cons e r ih =>
    obtain ⟨j, w⟩ := e
    simp only [fins]
    split
    · rename_i hj; subst hj; simp [ffind, h]
    · split
      · simp [ffind, h]
      · by_cases hk : k = j <;> simp [ffind, hk, ih]

theorem ffind_filter (p : Nat → Bool) (m : FMap β) (k : Nat) :
    ffind (m.filter (fun e => p e.1)) k = if p k then ffind m k else none := by
  induction m with
  | nil => simp [ffind]
  | cons e r ih =>
    obtain ⟨j, w⟩ := e
    by_cases hj : p j
    · rw [List.filter_cons_of_pos (by simpa using hj)]
      by_cases hk : k = j
      · subst hk; simp [ffind, hj]
      · simp [ffind, hk, ih]
    · rw [List.filter_cons_of_neg (by simpa using hj), ih]
      by_cases hk : k = j
      · subst hk; simp [hj]
      · simp [ffind, hk]

theorem ffind_fdel (m : FMap β) (n k : Nat) : ffind (fdel m n) k = if k = n then none else ffind m k := by
  have h := ffind_filter (fun j => !decide (j = n)) m k
  simp only [fdel]
  rw [h]
  by_cases hk : k = n <;> simp [hk]

theorem ffind_map {γ : Type} (f : β → γ) (m : FMap β) (k : Nat) :
    ffind (m.map (fun e => (e.1, f e.2))) k = (ffind m k).map f := by
  induction m with
  | nil => rfl
  | cons e r ih =>
    obtain ⟨j, w⟩ := e
    by_cases hk : k = j <;> simp [ffind, hk, ih]

theorem fget_nil (d : β) (n : Nat) : fget d [] n = d := rfl

theorem fget_fins_self (d : β) (m : FMap β) (n : Nat) (v : β) : fget d (fins m n v) n = v := by
  simp [fget, ffind_fins_self]

theorem fget_fins_ne (d : β) (m : FMap β) {n k : Nat} (v : β) (h : k ≠ n) : fget d (fins m n v) k = fget d m k := by
  simp [fget, ffind_fins_ne m v h]

theorem fget_fins (d : β) (m : FMap β) (n k : Nat) (v : β) :
    fget d (fins m n v) k = if k = n then v else fget d m k := by
  by_cases h : k = n
  · subst h; simp [fget_fins_self]
  · simp [fget_fins_ne d m v h, h]

theorem fget_fdel (d : β) (m : FMap β) (n k : Nat) : fget d (fdel m n) k = if k = n then d else fget d m k := by
  by_cases h : k = n <;> simp [fget, ffind_fdel, h]

variable [DecidableEq β]

/-- A read after a write gives the value written at its key, and every other key reads as before. -/
theorem fget_fset (d : β) (m : FMap β) (n k : Nat) (v : β) :
    fget d (fset d m n v) k = if k = n then v else fget d m k := by
  simp only [fset]
  split
  · rename_i h; subst h; exact fget_fdel v m n k
  · exact fget_fins d m n k v

theorem fget_fset_self (d : β) (m : FMap β) (n : Nat) (v : β) : fget d (fset d m n v) n = v := by simp [fget_fset]

theorem fget_fset_ne (d : β) (m : FMap β) {n k : Nat} (v : β) (h : k ≠ n) : fget d (fset d m n v) k = fget d m k := by
  simp [fget_fset, h]

omit [DecidableEq β] in
theorem fget_fclear (d : β) (m : FMap β) (lo len k : Nat) :
    fget d (fclear m lo len) k = if lo ≤ k ∧ k < lo + len then d else fget d m k := by
  have h := ffind_filter (fun j => !(decide (lo ≤ j) && decide (j < lo + len))) m k
  simp only [fget, fclear]
  rw [h]
  by_cases h1 : lo ≤ k <;> by_cases h2 : k < lo + len <;> simp [h1, h2]

theorem fget_fsetMany (d : β) (m : FMap β) (n : Nat) (vs : List β) (k : Nat) :
    fget d (fsetMany d m n vs) k = if n ≤ k ∧ k < n + vs.length then vs.getD (k - n) d else fget d m k := by
  induction vs generalizing m n with
  | nil => simp [fsetMany]
  | cons v vs ih =>
    simp only [fsetMany, ih, fget_fset, List.length_cons]
    by_cases hk : k = n
    · subst hk
      have h1 : ¬ (k + 1 ≤ k ∧ k < k + 1 + vs.length) := by omega
      have h2 : k ≤ k ∧ k < k + (vs.length + 1) := by omega
      rw [if_neg h1, if_pos h2]; simp
    · by_cases hr : n + 1 ≤ k ∧ k < n + 1 + vs.length
      · have h2 : n ≤ k ∧ k < n + (vs.length + 1) := by omega
        rw [if_pos hr, if_pos h2]
        have : k - n = (k - (n + 1)) + 1 := by omega
        rw [this]; simp
      · have h2 : ¬ (n ≤ k ∧ k < n + (vs.length + 1)) := by omega
        rw [if_neg hr, if_neg h2]; simp [hk]

/-! ### The canonical form -/

omit [DecidableEq β] in
theorem fsorted_mono {lo hi : Nat} (h : lo ≤ hi) (m : FMap β) (hm : fsorted hi m = true) : fsorted lo m = true := by
  cases m with
  | nil => rfl
  | cons e r =>
    obtain ⟨k, v⟩ := e
    simp only [fsorted, Bool.and_eq_true, decide_eq_true_eq] at hm ⊢
    exact ⟨by omega, hm.2⟩

omit [DecidableEq β] in
theorem fsorted_fins {lo : Nat} (m : FMap β) (n : Nat) (v : β) (hn : lo ≤ n) (hm : fsorted lo m = true) :
    fsorted lo (fins m n v) = true := by
  induction m generalizing lo with
  | nil => simp [fins, fsorted, hn]
  | cons e r ih =>
    obtain ⟨k, w⟩ := e
    simp only [fsorted, Bool.and_eq_true, decide_eq_true_eq] at hm
    simp only [fins]
    split
    · rename_i h; subst h; simp [fsorted, hm.1, hm.2]
    · split
      · rename_i h; simp [fsorted, hn, hm.2]; omega
      · simp only [fsorted, Bool.and_eq_true, decide_eq_true_eq]
        exact ⟨hm.1, ih (by omega) hm.2⟩

omit [DecidableEq β] in
theorem fsorted_filter {lo : Nat} (p : Nat × β → Bool) (m : FMap β) (hm : fsorted lo m = true) :
    fsorted lo (m.filter p) = true := by
  induction m generalizing lo with
  | nil => rfl
  | cons e r ih =>
    obtain ⟨k, w⟩ := e
    simp only [fsorted, Bool.and_eq_true, decide_eq_true_eq] at hm
    by_cases h : p (k, w)
    · rw [List.filter_cons_of_pos h]
      simp only [fsorted, Bool.and_eq_true, decide_eq_true_eq]
      exact ⟨hm.1, ih hm.2⟩
    · rw [List.filter_cons_of_neg (by simpa using h)]
      exact fsorted_mono (by omega) _ (ih hm.2)

theorem fwf_nil (d : β) : fwf d ([] : FMap β) = true := rfl

omit [DecidableEq β] in
theorem mem_fins {m : FMap β} {n : Nat} {v : β} {e : Nat × β} (h : e ∈ fins m n v) : e = (n, v) ∨ e ∈ m := by
  induction m with
  | nil => simpa [fins] using h
  | cons a r ih =>
    obtain ⟨k, w⟩ := a
    simp only [fins] at h
    split at h
    · rcases List.mem_cons.1 h with h | h
      · exact .inl h
      · exact .inr (List.mem_cons_of_mem _ h)
    · split at h
      · rcases List.mem_cons.1 h with h | h
        · exact .inl h
        · exact .inr h
      · rcases List.mem_cons.1 h with h | h
        · exact .inr (h ▸ List.mem_cons_self)
        · rcases ih h with h | h
          · exact .inl h
          · exact .inr (List.mem_cons_of_mem _ h)

theorem fwf_fins (d : β) (m : FMap β) (n : Nat) (v : β) (hv : v ≠ d) (hm : fwf d m = true) :
    fwf d (fins m n v) = true := by
  simp only [fwf, Bool.and_eq_true, List.all_eq_true] at hm ⊢
  refine ⟨fsorted_fins m n v (Nat.zero_le _) hm.1, fun e he => ?_⟩
  rcases mem_fins he with h | h
  · subst h; simpa using hv
  · exact hm.2 e h

theorem fwf_filter (d : β) (p : Nat × β → Bool) (m : FMap β) (hm : fwf d m = true) : fwf d (m.filter p) = true := by
  simp only [fwf, Bool.and_eq_true, List.all_eq_true] at hm ⊢
  exact ⟨fsorted_filter p m hm.1, fun e he => hm.2 e (List.mem_filter.1 he).1⟩

theorem fwf_fdel (d : β) (m : FMap β) (n : Nat) (hm : fwf d m = true) : fwf d (fdel m n) = true := fwf_filter d _ m hm

/-- A write keeps the canonical form. -/
theorem fwf_fset (d : β) (m : FMap β) (n : Nat) (v : β) (hm : fwf d m = true) : fwf d (fset d m n v) = true := by
  simp only [fset]
  split
  · exact fwf_fdel d m n hm
  · rename_i h; exact fwf_fins d m n v h hm

/-- Writing consecutive values keeps the canonical form. -/
theorem fwf_fsetMany (d : β) (m : FMap β) (n : Nat) (vs : List β) (hm : fwf d m = true) :
    fwf d (fsetMany d m n vs) = true := by
  induction vs generalizing m n with
  | nil => exact hm
  | cons v vs ih => exact ih _ _ (fwf_fset d m n v hm)

/-- Clearing a range keeps the canonical form. -/
theorem fwf_fclear (d : β) (m : FMap β) (lo len : Nat) (hm : fwf d m = true) : fwf d (fclear m lo len) = true :=
  fwf_filter d _ m hm

/-- A fold of writes keeps the canonical form. -/
theorem fwf_foldl_fset {α : Type} (d : β) (f : α → Nat) (g : α → β) (l : List α) (m : FMap β) (hm : fwf d m = true) :
    fwf d (l.foldl (fun m a => fset d m (f a) (g a)) m) = true := by
  induction l generalizing m with
  | nil => exact hm
  | cons a l ih => exact ih _ (fwf_fset d m _ _ hm)

end Sys2Proof.Machine
end

