-- ==== Sys2Proof/Laws/State.lean ====
section
/-! SUPPORT. What each update of a state, a hart or an architectural state leaves in each field, and reads after writes of registers,
CSRs and harts. -/

namespace Sys2Proof.Machine

/-! ### Replacing a hart -/

@[simp] theorem State.setHart_bare (s : State) (h : Nat) (x : Hart) : (s.setHart h x).bare = s.bare := rfl
@[simp] theorem State.setHart_now (s : State) (h : Nat) (x : Hart) : (s.setHart h x).now = s.now := rfl
@[simp] theorem State.setHart_agenda (s : State) (h : Nat) (x : Hart) : (s.setHart h x).agenda = s.agenda := rfl
@[simp] theorem State.setHart_free (s : State) (h : Nat) (x : Hart) : (s.setHart h x).free = s.free := rfl
@[simp] theorem State.setHart_cur (s : State) (h : Nat) (x : Hart) : (s.setHart h x).cur = s.cur := rfl
@[simp] theorem State.setHart_harts (s : State) (h : Nat) (x : Hart) : (s.setHart h x).harts = fins s.harts h x := rfl
@[simp] theorem State.setHart_nextHart (s : State) (h : Nat) (x : Hart) : (s.setHart h x).nextHart = s.nextHart := rfl
@[simp] theorem State.setHart_gangs (s : State) (h : Nat) (x : Hart) : (s.setHart h x).gangs = s.gangs := rfl
@[simp] theorem State.setHart_nextGang (s : State) (h : Nat) (x : Hart) : (s.setHart h x).nextGang = s.nextGang := rfl
@[simp] theorem State.setHart_stamp (s : State) (h : Nat) (x : Hart) : (s.setHart h x).stamp = s.stamp := rfl
@[simp] theorem State.setHart_mem (s : State) (h : Nat) (x : Hart) : (s.setHart h x).mem = s.mem := rfl
@[simp] theorem State.setHart_poison (s : State) (h : Nat) (x : Hart) : (s.setHart h x).poison = s.poison := rfl
@[simp] theorem State.setHart_mskcnt (s : State) (h : Nat) (x : Hart) : (s.setHart h x).mskcnt = s.mskcnt := rfl
@[simp] theorem State.setHart_arb (s : State) (h : Nat) (x : Hart) : (s.setHart h x).arb = s.arb := rfl
@[simp] theorem State.setHart_disp (s : State) (h : Nat) (x : Hart) : (s.setHart h x).disp = s.disp := rfl
@[simp] theorem State.setHart_fab (s : State) (h : Nat) (x : Hart) : (s.setHart h x).fab = s.fab := rfl
@[simp] theorem State.setHart_ms (s : State) (h : Nat) (x : Hart) : (s.setHart h x).ms = s.ms := rfl
@[simp] theorem State.setHart_traces (s : State) (h : Nat) (x : Hart) : (s.setHart h x).traces = s.traces := rfl
@[simp] theorem State.setHart_due (s : State) (h : Nat) (x : Hart) : (s.setHart h x).due = s.due := rfl
@[simp] theorem State.setHart_mg (s : State) (h : Nat) (x : Hart) : (s.setHart h x).mg = s.mg := rfl

/-! ### Package time -/

@[simp] theorem State.tick_bare (s : State) (n : Nat) : (s.tick n).bare = s.bare := rfl
@[simp] theorem State.tick_now (s : State) (n : Nat) : (s.tick n).now = s.now + n := rfl
@[simp] theorem State.tick_agenda (s : State) (n : Nat) : (s.tick n).agenda = s.agenda := rfl
@[simp] theorem State.tick_free (s : State) (n : Nat) : (s.tick n).free = s.free := rfl
@[simp] theorem State.tick_cur (s : State) (n : Nat) : (s.tick n).cur = s.cur := rfl
@[simp] theorem State.tick_harts (s : State) (n : Nat) : (s.tick n).harts = s.harts.map (fun e => (e.1, e.2.tick n)) := rfl
@[simp] theorem State.tick_nextHart (s : State) (n : Nat) : (s.tick n).nextHart = s.nextHart := rfl
@[simp] theorem State.tick_gangs (s : State) (n : Nat) : (s.tick n).gangs = s.gangs := rfl
@[simp] theorem State.tick_nextGang (s : State) (n : Nat) : (s.tick n).nextGang = s.nextGang := rfl
@[simp] theorem State.tick_stamp (s : State) (n : Nat) : (s.tick n).stamp = s.stamp := rfl
@[simp] theorem State.tick_mem (s : State) (n : Nat) : (s.tick n).mem = s.mem := rfl
@[simp] theorem State.tick_poison (s : State) (n : Nat) : (s.tick n).poison = s.poison := rfl
@[simp] theorem State.tick_mskcnt (s : State) (n : Nat) : (s.tick n).mskcnt = s.mskcnt := rfl
@[simp] theorem State.tick_arb (s : State) (n : Nat) : (s.tick n).arb = s.arb := rfl
@[simp] theorem State.tick_disp (s : State) (n : Nat) : (s.tick n).disp = s.disp := rfl
@[simp] theorem State.tick_fab (s : State) (n : Nat) : (s.tick n).fab = s.fab := rfl
@[simp] theorem State.tick_ms (s : State) (n : Nat) : (s.tick n).ms = s.ms := rfl
@[simp] theorem State.tick_traces (s : State) (n : Nat) : (s.tick n).traces = s.traces := rfl
@[simp] theorem State.tick_due (s : State) (n : Nat) : (s.tick n).due = s.due := rfl
@[simp] theorem State.tick_mg (s : State) (n : Nat) : (s.tick n).mg = s.mg := rfl

/-! ### Memory -/

@[simp] theorem State.store_bare (s : State) (a : Nat) (bs : List Byte) : (s.store a bs).bare = s.bare := rfl
@[simp] theorem State.store_now (s : State) (a : Nat) (bs : List Byte) : (s.store a bs).now = s.now := rfl
@[simp] theorem State.store_agenda (s : State) (a : Nat) (bs : List Byte) : (s.store a bs).agenda = s.agenda := rfl
@[simp] theorem State.store_free (s : State) (a : Nat) (bs : List Byte) : (s.store a bs).free = s.free := rfl
@[simp] theorem State.store_cur (s : State) (a : Nat) (bs : List Byte) : (s.store a bs).cur = s.cur := rfl
@[simp] theorem State.store_harts (s : State) (a : Nat) (bs : List Byte) : (s.store a bs).harts = s.harts := rfl
@[simp] theorem State.store_nextHart (s : State) (a : Nat) (bs : List Byte) : (s.store a bs).nextHart = s.nextHart := rfl
@[simp] theorem State.store_gangs (s : State) (a : Nat) (bs : List Byte) : (s.store a bs).gangs = s.gangs := rfl
@[simp] theorem State.store_nextGang (s : State) (a : Nat) (bs : List Byte) : (s.store a bs).nextGang = s.nextGang := rfl
@[simp] theorem State.store_stamp (s : State) (a : Nat) (bs : List Byte) : (s.store a bs).stamp = s.stamp := rfl
@[simp] theorem State.store_mem (s : State) (a : Nat) (bs : List Byte) : (s.store a bs).mem = fsetMany 0 s.mem a bs := rfl
@[simp] theorem State.store_poison (s : State) (a : Nat) (bs : List Byte) : (s.store a bs).poison = s.poison := rfl
@[simp] theorem State.store_mskcnt (s : State) (a : Nat) (bs : List Byte) : (s.store a bs).mskcnt = s.mskcnt := rfl
@[simp] theorem State.store_arb (s : State) (a : Nat) (bs : List Byte) : (s.store a bs).arb = s.arb := rfl
@[simp] theorem State.store_disp (s : State) (a : Nat) (bs : List Byte) : (s.store a bs).disp = s.disp := rfl
@[simp] theorem State.store_fab (s : State) (a : Nat) (bs : List Byte) : (s.store a bs).fab = s.fab := rfl
@[simp] theorem State.store_ms (s : State) (a : Nat) (bs : List Byte) : (s.store a bs).ms = s.ms := rfl
@[simp] theorem State.store_traces (s : State) (a : Nat) (bs : List Byte) : (s.store a bs).traces = s.traces := rfl
@[simp] theorem State.store_due (s : State) (a : Nat) (bs : List Byte) : (s.store a bs).due = s.due := rfl
@[simp] theorem State.store_mg (s : State) (a : Nat) (bs : List Byte) : (s.store a bs).mg = s.mg := rfl

/-! ### Reports -/

@[simp] theorem State.report_bare (s : State) (k : Nat) (ws : List W64) : (s.report k ws).bare = s.bare := rfl
@[simp] theorem State.report_now (s : State) (k : Nat) (ws : List W64) : (s.report k ws).now = s.now := rfl
@[simp] theorem State.report_agenda (s : State) (k : Nat) (ws : List W64) : (s.report k ws).agenda = s.agenda := rfl
@[simp] theorem State.report_free (s : State) (k : Nat) (ws : List W64) : (s.report k ws).free = s.free := rfl
@[simp] theorem State.report_cur (s : State) (k : Nat) (ws : List W64) : (s.report k ws).cur = s.cur := rfl
@[simp] theorem State.report_harts (s : State) (k : Nat) (ws : List W64) : (s.report k ws).harts = s.harts := rfl
@[simp] theorem State.report_nextHart (s : State) (k : Nat) (ws : List W64) : (s.report k ws).nextHart = s.nextHart := rfl
@[simp] theorem State.report_gangs (s : State) (k : Nat) (ws : List W64) : (s.report k ws).gangs = s.gangs := rfl
@[simp] theorem State.report_nextGang (s : State) (k : Nat) (ws : List W64) : (s.report k ws).nextGang = s.nextGang := rfl
@[simp] theorem State.report_stamp (s : State) (k : Nat) (ws : List W64) : (s.report k ws).stamp = s.stamp := rfl
@[simp] theorem State.report_mem (s : State) (k : Nat) (ws : List W64) : (s.report k ws).mem = s.mem := rfl
@[simp] theorem State.report_poison (s : State) (k : Nat) (ws : List W64) : (s.report k ws).poison = s.poison := rfl
@[simp] theorem State.report_mskcnt (s : State) (k : Nat) (ws : List W64) : (s.report k ws).mskcnt = s.mskcnt := rfl
@[simp] theorem State.report_arb (s : State) (k : Nat) (ws : List W64) : (s.report k ws).arb = s.arb := rfl
@[simp] theorem State.report_disp (s : State) (k : Nat) (ws : List W64) : (s.report k ws).disp = s.disp := rfl
@[simp] theorem State.report_fab (s : State) (k : Nat) (ws : List W64) : (s.report k ws).fab = s.fab := rfl
@[simp] theorem State.report_ms (s : State) (k : Nat) (ws : List W64) : (s.report k ws).ms = s.ms := rfl
@[simp] theorem State.report_traces (s : State) (k : Nat) (ws : List W64) : (s.report k ws).traces = s.traces := rfl
@[simp] theorem State.report_due (s : State) (k : Nat) (ws : List W64) : (s.report k ws).due = s.due := rfl

/-! ### The architectural state of a hart -/

@[simp] theorem Hart.withArch_gang (x : Hart) (a : Arch) : (x.withArch a).gang = x.gang := rfl
@[simp] theorem Hart.withArch_index (x : Hart) (a : Arch) : (x.withArch a).index = x.index := rfl
@[simp] theorem Hart.withArch_size (x : Hart) (a : Arch) : (x.withArch a).size = x.size := rfl
@[simp] theorem Hart.withArch_arch (x : Hart) (a : Arch) : (x.withArch a).arch = a := rfl
@[simp] theorem Hart.withArch_cnt (x : Hart) (a : Arch) : (x.withArch a).cnt = x.cnt := rfl
@[simp] theorem Hart.withArch_sheaves (x : Hart) (a : Arch) : (x.withArch a).sheaves = x.sheaves := rfl
@[simp] theorem Hart.withArch_queue (x : Hart) (a : Arch) : (x.withArch a).queue = x.queue := rfl
@[simp] theorem Hart.withArch_bq (x : Hart) (a : Arch) : (x.withArch a).bq = x.bq := rfl
@[simp] theorem Hart.withArch_pend (x : Hart) (a : Arch) : (x.withArch a).pend = x.pend := rfl
@[simp] theorem Hart.withArch_wait (x : Hart) (a : Arch) : (x.withArch a).wait = x.wait := rfl
@[simp] theorem Hart.withArch_blocked (x : Hart) (a : Arch) : (x.withArch a).blocked = x.blocked := rfl
@[simp] theorem Hart.withArch_onLoad (x : Hart) (a : Arch) : (x.withArch a).onLoad = x.onLoad := rfl
@[simp] theorem Hart.withArch_overBq (x : Hart) (a : Arch) : (x.withArch a).overBq = x.overBq := rfl
@[simp] theorem Hart.withArch_atOpener (x : Hart) (a : Arch) : (x.withArch a).atOpener = x.atOpener := rfl
@[simp] theorem Hart.withArch_cap (x : Hart) (a : Arch) : (x.withArch a).cap = x.cap := rfl
@[simp] theorem Hart.withArch_squash (x : Hart) (a : Arch) : (x.withArch a).squash = x.squash := rfl
@[simp] theorem Hart.withArch_ibuf (x : Hart) (a : Arch) : (x.withArch a).ibuf = x.ibuf := rfl
@[simp] theorem Hart.withArch_btcache (x : Hart) (a : Arch) : (x.withArch a).btcache = x.btcache := rfl
@[simp] theorem Hart.withArch_tableAt (x : Hart) (a : Arch) : (x.withArch a).tableAt = x.tableAt := rfl
@[simp] theorem Hart.withArch_landing (x : Hart) (a : Arch) : (x.withArch a).landing = x.landing := rfl
@[simp] theorem Hart.withArch_held (x : Hart) (a : Arch) : (x.withArch a).held = x.held := rfl
@[simp] theorem Hart.withArch_chans (x : Hart) (a : Arch) : (x.withArch a).chans = x.chans := rfl
@[simp] theorem Hart.withArch_adv (x : Hart) (a : Arch) : (x.withArch a).adv = x.adv := rfl
@[simp] theorem Hart.withArch_ic (x : Hart) (a : Arch) : (x.withArch a).ic = x.ic := rfl
@[simp] theorem Hart.withArch_effPrio (x : Hart) (a : Arch) : (x.withArch a).effPrio = x.effPrio := rfl
@[simp] theorem Hart.withArch_dc (x : Hart) (a : Arch) : (x.withArch a).dc = x.dc := rfl
@[simp] theorem Hart.withArch_issued (x : Hart) (a : Arch) : (x.withArch a).issued = x.issued := rfl
@[simp] theorem Hart.withArch_issueAt (x : Hart) (a : Arch) : (x.withArch a).issueAt = x.issueAt := rfl
@[simp] theorem Hart.withArch_posted (x : Hart) (a : Arch) : (x.withArch a).posted = x.posted := rfl
@[simp] theorem Hart.withArch_vlen (x : Hart) (a : Arch) : (x.withArch a).vlen = x.vlen := rfl
@[simp] theorem Hart.withArch_preempt (x : Hart) (a : Arch) : (x.withArch a).preempt = x.preempt := rfl
@[simp] theorem Hart.withArch_noProg (x : Hart) (a : Arch) : (x.withArch a).noProg = x.noProg := rfl
@[simp] theorem Hart.withArch_parked (x : Hart) (a : Arch) : (x.withArch a).parked = x.parked := rfl
@[simp] theorem Hart.withArch_gone (x : Hart) (a : Arch) : (x.withArch a).gone = x.gone := rfl
@[simp] theorem Hart.withArch_charac (x : Hart) (a : Arch) : (x.withArch a).charac = x.charac := rfl
@[simp] theorem Hart.withArch_ahead (x : Hart) (a : Arch) : (x.withArch a).ahead = x.ahead := rfl

/-! ### The youngest sheaf -/

@[simp] theorem Hart.setCur_gang (x : Hart) (sh : Sheaf) : (x.setCur sh).gang = x.gang := rfl
@[simp] theorem Hart.setCur_index (x : Hart) (sh : Sheaf) : (x.setCur sh).index = x.index := rfl
@[simp] theorem Hart.setCur_size (x : Hart) (sh : Sheaf) : (x.setCur sh).size = x.size := rfl
@[simp] theorem Hart.setCur_arch (x : Hart) (sh : Sheaf) : (x.setCur sh).arch = x.arch := rfl
@[simp] theorem Hart.setCur_cnt (x : Hart) (sh : Sheaf) : (x.setCur sh).cnt = x.cnt := rfl
@[simp] theorem Hart.setCur_sheaves (x : Hart) (sh : Sheaf) : (x.setCur sh).sheaves = x.sheaves.dropLast ++ [sh] := rfl
@[simp] theorem Hart.setCur_queue (x : Hart) (sh : Sheaf) : (x.setCur sh).queue = x.queue := rfl
@[simp] theorem Hart.setCur_bq (x : Hart) (sh : Sheaf) : (x.setCur sh).bq = x.bq := rfl
@[simp] theorem Hart.setCur_pend (x : Hart) (sh : Sheaf) : (x.setCur sh).pend = x.pend := rfl
@[simp] theorem Hart.setCur_wait (x : Hart) (sh : Sheaf) : (x.setCur sh).wait = x.wait := rfl
@[simp] theorem Hart.setCur_blocked (x : Hart) (sh : Sheaf) : (x.setCur sh).blocked = x.blocked := rfl
@[simp] theorem Hart.setCur_onLoad (x : Hart) (sh : Sheaf) : (x.setCur sh).onLoad = x.onLoad := rfl
@[simp] theorem Hart.setCur_overBq (x : Hart) (sh : Sheaf) : (x.setCur sh).overBq = x.overBq := rfl
@[simp] theorem Hart.setCur_atOpener (x : Hart) (sh : Sheaf) : (x.setCur sh).atOpener = x.atOpener := rfl
@[simp] theorem Hart.setCur_cap (x : Hart) (sh : Sheaf) : (x.setCur sh).cap = x.cap := rfl
@[simp] theorem Hart.setCur_squash (x : Hart) (sh : Sheaf) : (x.setCur sh).squash = x.squash := rfl
@[simp] theorem Hart.setCur_ibuf (x : Hart) (sh : Sheaf) : (x.setCur sh).ibuf = x.ibuf := rfl
@[simp] theorem Hart.setCur_btcache (x : Hart) (sh : Sheaf) : (x.setCur sh).btcache = x.btcache := rfl
@[simp] theorem Hart.setCur_tableAt (x : Hart) (sh : Sheaf) : (x.setCur sh).tableAt = x.tableAt := rfl
@[simp] theorem Hart.setCur_landing (x : Hart) (sh : Sheaf) : (x.setCur sh).landing = x.landing := rfl
@[simp] theorem Hart.setCur_held (x : Hart) (sh : Sheaf) : (x.setCur sh).held = x.held := rfl
@[simp] theorem Hart.setCur_chans (x : Hart) (sh : Sheaf) : (x.setCur sh).chans = x.chans := rfl
@[simp] theorem Hart.setCur_adv (x : Hart) (sh : Sheaf) : (x.setCur sh).adv = x.adv := rfl
@[simp] theorem Hart.setCur_ic (x : Hart) (sh : Sheaf) : (x.setCur sh).ic = x.ic := rfl
@[simp] theorem Hart.setCur_effPrio (x : Hart) (sh : Sheaf) : (x.setCur sh).effPrio = x.effPrio := rfl
@[simp] theorem Hart.setCur_dc (x : Hart) (sh : Sheaf) : (x.setCur sh).dc = x.dc := rfl
@[simp] theorem Hart.setCur_issued (x : Hart) (sh : Sheaf) : (x.setCur sh).issued = x.issued := rfl
@[simp] theorem Hart.setCur_issueAt (x : Hart) (sh : Sheaf) : (x.setCur sh).issueAt = x.issueAt := rfl
@[simp] theorem Hart.setCur_posted (x : Hart) (sh : Sheaf) : (x.setCur sh).posted = x.posted := rfl
@[simp] theorem Hart.setCur_vlen (x : Hart) (sh : Sheaf) : (x.setCur sh).vlen = x.vlen := rfl
@[simp] theorem Hart.setCur_preempt (x : Hart) (sh : Sheaf) : (x.setCur sh).preempt = x.preempt := rfl
@[simp] theorem Hart.setCur_noProg (x : Hart) (sh : Sheaf) : (x.setCur sh).noProg = x.noProg := rfl
@[simp] theorem Hart.setCur_parked (x : Hart) (sh : Sheaf) : (x.setCur sh).parked = x.parked := rfl
@[simp] theorem Hart.setCur_gone (x : Hart) (sh : Sheaf) : (x.setCur sh).gone = x.gone := rfl
@[simp] theorem Hart.setCur_charac (x : Hart) (sh : Sheaf) : (x.setCur sh).charac = x.charac := rfl
@[simp] theorem Hart.setCur_ahead (x : Hart) (sh : Sheaf) : (x.setCur sh).ahead = x.ahead := rfl

/-! ### Counters -/

@[simp] theorem Hart.count_gang (x : Hart) (n k : Nat) : (x.count n k).gang = x.gang := rfl
@[simp] theorem Hart.count_index (x : Hart) (n k : Nat) : (x.count n k).index = x.index := rfl
@[simp] theorem Hart.count_size (x : Hart) (n k : Nat) : (x.count n k).size = x.size := rfl
@[simp] theorem Hart.count_arch (x : Hart) (n k : Nat) : (x.count n k).arch = x.arch := rfl
@[simp] theorem Hart.count_cnt (x : Hart) (n k : Nat) : (x.count n k).cnt = fset 0 x.cnt n (fget 0 x.cnt n + BitVec.ofNat 64 k) := rfl
@[simp] theorem Hart.count_sheaves (x : Hart) (n k : Nat) : (x.count n k).sheaves = x.sheaves := rfl
@[simp] theorem Hart.count_queue (x : Hart) (n k : Nat) : (x.count n k).queue = x.queue := rfl
@[simp] theorem Hart.count_bq (x : Hart) (n k : Nat) : (x.count n k).bq = x.bq := rfl
@[simp] theorem Hart.count_pend (x : Hart) (n k : Nat) : (x.count n k).pend = x.pend := rfl
@[simp] theorem Hart.count_wait (x : Hart) (n k : Nat) : (x.count n k).wait = x.wait := rfl
@[simp] theorem Hart.count_blocked (x : Hart) (n k : Nat) : (x.count n k).blocked = x.blocked := rfl
@[simp] theorem Hart.count_onLoad (x : Hart) (n k : Nat) : (x.count n k).onLoad = x.onLoad := rfl
@[simp] theorem Hart.count_overBq (x : Hart) (n k : Nat) : (x.count n k).overBq = x.overBq := rfl
@[simp] theorem Hart.count_atOpener (x : Hart) (n k : Nat) : (x.count n k).atOpener = x.atOpener := rfl
@[simp] theorem Hart.count_cap (x : Hart) (n k : Nat) : (x.count n k).cap = x.cap := rfl
@[simp] theorem Hart.count_squash (x : Hart) (n k : Nat) : (x.count n k).squash = x.squash := rfl
@[simp] theorem Hart.count_ibuf (x : Hart) (n k : Nat) : (x.count n k).ibuf = x.ibuf := rfl
@[simp] theorem Hart.count_btcache (x : Hart) (n k : Nat) : (x.count n k).btcache = x.btcache := rfl
@[simp] theorem Hart.count_tableAt (x : Hart) (n k : Nat) : (x.count n k).tableAt = x.tableAt := rfl
@[simp] theorem Hart.count_landing (x : Hart) (n k : Nat) : (x.count n k).landing = x.landing := rfl
@[simp] theorem Hart.count_held (x : Hart) (n k : Nat) : (x.count n k).held = x.held := rfl
@[simp] theorem Hart.count_chans (x : Hart) (n k : Nat) : (x.count n k).chans = x.chans := rfl
@[simp] theorem Hart.count_adv (x : Hart) (n k : Nat) : (x.count n k).adv = x.adv := rfl
@[simp] theorem Hart.count_ic (x : Hart) (n k : Nat) : (x.count n k).ic = x.ic := rfl
@[simp] theorem Hart.count_effPrio (x : Hart) (n k : Nat) : (x.count n k).effPrio = x.effPrio := rfl
@[simp] theorem Hart.count_dc (x : Hart) (n k : Nat) : (x.count n k).dc = x.dc := rfl
@[simp] theorem Hart.count_issued (x : Hart) (n k : Nat) : (x.count n k).issued = x.issued := rfl
@[simp] theorem Hart.count_issueAt (x : Hart) (n k : Nat) : (x.count n k).issueAt = x.issueAt := rfl
@[simp] theorem Hart.count_posted (x : Hart) (n k : Nat) : (x.count n k).posted = x.posted := rfl
@[simp] theorem Hart.count_vlen (x : Hart) (n k : Nat) : (x.count n k).vlen = x.vlen := rfl
@[simp] theorem Hart.count_preempt (x : Hart) (n k : Nat) : (x.count n k).preempt = x.preempt := rfl
@[simp] theorem Hart.count_noProg (x : Hart) (n k : Nat) : (x.count n k).noProg = x.noProg := rfl
@[simp] theorem Hart.count_parked (x : Hart) (n k : Nat) : (x.count n k).parked = x.parked := rfl
@[simp] theorem Hart.count_gone (x : Hart) (n k : Nat) : (x.count n k).gone = x.gone := rfl
@[simp] theorem Hart.count_charac (x : Hart) (n k : Nat) : (x.count n k).charac = x.charac := rfl
@[simp] theorem Hart.count_ahead (x : Hart) (n k : Nat) : (x.count n k).ahead = x.ahead := rfl

/-! ### The next instruction -/

@[simp] theorem Arch.next_pc (a : Arch) : (a.next).pc = a.pc + 4 := rfl
@[simp] theorem Arch.next_x (a : Arch) : (a.next).x = a.x := rfl
@[simp] theorem Arch.next_v (a : Arch) : (a.next).v = a.v := rfl
@[simp] theorem Arch.next_m (a : Arch) : (a.next).m = a.m := rfl
@[simp] theorem Arch.next_q (a : Arch) : (a.next).q = a.q := rfl
@[simp] theorem Arch.next_z (a : Arch) : (a.next).z = a.z := rfl
@[simp] theorem Arch.next_tam (a : Arch) : (a.next).tam = a.tam := rfl
@[simp] theorem Arch.next_mp (a : Arch) : (a.next).mp = a.mp := rfl
@[simp] theorem Arch.next_csr (a : Arch) : (a.next).csr = a.csr := rfl
@[simp] theorem Arch.next_grant (a : Arch) : (a.next).grant = a.grant := rfl
@[simp] theorem Arch.next_stripPc (a : Arch) : (a.next).stripPc = a.stripPc := rfl
@[simp] theorem Arch.next_nextSplit (a : Arch) : (a.next).nextSplit = a.nextSplit := rfl
@[simp] theorem Arch.next_bySplit (a : Arch) : (a.next).bySplit = a.bySplit := rfl

/-! ### CSRs -/

@[simp] theorem Arch.wcsr_pc (a : Arch) (n : Nat) (v : W64) : (a.wcsr n v).pc = a.pc := rfl
@[simp] theorem Arch.wcsr_x (a : Arch) (n : Nat) (v : W64) : (a.wcsr n v).x = a.x := rfl
@[simp] theorem Arch.wcsr_v (a : Arch) (n : Nat) (v : W64) : (a.wcsr n v).v = a.v := rfl
@[simp] theorem Arch.wcsr_m (a : Arch) (n : Nat) (v : W64) : (a.wcsr n v).m = a.m := rfl
@[simp] theorem Arch.wcsr_q (a : Arch) (n : Nat) (v : W64) : (a.wcsr n v).q = a.q := rfl
@[simp] theorem Arch.wcsr_z (a : Arch) (n : Nat) (v : W64) : (a.wcsr n v).z = a.z := rfl
@[simp] theorem Arch.wcsr_tam (a : Arch) (n : Nat) (v : W64) : (a.wcsr n v).tam = a.tam := rfl
@[simp] theorem Arch.wcsr_mp (a : Arch) (n : Nat) (v : W64) : (a.wcsr n v).mp = a.mp := rfl
@[simp] theorem Arch.wcsr_csr (a : Arch) (n : Nat) (v : W64) : (a.wcsr n v).csr = fset 0 a.csr n v := rfl
@[simp] theorem Arch.wcsr_grant (a : Arch) (n : Nat) (v : W64) : (a.wcsr n v).grant = a.grant := rfl
@[simp] theorem Arch.wcsr_stripPc (a : Arch) (n : Nat) (v : W64) : (a.wcsr n v).stripPc = a.stripPc := rfl
@[simp] theorem Arch.wcsr_nextSplit (a : Arch) (n : Nat) (v : W64) : (a.wcsr n v).nextSplit = a.nextSplit := rfl
@[simp] theorem Arch.wcsr_bySplit (a : Arch) (n : Nat) (v : W64) : (a.wcsr n v).bySplit = a.bySplit := rfl

@[simp] theorem Arch.wx_pc (a : Arch) (r : Nat) (v : W64) : (a.wx r v).pc = a.pc := by
  unfold Arch.wx; split <;> rfl
@[simp] theorem Arch.wx_v (a : Arch) (r : Nat) (v : W64) : (a.wx r v).v = a.v := by
  unfold Arch.wx; split <;> rfl
@[simp] theorem Arch.wx_m (a : Arch) (r : Nat) (v : W64) : (a.wx r v).m = a.m := by
  unfold Arch.wx; split <;> rfl
@[simp] theorem Arch.wx_q (a : Arch) (r : Nat) (v : W64) : (a.wx r v).q = a.q := by
  unfold Arch.wx; split <;> rfl
@[simp] theorem Arch.wx_z (a : Arch) (r : Nat) (v : W64) : (a.wx r v).z = a.z := by
  unfold Arch.wx; split <;> rfl
@[simp] theorem Arch.wx_tam (a : Arch) (r : Nat) (v : W64) : (a.wx r v).tam = a.tam := by
  unfold Arch.wx; split <;> rfl
@[simp] theorem Arch.wx_mp (a : Arch) (r : Nat) (v : W64) : (a.wx r v).mp = a.mp := by
  unfold Arch.wx; split <;> rfl
@[simp] theorem Arch.wx_csr (a : Arch) (r : Nat) (v : W64) : (a.wx r v).csr = a.csr := by
  unfold Arch.wx; split <;> rfl
@[simp] theorem Arch.wx_grant (a : Arch) (r : Nat) (v : W64) : (a.wx r v).grant = a.grant := by
  unfold Arch.wx; split <;> rfl
@[simp] theorem Arch.wx_stripPc (a : Arch) (r : Nat) (v : W64) : (a.wx r v).stripPc = a.stripPc := by
  unfold Arch.wx; split <;> rfl
@[simp] theorem Arch.wx_nextSplit (a : Arch) (r : Nat) (v : W64) : (a.wx r v).nextSplit = a.nextSplit := by
  unfold Arch.wx; split <;> rfl
@[simp] theorem Arch.wx_bySplit (a : Arch) (r : Nat) (v : W64) : (a.wx r v).bySplit = a.bySplit := by
  unfold Arch.wx; split <;> rfl

@[simp] theorem Hart.tick_gang (x : Hart) (n : Nat) : (x.tick n).gang = x.gang := by
  unfold Hart.tick; repeat' split
  all_goals rfl
@[simp] theorem Hart.tick_index (x : Hart) (n : Nat) : (x.tick n).index = x.index := by
  unfold Hart.tick; repeat' split
  all_goals rfl
@[simp] theorem Hart.tick_size (x : Hart) (n : Nat) : (x.tick n).size = x.size := by
  unfold Hart.tick; repeat' split
  all_goals rfl
@[simp] theorem Hart.tick_arch (x : Hart) (n : Nat) : (x.tick n).arch = x.arch := by
  unfold Hart.tick; repeat' split
  all_goals rfl
@[simp] theorem Hart.tick_sheaves (x : Hart) (n : Nat) : (x.tick n).sheaves = x.sheaves := by
  unfold Hart.tick; repeat' split
  all_goals rfl
@[simp] theorem Hart.tick_queue (x : Hart) (n : Nat) : (x.tick n).queue = x.queue := by
  unfold Hart.tick; repeat' split
  all_goals rfl
@[simp] theorem Hart.tick_bq (x : Hart) (n : Nat) : (x.tick n).bq = x.bq := by
  unfold Hart.tick; repeat' split
  all_goals rfl
@[simp] theorem Hart.tick_pend (x : Hart) (n : Nat) : (x.tick n).pend = x.pend := by
  unfold Hart.tick; repeat' split
  all_goals rfl
@[simp] theorem Hart.tick_wait (x : Hart) (n : Nat) : (x.tick n).wait = x.wait := by
  unfold Hart.tick; repeat' split
  all_goals rfl
@[simp] theorem Hart.tick_blocked (x : Hart) (n : Nat) : (x.tick n).blocked = x.blocked := by
  unfold Hart.tick; repeat' split
  all_goals rfl
@[simp] theorem Hart.tick_onLoad (x : Hart) (n : Nat) : (x.tick n).onLoad = x.onLoad := by
  unfold Hart.tick; repeat' split
  all_goals rfl
@[simp] theorem Hart.tick_overBq (x : Hart) (n : Nat) : (x.tick n).overBq = x.overBq := by
  unfold Hart.tick; repeat' split
  all_goals rfl
@[simp] theorem Hart.tick_atOpener (x : Hart) (n : Nat) : (x.tick n).atOpener = x.atOpener := by
  unfold Hart.tick; repeat' split
  all_goals rfl
@[simp] theorem Hart.tick_cap (x : Hart) (n : Nat) : (x.tick n).cap = x.cap := by
  unfold Hart.tick; repeat' split
  all_goals rfl
@[simp] theorem Hart.tick_squash (x : Hart) (n : Nat) : (x.tick n).squash = x.squash := by
  unfold Hart.tick; repeat' split
  all_goals rfl
@[simp] theorem Hart.tick_ibuf (x : Hart) (n : Nat) : (x.tick n).ibuf = x.ibuf := by
  unfold Hart.tick; repeat' split
  all_goals rfl
@[simp] theorem Hart.tick_btcache (x : Hart) (n : Nat) : (x.tick n).btcache = x.btcache := by
  unfold Hart.tick; repeat' split
  all_goals rfl
@[simp] theorem Hart.tick_tableAt (x : Hart) (n : Nat) : (x.tick n).tableAt = x.tableAt := by
  unfold Hart.tick; repeat' split
  all_goals rfl
@[simp] theorem Hart.tick_landing (x : Hart) (n : Nat) : (x.tick n).landing = x.landing := by
  unfold Hart.tick; repeat' split
  all_goals rfl
@[simp] theorem Hart.tick_held (x : Hart) (n : Nat) : (x.tick n).held = x.held := by
  unfold Hart.tick; repeat' split
  all_goals rfl
@[simp] theorem Hart.tick_chans (x : Hart) (n : Nat) : (x.tick n).chans = x.chans := by
  unfold Hart.tick; repeat' split
  all_goals rfl
@[simp] theorem Hart.tick_adv (x : Hart) (n : Nat) : (x.tick n).adv = x.adv := by
  unfold Hart.tick; repeat' split
  all_goals rfl
@[simp] theorem Hart.tick_ic (x : Hart) (n : Nat) : (x.tick n).ic = x.ic := by
  unfold Hart.tick; repeat' split
  all_goals rfl
@[simp] theorem Hart.tick_effPrio (x : Hart) (n : Nat) : (x.tick n).effPrio = x.effPrio := by
  unfold Hart.tick; repeat' split
  all_goals rfl
@[simp] theorem Hart.tick_dc (x : Hart) (n : Nat) : (x.tick n).dc = x.dc := by
  unfold Hart.tick; repeat' split
  all_goals rfl
@[simp] theorem Hart.tick_issued (x : Hart) (n : Nat) : (x.tick n).issued = x.issued := by
  unfold Hart.tick; repeat' split
  all_goals rfl
@[simp] theorem Hart.tick_issueAt (x : Hart) (n : Nat) : (x.tick n).issueAt = x.issueAt := by
  unfold Hart.tick; repeat' split
  all_goals rfl
@[simp] theorem Hart.tick_posted (x : Hart) (n : Nat) : (x.tick n).posted = x.posted := by
  unfold Hart.tick; repeat' split
  all_goals rfl
@[simp] theorem Hart.tick_vlen (x : Hart) (n : Nat) : (x.tick n).vlen = x.vlen := by
  unfold Hart.tick; repeat' split
  all_goals rfl
@[simp] theorem Hart.tick_preempt (x : Hart) (n : Nat) : (x.tick n).preempt = x.preempt := by
  unfold Hart.tick; repeat' split
  all_goals rfl
@[simp] theorem Hart.tick_noProg (x : Hart) (n : Nat) : (x.tick n).noProg = x.noProg := by
  unfold Hart.tick; repeat' split
  all_goals rfl
@[simp] theorem Hart.tick_parked (x : Hart) (n : Nat) : (x.tick n).parked = x.parked := by
  unfold Hart.tick; repeat' split
  all_goals rfl
@[simp] theorem Hart.tick_gone (x : Hart) (n : Nat) : (x.tick n).gone = x.gone := by
  unfold Hart.tick; repeat' split
  all_goals rfl
@[simp] theorem Hart.tick_charac (x : Hart) (n : Nat) : (x.tick n).charac = x.charac := by
  unfold Hart.tick; repeat' split
  all_goals rfl
@[simp] theorem Hart.tick_ahead (x : Hart) (n : Nat) : (x.tick n).ahead = x.ahead := by
  unfold Hart.tick; repeat' split
  all_goals rfl
/-! ### Reads after writes -/

/-- A write of a scalar register: x0 discards it, and every other register reads as before (R32). -/
theorem Arch.rx_wx (a : Arch) (d r : Nat) (v : W64) :
    (a.wx d v).rx r = if r = d ∧ d ≠ 0 then v else a.rx r := by
  unfold Arch.rx Arch.wx
  by_cases hd : d = 0
  · subst hd; simp
  · by_cases hr : r = 0
    · subst hr; simp [hd, Ne.symm hd]
    · simp [hd, hr, fget_fset]

@[simp] theorem Arch.rx_zero (a : Arch) : a.rx 0 = 0 := rfl

theorem Arch.rcsr_wcsr (a : Arch) (n k : Nat) (v : W64) : (a.wcsr n v).rcsr k = if k = n then v else a.rcsr k :=
  fget_fset 0 a.csr n k v

@[simp] theorem Arch.rx_next (a : Arch) (r : Nat) : a.next.rx r = a.rx r := rfl
@[simp] theorem Arch.rcsr_next (a : Arch) (n : Nat) : a.next.rcsr n = a.rcsr n := rfl
@[simp] theorem Arch.rx_wcsr (a : Arch) (n r : Nat) (v : W64) : (a.wcsr n v).rx r = a.rx r := rfl
@[simp] theorem Arch.rcsr_wx (a : Arch) (d n : Nat) (v : W64) : (a.wx d v).rcsr n = a.rcsr n := by simp [Arch.rcsr]

/-- A hart is what was put there. -/
@[simp] theorem State.hart_setHart_self (s : State) (h : Nat) (x : Hart) : (s.setHart h x).hart h = some x :=
  ffind_fins_self s.harts h x

theorem State.hart_setHart_ne (s : State) {h k : Nat} (x : Hart) (hk : k ≠ h) : (s.setHart h x).hart k = s.hart k :=
  ffind_fins_ne s.harts x hk

/-- Time passes for every hart. -/
@[simp] theorem State.hart_tick (s : State) (n h : Nat) : (s.tick n).hart h = (s.hart h).map (Hart.tick n) :=
  ffind_map (Hart.tick n) s.harts h

theorem State.hart_updHart_self (s : State) (h : Nat) (f : Hart → Hart) : (s.updHart h f).hart h = (s.hart h).map f := by
  unfold State.updHart
  cases hx : s.hart h with
  | none => simp [hx]
  | some x => simp

theorem State.hart_updHart_ne (s : State) {h k : Nat} (f : Hart → Hart) (hk : k ≠ h) :
    (s.updHart h f).hart k = s.hart k := by
  unfold State.updHart
  cases hx : s.hart h with
  | none => rfl
  | some x => exact State.hart_setHart_ne s _ hk

end Sys2Proof.Machine
end

