-- ==== Sys2Proof/Laws/Scalar.lean ====
section
/-! SUPPORT. What the shared operations of the scalar side do on a hart that can run: `withHart`, `retire`, and the operations
built from them. -/

namespace Sys2Proof.Machine

/-- A hart with a sheaf open has a youngest sheaf. -/
theorem Hart.ready_cur {x y : Hart} {n : Nat} (h : x.ready n = some y) : ∃ sh, y.cur = some sh ∧ y.openSheaf = some sh := by
  unfold Hart.ready at h
  split at h
  · rename_i sh ho
    cases h
    have hc := ho
    unfold Hart.openSheaf at hc
    split at hc
    · rename_i sh' hcur
      split at hc
      · cases hc; exact ⟨_, hcur, ho⟩
      · cases hc
    · cases hc
  · split at h
    · cases h
    · cases h
      simp [Hart.openHere, Hart.cur, Hart.openSheaf, newSheaf]

/-- What an operation on the registers `rs` comes to where the hart can run. -/
theorem withHart_canRun {s : State} {rs : List Nat} {y : Hart} (h : s.CanRun rs y) (f : Nat → Hart → State) :
    withHart s rs f = .next (f s.cur { y with bq := y.bqAfter rs }) := by
  obtain ⟨x, hx, hy, hr⟩ := h
  have : rs.any y.waitsOn = false := by simpa using hr
  simp [withHart, hx, hy, this, Hart.bqAfter]

theorem Hart.setCur_cur (x : Hart) (sh : Sheaf) : (x.setCur sh).cur = some sh := by simp [Hart.cur]

/-! ### Requests -/

theorem State.SetsOff.refl (s : State) : s.SetsOff s := ⟨rfl, fun _ => rfl⟩

theorem State.SetsOff.trans {s t u : State} (h : s.SetsOff t) (h' : t.SetsOff u) : s.SetsOff u := by
  have e : t.ms.timed = s.ms.timed := by rw [h.1]
  exact ⟨by rw [h'.1, h.1], fun n => (h'.2 (e.trans n)).trans (h.2 n)⟩

/-- A state with the same memory system has set off the same. -/
theorem State.SetsOff.of_eq {s t u : State} (h : s.SetsOff t) (e : u.ms = t.ms) : s.SetsOff u := ⟨by rw [e]; exact h.1, fun n => e.trans (h.2 n)⟩

/-- An access changes the requests and the data on their way, and nothing else. -/
theorem State.demand_eq (s : State) (cl : Nat) (e : Bool) (q : Sys2Proof.MemReq) :
    s.demand cl e q = { s with ms := (s.demand cl e q).ms } ∧ s.SetsOff (s.demand cl e q) := by
  unfold State.demand
  split
  · exact ⟨rfl, .refl s⟩
  · rename_i ht
    have ht : s.ms.timed ≠ false := by simpa using ht
    dsimp only
    repeat' split
    · exact ⟨rfl, rfl, fun n => absurd n ht⟩
    · exact ⟨rfl, .refl s⟩
    · exact ⟨rfl, rfl, fun n => absurd n ht⟩

/-- The accesses of a hart change the requests and the data on their way, and nothing else. -/
theorem State.demands_eq (s : State) (h cl : Nat) (w : Bool) (d : Sys2Proof.DataTo) (gs : List Nat) :
    s.demands h cl w d gs = { s with ms := (s.demands h cl w d gs).ms } ∧ s.SetsOff (s.demands h cl w d gs) := by
  unfold State.demands
  have key : ∀ (l : List Nat) (t : State), t = { s with ms := t.ms } → s.SetsOff t →
      (l.foldl (fun s g => s.demand cl false { granule := g, cls := .d, write := w, hart := some h, chan := none, dest := d, issued := s.now, hit := false }) t) =
        { s with ms := (l.foldl (fun s g => s.demand cl false
          { granule := g, cls := .d, write := w, hart := some h, chan := none, dest := d, issued := s.now, hit := false }) t).ms } ∧
      s.SetsOff (l.foldl (fun s g => s.demand cl false
        { granule := g, cls := .d, write := w, hart := some h, chan := none, dest := d, issued := s.now, hit := false }) t) := by
    intro l
    induction l with
    | nil => exact fun t e o => ⟨e, o⟩
    | cons g l ih =>
      intro t e o
      rw [List.foldl_cons]
      obtain ⟨e', o'⟩ := State.demand_eq t cl false
        { granule := g, cls := .d, write := w, hart := some h, chan := none, dest := d, issued := t.now, hit := false }
      exact ih _ (by rw [e', e]) (o.trans o')
  exact key gs s rfl (.refl s)

theorem State.demands_hart (s : State) (h cl : Nat) (w : Bool) (d : Sys2Proof.DataTo) (gs : List Nat) (k : Nat) :
    (s.demands h cl w d gs).hart k = s.hart k := by rw [(s.demands_eq h cl w d gs).1]; rfl

/-- What a committed sheaf sends changes the requests and the data on their way, and nothing else. -/
theorem State.sendPuts_mem (s : State) (h low : Nat) (puts : List (Nat × Option Nat)) : (s.sendPuts h low puts).mem = s.mem := by
  unfold State.sendPuts
  induction puts generalizing s with
  | nil => rfl
  | cons a l ih => rw [List.foldl_cons, ih, (s.demands_eq h (a.2.getD low) true .nothing [a.1]).1]

theorem State.demands_mem (s : State) (h cl : Nat) (w : Bool) (d : Sys2Proof.DataTo) (gs : List Nat) : (s.demands h cl w d gs).mem = s.mem := by
  rw [(s.demands_eq h cl w d gs).1]

theorem State.demands_now (s : State) (h cl : Nat) (w : Bool) (d : Sys2Proof.DataTo) (gs : List Nat) : (s.demands h cl w d gs).now = s.now := by
  rw [(s.demands_eq h cl w d gs).1]

/-! ### Retiring -/

/-- Retiring an instruction. -/
theorem State.retireTo_eq (s : State) (h : Nat) (x : Hart) (d : Sys2Proof.DataTo) {sh : Sheaf} (hc : x.cur = some sh) :
    s.retireTo h x d = ((s.setHart h { x.setCur { sh with seq := sh.seq + 1, asks := [] } with blocked := false, noProg := 0 }).demands h
      x.arch.grant.base false d (sh.asks.map Prod.fst)).tick 1 := by
  simp [State.retireTo, hc]

theorem Hart.tick_eq (x : Hart) (n : Nat) : x.tick n = { x with cnt := (x.tick n).cnt } := by
  unfold Hart.tick; repeat' split
  all_goals rfl

/-- The counters after `n` ck depend on the counters, on whether the hart holds its grant and stalls on load data, and on its sequencer. -/
theorem Hart.tick_cnt_congr {x y : Hart} (n : Nat) (hc : x.cnt = y.cnt) (hp : x.parked = y.parked) (hg : x.gone = y.gone)
    (hb : x.blocked = y.blocked) (hl : x.onLoad = y.onLoad) (ha : x.adv = y.adv) : (x.tick n).cnt = (y.tick n).cnt := by
  unfold Hart.tick
  rw [hp, hg, hb, hl, ha]
  by_cases hs : (y.parked || y.gone) = true
  · simpa [hs] using hc
  · cases y.adv with
    | none => by_cases ht : (y.blocked && !y.onLoad.isEmpty) = true <;> simp only [hs, ht] <;> simp [Hart.count, hc]
    | some a =>
      by_cases ht : (y.blocked && !y.onLoad.isEmpty) = true <;> by_cases hi : a.idling <;> simp only [hs, ht, hi] <;> simp [Hart.count, hc]

/-- One ck passes, the current hart becomes `x`, and requests set off: nothing else changes. -/
theorem State.alone_setHart_tick (s : State) (x : Hart) (free : Nat) (cl : Nat) (d : Sys2Proof.DataTo) (gs : List Nat) :
    s.Alone (((({ s with free := free } : State).setHart s.cur x).demands s.cur cl false d gs).tick 1) := by
  obtain ⟨e, o⟩ := (({ s with free := free } : State).setHart s.cur x).demands_eq s.cur cl false d gs
  generalize (({ s with free := free } : State).setHart s.cur x).demands s.cur cl false d gs = t at e o ⊢
  refine ⟨by rw [e]; rfl, o, fun h hh => ?_⟩
  have : t.hart h = s.hart h := by rw [e]; exact State.hart_setHart_ne _ _ hh
  rw [State.hart_tick, this]

theorem State.hart_setHart_tick (s : State) (h : Nat) (x : Hart) : ((s.setHart h x).tick 1).hart h = some (x.tick 1) := by
  simp

/-- Retiring an instruction that changed registers and CSRs, and its sheaf to `sh'`. -/
theorem retire_executed {s : State} {y x : Hart} {rs : List Nat} {a : Arch} {sh' : Sheaf} (free : Nat) (d : Sys2Proof.DataTo)
    (hx : x.setCur { sh' with seq := sh'.seq + 1, asks := [] } = { y with
      arch := a, sheaves := y.sheaves.dropLast ++ [{ sh' with seq := sh'.seq + 1, asks := [] }], bq := y.bqAfter rs })
    (hc : x.cur = some sh') :
    s.Alone (({ s with free := free } : State).retireTo s.cur x d) ∧
    ∃ z, (({ s with free := free } : State).retireTo s.cur x d).hart s.cur = some z ∧ y.Executed z rs a sh' := by
  rw [State.retireTo_eq _ _ _ _ hc, hx]
  refine ⟨State.alone_setHart_tick s _ free _ _ _, _, by rw [State.hart_tick, State.demands_hart, State.hart_setHart_self]; rfl, ?_⟩
  unfold Hart.Executed
  refine (Hart.tick_eq _ 1).trans ?_
  simp only [Hart.mk.injEq, and_true, true_and]
  exact Hart.tick_cnt_congr 1 rfl rfl rfl rfl rfl rfl

/-- An instruction that only changes registers and CSRs completes. -/
theorem completes_of_retire {i : Instr} {rs : List Nat} {p : Arch → Prop} {f : Arch → Arch}
    (he : ∀ s y, s.CanRun rs y → p y.arch →
      exec i s = .next (s.retire s.cur (({ y with bq := y.bqAfter rs } : Hart).withArch (f y.arch)))) :
    Completes i rs p f := by
  intro s y hr hp
  obtain ⟨x, hx, hy, hw⟩ := id hr
  obtain ⟨sh, hc, -⟩ := Hart.ready_cur hy
  obtain ⟨ha, z, hz, hd⟩ := retire_executed (s := s) (y := y) (rs := rs) (a := f y.arch) (sh' := sh)
    (x := ({ y with bq := y.bqAfter rs } : Hart).withArch (f y.arch)) s.free .nothing rfl hc
  exact ⟨_, z, sh, he s y hr hp, ha, hz, hc, hd⟩

/-- An instruction that is `regOp` writes its register. -/
theorem writes_of_regOp {i : Instr} {rs : List Nat} {d : BitVec 5} {f : Arch → W64}
    (he : ∀ s, exec i s = regOp s d.toNat rs f) : Writes i rs d f := by
  refine completes_of_retire fun s y hr _ => ?_
  rw [he, regOp, withHart_canRun hr]

end Sys2Proof.Machine
end

