-- ==== Sys2Proof/Laws/Trap.lean ====
section
/-! SUPPORT. What tracing, squashing, frame writes and landing do to a hart. -/

namespace Sys2Proof.Machine

/-! ### Tracing -/

/-- A record joins those that are to be written, and nothing else changes. -/
theorem State.traceAt_frame (s : State) (cl : Nat) (o : Option Nat) (ck head : Nat) (rest : List W64) :
    ∃ d, s.traceAt cl o ck head rest = { s with due := d } := by
  unfold State.traceAt State.addRec
  split
  all_goals exact ⟨_, rfl⟩

theorem State.trace_frame (s : State) (cl : Nat) (o : Option Nat) (head : Nat) (rest : List W64) :
    ∃ d, s.trace cl o head rest = { s with due := d } := s.traceAt_frame cl o s.now head rest

theorem State.trace_hart (s : State) (cl : Nat) (o : Option Nat) (head : Nat) (rest : List W64) (k : Nat) :
    (s.trace cl o head rest).hart k = s.hart k := by
  obtain ⟨_, e⟩ := s.trace_frame cl o head rest
  rw [e]; rfl

theorem State.traceSheaf_frame (s : State) (h : Nat) (sh : Sheaf) (out cause stamp : Nat) :
    ∃ d, s.traceSheaf h sh out cause stamp = { s with due := d } := by
  unfold State.traceSheaf
  repeat' split
  · exact ⟨_, rfl⟩
  · exact State.trace_frame ..
  · exact ⟨_, rfl⟩

theorem State.traceSheaf_hart (s : State) (h : Nat) (sh : Sheaf) (out cause stamp k : Nat) :
    (s.traceSheaf h sh out cause stamp).hart k = s.hart k := by
  obtain ⟨_, e⟩ := s.traceSheaf_frame h sh out cause stamp
  rw [e]; rfl

/-! ### Squashing leaves a hart without sheaves alone -/

/-- The hart has nothing a squash could take. -/
def State.Idle (s : State) (k : Nat) (x : Hart) : Prop := s.hart k = some x ∧ x.sheaves = []

theorem State.Idle.of_hart_eq {s t : State} {k : Nat} {x : Hart} (h : s.Idle k x) (ht : t.hart k = s.hart k) : t.Idle k x :=
  ⟨ht.trans h.1, h.2⟩

theorem State.Idle.arb {s : State} {k : Nat} {x : Hart} (i : s.Idle k x) (a : Arbiter) : ({ s with arb := a } : State).Idle k x := i

theorem State.Idle.updHart {s : State} {k h : Nat} {x : Hart} (i : s.Idle k x) (f : Hart → Hart) (hh : h ≠ k) :
    (s.updHart h f).Idle k x := i.of_hart_eq (State.hart_updHart_ne s f hh.symm)

theorem State.Idle.setHart {s : State} {k h : Nat} {x : Hart} (i : s.Idle k x) (y : Hart) (hh : h ≠ k) :
    (s.setHart h y).Idle k x := i.of_hart_eq (State.hart_setHart_ne s y hh.symm)

theorem State.Idle.traceSheaf {s : State} {k : Nat} {x : Hart} (i : s.Idle k x) (h : Nat) (sh : Sheaf) (o c st : Nat) :
    (s.traceSheaf h sh o c st).Idle k x := i.of_hart_eq (s.traceSheaf_hart h sh o c st k)

theorem foldl_keeps {α β : Type} {P : α → Prop} (f : α → β → α) (l : List β) (a : α) (ha : P a)
    (hf : ∀ a b, b ∈ l → P a → P (f a b)) : P (l.foldl f a) := by
  induction l generalizing a with
  | nil => exact ha
  | cons b l ih => exact ih _ (hf a b List.mem_cons_self ha) (fun a c hc => hf a c (List.mem_cons_of_mem _ hc))

theorem State.Idle.squash {s : State} {k : Nat} {x : Hart} (i : s.Idle k x) (h j o : Nat) (hh : h ≠ k) :
    (s.squash h j o).Idle k x := by
  unfold State.squash
  split
  · exact i
  · rename_i y _
    split
    · exact i
    · have i1 : (((y.sheaves.drop j).foldl (fun s y => s.traceSheaf h y o 0 0) s)).Idle k x :=
        foldl_keeps (P := fun t : State => t.Idle k x) _ _ _ i (fun t y _ it => it.traceSheaf h y o 0 0)
      dsimp only
      split
      · exact i1
      · split_ifs
        all_goals (refine State.Idle.arb (State.Idle.setHart ?_ _ hh) _; exact i1)

theorem fillRangeWith_keeps {P : State → Prop} (sq : Squasher) (s : State) (g : Grant) (root : W64) (va len : Nat)
    (bytes : List (Nat × Byte)) (hs : P s) (hmem : ∀ t m p, P t → P { t with mem := m, poison := p })
    (harb : ∀ t a, P t → P { t with arb := a })
    (hsq : ∀ t h p, P t → P (sq t h p)) : P (fillRangeWith sq s g root va len bytes) := by
  unfold fillRangeWith
  refine foldl_keeps _ _ _ hs fun t i _ ht => ?_
  dsimp only
  split
  · exact ht
  · split
    · exact harb t _ ht
    · exact foldl_keeps _ _ _ (hmem t _ _ ht) (fun u e _ hu => hsq u _ _ hu)

theorem State.squashIfN_idle (n : Nat) (s : State) (h : Nat) (p : Sheaf → Bool) (k : Nat) (x : Hart) (i : s.Idle k x) :
    (State.squashIfN n s h p).Idle k x := by
  induction n generalizing s h p with
  | zero => exact i
  | succ n ih =>
    unfold State.squashIfN
    by_cases hh : h = k
    · subst hh
      rw [i.1]
      have : x.firstSheaf p = none := by simp [Hart.firstSheaf, i.2]
      simp only [this]; exact i
    · split
      · exact i
      · split
        · exact i
        · split
          · exact i
          · split
            · split
              · refine ih _ _ _ ?_
                unfold State.squashHeld writeFrameWith
                refine fillRangeWith_keeps (P := fun t : State => t.Idle k x) _ _ _ _ _ _ _ ?_ (fun t m p ht => ht) (fun t a ht => ht)
                  (fun t h p ht => ih t h p ht)
                exact ((i.arb _).traceSheaf _ _ _ _ _).updHart _ hh
              · exact i.squash _ _ _ hh
            · exact i.squash _ _ _ hh

theorem State.Idle.squashIf_idle {s : State} {k : Nat} {x : Hart} (i : s.Idle k x) (h : Nat) (p : Sheaf → Bool) :
    (s.squashIf h p).Idle k x := State.squashIfN_idle _ s h p k x i

/-- Writing a frame leaves a hart without sheaves alone. -/
theorem State.writeFrame_idle {s : State} {k : Nat} {x : Hart} (i : s.Idle k x) (a : Arch) (cnt : FMap W64)
    (sp sq cap : Nat) (r : W64) : (s.writeFrame a cnt sp sq cap r).Idle k x :=
  fillRangeWith_keeps (P := fun t : State => t.Idle k x) _ _ _ _ _ _ _ i (fun _ _ _ ht => ht) (fun _ _ ht => ht) (fun _ h p ht => ht.squashIf_idle h p)

/-! ### Landing -/

/-- Time counts in CYCLE, LATSTALL and ADVIDLE only, and in LATSTALL only while the hart stalls on load data. -/
theorem Hart.tick_cnt_other (x : Hart) (n k : Nat) (h1 : k ≠ cCYCLE) (h2 : k ≠ cADVIDLE) (h3 : (x.blocked && !x.onLoad.isEmpty) = false ∨ k ≠ cLATSTALL) :
    fget 0 (x.tick n).cnt k = fget 0 x.cnt k := by
  have stall : fget 0 (if x.blocked && !x.onLoad.isEmpty then (x.count cCYCLE n).count cLATSTALL n else x.count cCYCLE n).cnt k = fget 0 x.cnt k := by
    split
    · rename_i ht
      have h4 : k ≠ cLATSTALL := h3.resolve_left (by simp [ht])
      simp [Hart.count, fget_fset_ne _ _ _ h1, fget_fset_ne _ _ _ h4]
    · simp [Hart.count, fget_fset_ne _ _ _ h1]
  unfold Hart.tick
  split
  · rfl
  · cases x.adv with
    | none => exact stall
    | some a =>
      by_cases hi : a.idling
      · simpa [hi, Hart.count, fget_fset_ne _ _ _ h2] using stall
      · simpa [hi] using stall

theorem Arch.withRecord_eq (a : Arch) (c p sp st sl te tl tv : W64) :
    (a.withRecord c p sp st sl te tl tv).setMode 0 1 =
      { a with csr := ((a.withRecord c p sp st sl te tl tv).setMode 0 1).csr } := by
  simp only [Arch.withRecord, Arch.setMode, Arch.wcsr]

/-- The record's CSRs read back. -/
theorem Arch.record_reads (a : Arch) (c p sp st sl te tl tv : W64) :
    let b := (a.withRecord c p sp st sl te tl tv).setMode 0 1
    b.rcsr 0x300 = c ∧ b.rcsr 0x301 = p ∧ b.rcsr 0x302 = sp ∧ b.rcsr 0x303 = st ∧ b.rcsr 0x304 = sl ∧ b.rcsr 0x305 = te ∧
    b.rcsr 0x306 = tl ∧ b.rcsr 0x307 = tv ∧ b.rcsr cHSTATUS = setBits (a.rcsr cHSTATUS) 1 0 1 := by
  simp [Arch.withRecord, Arch.setMode, Arch.rcsr_wcsr, cHSTATUS]

/-- Every other CSR reads as before. -/
theorem Arch.record_others (a : Arch) (c p sp st sl te tl tv : W64) (n : Nat) (hn : ¬ recordCsr n) :
    ((a.withRecord c p sp st sl te tl tv).setMode 0 1).rcsr n = a.rcsr n := by
  have h1 : ∀ k, 0x300 ≤ k → k ≤ 0x307 → n ≠ k := fun k a b e => hn (.inl (e ▸ ⟨a, b⟩))
  have h2 : n ≠ cHSTATUS := fun e => hn (.inr e)
  simp [Arch.withRecord, Arch.setMode, Arch.rcsr_wcsr, h2, h1 0x300, h1 0x301, h1 0x302, h1 0x303, h1 0x304, h1 0x305, h1 0x306, h1 0x307]

/-- A hart gives up what it holds of the arbiter: with no token that holds writes, the arbiter alone changes. -/
theorem State.leaveArbiter_eq (s : State) (h : Nat) (hh : s.arb.token = some h → s.arb.heldWrites = []) :
    ∃ a, s.leaveArbiter h = { s with arb := a } := by
  unfold State.leaveArbiter
  split
  · rename_i ht
    have : (((s.arb.dropSlices h).dropToken h)).heldWrites = [] := by
      simp [Arbiter.dropToken, Arbiter.dropSlices, ht, hh ht]
    refine ⟨{ (s.arb.dropSlices h).dropToken h with heldWrites := [] }, ?_⟩
    simp only [State.applyHeld, this, List.foldl_nil]
  · exact ⟨_, rfl⟩

theorem State.NoToken.held {s : State} (h : s.NoToken) : s.arb.token = some s.cur → s.arb.heldWrites = [] := by
  intro ht
  rcases h with h | h
  · rw [h] at ht; cases ht
  · exact h.2

theorem State.NoToken.areaFree {s : State} (h : s.NoToken) (a : Arch) (n : Nat) : s.areaFree s.cur a n = true := by
  unfold State.areaFree
  rcases h with h | h
  · rw [h]
  · simp [h.1]

/-- A trap that lands on a user hart with one sheaf. -/
theorem State.landTrap_landed (s : State) (x : Hart) (sh : Sheaf) (t : Trap) (hx : s.hart s.cur = some x)
    (hu : x.arch.sup = false) (hs : x.sheaves = [sh]) (ho : t.opener = false) (hn : s.NoToken) :
    ∃ z, (s.landTrap s.cur t false).hart s.cur = some z ∧ x.Landed z sh t.cause t.kind t.tpc t.telem t.tlane t.tval := by
  obtain ⟨d, hd⟩ := s.traceSheaf_frame s.cur sh outTrap t.cause 0
  obtain ⟨ab, hab⟩ := (s.traceSheaf s.cur sh outTrap t.cause 0).leaveArbiter_eq s.cur (by rw [hd]; exact hn.held)
  unfold State.landTrap
  rw [hx]
  simp only [hu, hs, List.head?_cons, Option.map_some, Option.getD_some, List.foldl_cons, List.foldl_nil, ho, hn.areaFree, Bool.not_true,
    Bool.false_eq_true, if_false]
  rw [hab, hd]
  -- the hart without its sheaf, through the frame's writes
  have i : ((({ s with due := d, arb := ab } : State).updHart s.cur (fun y => y.restoreTo 0 sh.cp))).Idle s.cur (x.restoreTo 0 sh.cp) := by
    refine ⟨?_, rfl⟩
    rw [State.hart_updHart_self]
    show Option.map _ (s.hart s.cur) = _
    rw [hx]; rfl
  have j := (State.writeFrame_idle i sh.cp x.cnt sh.split x.squash x.cap sh.cp.pc).1
  rw [State.hart_updHart_self, j]
  refine ⟨_, rfl, ?_⟩
  obtain ⟨r0, r1, r2, r3, r4, r5, r6, r7, r8⟩ := Arch.record_reads sh.cp (t.tcause sh.bySplit false) t.tpc sh.stripPc sh.strip
    (BitVec.ofNat 64 sh.split) t.telem t.tlane t.tval
  have e := Arch.withRecord_eq sh.cp (t.tcause sh.bySplit false) t.tpc sh.stripPc sh.strip
    (BitVec.ofNat 64 sh.split) t.telem t.tlane t.tval
  have o := Arch.record_others sh.cp (t.tcause sh.bySplit false) t.tpc sh.stripPc sh.strip
    (BitVec.ofNat 64 sh.split) t.telem t.tlane t.tval
  generalize (sh.cp.withRecord (t.tcause sh.bySplit false) t.tpc sh.stripPc sh.strip (BitVec.ofNat 64 sh.split) t.telem t.tlane
    t.tval).setMode 0 1 = b at *
  have e2 := o cTVEC (by simp [recordCsr, cTVEC, cHSTATUS])
  refine ⟨by simp [Hart.enter, Hart.restoreTo, hs], ?_, ?_, r1, r2, r3, r4, r5, r6, r7, r8, o, fun n _ _ => rfl⟩
  · simp only [Hart.enter, Hart.restoreTo, e2]
    rw [e]
  · exact r0.trans (by simp [Trap.tcause])

/-- One ck passes when an instruction traps, and the landing adds none. -/
theorem State.now_foldl {α : Type} (f : State → α → State) (hf : ∀ s a, (f s a).now = s.now) (l : List α) (s : State) :
    (l.foldl f s).now = s.now := by
  induction l generalizing s with
  | nil => rfl
  | cons a l ih => rw [List.foldl_cons, ih, hf]

theorem State.updHart_now (s : State) (h : Nat) (f : Hart → Hart) : (s.updHart h f).now = s.now := by
  unfold State.updHart; split <;> rfl

theorem State.traceSheaf_now (s : State) (h : Nat) (sh : Sheaf) (o c st : Nat) : (s.traceSheaf h sh o c st).now = s.now := by
  obtain ⟨_, e⟩ := State.traceSheaf_frame s h sh o c st
  rw [e]

theorem State.squash_now (s : State) (h i o : Nat) : (s.squash h i o).now = s.now := by
  unfold State.squash
  split
  · rfl
  · split
    · rfl
    · rename_i y _ _ _ _
      have : ((y.sheaves.drop i).foldl (fun s y => s.traceSheaf h y o 0 0) s).now = s.now :=
        State.now_foldl _ (fun s y => State.traceSheaf_now s h y o 0 0) _ _
      dsimp only
      split
      · exact this
      · split_ifs <;> exact this

theorem fillRangeWith_now (sq : Squasher) (hsq : ∀ s h p, (sq s h p).now = s.now) (s : State) (g : Grant) (root : W64)
    (va len : Nat) (bytes : List (Nat × Byte)) : (fillRangeWith sq s g root va len bytes).now = s.now :=
  fillRangeWith_keeps (P := fun t => t.now = s.now) sq s g root va len bytes rfl (fun _ _ _ h => h) (fun _ _ h => h)
    (fun t h p ht => (hsq t h p).trans ht)

theorem State.squashHeld_now (sq : Squasher) (hsq : ∀ s h p, (sq s h p).now = s.now) (s : State) (h : Nat) (x : Hart) (sh : Sheaf)
    (k : Nat) : (State.squashHeld sq s h x sh k).now = s.now :=
  (fillRangeWith_now sq hsq _ _ _ _ _ _).trans ((State.updHart_now _ _ _).trans (State.traceSheaf_now s h sh _ _ _))

theorem State.squashIfN_now (n : Nat) (s : State) (h : Nat) (p : Sheaf → Bool) : (State.squashIfN n s h p).now = s.now := by
  induction n generalizing s h p with
  | zero => rfl
  | succ n ih =>
    unfold State.squashIfN
    split
    · rfl
    · split
      · rfl
      · split
        · rfl
        · split
          · split
            · exact (ih _ _ _).trans (State.squashHeld_now _ ih _ _ _ _ _)
            · exact State.squash_now ..
          · exact State.squash_now ..

theorem State.squashIf_now (s : State) (h : Nat) (p : Sheaf → Bool) : (s.squashIf h p).now = s.now := State.squashIfN_now _ s h p

theorem State.writeFrame_now (s : State) (a : Arch) (cnt : FMap W64) (sp sq cap : Nat) (r : W64) :
    (s.writeFrame a cnt sp sq cap r).now = s.now := fillRangeWith_now _ (fun s h p => State.squashIf_now s h p) ..

theorem State.leaveArbiter_now (s : State) (h : Nat) (hh : s.arb.token = some h → s.arb.heldWrites = []) : (s.leaveArbiter h).now = s.now := by
  obtain ⟨_, e⟩ := s.leaveArbiter_eq h hh
  rw [e]

theorem State.landTrap_now (s : State) (x : Hart) (sh : Sheaf) (t : Trap) (b : Bool) (hx : s.hart s.cur = some x) (hu : x.arch.sup = false)
    (hs : x.sheaves = [sh]) (hn : s.NoToken) : (s.landTrap s.cur t b).now = s.now := by
  obtain ⟨d, hd⟩ := s.traceSheaf_frame s.cur sh outTrap t.cause 0
  unfold State.landTrap
  rw [hx]
  simp only [hu, hs, hn.areaFree, List.foldl_cons, List.foldl_nil, Bool.not_true, Bool.false_eq_true, if_false]
  refine (State.updHart_now _ _ _).trans ((State.writeFrame_now _ _ _ _ _ _ _).trans ((State.updHart_now _ _ _).trans
    ((State.leaveArbiter_now _ _ ?_).trans (State.traceSheaf_now s s.cur sh _ _ _))))
  rw [hd]; exact hn.held

/-- A trap of the scalar side that can land does. -/
theorem State.raiseAt_landed (s : State) (x y : Hart) (sh : Sheaf) (cause kind : Nat) (tval : W64)
    (hy : s.CanLand y sh) (ha : x = { y with bq := x.bq }) :
    (s.raiseAt s.cur x cause kind tval).now = s.now + 1 ∧
    ∃ z, (s.raiseAt s.cur x cause kind tval).hart s.cur = some z ∧ y.Landed z sh cause kind y.arch.pc 0 0 tval := by
  obtain ⟨hsup, hah, hheld, hq, hsh, htrap, hwant, hpre, hno⟩ := hy
  let t := plainTrap cause kind y.arch.pc tval sh.seq
  have hx : x.sheaves = [sh] := by rw [ha]; exact hsh
  have hh : ({ x.holdTrap (plainTrap cause kind x.arch.pc tval x.seqNow) with blocked := true, onLoad := [] } : Hart) = { x with sheaves := [{ sh with trap := some t }], blocked := true, onLoad := [] } := by
    have hpc : x.arch = y.arch := by rw [ha]
    simp [Hart.holdTrap, Hart.cur, hx, htrap, Hart.setCur, Hart.seqNow, t, hpc]
  unfold State.raiseAt State.raise
  rw [hh]
  let w : Hart := ({ x with sheaves := [{ sh with trap := some t }], blocked := true, onLoad := [] } : Hart).tick 1
  have hw : ((s.setHart s.cur { x with sheaves := [{ sh with trap := some t }], blocked := true, onLoad := [] }).tick 1).hart s.cur = some w :=
    State.hart_setHart_tick _ _ _
  have hah' : w.ahead = false := by simp only [w, Hart.tick_ahead]; rw [ha]; exact hah
  have hq' : w.queue = [] := by simp only [w, Hart.tick_queue]; rw [ha]; exact hq
  have hsh' : w.sheaves = [{ sh with trap := some t }] := by simp only [w, Hart.tick_sheaves]
  have hheld' : w.held = none := by simp only [w, Hart.tick_held]; rw [ha]; exact hheld
  have hsup' : w.arch.sup = false := by simp only [w, Hart.tick_arch]; rw [ha]; exact hsup
  unfold State.settle
  rw [hw]
  simp only [hah', Bool.false_eq_true, if_false]
  unfold State.conclude
  rw [hw]
  have hpark : w.parkReady = false := by simp [Hart.parkReady, hsh', hwant]
  have hpre' : w.preempted = false := by simp only [w, Hart.preempted, Hart.tick_preempt, Hart.tick_landing]; rw [ha]; exact hpre
  have hland : w.landReady = some t := by simp [Hart.landReady, hheld', hsh', hq', hpre', hwant]
  simp only [hpark, hland, Bool.false_eq_true, if_false]
  unfold State.tryLand
  rw [hw]
  simp only [hland, hheld']
  have hno' : ((s.setHart s.cur { x with sheaves := [{ sh with trap := some t }], blocked := true, onLoad := [] }).tick 1).NoToken := hno
  obtain ⟨z, hz, hl⟩ := State.landTrap_landed _ w _ t hw hsup' hsh' rfl hno'
  refine ⟨State.landTrap_now _ w _ t false hw hsup' hsh' hno', z, hz, ?_⟩
  obtain ⟨l0, l1, l2, l3, l4, l5, l6, l7, l8, l9, l10, l11, l12⟩ := hl
  have hwy : w = { y with bq := w.bq, cnt := w.cnt, sheaves := w.sheaves, blocked := true, onLoad := [] } := by
    have := Hart.tick_eq ({ x with sheaves := [{ sh with trap := some t }], blocked := true, onLoad := [] } : Hart) 1
    simp only [w]
    rw [this, ha]
  refine ⟨?_, l1, l2, l3, l4, l5, l6, l7, l8, l9, l10, l11, fun n h1 h2 => (l12 n h1 h2).trans ?_⟩
  · rw [l0, hwy]
  · have : y.cnt = ({ x with sheaves := [{ sh with trap := some t }], blocked := true, onLoad := [] } : Hart).cnt := by rw [ha]
    rw [this]
    exact Hart.tick_cnt_other _ 1 n h1 h2 (.inl rfl)

/-- An instruction that raises its trap on every hart that can run it traps. -/
theorem traps_of_raiseAt {i : Instr} {rs : List Nat} {p : State → Hart → Prop} {cause kind : Nat} {tval : Arch → W64}
    (he : ∀ s y, s.CanRun rs y → p s y → (∃ sh, s.CanLand y sh) →
      exec i s = .next (s.raiseAt s.cur ({ y with bq := y.bqAfter rs } : Hart) cause kind (tval y.arch))) :
    Traps i rs p cause kind tval := by
  intro s y sh hr hl hp
  obtain ⟨hn, z, hz, h⟩ := State.raiseAt_landed s { y with bq := y.bqAfter rs } y sh cause kind (tval y.arch) hl rfl
  exact ⟨_, z, he s y hr hp ⟨sh, hl⟩, hn, hz, h⟩

end Sys2Proof.Machine
end

