-- ==== Sys2Proof/Laws/Memory.lean ====
section
/-! SUPPORT. Memory: what a read of a byte gives after each write, and that every operation on memory keeps its canonical form. -/

namespace Sys2Proof.Machine

/-! ### Reading after a write -/

/-- A byte after a write of bytes: the byte written there, or what was there. -/
theorem State.store_get (s : State) (h : Nat) (bs : List Byte) (a : Nat) : fget 0 (s.store h bs).mem a = s.withBytes h bs a := by
  show fget 0 (fsetMany 0 s.mem h bs) a = _
  rw [fget_fsetMany]; rfl

theorem State.commitBytes_get (s : State) (h : Nat) (bs : List Byte) (a : Nat) :
    fget 0 (s.commitBytes h bs).mem a = s.withBytes h bs a := State.store_get s h bs a

/-- A write reads back. -/
theorem State.withBytes_self (s : State) (h : Nat) (bs : List Byte) (i : Nat) (hi : i < bs.length) :
    s.withBytes h bs (h + i) = bs.getD i 0 := by
  simp [State.withBytes, hi]

/-- A write leaves every other place alone. -/
theorem State.withBytes_other (s : State) (h : Nat) (bs : List Byte) (a : Nat) (ha : a < h ∨ h + bs.length ≤ a) :
    s.withBytes h bs a = fget 0 s.mem a := by
  unfold State.withBytes
  rw [if_neg (by omega)]

/-! ### The canonical form -/

theorem State.reset_memOk : State.reset.MemOk := rfl

/-- Memory in canonical form that reads the same at every address is the same. -/
theorem fwf_ext {β : Type} [DecidableEq β] (d : β) (m n : FMap β) (hm : fwf d m = true) (hn : fwf d n = true)
    (h : ∀ a, fget d m a = fget d n a) : m = n := by
  -- below its first key a sorted store lists nothing
  have low : ∀ (m : FMap β) (lo k : Nat), fsorted lo m = true → k < lo → ffind m k = none := by
    intro m
    induction m with
    | nil => intros; rfl
    | cons e m ih =>
      intro lo k hs hk
      simp only [fsorted, Bool.and_eq_true, decide_eq_true_eq] at hs
      unfold ffind
      rw [if_neg (by omega)]
      exact ih _ _ hs.2 (by omega)
  have key : ∀ (m n : FMap β) (lo hi : Nat), fsorted lo m = true → fsorted hi n = true → (∀ e ∈ m, e.2 ≠ d) → (∀ e ∈ n, e.2 ≠ d) →
      (∀ a, fget d m a = fget d n a) → m = n := by
    intro m
    induction m with
    | nil =>
      intro n lo hi _ _ _ hd h
      cases n with
      | nil => rfl
      | cons e n =>
        have := h e.1
        simp [fget, ffind] at this
        exact absurd this.symm (hd e List.mem_cons_self)
    | cons e m ih =>
      intro n lo hi hs ht hd hc h
      cases n with
      | nil =>
        have := h e.1
        simp [fget, ffind] at this
        exact absurd this (hd e List.mem_cons_self)
      | cons f n =>
        simp only [fsorted, Bool.and_eq_true, decide_eq_true_eq] at hs ht
        have he : e.1 = f.1 := by
          by_contra hne
          rcases Nat.lt_or_gt_of_ne hne with hlt | hlt
          · have := h e.1
            rw [fget, fget, ffind, if_pos rfl, ffind, if_neg hne, low n (f.1 + 1) e.1 ht.2 (by omega)] at this
            exact hd e List.mem_cons_self this
          · have := h f.1
            rw [fget, fget, ffind, if_neg (Ne.symm hne), ffind, if_pos rfl, low m (e.1 + 1) f.1 hs.2 (by omega)] at this
            exact hc f List.mem_cons_self this.symm
        have hv : e.2 = f.2 := by
          have := h e.1
          rwa [fget, fget, ffind, if_pos rfl, ffind, if_pos he] at this
        have : m = n := by
          refine ih n _ _ hs.2 ht.2 (fun x hx => hd x (List.mem_cons_of_mem _ hx)) (fun x hx => hc x (List.mem_cons_of_mem _ hx)) fun a => ?_
          by_cases ha : a = e.1
          · rw [fget, fget, low m _ a hs.2 (by omega), low n _ a ht.2 (by omega)]
          · have := h a
            rwa [fget, fget, ffind, if_neg ha, ffind, if_neg (by omega)] at this
        rw [this, Prod.ext he hv]
  simp only [fwf, Bool.and_eq_true, List.all_eq_true, Bool.not_eq_true', decide_eq_false_iff_not] at hm hn
  exact key m n 0 0 hm.1 hn.1 hm.2 hn.2 h

theorem State.store_memOk (s : State) (a : Nat) (bs : List Byte) (h : s.MemOk) : (s.store a bs).MemOk := fwf_fsetMany 0 _ a bs h

theorem State.clear_memOk (s : State) (lo len : Nat) (h : s.MemOk) : Memory.wf (fclear s.mem lo len) = true := fwf_fclear 0 _ lo len h

theorem State.commitBytes_memOk (s : State) (a : Nat) (bs : List Byte) (h : s.MemOk) : (s.commitBytes a bs).MemOk := s.store_memOk a bs h

theorem State.applyRed_memOk (s : State) (r : Red) (h : s.MemOk) : (s.applyRed r).MemOk := s.store_memOk _ _ h

theorem State.applyReds_memOk (s : State) (rs : List Red) (h : s.MemOk) : (s.applyReds rs).MemOk :=
  foldl_keeps (P := State.MemOk) _ _ _ h fun t r _ ht => t.applyRed_memOk r ht

theorem State.commitWrites_memOk (s : State) (sh : Sheaf) (h : s.MemOk) : (s.commitWrites sh).MemOk :=
  fwf_foldl_fset 0 Prod.fst Prod.snd _ _ h

theorem fillRangeWith_memOk (sq : Squasher) (hsq : ∀ s h p, s.MemOk → (sq s h p).MemOk) (s : State) (g : Grant) (root : W64)
    (va len : Nat) (bytes : List (Nat × Byte)) (h : s.MemOk) : (fillRangeWith sq s g root va len bytes).MemOk := by
  unfold fillRangeWith
  refine foldl_keeps _ _ _ h fun t i _ ht => ?_
  dsimp only
  split
  · exact ht
  · split
    · exact ht
    · refine foldl_keeps _ _ _ ?_ fun u e _ hu => hsq u _ _ hu
      exact fwf_foldl_fset 0 _ Prod.snd _ _ (t.clear_memOk _ _ ht)

theorem State.updHart_mem (s : State) (h : Nat) (f : Hart → Hart) : (s.updHart h f).mem = s.mem := by
  unfold State.updHart; split <;> rfl

theorem State.traceSheaf_mem (s : State) (h : Nat) (sh : Sheaf) (o c st : Nat) : (s.traceSheaf h sh o c st).mem = s.mem := by
  obtain ⟨_, e⟩ := State.traceSheaf_frame s h sh o c st
  rw [e]

theorem State.MemOk.of_eq {s t : State} (h : s.MemOk) (e : t.mem = s.mem) : t.MemOk := by
  unfold State.MemOk; rw [e]; exact h

/-- A squash changes no memory. -/
theorem State.squash_mem (s : State) (h i o : Nat) : (s.squash h i o).mem = s.mem := by
  unfold State.squash
  split
  · rfl
  · split
    · rfl
    · rename_i y _ _ _ _
      have : ((y.sheaves.drop i).foldl (fun s y => s.traceSheaf h y o 0 0) s).mem = s.mem :=
        foldl_keeps (P := fun t : State => t.mem = s.mem) _ _ _ rfl fun t y _ ht => (State.traceSheaf_mem t h y o 0 0).trans ht
      dsimp only
      split
      · exact this
      · split_ifs <;> exact this

theorem State.squashHeld_memOk (sq : Squasher) (hsq : ∀ s h p, s.MemOk → (sq s h p).MemOk) (s : State) (h : Nat) (x : Hart) (sh : Sheaf)
    (k : Nat) (hs : s.MemOk) : (State.squashHeld sq s h x sh k).MemOk :=
  fillRangeWith_memOk sq hsq _ _ _ _ _ _ (hs.of_eq ((State.updHart_mem _ _ _).trans (State.traceSheaf_mem s h sh _ _ _)))

theorem State.squashIfN_memOk (n : Nat) (s : State) (h : Nat) (p : Sheaf → Bool) (hs : s.MemOk) : (State.squashIfN n s h p).MemOk := by
  induction n generalizing s h p with
  | zero => exact hs
  | succ n ih =>
    unfold State.squashIfN
    split
    · exact hs
    · split
      · exact hs
      · split
        · exact hs
        · split
          · split
            · exact ih _ _ _ (State.squashHeld_memOk _ ih _ _ _ _ _ hs)
            · exact hs.of_eq (State.squash_mem ..)
          · exact hs.of_eq (State.squash_mem ..)

theorem State.squashIf_memOk (s : State) (h : Nat) (p : Sheaf → Bool) (hs : s.MemOk) : (s.squashIf h p).MemOk := State.squashIfN_memOk _ s h p hs

theorem State.fillRange_memOk (s : State) (g : Grant) (root : W64) (va len : Nat) (bytes : List (Nat × Byte)) (h : s.MemOk) :
    (s.fillRange g root va len bytes).MemOk := fillRangeWith_memOk _ State.squashIf_memOk s g root va len bytes h

theorem State.writeFrame_memOk (s : State) (a : Arch) (cnt : FMap W64) (sp sq cap : Nat) (r : W64) (h : s.MemOk) :
    (s.writeFrame a cnt sp sq cap r).MemOk := fillRangeWith_memOk _ State.squashIf_memOk s _ _ _ _ _ h

theorem State.squashOthers_memOk (s : State) (h : Nat) (w d : RecSet) (hs : s.MemOk) : (s.squashOthers h w d).MemOk :=
  foldl_keeps (P := State.MemOk) _ _ _ hs fun t e _ ht => by
    split
    · exact ht
    · exact t.squashIf_memOk _ _ ht

theorem State.squashGranule_memOk (s : State) (g : Nat) (hs : s.MemOk) : (s.squashGranule g).MemOk :=
  foldl_keeps (P := State.MemOk) _ _ _ hs fun t _ _ ht => t.squashIf_memOk _ _ ht

theorem State.squashRange_memOk (s : State) (pa size : Nat) (hs : s.MemOk) : (s.squashRange pa size).MemOk :=
  foldl_keeps (P := State.MemOk) _ _ _ hs fun t _ _ ht => t.squashIf_memOk _ _ ht

theorem State.agentWrite_memOk (s : State) (a : Nat) (bs : List Byte) (h : s.MemOk) : (s.agentWrite a bs).MemOk := by
  unfold State.agentWrite
  split
  · exact h
  · exact foldl_keeps _ _ _ (s.commitBytes_memOk a bs h) fun t g _ ht => t.squashGranule_memOk g ht

theorem State.agentReduce_memOk (s : State) (r : Red) (h : s.MemOk) : (s.agentReduce r).MemOk :=
  foldl_keeps (P := State.MemOk) _ _ _ (s.applyRed_memOk r h) fun t g _ ht => t.squashGranule_memOk g ht

theorem State.applyHeld_memOk (s : State) (h : s.MemOk) : s.applyHeld.MemOk :=
  foldl_keeps (P := State.MemOk) _ _ _ h fun t w _ ht => t.agentWrite_memOk w.1 w.2 ht

theorem State.leaveArbiter_memOk (s : State) (k : Nat) (h : s.MemOk) : (s.leaveArbiter k).MemOk := by
  unfold State.leaveArbiter
  split
  · exact State.applyHeld_memOk _ h
  · exact h

/-- Writing trace records to their buffers changes no memory. -/
theorem State.writeDue_mem (s : State) (p : TraceRec → Bool) : (s.writeDue p).mem = s.mem := by
  unfold State.writeDue
  split
  · rfl
  · refine foldl_keeps (P := fun t : State => t.mem = s.mem) _ _ _ rfl fun t r _ ht => ?_
    unfold State.writeRec
    dsimp only
    repeat' split
    all_goals first
      | exact ht
      | exact (State.updHart_mem _ _ _).trans ht

/-- A commit keeps the canonical form. -/
theorem State.commit_memOk (s : State) (k : Nat) (h : s.MemOk) : (s.commit k).MemOk := by
  unfold State.commit
  cases s.hart k with
  | none => exact h
  | some x =>
    dsimp only
    cases x.sheaves[x.front]? with
    | none => exact h
    | some sh =>
      have h1 : State.MemOk { s.commitWrites sh with stamp := s.stamp + 1 } := s.commitWrites_memOk sh h
      have h2 := (State.applyReds_memOk _ sh.reds h1).of_eq (State.sendPuts_mem _ k sh.grant.base sh.sends)
      have h3 := (h2.of_eq (State.traceSheaf_mem _ k sh (if sh.closed = some .split then outSplit else outCommit) 0 (s.stamp + 1))).of_eq
        (State.updHart_mem _ k (fun x => (x.issueCmds sh.cmds).afterCommit sh))
      have h4 := State.squashOthers_memOk _ k sh.wset sh.dset h3
      dsimp only
      generalize State.squashOthers _ k sh.wset sh.dset = u at h4 ⊢
      have h5 : (if x.front = 0 then u.leaveArbiter k else { u with arb := u.arb.dropSlices k }).MemOk := by
        split
        · exact u.leaveArbiter_memOk k h4
        · exact h4
      generalize (if x.front = 0 then u.leaveArbiter k else { u with arb := u.arb.dropSlices k }) = v at h5 ⊢
      repeat' split
      all_goals first
        | exact h5
        | exact h5.of_eq (State.squash_mem ..)

theorem clearScratch_memOk (s : State) (g : Grant) (h : s.MemOk) : (clearScratch s g).MemOk := by
  unfold clearScratch
  dsimp only
  split
  · exact s.clear_memOk _ _ h
  · exact foldl_keeps (P := State.MemOk) _ _ _ h fun t c _ ht => t.clear_memOk _ _ ht

theorem State.allocate_memOk (s : State) (pa : Nat) (p : Page) (h : s.MemOk) : (s.allocate pa p).MemOk :=
  (s.squashRange pa p.size).clear_memOk _ _ (s.squashRange_memOk pa p.size h)

theorem State.copyPage_memOk (s : State) (a b n : Nat) (h : s.MemOk) : (s.copyPage a b n).MemOk :=
  foldl_keeps (P := State.MemOk) _ _ _ h fun t i _ ht => by
    split
    · exact ht
    · exact t.agentWrite_memOk _ _ ht

theorem State.withDump_wf (s : State) (bs : List (Nat × Byte)) (n : Nat) (h : s.MemOk) : Memory.wf (s.withDump bs n) = true :=
  fwf_foldl_fset 0 (fun b : Nat × Byte => s.mg.pkg.dumpbase.toNat + b.1) Prod.snd _ _ (fwf_fclear 0 _ _ _ h)

theorem State.memOk_with (s : State) (m : FMap Byte) (g : Manage) (h : Memory.wf m = true) : State.MemOk { s with mem := m, mg := g } := h

theorem State.writeDump_memOk (s : State) (c : Nat) (h : s.MemOk) : (s.writeDump c).MemOk := by
  unfold State.writeDump
  exact iteInduction (motive := State.MemOk) (fun _ => h) (fun _ => s.memOk_with _ _ (s.withDump_wf _ _ h))

theorem State.powerOn_memOk (s : State) (h : s.MemOk) : s.powerOn.MemOk := h

theorem State.restoreHart_memOk (s : State) (h : Nat) (g : Grant) (hs : s.MemOk) : (s.restoreHart h g).MemOk := by
  unfold State.restoreHart
  split
  · exact hs
  · exact fwf_foldl_fset 0 _ Prod.snd _ _ hs

end Sys2Proof.Machine
end

