-- ==== Sys2Proof/Laws/Vector.lean ====
section
/-! SUPPORT. What an instruction of the VIQ or MQ comes to on a hart whose queues are empty: it is placed, runs, and completes. -/

namespace Sys2Proof.Machine

/-! ### What only notes -/

/-- From `s` to `t` only free choices and the trace records to be written have moved. -/
def State.Notes (s t : State) : Prop := t = { s with free := t.free, due := t.due }

theorem State.Notes.refl (s : State) : s.Notes s := rfl

theorem State.Notes.trans {s t u : State} (h : s.Notes t) (h' : t.Notes u) : s.Notes u := by
  unfold State.Notes at *; rw [h', h]

theorem State.Notes.traceAt (s : State) (cl : Nat) (o : Option Nat) (ck head : Nat) (rest : List W64) : s.Notes (s.traceAt cl o ck head rest) := by
  obtain ⟨d, e⟩ := State.traceAt_frame s cl o ck head rest
  rw [e]; rfl

theorem State.Notes.foldl {α : Type} (f : State → α → State) (hf : ∀ (s : State) (a : α), s.Notes (f s a)) (l : List α) (s : State) :
    s.Notes (l.foldl f s) := by
  induction l generalizing s with
  | nil => exact .refl s
  | cons a l ih => exact (hf s a).trans (ih _)

theorem State.Notes.free (s : State) (n : Nat) : s.Notes { s with free := n } := rfl

theorem State.Notes.runPipe (s : State) (h : Nat) (e : QEntry) (sq : Nat) (still : Bool) : s.Notes (s.runPipe h e sq still) := by
  have rec_ (s : State) (ck hd : Nat) : s.Notes (e.grant.clusterList.foldl (fun s c => s.traceAt c (some h) ck hd []) s) :=
    .foldl _ (fun s c => .traceAt s c _ _ _ _) _ _
  unfold State.runPipe
  dsimp only
  split
  · exact .refl s
  · exact (State.Notes.free s _).trans ((rec_ _ _ _).trans (rec_ _ _ _))

theorem State.Notes.traceMark (s : State) (h : Nat) (e : QEntry) (sh : Sheaf) (v : W64) : s.Notes (s.traceMark h e sh v) := by
  unfold State.traceMark
  repeat' split
  · exact .refl s
  · exact .traceAt s _ _ _ _ _
  · exact .refl s

/-! ### Placing and completing -/

/-- The sheaf while its instruction runs. -/
def Sheaf.placed (sh : Sheaf) (r : FMap Nat) : Sheaf := { sh with seq := sh.seq + 1, resv := addResv sh.resv r }

/-- The entry of a placed instruction. -/
def Hart.entryOf (y : Hart) (sh : Sheaf) (k : Issue) (r : FMap Nat) (op : VOp) : QEntry :=
  { y.entry sh with unit := k.unit, op := op, word := k.word, resv := addResv sh.resv r, bq := k.bq }

/-- The BQ entry of an instruction. -/
def bqOf (d : Option Nat) (here : Bool) : List BqEntry := match d with | some r => [{ d := r, here := here }] | none => []

/-- The hart with its instruction placed. -/
def Hart.placed (y : Hart) (sh : Sheaf) (k : Issue) (r : FMap Nat) (op : VOp) : Hart :=
  { y with arch := y.arch.next, sheaves := [sh.placed r], queue := [y.entryOf sh k r op], bq := y.bqAfter k.regs ++ bqOf k.bq false,
           blocked := false, noProg := 0 }

/-- The state in which the instruction runs. -/
def State.withPlaced (s : State) (y : Hart) (sh : Sheaf) (k : Issue) (r : FMap Nat) (op : VOp) : State :=
  s.setHart s.cur (y.placed sh k r op)

theorem consume_length (r : Nat) (q : List BqEntry) : (consume r q).length ≤ q.length := by
  have go (q : List BqEntry) : (consume.go r q).length ≤ q.length := by
    induction q with
    | nil => simp [consume.go]
    | cons b bs ih => unfold consume.go; split_ifs <;> simp <;> omega
  unfold consume; split <;> simp [go]

theorem mem_consume {r : Nat} {q : List BqEntry} {b : BqEntry} (h : b ∈ consume r q) : b ∈ q := by
  have go (q : List BqEntry) : b ∈ consume.go r q → b ∈ q := by
    induction q with
    | nil => simp [consume.go]
    | cons c bs ih =>
      unfold consume.go
      split_ifs
      · exact fun h => List.mem_cons_of_mem _ (ih h)
      · exact fun h => List.mem_cons_of_mem _ h
      · intro h
        rcases List.mem_cons.1 h with h | h
        · exact h ▸ List.mem_cons_self
        · exact List.mem_cons_of_mem _ (ih h)
  unfold consume at h; split at h
  · exact go q h
  · exact h

theorem Hart.mem_bqAfter {y : Hart} {rs : List Nat} {b : BqEntry} (h : b ∈ y.bqAfter rs) : b ∈ y.bq := by
  unfold Hart.bqAfter at h
  revert h
  generalize y.bq = q
  induction rs generalizing q with
  | nil => exact id
  | cons r rs ih => exact fun h => mem_consume (ih (consume r q) h)

/-- The instruction is placed, and the ck ends. -/
theorem issueV_placed {s : State} {y : Hart} {sh : Sheaf} {k : Issue} {resv : Hart → FMap Nat} {op : Arch → VOp}
    (hv : s.VReady k.regs y sh) (hfit : resvFits [sh] (resv { y with bq := y.bqAfter k.regs }) = true) :
    issueV s k resv op = .next ((s.withPlaced y sh k (resv { y with bq := y.bqAfter k.regs }) (op y.arch)).issue s.cur) := by
  obtain ⟨hr, hu, ha, hh, hq, hs, hc, ht, hw, hb, -⟩ := hv
  have hl : ¬ 16 ≤ (y.bqAfter k.regs).length := by omega
  have hsz : ¬ k.unit.size ≤ 0 := by cases k.unit <;> simp [QUnit.size]
  rw [issueV, withHart_canRun hr]
  dsimp only
  generalize resv { y with bq := y.bqAfter k.regs } = r at hfit ⊢
  simp only [hu, Bool.false_and, Bool.false_eq_true, if_false, Hart.taken, hq, List.filter_nil, List.length_nil, hsz, hl,
    decide_false, Bool.and_false, Bool.or_self, hs, hfit, Bool.not_true]
  congr 3
  cases hkb : k.bq with
  | none => simp [Hart.push, Hart.entryFor, Hart.target, hh, Hart.placed, Hart.withArch, Hart.entryOf, Hart.entry, Sheaf.placed, bqOf, hkb]
  | some r => simp [Hart.push, Hart.entryFor, Hart.target, hh, Hart.placed, Hart.withArch, Hart.entryOf, Hart.entry, Sheaf.placed, bqOf, hkb]

theorem mark_unique (r : Nat) (q : List BqEntry) (h : ∀ b ∈ q, ¬ (b.d = r ∧ b.here = false)) :
    Hart.deliver.mark r (q ++ [{ d := r, here := false }]) = q ++ [{ d := r, here := true }] := by
  induction q with
  | nil => simp [Hart.deliver.mark]
  | cons b bs ih =>
    have h1 := h b List.mem_cons_self
    have : ¬ (b.d = r ∧ (!b.here) = true) := by simpa using h1
    simp only [List.cons_append, Hart.deliver.mark, this, if_false, List.cons.injEq, true_and]
    exact ih fun c hc => h c (List.mem_cons_of_mem _ hc)

/-- Where no other hart is before it at the sequencer, a hart's own instruction issues first. -/
theorem State.issuesFirst_self (s : State) (x : Hart) (e : QEntry)
    (h : x.arch.grant.clusters ≠ 0 ∨ ∀ e ∈ s.harts, e.1 ≠ s.cur → e.2.arch.grant.base = x.arch.grant.base → e.2.queue = []) :
    s.issuesFirst s.cur x e = s.cur := by
  unfold State.issuesFirst
  split
  · rfl
  · rename_i hg
    rcases h with h | h
    · exact absurd h hg
    · have : s.rivals s.cur x e = [] := by
        unfold State.rivals
        rw [List.filter_eq_nil_iff]
        intro r hr
        by_cases h1 : r.1 = s.cur
        · simp [h1]
        · by_cases h2 : r.2.arch.grant.base = x.arch.grant.base
          · simp [Hart.claims, h r hr h1 h2]
          · simp [h2]
      rw [this]
      rfl

/-- A queued instruction that runs to its end, with flags that FCSR does not enable and no HOLD hit, and that waits for no data. -/
theorem issueV_runs {s : State} {y : Hart} {sh : Sheaf} {k : Issue} {resv : Hart → FMap Nat} {op : Arch → VOp} {d : Done}
    (hv : s.VReady k.regs y sh) (hop : (op y.arch).isStrip = false) (hfit : resvFits [sh] (resv { y with bq := y.bqAfter k.regs }) = true)
    (hrun : runVOp (s.withPlaced y sh k (resv { y with bq := y.bqAfter k.regs }) (op y.arch)) y.gang (y.entryOf sh k (resv { y with bq := y.bqAfter k.regs }) (op y.arch))
      y.arch.next { sh.placed (resv { y with bq := y.bqAfter k.regs }) with asks := [] } sh.byStrip = .done d)
    (htime : s.ms.timed = false ∨ d.sheaf.asks = [])
    (hfl : d.acc.fl &&& (y.entry sh).fen = 0) (hhold : d.hold = none) (hwant : d.sheaf.want = none) (htrap : d.sheaf.trap = none)
    (hcl : d.sheaf.closed = none) (hbq : ∀ r, k.bq = some r → r ∈ k.regs) :
    ∃ t z, issueV s k resv op = .next t ∧ s.VAlone { t with mskcnt := s.mskcnt } ∧ t.hart s.cur = some z ∧
      t.mskcnt = (match d.cls with
        | some c => fset 0 s.mskcnt (y.arch.grant.base * 3 + c) (fget 0 s.mskcnt (y.arch.grant.base * 3 + c) + 1)
        | none => s.mskcnt) ∧
      y.VDone z s.now k.regs d.sheaf (y.entryOf sh k (resv { y with bq := y.bqAfter k.regs }) (op y.arch)).charge (bqOf k.bq d.acc.bq.isSome) ∧
      z.arch = (match k.bq, d.acc.bq with
        | some r, some v => ((d.acc.arch.orFlags d.acc.fl).wcsr cSRSEED d.acc.seed).wx r v
        | _, _ => (d.acc.arch.orFlags d.acc.fl).wcsr cSRSEED d.acc.seed) := by
  obtain ⟨hr, hu, ha, hh, hq, hs, hc, ht, hw, hb, hia, hdis⟩ := id hv
  rw [issueV_placed hv hfit]
  generalize resv { y with bq := y.bqAfter k.regs } = r at hfit hrun ⊢
  generalize hop' : op y.arch = o at hop hrun ⊢
  let p := y.placed sh k r o
  let e := y.entryOf sh k r o
  have hp : (s.withPlaced y sh k r o).hart s.cur = some p := State.hart_setHart_self _ _ _
  -- the instruction runs
  let cnt : FMap W64 := match d.cls with
    | some c => fset 0 s.mskcnt (y.arch.grant.base * 3 + c) (fget 0 s.mskcnt (y.arch.grant.base * 3 + c) + 1)
    | none => s.mskcnt
  obtain ⟨v, w, hu1, hu2, hw1⟩ : ∃ v w : State, (s.withPlaced y sh k r o).completeHead s.cur =
      w.updHart s.cur (fun x => x.finish s.now 0 e d) ∧ (s.withPlaced y sh k r o).Notes v ∧ w = { v with mskcnt := cnt } := by
    have hpq : p.queue = [e] := rfl
    have hsh : p.sheaves = [sh.placed r] := rfl
    have hnow : ¬ (p.issueAt = (s.withPlaced y sh k r o).now + 1) := hia
    have hg : ({ sh.placed r with asks := [] } : Sheaf).stops e = false := by simp [Sheaf.placed, Sheaf.stops, ht, hw]
    have hy : e.young = false := rfl
    have hst : e.op.isStrip = false := hop
    have hfirst : (s.withPlaced y sh k r o).issuesFirst s.cur p e = s.cur := by
      refine State.issuesFirst_self (s.withPlaced y sh k r o) p e (hdis.imp id fun hd f hf h1 h2 => ?_)
      rcases mem_fins (show f ∈ fins s.harts s.cur (y.placed sh k r o) from hf) with hgs | hgs
      · rw [hgs] at h1; exact absurd rfl h1
      · exact hd f hgs h1 h2
    unfold State.completeHead
    rw [hp]
    dsimp only
    rw [hpq]
    dsimp only
    rw [hfirst]
    unfold State.runHead
    rw [hp]
    dsimp only
    rw [hpq]
    simp only [hy, Bool.false_eq_true, if_false, hsh, List.getElem?_cons_zero, hg, hst, Bool.not_true, hp, hnow, decide_false, Bool.or_self]
    have hb' : (({ sh.placed r with asks := [] } : Sheaf).byStrip && !e.sup) = sh.byStrip := by simp [Sheaf.placed, e, Hart.entryOf, Hart.entry]
    rw [show p.arch = y.arch.next from rfl, show p.gang = y.gang from rfl, hb', hrun]
    have hf' : ¬ d.acc.fl &&& e.fen ≠ 0 := not_not.2 hfl
    have ha' : ((s.withPlaced y sh k r o).ms.timed && !(Ran.done d).asks.isEmpty && decide (e.out ≠ some [])) = false := by
      have ht' : (s.withPlaced y sh k r o).ms.timed = s.ms.timed := rfl
      rcases htime with h | h
      · rw [ht', h]; rfl
      · simp [Ran.asks, h]
    rw [ha']
    simp only [hf', if_false, Bool.false_eq_true]
    have h0 := (State.Notes.free (s.withPlaced y sh k r o) d.free).trans (.runPipe _ s.cur e p.issued false)
    have fin : ∀ w : State, (s.withPlaced y sh k r o).Notes w → ∃ v t : State,
        ({ w with mskcnt := match d.cls with
          | some c => fset 0 w.mskcnt (e.grant.base * 3 + c) (fget 0 w.mskcnt (e.grant.base * 3 + c) + 1)
          | none => w.mskcnt } : State).updHart s.cur (fun x => x.finish w.now 0 e d) = t.updHart s.cur (fun x => x.finish s.now 0 e d) ∧
        (s.withPlaced y sh k r o).Notes v ∧ t = { v with mskcnt := cnt } := by
      intro w hw
      have h1 : w.mskcnt = s.mskcnt := by rw [hw]; rfl
      have h2 : w.now = s.now := by rw [hw]; rfl
      refine ⟨w, { w with mskcnt := cnt }, ?_, hw, rfl⟩
      rw [h1, h2]; rfl
    split
    · exact fin _ (h0.trans (.traceMark _ _ _ _ _))
    · exact fin _ h0
  have hx : w.hart s.cur = some p := by
    have : w.harts = (s.withPlaced y sh k r o).harts := by rw [hw1, hu2]
    show ffind w.harts s.cur = some p
    rw [this]; exact hp
  let z0 := p.finish s.now 0 e d
  have hz0 : (w.updHart s.cur (fun x => x.finish s.now 0 e d)).hart s.cur = some z0 := by rw [State.hart_updHart_self, hx]; rfl
  -- what the hart is
  have hzz : z0 = { y with
      arch := z0.arch, cnt := y.cnt, sheaves := [{ d.sheaf with asks := [] }], bq := y.bqAfter k.regs ++ bqOf k.bq d.acc.bq.isSome, issued := y.issued + 1,
      issueAt := s.now + 1, dc := y.dc - (e.charge : Int), blocked := false, noProg := 0 } ∧
      z0.arch = (match k.bq, d.acc.bq with
        | some r, some v => ((d.acc.arch.orFlags d.acc.fl).wcsr cSRSEED d.acc.seed).wx r v
        | _, _ => (d.acc.arch.orFlags d.acc.fl).wcsr cSRSEED d.acc.seed) := by
    have hst : e.op.isStrip = false := hop
    have hnb : ∀ r, k.bq = some r → ∀ b ∈ y.bqAfter k.regs, ¬ (b.d = r ∧ b.here = false) := by
      intro r hk b hb' hbb
      obtain ⟨_, _, _, hno⟩ := hr
      have := hno r (hbq r hk)
      rw [Hart.waitsOn, Bool.or_eq_false_iff, List.any_eq_false] at this
      exact this.2 b (Hart.mem_bqAfter hb') (by simp [hbb.1, hbb.2])
    have hps : p.sheaves = [sh.placed r] := rfl
    have hpq : p.queue = [e] := rfl
    have hpb : p.bq = y.bqAfter k.regs ++ bqOf k.bq false := rfl
    have heb : e.bq = k.bq := rfl
    simp only [z0]
    unfold Hart.finish
    simp only [hps, hpq, hpb, heb, hst, hwant, hhold, Bool.false_eq_true, if_false, List.set_cons_zero]
    cases hkb : k.bq with
    | none => exact ⟨by simp [bqOf, p, Hart.placed, hq, e], rfl⟩
    | some r' =>
      cases hv : d.acc.bq with
      | none => exact ⟨by simp [bqOf, p, Hart.placed, hq, e], rfl⟩
      | some v =>
        refine ⟨?_, rfl⟩
        unfold Hart.deliver
        simp only [bqOf, mark_unique r' _ (hnb r' hkb)]
        simp [p, Hart.placed, hq, e]
  generalize hu : w.updHart s.cur (fun x => x.finish s.now 0 e d) = u at hu1 hz0
  clear_value z0
  let z := z0.tick 1
  have hza : z = { y with
      arch := z0.arch, cnt := z.cnt, sheaves := [{ d.sheaf with asks := [] }], bq := y.bqAfter k.regs ++ bqOf k.bq d.acc.bq.isSome,
      issued := y.issued + 1, issueAt := s.now + 1, dc := y.dc - (e.charge : Int), blocked := false, noProg := 0 } :=
    (Hart.tick_eq z0 1).trans (congrArg (fun q : Hart => { q with cnt := (z0.tick 1).cnt }) hzz.1)
  have hz : (u.tick 1).hart s.cur = some z := by rw [State.hart_tick, hz0]; rfl
  have hsettle : (u.tick 1).settle s.cur = u.tick 1 := by
    have hs1 : z.sheaves = [{ d.sheaf with asks := [] }] := by rw [hza]
    have hh1 : z.held = none := by rw [hza]; exact hh
    have h0 : z.ahead = false := by rw [hza]; exact ha
    have h1 : z.parkReady = false := by simp [Hart.parkReady, hs1, hwant]
    have h2 : z.landReady = none := by simp [Hart.landReady, hh1, hs1, htrap]
    have h3 : z.commitReady = false := by
      unfold Hart.commitReady Hart.front
      rw [hs1]; cases hd : d.sheaf.held <;> simp [hd, hcl]
    have h4 : (u.tick 1).tryCommit s.cur = u.tick 1 := by
      unfold State.tryCommit
      rw [hz]
      dsimp only
      split
      · rfl
      · simp [h3]
    unfold State.settle
    rw [hz]
    simp only [h0, Bool.false_eq_true, if_false]
    unfold State.conclude
    rw [hz]
    simp only [h1, h2, h4, Bool.false_eq_true, if_false]
  have hset : (s.withPlaced y sh k r o).issue s.cur = u.tick 1 := by
    unfold State.issue
    rw [hp]
    simp only [show p.ahead = false from ha, Bool.false_eq_true, if_false]
    rw [hu1, hsettle]
  have hall : u = { s with harts := u.harts, free := v.free, due := v.due, mskcnt := cnt } := by
    rw [← hu]; unfold State.updHart
    rw [hx, hw1, hu2]; rfl
  refine ⟨_, z, by rw [hset], ⟨?_, ?_, fun h hne => ?_⟩, hz, ?_, ⟨?_, ?_⟩, ?_⟩
  · show ({ u.tick 1 with mskcnt := s.mskcnt } : State) = _
    unfold State.tick
    rw [hall]
  · refine (State.SetsOff.refl s).of_eq ?_
    show u.ms = s.ms
    rw [hall]
  · show (u.tick 1).hart h = _
    rw [State.hart_tick, ← hu, State.hart_updHart_ne _ _ hne]
    have : w.hart h = s.hart h := by
      have e1 : w.harts = (s.withPlaced y sh k r o).harts := by rw [hw1, hu2]
      show ffind w.harts h = _
      rw [e1]; exact State.hart_setHart_ne _ _ hne
    rw [this]
  · show u.mskcnt = _
    rw [hall]
  · exact hza.trans (by rw [show z0.arch = z.arch from (Hart.tick_arch z0 1).symm])
  · intro n h1 h2
    have h3 : z0.blocked = false := by rw [hzz.1]
    have h4 : z0.cnt = y.cnt := by rw [hzz.1]
    rw [← h4]
    exact Hart.tick_cnt_other z0 1 n h1 h2 (.inl (by simp [h3]))
  · exact (Hart.tick_arch z0 1).trans hzz.2

end Sys2Proof.Machine
end

