-- ==== Sys2Proof/Tests/Slice0.lean ====
section
/-! SUPPORT. Tests: words written out from the encoding tables, terms that the checks refuse, one step of instructions on small
states, and for each statement a state and operands that meet its hypotheses. -/

set_option Elab.async false

namespace Sys2Proof.Tests

open Sys2Proof Sys2Proof.Machine

/-! ### Words -/

/-- A decoder reads the instruction `i` from the word `w`, and the encoder gives the word back. -/
def reads (dec : BitVec 32 → Except Reject Instr) (w : BitVec 32) (i : Instr) : Bool :=
  (match dec w with | .ok j => decide (j = i) | .error _ => false) && decide (encode i = some w) && i.wf

theorem test_words_system : [
    (0b00000000000000000000000000000001#32, Instr.sysEcall),
    (0b00000000000000000000000000000010#32, Instr.sysEbreak),
    (0b00000000000000000000000000000011#32, Instr.sysEret),
    (0b00000000000000000000000000000100#32, Instr.sysWfi),
    (0b00000000000_00011_0000000000000101#32, Instr.sysRefsync 3),
    (0b010100_00011_000000000_010000100110#32, Instr.csrRd 3 1062),
    (0b010100_00011_10001_0001_010000100110#32, Instr.csrWr 3 17 1062),
    (0b010100_00011_10001_0010_010000100110#32, Instr.csrSet 3 17 1062),
    (0b010100_00011_10001_0011_010000100110#32, Instr.csrClr 3 17 1062),
    (0b11010100000_00011_00000_101_00000000#32, Instr.syncTlwait 3 5),
    (0b11010100001_00011_10001_00000000000#32, Instr.syncTlwaitIc 3 17),
    (0b110101_00011_0000000000_101_00000001#32, Instr.syncTlread 3 5),
    (0b110101_00011_00001_10001_00000000001#32, Instr.syncTlreadIc 3 17),
    (0b11010100000000000000000000000010#32, Instr.syncGbar),
    (0b1101010_1001_000000000000000000011#32, Instr.syncQdrain 9),
    (0b11010100000000000000000000000100#32, Instr.syncSheaf),
    (0b11010100000000000000000000000101#32, Instr.syncBtinv),
    (0b11011000000_00011_0000000000000000#32, Instr.dbgTrmark 3),
    (0b11011000000_00011_0000000000000001#32, Instr.dbgWprel 3)].all (fun p => reads decode p.1 p.2) = true := by decide +kernel

theorem test_words_alu : [
    (0b000001_00011_10001_10110_00000000000#32, Instr.aluAdd 3 17 22),
    (0b000001_00011_10001_10110_00000000001#32, Instr.aluSub 3 17 22),
    (0b000001_00011_10001_10110_00000000010#32, Instr.aluAnd 3 17 22),
    (0b000001_00011_10001_10110_00000000011#32, Instr.aluOr 3 17 22),
    (0b000001_00011_10001_10110_00000000100#32, Instr.aluXor 3 17 22),
    (0b000001_00011_10001_10110_00000000101#32, Instr.aluSll 3 17 22),
    (0b000001_00011_10001_10110_00000000110#32, Instr.aluSrl 3 17 22),
    (0b000001_00011_10001_10110_00000000111#32, Instr.aluSra 3 17 22),
    (0b000001_00011_10001_10110_00000001000#32, Instr.aluSlt 3 17 22),
    (0b000001_00011_10001_10110_00000001001#32, Instr.aluSltu 3 17 22),
    (0b000001_00011_10001_10110_00000001010#32, Instr.aluMin 3 17 22),
    (0b000001_00011_10001_10110_00000001011#32, Instr.aluMax 3 17 22),
    (0b000001_00011_10001_10110_00000001100#32, Instr.aluMinu 3 17 22),
    (0b000001_00011_10001_10110_00000001101#32, Instr.aluMaxu 3 17 22),
    (0b000001_00011_10001_0000000000001110#32, Instr.aluClz 3 17),
    (0b000001_00011_10001_0000000000001111#32, Instr.aluPopc 3 17)].all (fun p => reads decode p.1 p.2) = true := by decide +kernel

theorem test_words_muldiv : [
    (0b000010_00011_10001_10110_00000000000#32, Instr.muldivMul 3 17 22),
    (0b000010_00011_10001_10110_00000000001#32, Instr.muldivMulh 3 17 22),
    (0b000010_00011_10001_10110_00000000010#32, Instr.muldivMulhu 3 17 22),
    (0b000010_00011_10001_10110_00000000011#32, Instr.muldivDiv 3 17 22),
    (0b000010_00011_10001_10110_00000000100#32, Instr.muldivDivu 3 17 22),
    (0b000010_00011_10001_10110_00000000101#32, Instr.muldivRem 3 17 22),
    (0b000010_00011_10001_10110_00000000110#32, Instr.muldivRemu 3 17 22)].all (fun p => reads decode p.1 p.2) = true := by decide +kernel

theorem test_words_fps : [
    (0b000011_00011_10001_10110_000_1_0000000#32, Instr.fpsAdd 3 17 22 1),
    (0b000011_00011_10001_10110_000_1_0000001#32, Instr.fpsSub 3 17 22 1),
    (0b000011_00011_10001_10110_000_1_0000010#32, Instr.fpsMul 3 17 22 1),
    (0b000011_00011_10001_10110_000_1_0000011#32, Instr.fpsDiv 3 17 22 1),
    (0b000011_00011_10001_00000000_1_0000100#32, Instr.fpsSqrt 3 17 1),
    (0b000011_00011_10001_10110_000_1_0000101#32, Instr.fpsFma 3 17 22 1),
    (0b000011_00011_10001_10110_000_1_0000110#32, Instr.fpsMin 3 17 22 1),
    (0b000011_00011_10001_10110_000_1_0000111#32, Instr.fpsMax 3 17 22 1),
    (0b000011_00011_10001_00000000_1_0001000#32, Instr.fpsCvtOther 3 17 1),
    (0b000011_00011_10001_00000000_1_0011000#32, Instr.fpsCvtFromint 3 17 1),
    (0b000011_00011_10001_00000000_1_0101000#32, Instr.fpsCvtFromuint 3 17 1),
    (0b000011_00011_10001_00000000_1_0111000#32, Instr.fpsCvtToint 3 17 1),
    (0b000011_00011_10001_00000000_1_1001000#32, Instr.fpsCvtTouint 3 17 1),
    (0b000011_00011_10001_10110_000_1_0001001#32, Instr.fpsCmpEq 3 17 22 1),
    (0b000011_00011_10001_10110_000_1_0011001#32, Instr.fpsCmpLt 3 17 22 1),
    (0b000011_00011_10001_10110_000_1_0101001#32, Instr.fpsCmpLe 3 17 22 1),
    (0b000011_00011_10001_00000000_1_0001010#32, Instr.fpsClass 3 17 1),
    (0b000011_00011_10001_00000000_1_0001011#32, Instr.fpsMvCopy 3 17 1),
    (0b000011_00011_10001_00000000_1_0011011#32, Instr.fpsMvNeg 3 17 1),
    (0b000011_00011_10001_00000000_1_0101011#32, Instr.fpsMvAbs 3 17 1)].all (fun p => reads decode p.1 p.2) = true := by decide +kernel

theorem test_words_immediate : [
    (0b000100_00011_10001_1000000000000001#32, Instr.addi 3 17 32769),
    (0b000101_00011_10001_1000000000000001#32, Instr.andi 3 17 32769),
    (0b000110_00011_10001_1000000000000001#32, Instr.ori 3 17 32769),
    (0b000111_00011_10001_1000000000000001#32, Instr.xori 3 17 32769),
    (0b001000_00011_10001_1000000000000001#32, Instr.slti 3 17 32769),
    (0b001001_00011_10001_1000000000000001#32, Instr.sltiu 3 17 32769),
    (0b001010_00011_10001_0000000000_101001#32, Instr.shiSlli 3 17 41),
    (0b001010_00011_10001_0000000001_101001#32, Instr.shiSrli 3 17 41),
    (0b001010_00011_10001_0000000010_101001#32, Instr.shiSrai 3 17 41),
    (0b001011_00011_100000000000000000011#32, Instr.lui 3 1048579),
    (0b001100_00011_100000000000000000011#32, Instr.auipc 3 1048579)].all (fun p => reads decode p.1 p.2) = true := by decide +kernel

theorem test_words_scalar_memory : [
    (0b001101_00011_10001_000_1000000000010#32, Instr.ldsB 3 17 4098),
    (0b001101_00011_10001_001_1000000000010#32, Instr.ldsH 3 17 4098),
    (0b001101_00011_10001_010_1000000000010#32, Instr.ldsW 3 17 4098),
    (0b001101_00011_10001_011_1000000000010#32, Instr.ldsD 3 17 4098),
    (0b001101_00011_10001_100_1000000000010#32, Instr.ldsBu 3 17 4098),
    (0b001101_00011_10001_101_1000000000010#32, Instr.ldsHu 3 17 4098),
    (0b001101_00011_10001_110_1000000000010#32, Instr.ldsWu 3 17 4098),
    (0b001110_00011_10001_000_1000000000010#32, Instr.stsB 3 17 4098),
    (0b001110_00011_10001_001_1000000000010#32, Instr.stsH 3 17 4098),
    (0b001110_00011_10001_010_1000000000010#32, Instr.stsW 3 17 4098),
    (0b001110_00011_10001_011_1000000000010#32, Instr.stsD 3 17 4098),
    (0b01001100000000000000000000000000#32, Instr.fenceSv),
    (0b01001100000000000000000000000001#32, Instr.fenceVs),
    (0b01001100000000000000000000000010#32, Instr.fenceVv),
    (0b01001100000000000000000000000011#32, Instr.fenceAll)].all (fun p => reads decode p.1 p.2) = true := by decide +kernel

theorem test_words_branch : [
    (0b001111_00011_10001_000_1000000000010#32, Instr.brcEq 3 17 4098),
    (0b001111_00011_10001_001_1000000000010#32, Instr.brcNe 3 17 4098),
    (0b001111_00011_10001_010_1000000000010#32, Instr.brcLt 3 17 4098),
    (0b001111_00011_10001_011_1000000000010#32, Instr.brcGe 3 17 4098),
    (0b001111_00011_10001_100_1000000000010#32, Instr.brcLtu 3 17 4098),
    (0b001111_00011_10001_101_1000000000010#32, Instr.brcGeu 3 17 4098),
    (0b010000_00011_100000000000000000011#32, Instr.jal 3 1048579),
    (0b010001_00011_10001_1000000000000001#32, Instr.jalr 3 17 32769),
    (0b01001000000_00011_1000000000000001#32, Instr.mark 3 32769)].all (fun p => reads decode p.1 p.2) = true := by decide +kernel

theorem test_words_strip : [
    (0b100000_00011_10001_10110_00000000000#32, Instr.vcfgSetvl 3 17 22),
    (0b100000_00011_10001_10110_0_10_00000001#32, Instr.vcfgSetvlrun 3 17 22 2),
    (0b100001_00011_10001_00000_10000010011#32, Instr.setvli 3 17 1043)].all (fun p => reads decode p.1 p.2) = true := by decide +kernel

theorem test_words_vint : [
    (0b100010_00011_10001_10110_101_00000000#32, Instr.vintAdd 3 17 22 5),
    (0b100010_00011_10001_10110_101_00000001#32, Instr.vintSub 3 17 22 5),
    (0b100010_00011_10001_10110_101_00000011#32, Instr.vintMul 3 17 22 5),
    (0b100010_00011_10001_10110_101_00000100#32, Instr.vintMulh 3 17 22 5),
    (0b100010_00011_10001_10110_101_00000101#32, Instr.vintMulhu 3 17 22 5),
    (0b100010_00011_10001_10110_101_00000110#32, Instr.vintDiv 3 17 22 5),
    (0b100010_00011_10001_10110_101_00000111#32, Instr.vintDivu 3 17 22 5),
    (0b100010_00011_10001_10110_101_00001000#32, Instr.vintRem 3 17 22 5),
    (0b100010_00011_10001_10110_101_00001001#32, Instr.vintRemu 3 17 22 5),
    (0b100010_00011_10001_10110_101_00001010#32, Instr.vintAnd 3 17 22 5),
    (0b100010_00011_10001_10110_101_00001011#32, Instr.vintOr 3 17 22 5),
    (0b100010_00011_10001_10110_101_00001100#32, Instr.vintXor 3 17 22 5),
    (0b100010_00011_10001_10110_101_00001101#32, Instr.vintSll 3 17 22 5),
    (0b100010_00011_10001_10110_101_00001110#32, Instr.vintSrl 3 17 22 5),
    (0b100010_00011_10001_10110_101_00001111#32, Instr.vintSra 3 17 22 5),
    (0b100010_00011_10001_10110_101_00010000#32, Instr.vintMin 3 17 22 5),
    (0b100010_00011_10001_10110_101_00010001#32, Instr.vintMinu 3 17 22 5),
    (0b100010_00011_10001_10110_101_00010010#32, Instr.vintMax 3 17 22 5),
    (0b100010_00011_10001_10110_101_00010011#32, Instr.vintMaxu 3 17 22 5),
    (0b100010_00011_10001_10110_101_00010100#32, Instr.vintSadd 3 17 22 5),
    (0b100010_00011_10001_10110_101_00010101#32, Instr.vintSaddu 3 17 22 5),
    (0b100010_00011_10001_10110_101_00010110#32, Instr.vintSsub 3 17 22 5),
    (0b100010_00011_10001_10110_101_00010111#32, Instr.vintSsubu 3 17 22 5),
    (0b100010_00011_10001_10110_101_00011000#32, Instr.vintMacc 3 17 22 5),
    (0b100010_00011_10001_10110_101_00011001#32, Instr.vintMerge 3 17 22 5),
    (0b100010_00011_10001_00000_101_00011010#32, Instr.vintMv 3 17 5)].all (fun p => reads decode p.1 p.2) = true := by decide +kernel

theorem test_words_vintx : [
    (0b100011_00011_10001_10110_101_00000000#32, Instr.vintxAdd 3 17 22 5),
    (0b100011_00011_10001_10110_101_00000001#32, Instr.vintxSub 3 17 22 5),
    (0b100011_00011_10001_10110_101_00000010#32, Instr.vintxRsub 3 17 22 5),
    (0b100011_00011_10001_10110_101_00000011#32, Instr.vintxMul 3 17 22 5),
    (0b100011_00011_10001_10110_101_00000100#32, Instr.vintxMulh 3 17 22 5),
    (0b100011_00011_10001_10110_101_00000101#32, Instr.vintxMulhu 3 17 22 5),
    (0b100011_00011_10001_10110_101_00000110#32, Instr.vintxDiv 3 17 22 5),
    (0b100011_00011_10001_10110_101_00000111#32, Instr.vintxDivu 3 17 22 5),
    (0b100011_00011_10001_10110_101_00001000#32, Instr.vintxRem 3 17 22 5),
    (0b100011_00011_10001_10110_101_00001001#32, Instr.vintxRemu 3 17 22 5),
    (0b100011_00011_10001_10110_101_00001010#32, Instr.vintxAnd 3 17 22 5),
    (0b100011_00011_10001_10110_101_00001011#32, Instr.vintxOr 3 17 22 5),
    (0b100011_00011_10001_10110_101_00001100#32, Instr.vintxXor 3 17 22 5),
    (0b100011_00011_10001_10110_101_00001101#32, Instr.vintxSll 3 17 22 5),
    (0b100011_00011_10001_10110_101_00001110#32, Instr.vintxSrl 3 17 22 5),
    (0b100011_00011_10001_10110_101_00001111#32, Instr.vintxSra 3 17 22 5),
    (0b100011_00011_10001_10110_101_00010000#32, Instr.vintxMin 3 17 22 5),
    (0b100011_00011_10001_10110_101_00010001#32, Instr.vintxMinu 3 17 22 5),
    (0b100011_00011_10001_10110_101_00010010#32, Instr.vintxMax 3 17 22 5),
    (0b100011_00011_10001_10110_101_00010011#32, Instr.vintxMaxu 3 17 22 5),
    (0b100011_00011_10001_10110_101_00010100#32, Instr.vintxSadd 3 17 22 5),
    (0b100011_00011_10001_10110_101_00010101#32, Instr.vintxSaddu 3 17 22 5),
    (0b100011_00011_10001_10110_101_00010110#32, Instr.vintxSsub 3 17 22 5),
    (0b100011_00011_10001_10110_101_00010111#32, Instr.vintxSsubu 3 17 22 5),
    (0b100011_00011_10001_10110_101_00011000#32, Instr.vintxMacc 3 17 22 5),
    (0b100011_00011_10001_10110_101_00011001#32, Instr.vintxMerge 3 17 22 5),
    (0b100011_00011_00000_10001_101_00011010#32, Instr.vintxMv 3 17 5)].all (fun p => reads decode p.1 p.2) = true := by decide +kernel

theorem test_words_vinti : [
    (0b100100_00011_10001_10110_101_00000000#32, Instr.vintiAdd 3 17 22 5),
    (0b100100_00011_10001_10110_101_00000010#32, Instr.vintiRsub 3 17 22 5),
    (0b100100_00011_10001_10110_101_00001010#32, Instr.vintiAnd 3 17 22 5),
    (0b100100_00011_10001_10110_101_00001011#32, Instr.vintiOr 3 17 22 5),
    (0b100100_00011_10001_10110_101_00001100#32, Instr.vintiXor 3 17 22 5),
    (0b100100_00011_10001_10110_101_00001101#32, Instr.vintiSll 3 17 22 5),
    (0b100100_00011_10001_10110_101_00001110#32, Instr.vintiSrl 3 17 22 5),
    (0b100100_00011_10001_10110_101_00001111#32, Instr.vintiSra 3 17 22 5),
    (0b100100_00011_10001_10110_101_00010100#32, Instr.vintiSadd 3 17 22 5),
    (0b100100_00011_10001_10110_101_00010101#32, Instr.vintiSaddu 3 17 22 5),
    (0b100100_00011_10001_10110_101_00011001#32, Instr.vintiMerge 3 17 22 5),
    (0b100100_00011_00000_10001_101_00011010#32, Instr.vintiMv 3 17 5)].all (fun p => reads decode p.1 p.2) = true := by decide +kernel

theorem test_words_vfp : [
    (0b100101_00011_10001_10110_101_00000000#32, Instr.vfpAdd 3 17 22 5),
    (0b100101_00011_10001_10110_101_00000001#32, Instr.vfpSub 3 17 22 5),
    (0b100101_00011_10001_10110_101_00000010#32, Instr.vfpMul 3 17 22 5),
    (0b100101_00011_10001_10110_101_00000011#32, Instr.vfpDiv 3 17 22 5),
    (0b100101_00011_10001_00000_101_00000100#32, Instr.vfpSqrt 3 17 5),
    (0b100101_00011_10001_10110_101_00000101#32, Instr.vfpMin 3 17 22 5),
    (0b100101_00011_10001_10110_101_00000110#32, Instr.vfpMax 3 17 22 5),
    (0b100101_00011_10001_10110_101_00000111#32, Instr.vfpMacc 3 17 22 5),
    (0b100101_00011_10001_10110_101_00001000#32, Instr.vfpNmacc 3 17 22 5),
    (0b100101_00011_10001_00000_101_00001001#32, Instr.vfpExp2 3 17 5),
    (0b100101_00011_10001_10110_101_00001010#32, Instr.vfpSgnj 3 17 22 5),
    (0b100101_00011_10001_10110_101_01001010#32, Instr.vfpSgnjn 3 17 22 5),
    (0b100101_00011_10001_10110_101_10001010#32, Instr.vfpSgnjx 3 17 22 5),
    (0b100101_00011_10001_00000_101_00001011#32, Instr.vfpClass 3 17 5),
    (0b100101_00011_10001_00000_101_00001100#32, Instr.vfpMv 3 17 5)].all (fun p => reads decode p.1 p.2) = true := by decide +kernel

theorem test_words_vfpx : [
    (0b100110_00011_10001_10110_101_00000000#32, Instr.vfpxAdd 3 17 22 5),
    (0b100110_00011_10001_10110_101_00000001#32, Instr.vfpxSub 3 17 22 5),
    (0b100110_00011_10001_10110_101_00000010#32, Instr.vfpxMul 3 17 22 5),
    (0b100110_00011_10001_10110_101_00000011#32, Instr.vfpxDiv 3 17 22 5),
    (0b100110_00011_10001_10110_101_00000101#32, Instr.vfpxMin 3 17 22 5),
    (0b100110_00011_10001_10110_101_00000110#32, Instr.vfpxMax 3 17 22 5),
    (0b100110_00011_10001_10110_101_00000111#32, Instr.vfpxMacc 3 17 22 5),
    (0b100110_00011_10001_10110_101_00001000#32, Instr.vfpxNmacc 3 17 22 5),
    (0b100110_00011_10001_10110_101_00001010#32, Instr.vfpxSgnj 3 17 22 5),
    (0b100110_00011_10001_10110_101_01001010#32, Instr.vfpxSgnjn 3 17 22 5),
    (0b100110_00011_10001_10110_101_10001010#32, Instr.vfpxSgnjx 3 17 22 5),
    (0b100110_00011_00000_10001_101_00001100#32, Instr.vfpxMv 3 17 5)].all (fun p => reads decode p.1 p.2) = true := by decide +kernel

theorem test_words_vcvt : [
    (0b100111_00011_10001_00000_101_1_010_0000#32, Instr.vcvtFf 3 17 5 1 2),
    (0b100111_00011_10001_00000_101_1_010_0001#32, Instr.vcvtIf 3 17 5 1 2),
    (0b100111_00011_10001_00000_101_0_010_0010#32, Instr.vcvtFi 3 17 5 2),
    (0b100111_00011_10001_00000_101_0_010_0011#32, Instr.vcvtNarrow 3 17 5 2),
    (0b100111_00011_10001_00000_101_0_010_0100#32, Instr.vcvtWiden 3 17 5 2),
    (0b100111_00011_10001_00000_101_0_010_0101#32, Instr.vcvtDeq 3 17 5 2),
    (0b100111_00011_10001_00000_101_1_001_0110#32, Instr.vcvtQuant 3 17 5 1 1),
    (0b10011100_101_00011_00000_010_00000111#32, Instr.vcvtQmv 5 3 2),
    (0b100111_00011_00_101_00000_010_00001000#32, Instr.vcvtQrd 3 5 2),
    (0b100111_00011_10001_00000_101_0_010_1001#32, Instr.vcvtDs8e 3 17 5 2),
    (0b100111_00011_10001_00000_101_00001010#32, Instr.vcvtDs8d 3 17 5)].all (fun p => reads decode p.1 p.2) = true := by decide +kernel

theorem test_words_vred : [
    (0b101000_00011_10001_10110_101_1_0000000#32, Instr.vredSum 3 17 22 5 1),
    (0b101000_00011_10001_10110_101_1_0000001#32, Instr.vredMin 3 17 22 5 1),
    (0b101000_00011_10001_10110_101_1_0000010#32, Instr.vredMinu 3 17 22 5 1),
    (0b101000_00011_10001_10110_101_1_0000011#32, Instr.vredMax 3 17 22 5 1),
    (0b101000_00011_10001_10110_101_1_0000100#32, Instr.vredMaxu 3 17 22 5 1),
    (0b101000_00011_10001_10110_101_1_0000101#32, Instr.vredAnd 3 17 22 5 1),
    (0b101000_00011_10001_10110_101_1_0000110#32, Instr.vredOr 3 17 22 5 1),
    (0b101000_00011_10001_10110_101_1_0000111#32, Instr.vredXor 3 17 22 5 1),
    (0b101000_00011_10001_10110_101_1_0001000#32, Instr.vredFsumo 3 17 22 5 1),
    (0b101000_00011_10001_10110_101_1_0001001#32, Instr.vredFsumt 3 17 22 5 1),
    (0b101000_00011_10001_10110_101_1_0001010#32, Instr.vredFmin 3 17 22 5 1),
    (0b101000_00011_10001_10110_101_1_0001011#32, Instr.vredFmax 3 17 22 5 1)].all (fun p => reads decode p.1 p.2) = true := by decide +kernel

theorem test_words_vperm : [
    (0b101001_00011_10001_10110_101_00000000#32, Instr.vpermSlup 3 17 22 5),
    (0b101001_00011_10001_10110_101_00000001#32, Instr.vpermSldn 3 17 22 5),
    (0b101001_00011_10001_10110_101_00000010#32, Instr.vpermGather 3 17 22 5),
    (0b101001_00011_10001_00000_101_00000011#32, Instr.vpermCompress 3 17 5),
    (0b101001_00011_10001_00000_101_00000100#32, Instr.vpermExpand 3 17 5),
    (0b101001_00011_10001_10110_101_00000101#32, Instr.vpermXchg 3 17 22 5),
    (0b101001_00011_10001_10110_00000000110#32, Instr.vpermMvxs 3 17 22),
    (0b101001_00011_00000_10001_101_00000111#32, Instr.vpermMvsx 3 17 5),
    (0b101001_00011_10001_10110_101_00001000#32, Instr.vpermBcast 3 17 22 5)].all (fun p => reads decode p.1 p.2) = true := by decide +kernel

theorem test_words_vmask : [
    (0b10101000_101_00011_10001_010_1_0000000#32, Instr.vmaskEq 5 3 17 2 1),
    (0b10101000_101_00011_10001_010_1_0000001#32, Instr.vmaskNe 5 3 17 2 1),
    (0b10101000_101_00011_10001_010_1_0000010#32, Instr.vmaskLt 5 3 17 2 1),
    (0b10101000_101_00011_10001_010_1_0000011#32, Instr.vmaskLtu 5 3 17 2 1),
    (0b10101000_101_00011_10001_010_1_0000100#32, Instr.vmaskLe 5 3 17 2 1),
    (0b10101000_101_00011_10001_010_1_0000101#32, Instr.vmaskLeu 5 3 17 2 1),
    (0b10101000_101_00011_10001_010_1_0000110#32, Instr.vmaskGt 5 3 17 2 1),
    (0b10101000_101_00011_10001_010_1_0000111#32, Instr.vmaskFeq 5 3 17 2 1),
    (0b10101000_101_00011_10001_010_1_0001000#32, Instr.vmaskFlt 5 3 17 2 1),
    (0b10101000_101_00011_10001_010_1_0001001#32, Instr.vmaskFle 5 3 17 2 1),
    (0b10101000_101_00_010_00_110_00000001010#32, Instr.vmaskAnd 5 2 6),
    (0b10101000_101_00_010_00_110_00000001011#32, Instr.vmaskOr 5 2 6),
    (0b10101000_101_00_010_00_110_00000001100#32, Instr.vmaskXor 5 2 6),
    (0b10101000_101_00_010_00_110_00000001101#32, Instr.vmaskAndn 5 2 6),
    (0b101010_00011_00_101_00000_010_00001110#32, Instr.vmaskPopc 3 5 2),
    (0b101010_00011_00_101_00000_010_00001111#32, Instr.vmaskFirst 3 5 2),
    (0b10101000_101_00011_00000_010_00010000#32, Instr.vmaskConfl 5 3 2),
    (0b101011_00011_10000010011_1000000001#32, Instr.vidx 3 1043 513)].all (fun p => reads decode p.1 p.2) = true := by decide +kernel

theorem test_words_vector_memory : [
    (0b101100_00011_10001_00000_101_00000000#32, Instr.vldUnit 3 17 5),
    (0b101100_00011_10001_10110_101_00000001#32, Instr.vldStr 3 17 22 5),
    (0b101100_00011_10001_10110_101_00_10_0010#32, Instr.vldIdx 3 17 22 5 2),
    (0b101100_00011_10001_00000_101_0_010_0011#32, Instr.vldSeg 3 17 5 2),
    (0b101100_00011_10001_00000_101_00000100#32, Instr.vldFf 3 17 5),
    (0b101100_00011_10001_0_1001_101_00000101#32, Instr.vldTens 3 17 9 5),
    (0b10110000_101_00011_0000000000000110#32, Instr.vldQld 5 3),
    (0b101101_00011_10001_00000_101_00000000#32, Instr.vstUnit 3 17 5),
    (0b101101_00011_10001_10110_101_00000001#32, Instr.vstStr 3 17 22 5),
    (0b101101_00011_10001_10110_101_00_10_0010#32, Instr.vstIdx 3 17 22 5 2),
    (0b101101_00011_10001_00000_101_0_010_0011#32, Instr.vstSeg 3 17 5 2),
    (0b101101_00011_10001_0_1001_101_00000101#32, Instr.vstTens 3 17 9 5),
    (0b101101_00011_10001_10110_101_1_100_0111#32, Instr.vstRed 3 17 22 5 1 4),
    (0b101110_00011_00000_10001_101_00000000#32, Instr.vxclG 3 17 5),
    (0b101110_00011_00000_10001_101_00000001#32, Instr.vxclS 3 17 5),
    (0b1100110_1001_00011_0000000000000000#32, Instr.tamw 9 3)].all (fun p => reads decode p.1 p.2) = true := by decide +kernel

theorem test_words_tiles : [
    (0b11000000_010_00101_01001_001_011_0_0100#32, Instr.mopOp 2 5 9 1 3 4),
    (0b11000000_010_00101_01001_001_011_1_0100#32, Instr.mopOpn 2 5 9 1 3 4),
    (0b11000100_101_00011_0000000000000000#32, Instr.zopCfg 5 3),
    (0b11000100000000000000000000000001#32, Instr.zopEnable),
    (0b11000100000000000000000000000010#32, Instr.zopDisable),
    (0b11000100_101_000000000000000000011#32, Instr.zopZero 5),
    (0b11000100_101_00011_10001_010_0_1_1_1_0100#32, Instr.zopRd 5 3 17 2 1 1 1),
    (0b11000100_101_00011_10001_010_00_1_0_0101#32, Instr.zopWr 5 3 17 2 1 0),
    (0b11000100_101_00011_10001_010_1_0_0_1_0110#32, Instr.zopPatch 5 3 17 2 1 0 1),
    (0b11000100_101_00011_00000_010_00000111#32, Instr.zopScale 5 3 2),
    (0b11000100_101_00011_000_10_000000_1_1000#32, Instr.zopMask 5 3 2 1),
    (0b110010000_10_00011_0000000000000000#32, Instr.mskLd 2 3),
    (0b110010_00011_10001_000_10_00000000001#32, Instr.mskCls 3 17 2),
    (0b11001000_101_00011_000_10_00000000010#32, Instr.mskGen 5 3 2),
    (0b110010_00011_00000000_10_00000000011#32, Instr.mskCnt 3 2)].all (fun p => reads decode p.1 p.2) = true := by decide +kernel

theorem test_words_eng : [
    (0b110100_00011_00110_10010_101_1_010_0000#32, Instr.engCpy 3 6 18 5 1 2),
    (0b110100_00011_00110_10010_101_1_010_0001#32, Instr.engTcopy 3 6 18 5 1 2),
    (0b110100_00011_00110_10010_101_1_010_0010#32, Instr.engRgath 3 6 18 5 1 2),
    (0b110100_00011_00110_10010_101_1_010_0011#32, Instr.engRcopy 3 6 18 5 1 2),
    (0b110100_00011_00110_10010_101_1_010_0100#32, Instr.engPut 3 6 18 5 1 2),
    (0b110100_00011_00110_10010_101_1_010_0101#32, Instr.engGet 3 6 18 5 1 2),
    (0b110100_00011_00110_10010_101_1_010_0110#32, Instr.engSig 3 6 18 5 1 2),
    (0b110100_00011_00110_10010_101_1_010_0111#32, Instr.engLaunch 3 6 18 5 1 2)].all (fun p => reads decode p.1 p.2) = true := by decide +kernel

theorem test_words_adv : [
    (0b0000010000000000_1000000000000001#32, Instr.advAwait 32769),
    (0b0000100_1001_0_0110_010_1000000000010#32, Instr.advBr 9 6 2 4098),
    (0b0000110_1001_00000000_1000000000010#32, Instr.advLoop 9 4098),
    (0b0001000_1001_100000000000000000011#32, Instr.advSet 9 1048579),
    (0b0001010_1001_100000000000000000011#32, Instr.advIns 9 1048579),
    (0b0001100_1001_0_0110_0_1100_00000000000#32, Instr.advAdd 9 6 12),
    (0b0001110_1001_0_0110_1000000000000001#32, Instr.advAddi 9 6 32769),
    (0b0010000_1001_0_0110_0000000000000000#32, Instr.advMv 9 6),
    (0b0010000_1001_000000000000000000001#32, Instr.advMvArg 9),
    (0b0010000_1001_000000000000000000010#32, Instr.advMvId 9),
    (0b001001000000_1001_0_0110_00000000000#32, Instr.advPf 9 6),
    (0b001010000000_0110_0_1100_000000000_10#32, Instr.advPfx 6 12 2),
    (0b001011000000_1001_0_0110_000000000_10#32, Instr.advPlace 9 6 2),
    (0b001100000000_1001_0000000000000000#32, Instr.advPrio 9),
    (0b001101000000_1001_0000000000000000#32, Instr.advOrder 9),
    (0b001101000000_1001_0000000000000001#32, Instr.advOrderShare 9),
    (0b00111000000000000000000000000000#32, Instr.advHalt)].all (fun p => reads decodeAdvice p.1 p.2) = true := by decide +kernel
/-- Each check of `WellFormed` refuses a term whose field breaks its rule. -/
theorem test_wellFormed_refuses : [
    (Instr.vcvtFf 1 2 0 0 7, Reject.unlistedFormat), (.vcvtFi 1 2 0 7, .unlistedFormat), (.vcvtNarrow 1 2 0 5, .unlistedFormat),
    (.vcvtWiden 1 2 0 6, .unlistedFormat), (.vcvtDeq 1 2 0 7, .unlistedFormat), (.vcvtQuant 1 2 0 0 7, .unlistedFormat),
    (.vcvtQuant 1 2 0 1 3, .satNotAllowed), (.vcvtDs8e 1 2 0 0, .unlistedFormat), (.vcvtDs8e 1 2 0 4, .unlistedFormat),
    (.zopRd 0 1 2 0 1 0 0, .satNotAllowed), (.vmaskEq 0 1 2 0 0, .maskZeroDestination), (.vmaskNe 0 1 2 0 0, .maskZeroDestination),
    (.vmaskLt 0 1 2 0 0, .maskZeroDestination), (.vmaskLtu 0 1 2 0 0, .maskZeroDestination), (.vmaskLe 0 1 2 0 0, .maskZeroDestination),
    (.vmaskLeu 0 1 2 0 0, .maskZeroDestination), (.vmaskGt 0 1 2 0 0, .maskZeroDestination), (.vmaskFeq 0 1 2 0 0, .maskZeroDestination),
    (.vmaskFlt 0 1 2 0 0, .maskZeroDestination), (.vmaskFle 0 1 2 0 0, .maskZeroDestination), (.vmaskAnd 0 1 2, .maskZeroDestination),
    (.vmaskOr 0 1 2, .maskZeroDestination), (.vmaskXor 0 1 2, .maskZeroDestination), (.vmaskAndn 0 1 2, .maskZeroDestination),
    (.vmaskConfl 0 1 0, .maskZeroDestination), (.mskGen 0 1 0, .maskZeroDestination), (.vstRed 1 2 3 0 1 6, .badReduceOperation),
    (.vstRed 1 2 3 0 0 0, .unusedIndexField), (.mopOp 7 0 0 0 1 0, .tileOutOfRange), (.mopOpn 0 31 0 0 1 0, .operandOutOfRange),
    (.mopOp 0 0 31 0 0 13, .operandOutOfRange), (.mopOp 0 31 0 0 0 14, .operandOutOfRange), (.engCpy 1 0 2 0 0 0, .badPair),
    (.engTcopy 1 3 2 0 0 0, .badPair), (.engRgath 1 2 0 0 0 0, .badPair), (.engRcopy 1 2 5 0 0 0, .badPair),
    (.engPut 1 2 4 0 0 1, .unusedChannelField), (.engGet 1 7 4 0 1 1, .badPair), (.engSig 1 2 4 0 0 7, .unusedChannelField),
    (.engLaunch 1 2 31 0 1 0, .badPair), (.syncQdrain 0, .emptyQueueList), (.advBr 0 0 5 0, .badCondition), (.advBr 1 0 4 0, .reservedField),
    (.advPfx 1 2 0, .badPair), (.advPfx 2 3 0, .badPair)].all (fun p => decide (p.1.check = some p.2)) = true := by decide +kernel

/-- R96: the word of zeros, unlisted functions, reserved opcodes, reserved bits and ill-formed fields are no instruction. -/
theorem test_words_refused : [
    (0#32, Reject.unlistedFunction), (0b111111_00000000000000000000000000#32, .reservedOpcode),
    (0b000001_00001_00010_00011_000_00010000#32, .unlistedFunction), (0b000001_00001_00010_00011_001_00000000#32, .reservedField),
    (0b000001_00001_00010_00011_000_00001110#32, .reservedField), (0b101010_00000_00001_00010_000_00000000#32, .maskZeroDestination),
    (0b110100_00001_00011_00100_011_0_000_0000#32, .badPair)].all
      (fun p => match decode p.1 with | .error r => decide (r = p.2) | .ok _ => false) = true := by decide +kernel

/-! ### Small states -/

/-- A package with one hart on cluster 0: one page of user memory at virtual 0x1_0000, and the word of zeros at its PC. -/
noncomputable def base : State := State.reset.withFetchWord 32 0

/-- Its hart. -/
noncomputable def hart0 : Hart := (base.hart 0).get (by decide +kernel)

/-- Its hart with a sheaf open. -/
noncomputable def open0 : Hart := (hart0.ready base.now).get (by decide +kernel)

/-- The sheaf. -/
noncomputable def sheaf0 : Sheaf := open0.cur.get (by decide +kernel)

/-- `base` with the hart changed. -/
noncomputable def with0 (f : Hart → Hart) : State := base.setHart 0 (f hart0)

/-- The hart after its registers and CSRs are changed. -/
def reg (n : Nat) (v : W64) (x : Hart) : Hart := { x with arch := x.arch.wx n v }
def csr (n : Nat) (v : W64) (x : Hart) : Hart := { x with arch := x.arch.wcsr n v }

/-- The hart of `base` in the middle of a sheaf. -/
noncomputable def opened (f : Hart → Hart) : State := base.setHart 0 (f open0)

theorem cur_base : base.cur = 0 := by decide +kernel

/-- What `exec` leaves of hart 0, where it answers a next state. -/
def after (i : Instr) (s : State) : Option Hart :=
  match exec i s with
  | .next t => t.hart 0
  | _ => none

/-- The hart of a state can run where its own fields say so. -/
theorem canRun_of {s : State} {x y : Hart} {rs : List Nat} (h : s.hart s.cur = some x) (hy : x.ready s.now = some y)
    (hw : ∀ r ∈ rs, y.waitsOn r = false) : s.CanRun rs y := ⟨x, h, hy, hw⟩

/-- A hart that has a sheaf open can run on registers that wait for nothing. -/
theorem canRun_setHart (s : State) (x : Hart) (rs : List Nat) (hc : s.cur = 0) (hx : x.ready s.now = some x)
    (hw : ∀ r ∈ rs, x.waitsOn r = false) : (s.setHart 0 x).CanRun rs x :=
  canRun_of (x := x) (by rw [State.setHart_cur, hc]; exact State.hart_setHart_self ..) hx hw

/-- The current hart of `s` is 0, and runs. -/
theorem hart_setHart0 (s : State) (x : Hart) (hc : s.cur = 0) : (s.setHart 0 x).hart (s.setHart 0 x).cur = some x := by
  rw [State.setHart_cur, hc]; exact State.hart_setHart_self ..

/-- A key that a map finds is that of one of its entries. -/
theorem mem_of_ffind {β : Type} (m : FMap β) (k : Nat) (v : β) (h : ffind m k = some v) : ∃ e ∈ m, e.1 = k := by
  induction m with
  | nil => simp [ffind] at h
  | cons e r ih =>
    by_cases he : k = e.1
    · exact ⟨e, List.mem_cons_self .., he.symm⟩
    · obtain ⟨w, hw, hk⟩ := ih (by simpa [ffind, he] using h)
      exact ⟨w, List.mem_cons_of_mem _ hw, hk⟩

/-- Every hart of a state whose one hart is 0. -/
theorem only_hart (s : State) (ho : s.harts.all (fun e => decide (e.1 = 0)) = true) (x : Hart) (h : Nat) (y : Hart) :
    (s.setHart 0 x).hart h = some y → y = x ∧ h = 0 := by
  intro hy
  rw [List.all_eq_true] at ho
  by_cases h0 : h = 0
  · subst h0; rw [State.hart_setHart_self] at hy; exact ⟨(Option.some.inj hy).symm, rfl⟩
  · exfalso
    rw [State.hart_setHart_ne _ _ h0] at hy
    obtain ⟨e, he, rfl⟩ := mem_of_ffind _ _ _ hy
    exact h0 (by simpa using ho e he)

theorem only_base : base.harts.all (fun e => decide (e.1 = 0)) = true := by decide +kernel

theorem hart_only (x : Hart) (h : Nat) (y : Hart) : (base.setHart 0 x).hart h = some y → y = x ∧ h = 0 := only_hart base only_base x h y

/-- A state whose one hart is 0, which runs, has no other. -/
theorem no_others (s : State) (hc : s.cur = 0) (ho : s.harts.all (fun e => decide (e.1 = 0)) = true) (x : Hart) :
    ∀ e ∈ (s.setHart 0 x).harts, e.1 = (s.setHart 0 x).cur := by
  intro e he
  rw [State.setHart_cur, hc]
  rw [List.all_eq_true] at ho
  obtain rfl | hm := mem_fins he
  · rfl
  · simpa using ho e hm

/-- No hart is held, where the one hart is not. -/
theorem none_held (s : State) (ho : s.harts.all (fun e => decide (e.1 = 0)) = true) (x : Hart) (hx : x.held = none) : (s.setHart 0 x).NoneHeld :=
  fun h y hy => by obtain ⟨rfl, -⟩ := only_hart s ho x h y hy; exact hx

/-! ### The hypotheses of the statements about the scalar side

For each statement a state and operands that meet its hypotheses together, with a case for each of its clauses. -/

/-- The hart in a sheaf of its own can run on any registers. -/
theorem can_run (f : Hart → Hart) (rs : List Nat) (hx : (f open0).ready base.now = some (f open0))
    (hw : ∀ r ∈ rs, (f open0).waitsOn r = false) : (opened f).CanRun rs (f open0) := canRun_setHart base _ _ cur_base hx hw

theorem witness_AluResults : (opened id).CanRun [31, 1, 31] open0 := can_run id _ (by decide +kernel) (by decide +kernel)

theorem witness_MulDivResults : (opened (reg 2 0)).CanRun [3, 1, 2] (reg 2 0 open0) := can_run _ _ (by decide +kernel) (by decide +kernel)

theorem witness_ImmediateResults : (opened id).CanRun [0, 31] open0 ∧ (opened id).CanRun [31] open0 :=
  ⟨can_run id _ (by decide +kernel) (by decide +kernel), can_run id _ (by decide +kernel) (by decide +kernel)⟩

theorem witness_BranchesTaken : (opened id).CanRun [1, 1] open0 := can_run id _ (by decide +kernel) (by decide +kernel)

/-- JALR to a target that is a multiple of 4. -/
theorem witness_JumpsLink : (opened id).CanRun [1] open0 ∧ (opened (reg 1 0x1_0001)).CanRun [1, 1] (reg 1 0x1_0001 open0) ∧
    ((reg 1 0x1_0001 open0).arch.r 1 + (0xFFFF#16).signExtend 64).extractLsb 1 0 = 0 :=
  ⟨can_run id _ (by decide +kernel) (by decide +kernel), can_run _ _ (by decide +kernel) (by decide +kernel), by decide +kernel⟩

/-- The access goes to home address `h`, and hits no watchpoint. -/
def goesTo (s : State) (y : Hart) (a : W64) (n kind h : Nat) : Bool :=
  match access s y.arch.grant y.arch.csr y.arch.sup a.toNat n kind n with
  | .ok x => decide (x = { home := h, hold := none })
  | .error _ => false

theorem goesTo_eq {s : State} {y : Hart} {a : W64} {n kind h : Nat} (hg : goesTo s y a n kind h = true) :
    access s y.arch.grant y.arch.csr y.arch.sup a.toNat n kind n = .ok { home := h, hold := none } := by
  unfold goesTo at hg
  split at hg
  · rename_i hx; rw [hx, of_decide_eq_true hg]
  · cases hg

/-- The access fails with cause `c`. -/
def failsWith (s : State) (y : Hart) (a : W64) (n kind c : Nat) : Bool :=
  match access s y.arch.grant y.arch.csr y.arch.sup a.toNat n kind n with
  | .ok _ => false
  | .error d => decide (d = c)

theorem failsWith_eq {s : State} {y : Hart} {a : W64} {n kind c : Nat} (hg : failsWith s y a n kind c = true) :
    access s y.arch.grant y.arch.csr y.arch.sup a.toNat n kind n = .error c := by
  unfold failsWith at hg
  split at hg
  · cases hg
  · rename_i hx; rw [hx, of_decide_eq_true hg]

/-- The last eight bytes of a page. -/
theorem witness_ScalarLoads : let f := reg 2 0x1_FFF8
    (opened f).CanRun [1, 2] (f open0) ∧ (f open0).cur = some sheaf0 ∧ sheaf0.want = none ∧
    access (opened f) (f open0).arch.grant (f open0).arch.csr (f open0).arch.sup ((f open0).arch.at_ 2 0).toNat 8 kRead 8 =
      .ok { home := 0x8_0000_0010_FFF8, hold := none } ∧ readPoisoned (opened f) sheaf0 sheaf0.scalarReader 0x8_0000_0010_FFF8 8 = false :=
  ⟨can_run _ _ (by decide +kernel) (by decide +kernel), by decide +kernel, by decide +kernel,
    goesTo_eq (by decide +kernel), by decide +kernel⟩

theorem witness_ScalarStores : let f := reg 2 0x1_FFF8
    (opened f).CanRun [1, 2] (f open0) ∧ (f open0).cur = some sheaf0 ∧ sheaf0.want = none ∧
    resvFits (f open0).sheaves (reserve (f open0).arch.grant.scalarQuarter 1 []) = true ∧
    access (opened f) (f open0).arch.grant (f open0).arch.csr (f open0).arch.sup ((f open0).arch.at_ 2 0).toNat 8 kWrite 8 =
      .ok { home := 0x8_0000_0010_FFF8, hold := none } :=
  ⟨can_run _ _ (by decide +kernel) (by decide +kernel), by decide +kernel, by decide +kernel, by decide +kernel,
    goesTo_eq (by decide +kernel)⟩

/-- Traps can land. -/
theorem can_land (s : State) (y : Hart) (sh : Sheaf) (ht : s.arb.token = none) (h : y.arch.sup = false ∧ y.ahead = false ∧ y.held = none ∧
    y.queue = [] ∧ y.sheaves = [sh] ∧ sh.trap = none ∧ sh.want = none ∧ y.preempted = false) : s.CanLand y sh := by
  have hn : s.NoToken := .inl ht
  unfold State.CanLand
  simpa only [and_assoc] using And.intro h hn

/-- A watchpoint that traps: registers 0 for the range from 0x1_0000 to 0x1_0008. -/
def watched : Hart → Hart := csr 0x400 0x1_0000 ∘ csr 0x410 0x1_0008 ∘ csr 0x420 7

/-- ALIGN, BOUNDS with a tag whose record admits nothing, PAGE, WATCH, and MEMERR with a poisoned granule. -/
theorem witness_ScalarAccessTraps :
    let sees (f : Hart → Hart) (n kind c : Nat) : Prop := (opened f).CanRun [1, 2] (f open0) ∧ (opened f).CanLand (f open0) sheaf0 ∧
      access (opened f) (f open0).arch.grant (f open0).arch.csr (f open0).arch.sup ((f open0).arch.at_ 2 0).toNat n kind n = .error c ∧
      resvFits (f open0).sheaves (reserve (f open0).arch.grant.scalarQuarter 1 []) = true
    sees (reg 2 0x1_0001) 8 kRead 2 ∧ sees (reg 2 0x1_0004) 8 kWrite 2 ∧ sees (reg 2 0x0400_0000_0001_0000) 1 kRead 4 ∧
    sees (reg 2 0x5_0000) 8 kRead 3 ∧ sees (reg 2 0x2_0000) 1 kWrite 3 ∧ sees (reg 2 0x1_0000 ∘ watched) 8 kRead 5 ∧
    sees (reg 2 0x1_0007 ∘ watched) 1 kWrite 5 :=
  ⟨⟨can_run _ _ (by decide +kernel) (by decide +kernel), can_land _ _ _ (by decide +kernel) (by decide +kernel), failsWith_eq (by decide +kernel), by decide +kernel⟩,
   ⟨can_run _ _ (by decide +kernel) (by decide +kernel), can_land _ _ _ (by decide +kernel) (by decide +kernel), failsWith_eq (by decide +kernel), by decide +kernel⟩,
   ⟨can_run _ _ (by decide +kernel) (by decide +kernel), can_land _ _ _ (by decide +kernel) (by decide +kernel), failsWith_eq (by decide +kernel), by decide +kernel⟩,
   ⟨can_run _ _ (by decide +kernel) (by decide +kernel), can_land _ _ _ (by decide +kernel) (by decide +kernel), failsWith_eq (by decide +kernel), by decide +kernel⟩,
   ⟨can_run _ _ (by decide +kernel) (by decide +kernel), can_land _ _ _ (by decide +kernel) (by decide +kernel), failsWith_eq (by decide +kernel), by decide +kernel⟩,
   ⟨can_run _ _ (by decide +kernel) (by decide +kernel), can_land _ _ _ (by decide +kernel) (by decide +kernel), failsWith_eq (by decide +kernel), by decide +kernel⟩,
   ⟨can_run _ _ (by decide +kernel) (by decide +kernel), can_land _ _ _ (by decide +kernel) (by decide +kernel), failsWith_eq (by decide +kernel), by decide +kernel⟩⟩

theorem witness_ScalarAccessTraps_memerr :
    let y := reg 2 0x1_0040 open0
    let s := ({ base with poison := [(0x8_0000_0010_0040 / 64, true)] } : State).setHart 0 y
    s.CanRun [1, 2] y ∧ s.CanLand y sheaf0 ∧ readPoisoned s sheaf0 sheaf0.scalarReader 0x8_0000_0010_0040 8 = true ∧
    access s y.arch.grant y.arch.csr y.arch.sup (y.arch.at_ 2 0).toNat 8 kRead 8 = .ok { home := 0x8_0000_0010_0040, hold := none } :=
  ⟨canRun_setHart _ _ _ (by decide +kernel) (by decide +kernel) (by decide +kernel), can_land _ _ _ (by decide +kernel) (by decide +kernel),
    by decide +kernel, goesTo_eq (by decide +kernel)⟩

/-- `base` with a page of HBM4E recorded at 1 GiB, and the entry `e` in the table at `tab`. -/
noncomputable def walked (tab : Nat) (size e : Nat) : State :=
  ({ base with ms := { base.ms with pages := [(0x4000_0000, some { size := size, il := false, lsbase := 0, lsk := 0 })] } }).store tab (leBytes 8 e)

/-- The tables of `base`, and an address in its last mapped page. -/
theorem witness_WalkFourLevels : let r := demoRoot
    let a := 0x3_FFFF
    let pointer (e next align : Nat) : Bool := bit e 0 && !bit e 1 && decide (bits e 7 6 = 0) && !bit e 52 && decide (bits e 63 53 = 0)
      && decide (bits e 51 8 * 256 = next) && decide (next % align = 0)
    let leaf (s : State) (e size : Nat) : Bool := bit e 0 && bit e 1 && decide (bits e 7 6 = 0) && !bit e 52 && leafOk s e size
    base.ms.tlbs = [] ∧ a < 2 ^ 58 ∧ r % 131072 = 0 ∧ (r + 256) % 131072 ≠ 0 ∧ pointer (memNat base (r + a / 2 ^ 44 * 8) 8) (r + 0x2_0000) 131072 ∧
    pointer (memNat base (r + 0x2_0000 + a / 2 ^ 30 % 2 ^ 14 * 8) 8) (r + 0x4_0000) 4096 ∧
    pointer (memNat base (r + 0x4_0000 + a / 2 ^ 21 % 2 ^ 9 * 8) 8) (r + 0x5_0000) 256 ∧
    leaf base (memNat base (r + 0x5_0000 + a / 2 ^ 16 % 2 ^ 5 * 8) 8) 0x1_0000 := by decide +kernel

/-- An entry with V 0, a leaf at level 0, a pointer whose U, X, W and R are set, a leaf of 1 GiB, one of 2 MiB, and a pointer at level 3. -/
theorem witness_WalkFourLevels_entries : let r := demoRoot
    let pointer (e next align : Nat) : Bool := bit e 0 && !bit e 1 && decide (bits e 7 6 = 0) && !bit e 52 && decide (bits e 63 53 = 0)
      && decide (bits e 51 8 * 256 = next) && decide (next % align = 0)
    let leaf (s : State) (e size : Nat) : Bool := bit e 0 && bit e 1 && decide (bits e 7 6 = 0) && !bit e 52 && leafOk s e size
    bit (memNat base (r + 8) 8) 0 = false ∧
    bit (memNat (walked r 0x1_0000 (0x4000_0000 + 0x3F)) r 8) 1 = true ∧
    pointer (memNat (walked r 0x1_0000 (r + 0x2_0000 + 0x3D)) r 8) (r + 0x2_0000) 131072 ∧
    leaf (walked (r + 0x2_0000) 0x4000_0000 (0x4000_0000 + 0x3F)) (memNat (walked (r + 0x2_0000) 0x4000_0000 (0x4000_0000 + 0x3F)) (r + 0x2_0000) 8)
      0x4000_0000 ∧
    leaf (walked (r + 0x4_0000) 0x20_0000 (0x4000_0000 + 0x3F)) (memNat (walked (r + 0x4_0000) 0x20_0000 (0x4000_0000 + 0x3F)) (r + 0x4_0000) 8)
      0x20_0000 ∧
    bit (memNat (walked (r + 0x5_0000 + 24) 0x1_0000 (0x4000_0000 + 0x3D)) (r + 0x5_0000 + 24) 8) 1 = false := by decide +kernel

theorem witness_FencesOrder : (opened id).CanRun [] open0 ∧ open0.cur = some sheaf0 ∧ open0.queue = [] :=
  ⟨can_run id _ (by decide +kernel) (by decide +kernel), by decide +kernel, by decide +kernel⟩

theorem witness_IllegalWordTraps : (opened id).CanRun [] open0 ∧ (opened id).CanLand open0 sheaf0 :=
  ⟨can_run id _ (by decide +kernel) (by decide +kernel), can_land _ _ _ (by decide +kernel) (by decide +kernel)⟩

/-- A JALR to 0x1_0002, and a TLWAIT for the command after the last. -/
theorem witness_InstructionTraps :
    ((opened (reg 1 0x1_0000)).CanRun [3, 1] (reg 1 0x1_0000 open0) ∧ (opened (reg 1 0x1_0000)).CanLand (reg 1 0x1_0000 open0) sheaf0 ∧
      ((reg 1 0x1_0000 open0).arch.r 1 + (2#16).signExtend 64).extractLsb 1 0 ≠ 0) ∧
    ((opened (reg 1 1)).CanRun [1] (reg 1 1 open0) ∧ (opened (reg 1 1)).CanLand (reg 1 1 open0) sheaf0 ∧
      ((reg 1 1 open0).arch.rcsr (cTID + 7)).toNat < ((reg 1 1 open0).arch.r 1).toNat) :=
  ⟨⟨can_run _ _ (by decide +kernel) (by decide +kernel), can_land _ _ _ (by decide +kernel) (by decide +kernel), by decide +kernel⟩,
   ⟨can_run _ _ (by decide +kernel) (by decide +kernel), can_land _ _ _ (by decide +kernel) (by decide +kernel), by decide +kernel⟩⟩

/-- The save area lies at the first byte of its page. -/
theorem witness_TrapFrame : (opened id).CanRun [] open0 ∧ (opened id).CanLand open0 sheaf0 ∧ (∀ k x, (opened id).hart k = some x → x.held = none) ∧
    (sheaf0.cp.rcsr cSAVEPTR).toNat % 4096 = 0 ∧
    homeOf (opened id) sheaf0.cp.grant (sheaf0.cp.rcsr cPTROOT) (sheaf0.cp.rcsr cSAVEPTR).toNat kWrite false = some 0x8_0000_0012_0000 :=
  ⟨can_run id _ (by decide +kernel) (by decide +kernel), can_land _ _ _ (by decide +kernel) (by decide +kernel),
    fun k x h => by obtain ⟨rfl, -⟩ := hart_only _ k x h; decide +kernel, by decide +kernel, by decide +kernel⟩
/-- What `exec` leaves, where it answers a next state. -/
noncomputable def next (i : Instr) (s : State) : State :=
  match exec i s with
  | .next t => t
  | _ => s

/-- The hart in supervisor mode. -/
def super : Hart → Hart := csr cHSTATUS 1

/-- The hypotheses of `CsrDone` on the values, for the registers 1 and 2. -/
def csrMeets (s : State) (y : Hart) (op : Option CsrOp) (n : Nat) : Prop :=
  let v : W64 := match op with | none => csrOld s y 1 2 n | some o => csrAsked s y o 1 2 n
  csrListed n = true ∧ (csrSup n = true → y.arch.sup = true) ∧ (op ≠ none → csrWritable y.arch.sup n = true) ∧
  (op ≠ none → csrAccepts y.arch.grant n v = true) ∧ (op ≠ none → n = cZSTATE → bits v.toNat 3 2 = 0) ∧
  (n = cFCSR ∨ n = cSRSEED ∨ n = cZSTATE → y.queue = [])

/-- The hart can run, and the access is one that R44 allows. -/
theorem csr_meets (f : Hart → Hart) (op : Option CsrOp) (n : Nat)
    (h : (f open0).ready base.now = some (f open0) ∧ (∀ r ∈ [1, 2], (f open0).waitsOn r = false) ∧ csrMeets (opened f) (f open0) op n) :
    (opened f).CanRun [1, 2] (f open0) ∧ csrMeets (opened f) (f open0) op n := ⟨can_run f _ h.1 h.2.1, h.2.2⟩

/-- The largest rounding mode, a seed of 0, block tables, mask shapes, tile state, the mode, and the last watchpoint. -/
theorem witness_CsrInstructions :
    let meets (f : Hart → Hart) (op : Option CsrOp) (n : Nat) : Prop := (opened f).CanRun [1, 2] (f open0) ∧ csrMeets (opened f) (f open0) op n
    meets id none cVL ∧ meets (reg 2 0x80) (some .wr) cFCSR ∧ meets (reg 2 0) (some .wr) cSRSEED ∧ meets (reg 2 0x1_0004) (some .wr) 0x1E ∧
    meets (reg 2 0x40_0040) (some .wr) cMSKSHAPE ∧ meets (reg 2 7) (some .wr) cDOCN ∧ meets (reg 2 0 ∘ super) (some .set) cZSTATE ∧
    meets (reg 2 0 ∘ super) (some .wr) cHSTATUS ∧ meets (reg 2 7 ∘ super) (some .wr) 0x42F := by
  refine ⟨?_, ?_, ?_, ?_, ?_, ?_, ?_, ?_, ?_⟩ <;> (apply csr_meets; unfold csrMeets; decide +kernel)

/-- A sheaf can end. -/
theorem can_end (s : State) (y : Hart) (rs : List Nat) (sh : Sheaf) (h1 : s.CanRun rs y)
    (h2 : y.ahead = false ∧ y.held = none ∧ y.queue = [] ∧ y.pend = [] ∧ (∀ b ∈ y.bqAfter rs, b.here = true) ∧ y.sheaves = [sh] ∧
      sh.trap = none ∧ sh.want = none ∧ y.preempted = false)
    (h3 : s.arb.token = none ∧ s.arb.slices = [] ∧ s.arb.slicesQ = []) : s.CanEnd rs y sh := by
  unfold State.CanEnd
  simpa only [and_assoc] using And.intro h1 (And.intro h2 h3)

theorem witness_CallsTrap : (opened id).CanEnd [] open0 sheaf0 ∧ open0.arch.sup = false ∧ sheaf0.sup = false ∧ open0.preempt = 0 :=
  ⟨can_end _ _ _ _ (can_run id _ (by decide +kernel) (by decide +kernel)) (by decide +kernel) (by decide +kernel), by decide +kernel⟩

/-- `base` after its hart has trapped, its hart in the supervisor with a sheaf open, that sheaf, and the landing. -/
noncomputable def trapped : State := next (.illegalInstructionWord 0) base
noncomputable def hart1 : Hart := ((trapped.hart 0).bind (·.ready trapped.now)).get (by decide +kernel)
noncomputable def sheaf1 : Sheaf := hart1.cur.get (by decide +kernel)
noncomputable def landing1 : Landing := hart1.landing.get (by decide +kernel)

theorem cur_trapped : trapped.cur = 0 := by decide +kernel

theorem can_run1 (f : Hart → Hart) (rs : List Nat) (hx : (f hart1).ready trapped.now = some (f hart1))
    (hw : ∀ r ∈ rs, (f hart1).waitsOn r = false) : (trapped.setHart 0 (f hart1)).CanRun rs (f hart1) :=
  canRun_setHart trapped _ _ cur_trapped hx hw

/-- A number that is not listed, a supervisor's register, a read-only register, and a rounding mode of 5, in user mode and in the supervisor. -/
theorem witness_CsrRefusals : let f := reg 2 0xA0
    ((opened f).CanRun [1, 2] (f open0) ∧ (opened f).CanLand (f open0) sheaf0) ∧
    ((trapped.setHart 0 (f hart1)).CanRun [1, 2] (f hart1) ∧ (f hart1).arch.sup = true ∧ (f hart1).ahead = false ∧ (f hart1).held = none ∧
      (f hart1).queue = [] ∧ (f hart1).sheaves = [sheaf1] ∧ sheaf1.trap = none ∧ sheaf1.want = none ∧ (f hart1).preempted = false) ∧
    csrListed 0xFFF = false ∧ csrSup 0x300 = true ∧ csrWritable false cVL = false ∧ csrWritable true cVL = false ∧
    csrAccepts (f open0).arch.grant cFCSR (csrAsked (opened f) (f open0) .wr 1 2 cFCSR) = false ∧
    csrAccepts (f hart1).arch.grant cFCSR (csrAsked (trapped.setHart 0 (f hart1)) (f hart1) .set 1 2 cFCSR) = false :=
  ⟨⟨can_run _ _ (by decide +kernel) (by decide +kernel), can_land _ _ _ (by decide +kernel) (by decide +kernel)⟩,
   ⟨can_run1 _ _ (by decide +kernel) (by decide +kernel), by decide +kernel⟩, by decide +kernel⟩

theorem witness_EretReturns : let s := trapped.setHart 0 hart1
    s.CanEnd [] hart1 sheaf1 ∧ hart1.arch.sup = true ∧ sheaf1.writes = [] ∧ sheaf1.reds = [] ∧ s.arb.heldWrites = [] ∧
    hart1.landing = some landing1 ∧
    let reloaded (n off : Nat) : W64 := match s.peek hart1.arch.grant (hart1.arch.rcsr cPTROOT) ((hart1.arch.rcsr cSAVEPTR).toNat + off) with
      | some v => if n = cSRSEED then (if v = 0 then 1 else v) else v &&& csrMask n
      | none => landing1.arch.rcsr n
    (∀ k < 4, btcfgOk (reloaded (0x12 + 4 * k) (0x1A0 + 24 * k)) = true) ∧
    mskshapeOk landing1.arch.grant (reloaded cMSKSHAPE 0x180) = true :=
  ⟨can_end _ _ _ _ (can_run1 id _ (by decide +kernel) (by decide +kernel)) (by decide +kernel) (by decide +kernel), by decide +kernel⟩

/-- An illegal word, and a TLWAIT for the command after the last. -/
theorem witness_DoubleTrapEnds : let f := reg 1 1
    ((trapped.setHart 0 (f hart1)).CanRun [] (f hart1) ∧ (trapped.setHart 0 (f hart1)).CanRun [1] (f hart1)) ∧ (f hart1).arch.sup = true ∧
    (f hart1).ahead = false ∧ (f hart1).held = none ∧ (f hart1).queue = [] ∧ (f hart1).sheaves = [sheaf1] ∧ sheaf1.trap = none ∧ sheaf1.want = none ∧
    (f hart1).preempted = false ∧ ((f hart1).arch.rcsr (cTID + 7)).toNat < ((f hart1).arch.r 1).toNat ∧ ∀ c ∈ (f hart1).chans, c.waiting = [] ∧ c.running = [] :=
  ⟨⟨can_run1 _ _ (by decide +kernel) (by decide +kernel), can_run1 _ _ (by decide +kernel) (by decide +kernel)⟩, by decide +kernel⟩

/-- R312: what the system cores receive, and the hart is gone. -/
theorem test_doubleTrap : let t := next (.illegalInstructionWord 0) (trapped.setHart 0 hart1)
    t.hart 0 = none ∧ t.mg.outbox.map Prod.fst = [1] ∧ (t.mg.outbox.map (fun r => (r.2.take 3, r.2.drop 8 |>.take 3))) =
      [([0, 1, 0x2_0000], [0, 1, 0x1_0000])] := by decide +kernel

/-- The sequencer of pseudo-channel 767 has ticked for bank 0 in this ck. -/
noncomputable def justTicked : State :=
  trapped.setCtl 767 { trapped.ctl 767 with tick := 1, due := trapped.now + 586, owed := [3] }

/-- The last pseudo-channel, whose tick of bank 0 is to come or falls in this ck, and the first number that names none. -/
theorem witness_WaitsAndMarks : (opened id).CanRun [] open0 ∧
    (let y := reg 5 768 hart1;
      (trapped.setHart 0 y).CanRun [5] y ∧ y.arch.sup = true ∧ y.cur = some sheaf1 ∧ Config.pseudoChannels (trapped.setHart 0 y).bare ≤ (y.arch.r 5).toNat) ∧
    (let y := reg 5 767 hart1;
      ((trapped.setHart 0 y).CanRun [5] y ∧ (justTicked.setHart 0 y).CanRun [5] y) ∧ y.arch.sup = true ∧ y.pend = [] ∧ y.cur = some sheaf1 ∧
        (y.arch.r 5).toNat < Config.pseudoChannels (trapped.setHart 0 y).bare ∧ (trapped.setHart 0 y).tickedNow 767 = false ∧
        (justTicked.setHart 0 y).tickedNow 767 = true) ∧
    ((trapped.setHart 0 hart1).CanEnd [] hart1 sheaf1 ∧ (opened id).CanRun [5] open0) ∧ hart1.arch.sup = true ∧ sheaf1.sup = true ∧
    (open0.adv = none ∨ open0.arch.sup = true) :=
  ⟨can_run id _ (by decide +kernel) (by decide +kernel), ⟨can_run1 _ _ (by decide +kernel) (by decide +kernel), by decide +kernel⟩,
    ⟨⟨can_run1 _ _ (by decide +kernel) (by decide +kernel), canRun_setHart _ _ _ (by decide +kernel) (by decide +kernel) (by decide +kernel)⟩,
      by decide +kernel⟩,
    ⟨can_end _ _ _ _ (can_run1 id _ (by decide +kernel) (by decide +kernel)) (by decide +kernel) (by decide +kernel),
      can_run id _ (by decide +kernel) (by decide +kernel)⟩, by decide +kernel⟩

/-- R141, R356: SYS.REFSYNC in the ck of the tick it waits for is over, and the owed list is empty; else it waits. -/
theorem test_refsync : let y := reg 5 767 hart1
    (after (.sysRefsync 5) (justTicked.setHart 0 y)).map (·.wait) = some .synced ∧ ((next (.sysRefsync 5) (justTicked.setHart 0 y)).ctl 767).owed = [] ∧
    (after (.sysRefsync 5) (trapped.setHart 0 y)).map (·.wait) = some (.refsync 767 trapped.now) := by decide +kernel

/-- R137, R312: the system cores receive an ECALL of the supervisor once its sheaf has committed. -/
theorem test_ecall_supervisor : let t := next .sysEcall (trapped.setHart 0 hart1)
    (t.hart 0).map (fun z => (z.wait, z.sheaves)) = some (.answer true, []) ∧ t.mg.outbox.map (fun r => (r.1, r.2.length)) = [(2, 10)] := by decide +kernel

/-- The sheaf with a HOLD stop by register 3, with the trap that an abort records, and its hart with register 5 for DBG.WPREL. -/
noncomputable def stop3 : Sheaf := { sheaf0 with held := some (3, { cause := 0x05, kind := 0, tpc := 0x1_0000, telem := 0, tlane := 0, tval := 0x2_0000, seq := 5, opener := false }) }
noncomputable def heldHart (v : W64) : Hart := reg 5 v { hart1 with held := some 3, sheaves := [stop3] }

theorem witness_HoldStopEnds : ∀ v ∈ [0#64, 1#64], let x := heldHart v
    let s := trapped.setHart 0 x
    s.hart s.cur = some x ∧ x.arch.sup = true ∧ x.held = some 3 ∧ x.sheaves = [stop3] ∧ stop3.held.isSome = true ∧ stop3.want = none ∧
    stop3.trap = none ∧ stop3.closed = none ∧ x.queue = [] ∧ x.bq = [] ∧ x.pend = [] ∧ x.ahead = false ∧ s.arb.heldWrites = [] ∧
    x.landing = some landing1 ∧
    bit (x.arch.r 5).toNat 0 = decide (v = 1) ∧ (s.reload x.arch { landing1.arch with
      v := x.arch.v, m := x.arch.m, q := x.arch.q, tam := x.arch.tam, mp := x.arch.mp }).isSome = true :=
  fun v hv => ⟨hart_setHart0 _ _ cur_trapped, by
    simp only [List.mem_cons, List.not_mem_nil, or_false] at hv
    obtain rfl | rfl := hv <;> decide +kernel⟩

/-- The gang of the hart of `base`. -/
noncomputable def gang0 : Gang := (ffind base.gangs open0.gang).get (by decide +kernel)

/-- A barrier that others still miss and one that is complete; TLWAIT for the identifier reached and for the next; counter 63. -/
theorem witness_SyncInstructions :
    (opened id).CanEnd [] open0 sheaf0 ∧ open0.parked = false ∧ (opened id).bare = false ∧
    ffind (opened id).gangs open0.gang = some gang0 ∧ gang0.live = [0] ∧
    gang0.live.all (fun h => ((opened id).cur :: gang0.arrived).contains h) = true ∧
    (let q : Gang := { gang0 with live := [0, 1] }; let s : State := { base with gangs := [(0, q)] }
      (s.setHart 0 open0).CanEnd [] open0 sheaf0 ∧ ffind s.gangs open0.gang = some q ∧
      q.live.all (fun h => (s.cur :: q.arrived).contains h) = false) ∧
    (let y := reg 5 1 (csr (cTID + 7) 1 open0);
      (base.setHart 0 y).CanEnd [5] y sheaf0 ∧ ∃ c, y.chans[7]? = some c ∧ c.err = none ∧ c.tl = 0 ∧
        (y.arch.r 5).toNat ≤ (y.arch.rcsr (cTID + 7)).toNat) ∧
    (let y := reg 6 63 (reg 5 1 open0); (base.setHart 0 y).CanEnd [5, 6] y sheaf0 ∧ (y.arch.r 6).toNat % 64 = 63) ∧
    open0.qdrained 15 = true ∧ open0.sheaves.length ≤ open0.front + 1 :=
  ⟨can_end _ _ _ _ (can_run id _ (by decide +kernel) (by decide +kernel)) (by decide +kernel) (by decide +kernel), by decide +kernel,
    by decide +kernel, by decide +kernel, by decide +kernel, by decide +kernel,
    ⟨can_end _ _ _ _ (canRun_setHart _ _ _ (by decide +kernel) (by decide +kernel) (by decide +kernel)) (by decide +kernel) (by decide +kernel),
      by decide +kernel, by decide +kernel⟩,
    ⟨can_end _ _ _ _ (canRun_setHart _ _ _ cur_base (by decide +kernel) (by decide +kernel)) (by decide +kernel) (by decide +kernel),
      ⟨(reg 5 1 (csr (cTID + 7) 1 open0)).chans[7]?.get (by decide +kernel), by decide +kernel⟩⟩,
    ⟨can_end _ _ _ _ (canRun_setHart _ _ _ cur_base (by decide +kernel) (by decide +kernel)) (by decide +kernel) (by decide +kernel),
      by decide +kernel⟩, by decide +kernel, by decide +kernel⟩
/-! ### The hypotheses of the statements about the vector side -/

/-- VTYPE and VL of the hart. -/
def vec (vt vl : W64) : Hart → Hart := csr cVTYPE vt ∘ csr cVL vl

/-- The instruction `e` of the hart changed by `f`. -/
noncomputable def entry (f : Hart → Hart) : QEntry := (f open0).entry sheaf0

/-- No other hart is before the one at the sequencer. -/
theorem undisputed (f : Hart → Hart) : (opened f).Undisputed (f open0) :=
  .inr fun e he hne => absurd (no_others base cur_base only_base _ e he) hne

/-- Where the hart's own fields say so, an instruction of the vector side is done as it is issued; its shape is legal, and no
exception is enabled. -/
def VSees (f : Hart → Hart) (rs : List Nat) : Prop :=
  (opened f).VReady rs (f open0) sheaf0 ∧ (entry f).shapeOk ∧ (entry f).fen = 0

theorem v_ready (f : Hart → Hart) (rs : List Nat)
    (h : (f open0).ready base.now = some (f open0) ∧ (∀ r ∈ rs, (f open0).waitsOn r = false) ∧ (f open0).arch.sup = false ∧
      (f open0).ahead = false ∧ (f open0).held = none ∧ (f open0).queue = [] ∧ (f open0).sheaves = [sheaf0] ∧ sheaf0.closed = none ∧
      sheaf0.trap = none ∧ sheaf0.want = none ∧ ((f open0).bqAfter rs).length < 16 ∧ (f open0).issueAt ≠ base.now + 1) : (opened f).VReady rs (f open0) sheaf0 := by
  obtain ⟨hr, hw, hs⟩ := h
  unfold State.VReady
  have h1 : (opened f).now = base.now := State.setHart_now ..
  simpa only [and_assoc, undisputed f, and_true, h1] using And.intro (can_run f rs hr hw) hs

theorem v_sees (f : Hart → Hart) (rs : List Nat)
    (h : ((f open0).ready base.now = some (f open0) ∧ (∀ r ∈ rs, (f open0).waitsOn r = false) ∧ (f open0).arch.sup = false ∧
      (f open0).ahead = false ∧ (f open0).held = none ∧ (f open0).queue = [] ∧ (f open0).sheaves = [sheaf0] ∧ sheaf0.closed = none ∧
      sheaf0.trap = none ∧ sheaf0.want = none ∧ ((f open0).bqAfter rs).length < 16 ∧ (f open0).issueAt ≠ base.now + 1) ∧
      ((entry f).vb ∈ (List.range 10).map (fun k => 256 * 2 ^ k) ∧ vtLegal (entry f).vt = true ∧ (entry f).vl ≤ (entry f).vlmax) ∧
      (entry f).fen = 0) : VSees f rs := ⟨v_ready f rs h.1, h.2⟩

theorem witness_IntegerFunctions : 0 < 4 ∧ 0 < 64 := by decide

/-- Groups of eight registers at the top of the file. -/
theorem witness_VectorIntegers : VSees (vec 0x63 1) [31] ∧ VSees (vec 0x63 1) [] ∧ (entry (vec 0x63 1)).isInt = true ∧
    (entry (vec 0x63 1)).groupHere 24 = true ∧ (entry (vec 0x63 1)).groupHere 16 = true ∧
    ∀ b ∈ [VSrc.vec 8, .scal 0, .imm (-16)], (entry (vec 0x63 1)).srcOk b = true :=
  ⟨v_sees _ _ (by decide +kernel), v_sees _ _ (by decide +kernel), by decide +kernel⟩

theorem witness_VectorFloats : VSees (vec 0x13 3) [31] ∧ VSees (vec 0x13 3) [] ∧ (entry (vec 0x13 3)).isFloat = true ∧
    16 ≤ (entry (vec 0x13 3)).sew ∧ (entry (vec 0x13 3)).groupHere 31 = true ∧ (entry (vec 0x13 3)).srcOk (.vec 31) = true :=
  ⟨v_sees _ _ (by decide +kernel), v_sees _ _ (by decide +kernel), by decide +kernel⟩

/-- FP32, INT32 and UINT8 elements, and DS8. -/
theorem witness_VectorConversions :
    (VSees (vec 0x13 3) [] ∧ (entry (vec 0x13 3)).isFloat = true ∧
      (∃ f, floatCode 2 = some f ∧ (entry (vec 0x13 3)).cvtOk 8 16 f.w = true ∧ satOk 0 (entry (vec 0x13 3)).fmt = true) ∧
      (entry (vec 0x13 3)).cvtOk 8 16 32 = true ∧ (entry (vec 0x13 3)).sew = 32 ∧
      (∃ f, narrowCode 0 = some (.inl f) ∧ (entry (vec 0x13 3)).cvtOk 8 16 f.w = true) ∧
      (∃ w sg, narrowCode 3 = some (.inr (w, sg)) ∧ (entry (vec 0x13 3)).cvtOk 8 16 w = true) ∧ (entry (vec 0x13 3)).cvtOk 8 16 8 = true) ∧
    (VSees (vec 0x03 3) [] ∧ (entry (vec 0x03 3)).isInt = true ∧ (entry (vec 0x03 3)).sew < 64 ∧ (entry (vec 0x03 3)).cvtOk 8 16 64 = true ∧
      4 < (entry (vec 0x03 3)).sew ∧ (entry (vec 0x03 3)).cvtOk 8 16 4 = true ∧
      ∃ f, floatCode 2 = some f ∧ (entry (vec 0x03 3)).cvtOk 8 16 f.w = true) ∧
    (VSees (vec 0x19 3) [] ∧ vtCls (entry (vec 0x19 3)).vt = 3 ∧ ∃ f, floatCode 1 = some f ∧ (entry (vec 0x19 3)).cvtOk 8 16 f.w = true) ∧
    (VSees (vec 0x09 3) [] ∧ (entry (vec 0x09 3)).sew = 8 ∧ vtCls (entry (vec 0x09 3)).vt = 1 ∧ (entry (vec 0x09 3)).lmul = 1) :=
  ⟨⟨v_sees _ _ (by decide +kernel), by decide +kernel, ⟨(floatCode 2).get (by decide), by decide +kernel⟩, by decide +kernel, by decide +kernel,
      ⟨_, rfl, by decide +kernel⟩, ⟨_, _, rfl, by decide +kernel⟩, by decide +kernel⟩,
    ⟨v_sees _ _ (by decide +kernel), by decide +kernel, by decide +kernel, by decide +kernel, by decide +kernel, by decide +kernel,
      ⟨(floatCode 2).get (by decide), by decide +kernel⟩⟩,
    ⟨v_sees _ _ (by decide +kernel), by decide +kernel, ⟨(floatCode 1).get (by decide), by decide +kernel⟩⟩,
    ⟨v_sees _ _ (by decide +kernel), by decide +kernel⟩⟩

/-- No element, one element, and a length that is no power of two. -/
theorem witness_VectorReductions : ∀ vl ∈ [0#64, 1, 3], (VSees (vec 0x03 vl) [9] ∧ (entry (vec 0x03 vl)).isInt = true ∧
      (entry (vec 0x03 vl)).groupHere 31 = true) ∧
    (VSees (vec 0x13 vl) [] ∧ (entry (vec 0x13 vl)).isFloat = true ∧ 16 ≤ (entry (vec 0x13 vl)).sew ∧ (entry (vec 0x13 vl)).groupHere 31 = true) := by
  intro vl hv
  simp only [List.mem_cons, List.not_mem_nil, or_false] at hv
  obtain rfl | rfl | rfl := hv <;>
    exact ⟨⟨v_sees _ _ (by decide +kernel), by decide +kernel⟩, v_sees _ _ (by decide +kernel), by decide +kernel⟩

theorem witness_VectorPermutations : VSees (vec 0x03 3) [31] ∧ VSees (vec 0x03 3) [] ∧ VSees (vec 0x03 3) [31, 31] ∧
    (entry (vec 0x03 3)).groupHere 31 = true ∧ (entry (vec 0x03 3)).groupHere 0 = true :=
  ⟨v_sees _ _ (by decide +kernel), v_sees _ _ (by decide +kernel), v_sees _ _ (by decide +kernel), by decide +kernel⟩

theorem witness_VectorMasks : VSees (vec 0x03 3) [31] ∧ VSees (vec 0x13 3) [] ∧ (entry (vec 0x03 3)).isInt = true ∧
    (entry (vec 0x13 3)).isFloat = true ∧ (entry (vec 0x03 3)).groupHere 31 = true ∧ (entry (vec 0x13 3)).groupHere 31 = true ∧ (7 : BitVec 3) ≠ 0 :=
  ⟨v_sees _ _ (by decide +kernel), v_sees _ _ (by decide +kernel), by decide +kernel⟩

/-- Element 1 of v1 and v2 is an infinity of either sign, and every exception is enabled. -/
def opposed (x : Hart) : Hart :=
  csr cFCSR 0x1F00 { x with arch := { x.arch with v := [(131072 + 6, 0x80), (131072 + 7, 0x7F), (262144 + 6, 0x80), (262144 + 7, 0xFF)] } }

/-- A hart of one quarter. -/
def quartered (x : Hart) : Hart :=
  { x with arch := { x.arch with grant := { quarters := 1, clusters := 0, base := 0, quarter := 0, dies := [0] } } }

theorem witness_VectorTraps :
    (VSees (vec 0x13 3) [] ∧ (entry (vec 0x13 3)).isInt = false) ∧ (VSees (vec 0x03 3) [] ∧ (entry (vec 0x03 3)).isFloat = false) ∧
    (VSees (vec 0x03 3 ∘ quartered) [] ∧ (entry (vec 0x03 3 ∘ quartered)).grant.clusters = 0) ∧
    open0.preempted = false ∧ base.arb.token = none ∧
    (let f := opposed ∘ vec 0x13 3
      let e := entry f
      (opened f).VReady [] (f open0) sheaf0 ∧ e.shapeOk ∧ e.isFloat = true ∧ 16 ≤ e.sew ∧ e.frm ≠ 4 ∧ e.groupHere 3 = true ∧
      e.groupHere 1 = true ∧ e.groupHere 2 = true ∧
      (e.active (f open0).arch 0).find? (fun j => decide ((roundsTo e.fmt e.frm false 0 (sumFV e.frm [e.fmt.decode (getElem (f open0).arch e.vb e.sew 1 j),
        e.fmt.decode (getElem (f open0).arch e.vb e.sew 2 j)])).2 &&& e.fen ≠ 0)) = some 1) :=
  ⟨⟨v_sees _ _ (by decide +kernel), by decide +kernel⟩, ⟨v_sees _ _ (by decide +kernel), by decide +kernel⟩,
    ⟨v_sees _ _ (by decide +kernel), by decide +kernel⟩,
    by decide +kernel, by decide +kernel,
    ⟨v_ready _ _ (by decide +kernel), by unfold QEntry.shapeOk; decide +kernel, by decide +kernel⟩⟩
/-! ### The hypotheses of the statements about vector memory, tiles and masks -/

/-- `base` with bytes at an address of its page of user memory, and the hart changed by `f`. -/
noncomputable def loaded (o : Nat) (bs : List Byte) : State := base.store (0x8_0000_0010_0000 + o) bs

theorem loaded_cur (o : Nat) (bs : List Byte) : (loaded o bs).cur = 0 := by
  unfold loaded
  exact (State.store_cur ..).trans cur_base

/-- The value of an outcome, where it is not an error. -/
def okOf {ε α : Type} : Except ε α → Option α
  | .ok a => some a
  | .error _ => none

theorem eq_of_okOf {ε α : Type} {x : Except ε α} {a : α} (h : okOf x = some a) : x = .ok a := by
  cases x with
  | error e => cases h
  | ok b => cases h; rfl

/-- `eltOk` of `Safety`, as a value. -/
def eltGood (s : State) (e : QEntry) (sh : Sheaf) (kind : Nat) (reads idx : Bool) (i : Nat) (x : Option Nat) (h : Nat) : Bool :=
  match x with
  | none => true
  | some a => decide (okOf (accessAt s (e.clusterOf i) e.grant e.csr false a e.eltBytes kind e.eltBytes) = some { home := h, hold := none }) &&
      (!reads || !readPoisoned s sh (e.reader idx) h e.eltBytes)

theorem eltOk_of {s : State} {e : QEntry} {sh : Sheaf} {kind : Nat} {reads idx : Bool} {i : Nat} {x : Option Nat}
    {h : Nat} (hg : eltGood s e sh kind reads idx i x h = true) : e.eltOk s sh kind reads idx i x h := by
  rintro a rfl
  simp only [eltGood, Bool.and_eq_true, decide_eq_true_eq, Bool.or_eq_true, Bool.not_eq_true'] at hg
  exact ⟨eq_of_okOf hg.1, fun hr => by simpa [hr] using hg.2⟩

/-- What holds of each element below VL and each field holds of the active ones. -/
theorem all_active {e : QEntry} {a : Arch} {m n v : Nat} {p : Nat → Nat → Prop} (hv : e.vl = v) (h : ∀ j < v, ∀ k < n, p j k) :
    ∀ j k, e.isActive a m j → k < n → p j k := by
  intro j k hj hk
  simp only [QEntry.isActive, Bool.and_eq_true, decide_eq_true_eq] at hj
  exact h j (hv ▸ hj.1) k hk

/-- A hart with v8 a vector of indexes 0, a tensor map of one dimension of 8 words in tam3, and x1 and x2 as given. -/
def memHart (vt : W64) (x1 x2 : W64) (x : Hart) : Hart :=
  vec vt 2 (reg 1 x1 (reg 2 x2 { x with arch := { x.arch with tam := [(385, 0xF8), (386, 0x01), (392, 4), (393, 1), (400, 8), (408, 4)] } }))

/-- The two elements of each form at the end of a page, or at one address. -/
theorem witness_VectorLoads :
    let meets (f : Hart → Hart) (rs : List Nat) (form : MemForm) (d : Nat) (h : Nat → Nat → Nat) : Prop :=
      VSees f rs ∧ memOk (entry f) (f open0).arch form d = true ∧ tensTrim (entry f) (f open0).arch form ((f open0).arch.r 1) = none ∧
      ∀ j k, (entry f).isActive (f open0).arch 0 j → k < form.nf →
        (entry f).eltOk (opened f) sheaf0 kRead true form.isIdx j (addrOf (entry f) (f open0).arch form ((f open0).arch.r 1) j k) (h j k)
    let p := 0x8_0000_0010_0000
    meets (memHart 0x03 0x1_FFF8 0) [1] .unit 31 (fun j _ => p + 0xFFF8 + 4 * j) ∧
    meets (memHart 0x03 0x1_FFFC (-8)) [1, 2] (.str (-8)) 31 (fun j _ => p + 0xFFFC - 8 * j) ∧
    meets (memHart 0x03 0x1_0010 0) [1] (.idx 8 8) 31 (fun _ _ => p + 0x10) ∧
    meets (memHart 0x03 0x1_FFE0 0) [1] (.seg 4) 28 (fun j k => p + 0xFFE0 + 16 * j + 4 * k) ∧
    meets (memHart 0x03 0x1_FFF8 0) [1] .ff 0 (fun j _ => p + 0xFFF8 + 4 * j) ∧
    meets (memHart 0x03 6 0) [1] (.tens 3) 7 (fun j _ => p + 0xF818 + 4 * j) :=
  ⟨⟨v_sees _ _ (by decide +kernel), by decide +kernel, by decide +kernel,
      all_active (v := 2) (by decide +kernel) fun j hj k hk => eltOk_of (by revert j k; decide +kernel)⟩,
    ⟨v_sees _ _ (by decide +kernel), by decide +kernel, by decide +kernel,
      all_active (v := 2) (by decide +kernel) fun j hj k hk => eltOk_of (by revert j k; decide +kernel)⟩,
    ⟨v_sees _ _ (by decide +kernel), by decide +kernel, by decide +kernel,
      all_active (v := 2) (by decide +kernel) fun j hj k hk => eltOk_of (by revert j k; decide +kernel)⟩,
    ⟨v_sees _ _ (by decide +kernel), by decide +kernel, by decide +kernel,
      all_active (v := 2) (by decide +kernel) fun j hj k hk => eltOk_of (by revert j k; decide +kernel)⟩,
    ⟨v_sees _ _ (by decide +kernel), by decide +kernel, by decide +kernel,
      all_active (v := 2) (by decide +kernel) fun j hj k hk => eltOk_of (by revert j k; decide +kernel)⟩,
    ⟨v_sees _ _ (by decide +kernel), by decide +kernel, by decide +kernel,
      all_active (v := 2) (by decide +kernel) fun j hj k hk => eltOk_of (by revert j k; decide +kernel)⟩⟩

theorem witness_VectorStores :
    let meets (f : Hart → Hart) (rs : List Nat) (resv : Hart → FMap Nat) (form : MemForm) (d : Nat) (h : Nat → Nat → Nat) : Prop :=
      VSees f rs ∧ 8 ≤ (entry f).sew ∧ memOk (entry f) (f open0).arch form d = true ∧
      tensTrim (entry f) (f open0).arch form ((f open0).arch.r 1) = none ∧ resvFits [sheaf0] (resv (f open0)) = true ∧
      ∀ j k, (entry f).isActive (f open0).arch 0 j → k < form.nf →
        (entry f).eltOk (opened f) sheaf0 kWrite false form.isIdx j (addrOf (entry f) (f open0).arch form ((f open0).arch.r 1) j k) (h j k)
    let p := 0x8_0000_0010_0000
    meets (memHart 0x01 0x1_FFFE 0) [1] (storeResv 1) .unit 31 (fun j _ => p + 0xFFFE + j) ∧
    meets (memHart 0x03 0x1_FFFC (-8)) [1, 2] scatterResv (.str (-8)) 31 (fun j _ => p + 0xFFFC - 8 * j) ∧
    meets (memHart 0x03 0x1_0010 0) [1] scatterResv (.idx 8 8) 31 (fun _ _ => p + 0x10) ∧
    meets (memHart 0x03 0x1_FFE0 0) [1] (storeResv 4) (.seg 4) 28 (fun j k => p + 0xFFE0 + 16 * j + 4 * k) ∧
    meets (memHart 0x03 6 0) [1] (storeResv 1) (.tens 3) 7 (fun j _ => p + 0xF818 + 4 * j) :=
  ⟨⟨v_sees _ _ (by decide +kernel), by decide +kernel, by decide +kernel, by decide +kernel, by decide +kernel,
      all_active (v := 2) (by decide +kernel) fun j hj k hk => eltOk_of (by revert j k; decide +kernel)⟩,
    ⟨v_sees _ _ (by decide +kernel), by decide +kernel, by decide +kernel, by decide +kernel, by decide +kernel,
      all_active (v := 2) (by decide +kernel) fun j hj k hk => eltOk_of (by revert j k; decide +kernel)⟩,
    ⟨v_sees _ _ (by decide +kernel), by decide +kernel, by decide +kernel, by decide +kernel, by decide +kernel,
      all_active (v := 2) (by decide +kernel) fun j hj k hk => eltOk_of (by revert j k; decide +kernel)⟩,
    ⟨v_sees _ _ (by decide +kernel), by decide +kernel, by decide +kernel, by decide +kernel, by decide +kernel,
      all_active (v := 2) (by decide +kernel) fun j hj k hk => eltOk_of (by revert j k; decide +kernel)⟩,
    ⟨v_sees _ _ (by decide +kernel), by decide +kernel, by decide +kernel, by decide +kernel, by decide +kernel,
      all_active (v := 2) (by decide +kernel) fun j hj k hk => eltOk_of (by revert j k; decide +kernel)⟩⟩

/-- Three elements of four bits: a whole byte and half of the next. -/
theorem witness_VectorStores_nibbles : let f := vec 0x00 3 ∘ reg 1 0x1_FFFE
    let e := entry f
    let act (j : Nat) : Bool := e.isActive (f open0).arch 0 j
    VSees f [1] ∧ (e.sew = 4 ∧ (opened f).ms.timed = false) ∧ e.groupHere 31 = true ∧ resvFits [sheaf0] (storeResv 1 (f open0)) = true ∧
    ∀ k, act (2 * k) || act (2 * k + 1) →
      accessAt (opened f) (e.grant.clusterAt (k % e.vb)) e.grant e.csr false ((((f open0).arch.r 1).toNat + k) % 2 ^ 64) 1 kWrite 1 =
        .ok { home := 0x8_0000_0010_FFFE + k, hold := none } ∧
      ((act (2 * k) && act (2 * k + 1)) = false → readPoisoned (opened f) sheaf0 (e.reader false) (0x8_0000_0010_FFFE + k) 1 = false) := by
  refine ⟨v_sees _ _ (by decide +kernel), by decide +kernel, by decide +kernel, by decide +kernel, ?_⟩
  intro k hk
  have hvl : (entry (vec 0x00 3 ∘ reg 1 0x1_FFFE)).vl = 3 := by decide +kernel
  have hk2 : k < 2 := by
    simp only [QEntry.isActive, hvl, Bool.or_eq_true, Bool.and_eq_true, decide_eq_true_eq] at hk
    omega
  obtain rfl | rfl : k = 0 ∨ k = 1 := by omega
  · exact ⟨eq_of_okOf (by decide +kernel), fun _ => by decide +kernel⟩
  · exact ⟨eq_of_okOf (by decide +kernel), fun _ => by decide +kernel⟩
/-- A valid tensor map, and a mask image of one word. -/
def mapBytes : List Byte := leBytes 8 0 ++ [4, 1] ++ List.replicate 6 0 ++ leBytes 8 8 ++ leBytes 8 4 ++ List.replicate 96 0
def imageBytes : List Byte := [1, 0, 0, 0, 0, 0, 0, 0, 0, 0, 0, 0x30] ++ List.replicate 60 0

/-- Bytes that a queued read may return are those of memory, where the sheaf has written none of them. -/
theorem bytes_of_memory {s : State} {sh : Sheaf} {r : Reader} {n : Nat} {hs : List Nat} {bs ms : List Byte} (hw : sh.writes = [])
    (hl : bs.length = n) (hm : ms.length = n)
    (hb : ∀ j < n, SeenBy s sh r (hs.getD (j / 8) 0 + j % 8) (bs.getD j 0))
    (hh : ∀ j < n, fget 0 s.mem (hs.getD (j / 8) 0 + j % 8) = ms.getD j 0) : bs = ms := by
  refine List.ext_getElem (hl.trans hm.symm) fun j h1 h2 => ?_
  have h := (hb j (hl ▸ h1)).1 (by rw [hw]; rfl)
  rw [hh j (hl ▸ h1)] at h
  simpa [List.getD_eq_getElem?_getD, h1, h2] using h

/-- A hart of a changed `base`, whose instructions are done as they are issued. -/
theorem v_sees_in (s : State) (x : Hart) (rs : List Nat) (hc : s.cur = 0) (ho : s.harts.all (fun e => decide (e.1 = 0)) = true)
    (hs : x.ready s.now = some x)
    (h : (∀ r ∈ rs, x.waitsOn r = false) ∧ x.arch.sup = false ∧ x.ahead = false ∧ x.held = none ∧ x.queue = [] ∧ x.sheaves = [sheaf0] ∧
      sheaf0.closed = none ∧ sheaf0.trap = none ∧ sheaf0.want = none ∧ (x.bqAfter rs).length < 16 ∧ x.issueAt ≠ s.now + 1) : (s.setHart 0 x).VReady rs x sheaf0 := by
  have hu : (s.setHart 0 x).Undisputed x := .inr fun e he hne => absurd (no_others s hc ho x e he) hne
  unfold State.VReady
  have hn : (s.setHart 0 x).now = s.now := State.setHart_now ..
  simpa only [and_assoc, hn] using And.intro (canRun_setHart s x rs hc hs h.1) (And.intro h.2 hu)

/-- The home addresses that a long access reads from the start of the page of user memory. -/
def longHomes (n : Nat) : List Nat := (List.range n).map (fun i => 0x8_0000_0010_1000 + 8 * i)

theorem witness_OtherVectorAccesses :
    (let e := entry (memHart 0x01 0x1_FFFF 0);
      VSees (memHart 0x01 0x1_FFFF 0) [1] ∧ ((opened (memHart 0x01 0x1_FFFF 0)).ms.timed = false ∧ (e.vl + vtBlk e.vt - 1) / vtBlk e.vt = 1) ∧ ∀ j < 1,
        accessAt (opened (memHart 0x01 0x1_FFFF 0)) (e.grant.clusterAt (j % e.vb)) e.grant e.csr false ((((memHart 0x01 0x1_FFFF 0) open0).arch.r 1).toNat + j) 1 kRead 1 =
          .ok { home := 0x8_0000_0010_FFFF + j, hold := none } ∧
        readPoisoned (opened (memHart 0x01 0x1_FFFF 0)) sheaf0 (e.reader false) (0x8_0000_0010_FFFF + j) 1 = false) ∧
    (let x := memHart 0x03 0x1_1000 0 open0
      let s := (loaded 0x1000 mapBytes).setHart 0 x
      let e := x.entry sheaf0
      s.VReady [1] x sheaf0 ∧ s.ms.timed = false ∧ longCheck s e sheaf0 (x.arch.r 1).toNat 128 128 = .ok (longHomes 16, none) ∧
      ∀ bs : List Byte, (bs.length = 128 ∧ ∀ j < 128, SeenBy s sheaf0 (e.reader false) ((longHomes 16).getD (j / 8) 0 + j % 8) (bs.getD j 0)) →
        (TensMap.ofBytes bs).isSome) ∧
    (let f := memHart 0x03 0x1_FFF8 0
      let e := entry f
      VSees f [1] ∧ aluTypeOf e.vt = some (.int32 true) ∧ aluOpOf 5 = some .xor ∧ e.groupHere 31 = true ∧ e.groupHere 8 = true ∧
      resvFits [sheaf0] (scatterResv (f open0)) = true ∧ resvFits [sheaf0] (storeResv 1 (f open0)) = true ∧
      ∀ j ∈ e.active (f open0).arch 0, (∃ x ∈ [j * 4], accessAt (opened f) (e.grant.clusterAt (j * 4 % e.vb)) e.grant e.csr false (((f open0).arch.r 1).toNat + x) 4 kReduce 4 =
        .ok { home := 0x8_0000_0010_FFF8 + x, hold := none })) ∧
    (let f := memHart 0x03 0 0
      let e := entry f
      VSees f [] ∧ e.grant.clusters ≠ 0 ∧ (opened f).ms.timed = false ∧ e.sew = 32 ∧ e.groupHere 31 = true ∧ e.groupHere 8 = true ∧
      resvFits [sheaf0] (scatterResv (f open0)) = true ∧
      ∀ j ∈ e.active (f open0).arch 0, ∀ kind ∈ [kRead, kWrite], let u := getElem (f open0).arch e.vb 32 8 j
        u % 4 = 0 ∧ u < 2 ^ 24 ∧ gangHolds (opened f) (f open0).gang (e.grant.base / 8 * 8 + u / 2 ^ 21 % 8) = true ∧
        watchHit e.csr (scratchHome (e.grant.base / 8 * 8 + u / 2 ^ 21 % 8) (u % 2 ^ 21)) 4 kind = none ∧
        readPoisoned (opened f) sheaf0 (e.reader true) (scratchHome (e.grant.base / 8 * 8 + u / 2 ^ 21 % 8) (u % 2 ^ 21)) 4 = false) ∧
    VSees (vec 0x03 0) [1] := by
  refine ⟨⟨v_sees _ _ (by decide +kernel), by decide +kernel, ?_⟩, ⟨?_, by decide +kernel, eq_of_okOf (by decide +kernel), ?_⟩,
    ⟨v_sees _ _ (by decide +kernel), by decide +kernel, by decide +kernel, by decide +kernel, by decide +kernel, by decide +kernel,
      by decide +kernel, ?_⟩, ⟨v_sees _ _ (by decide +kernel), by decide +kernel⟩, v_sees _ _ (by decide +kernel)⟩
  · intro j hj
    obtain rfl : j = 0 := by omega
    exact ⟨eq_of_okOf (by decide +kernel), by decide +kernel⟩
  · exact v_sees_in _ _ _ (loaded_cur _ _) (by decide +kernel) (by decide +kernel) (by decide +kernel)
  · rintro bs ⟨hl, hb⟩
    rw [bytes_of_memory (ms := mapBytes) (by decide +kernel) hl (by decide +kernel) hb (by decide +kernel)]
    decide +kernel
  · intro j hj
    have h2 : (entry (memHart 0x03 0x1_FFF8 0)).active (memHart 0x03 0x1_FFF8 0 open0).arch 0 = [0, 1] := by decide +kernel
    rw [h2] at hj
    simp only [List.mem_cons, List.not_mem_nil, or_false] at hj
    obtain rfl | rfl := hj
    · exact ⟨0, by decide, eq_of_okOf (by decide +kernel)⟩
    · exact ⟨4, by decide, eq_of_okOf (by decide +kernel)⟩

/-- Tiles enabled, and tile 7 for integer forms. -/
def tiled (vt vl : W64) : Hart → Hart := vec vt vl ∘ csr cZSTATE 1 ∘ csr (cZCFG + 7) 0x0040_4001 ∘ reg 4 63

/-- Every tile with REP 8, and the last tile with the last operand registers. -/
theorem witness_OuterProducts :
    (let e := entry (tiled 0x13 1);
      VSees (tiled 0x13 1) [] ∧ e.hasZ = true ∧ mopOk 0 24 31 6 0 = true ∧ ((tiled 0x13 1) open0).arch.zen = true ∧
      ∀ k ≤ 6, zcfgOk e.grant (fget 0 e.csr (cZCFG + (0 + k))) = true ∧ e.zew (0 + k) = (mopForm 0).ew) ∧
    (let e := entry (tiled 0x03 1);
      mopOk 7 31 31 0 7 = true ∧ zcfgOk e.grant (fget 0 e.csr (cZCFG + 7)) = true ∧ e.zew 7 = (mopForm 7).ew) ∧
    ∀ f ∈ [7, 8, 9, 0xA, 0xB, 0xC], (mopForm f).ew = true ∧ (∃ w sg, (mopForm f).fa = some (.inr (w, sg))) ∧
      ∃ w sg, (mopForm f).fb = some (.inr (w, sg)) := by
  refine ⟨⟨v_sees _ _ (by decide +kernel), by decide +kernel⟩, by decide +kernel, ?_⟩
  intro f hf
  simp only [List.mem_cons, List.not_mem_nil, or_false] at hf
  obtain rfl | rfl | rfl | rfl | rfl | rfl := hf <;> exact ⟨rfl, ⟨_, _, rfl⟩, _, _, rfl⟩

/-- The last row, column and cell of a tile. -/
theorem witness_TileOperations :
    let e := entry (tiled 0x13 3)
    let y := (tiled 0x13 3 open0).arch
    VSees (tiled 0x13 3) [4] ∧ VSees (tiled 0x13 3) [] ∧ e.hasZ = true ∧ zcfgOk e.grant (fget 0 e.csr (cZCFG + 0)) = true ∧
    sliceCheck e 0 31 false true = .ok ∧ sliceCheck e 0 31 false false = .ok ∧ y.zen = true ∧ (y.r 4).toNat < e.zrows 0 ∧ (y.r 4).toNat < e.zcols 0 ∧
    (y.r 4).toNat < 2 ^ 32 ∧ (y.r 4).toNat % 2 ^ 16 < e.zrows 0 ∧ (y.r 4).toNat / 2 ^ 16 < e.zcols 0 ∧ e.isFloat = true ∧ e.sew = 32 ∧
    e.groupHere 31 = true ∧ e.zew 0 = false ∧ (y.zen = false → y.z = []) ∧ zcfgOk y.grant 0x0001_0101 = true :=
  ⟨v_sees _ _ (by decide +kernel), v_sees _ _ (by decide +kernel), by decide +kernel⟩

/-- A program in mp3, whose image stands in memory too. -/
def masked (x : Hart) : Hart := tiled 0x03 3 (reg 1 0x1_1000 { x with arch := { x.arch with mp := [(216, 1), (227, 0x30)] } })

theorem witness_MaskUnit :
    (let x := masked open0
      let s := (loaded 0x1000 imageBytes).setHart 0 x
      let e := x.entry sheaf0
      s.VReady [1] x sheaf0 ∧ (s.ms.timed = false ∧ needsMask e.csr = true) ∧ longCheck s e sheaf0 (x.arch.r 1).toNat 72 8 = .ok (longHomes 9, none) ∧
      ∀ bs : List Byte, (bs.length = 72 ∧ ∀ j < 72, SeenBy s sheaf0 (e.reader false) ((longHomes 9).getD (j / 8) 0 + j % 8) (bs.getD j 0)) →
        imageBad bs = none) ∧
    (let e := entry masked
      let y := (masked open0).arch
      needsMask e.csr = true ∧ maskProgram y 3 = [0x3000_0000] ∧
      (∃ docs, readDocs (opened masked) e { sheaf0 with seq := sheaf0.seq + 1, asks := [] } (maskProgram y 3) = .ok docs ∧ docs.hold = none ∧
        docs.sheaf.asks = []) ∧
      VSees masked [9, 4] ∧ VSees masked [4] ∧ bits (y.rcsr cMSKSHAPE).toNat 29 16 ≤ 64 * max e.grant.clusters 1 ∧ e.hasZ = true ∧
      zcfgOk e.grant (fget 0 e.csr (cZCFG + 0)) = true ∧ y.zen = true ∧ e.zew 0 = false ∧ (7 : BitVec 3) ≠ 0) := by
  refine ⟨⟨?_, by decide +kernel, eq_of_okOf (by decide +kernel), ?_⟩, by decide +kernel, by decide +kernel,
    ⟨(okOf (readDocs (opened masked) (entry masked) { sheaf0 with seq := sheaf0.seq + 1, asks := [] } (maskProgram (masked open0).arch 3))).get (by decide +kernel),
      eq_of_okOf (by decide +kernel), by decide +kernel⟩, v_sees _ _ (by decide +kernel), v_sees _ _ (by decide +kernel), by decide +kernel⟩
  · exact v_sees_in _ _ _ (loaded_cur _ _) (by decide +kernel) (by decide +kernel) (by decide +kernel)
  · rintro bs ⟨hl, hb⟩
    rw [bytes_of_memory (ms := imageBytes) (by decide +kernel) hl (by decide +kernel) hb (by decide +kernel)]
    decide +kernel

/-- A causal mask above, on and below the diagonal. -/
theorem witness_MaskClassSound : (4 ≤ 5 ∧ 5 ≤ 5 ∧ 0 ≤ 0 ∧ 0 ≤ 3) ∧
    evalClass [] 4 5 0 3 [0x1000_0000] [] = 2 ∧ evalClass [] 0 1 4 5 [0x1000_0000] [] = 0 := by decide +kernel
/-! ### The hypotheses of the statements about strips, numbers, encodings, steps, commands and advice -/

/-- A hart can open a strip. -/
theorem can_open (s : State) (x : Hart) (rs : List Nat) (hc : s.cur = 0) (ho : s.harts.all (fun e => decide (e.1 = 0)) = true)
    (h : x.arch.sup = false ∧ x.ahead = false ∧ x.held = none ∧ x.queue = [] ∧ x.pend = [] ∧ (∀ b ∈ x.bq, b.here = true) ∧
      (∀ r ∈ rs, x.waitsOn r = false) ∧ x.preempted = false ∧ x.issueAt ≠ s.now + 1) : (s.setHart 0 x).CanOpen x rs := by
  have hu : ∀ e ∈ (s.setHart 0 x).harts, e.1 ≠ (s.setHart 0 x).cur → e.2.queue = [] := fun e he hne => absurd (no_others s hc ho x e he) hne
  unfold State.CanOpen
  have hn : (s.setHart 0 x).now = s.now := State.setHart_now ..
  simpa only [and_assoc, hn] using And.intro (hart_setHart0 s x hc) (And.intro h hu)

/-- A block table in memory at 0x1_1000 for blocks of 16, of element size 1, whose entry 0 names block 5. -/
def run (x : Hart) : Hart := csr 0x1C 0x1_1000 (csr 0x1E 0x1_0004 (reg 1 7 (reg 2 20 x)))

/-- With no sheaf open and with one, whose checks pass. -/
theorem witness_StripsOpen :
    ((base.setHart 0 hart0).CanOpen hart0 [31, 1, 2] ∧ (base.setHart 0 open0).CanOpen open0 [31, 1, 2]) ∧ hart0.sheaves = [] ∧
    open0.sheaves = [sheaf0] ∧ sheaf0.closed = none ∧ sheaf0.trap = none ∧ sheaf0.want = none ∧ sheaf0.held = none ∧ sheaf0.sup = false ∧
    base.arb.token = none ∧ base.arb.slices = [] ∧ base.arb.slicesQ = [] ∧ vtLegal ((0x13#11).zeroExtend 64) = true ∧
    vtLegal (hart0.arch.rcsr cVTYPE) = true :=
  ⟨⟨can_open _ _ _ cur_base (by decide +kernel) (by decide +kernel), can_open _ _ _ cur_base (by decide +kernel) (by decide +kernel)⟩,
    by decide +kernel⟩

/-- A block table, whose entry 0 is read; where timing is kept its data has come. -/
theorem witness_StripsOpen_table : let x := { run hart0 with tableAt := some 0x8_0000_0010_1000 }
    let s := (loaded 0x1000 [5]).setHart 0 x
    let r := x.granted
    (s.CanOpen x [31, 1, 2] ∧ ((loaded 0x1000 [5]).setTimed true |>.setHart 0 x).CanOpen x [31, 1, 2]) ∧
    r.r 2 ≠ 0 ∧ (r.r 1).toNat / 2 ^ bits (r.rcsr 0x1E).toNat 3 0 = 0 ∧ (r.rcsr 0x1C).toNat % 4 = 0 ∧
    boundsOk s r.grant r.csr (r.rcsr 0x1C).toNat 4 kRead = true ∧
    homeOf s r.grant (r.rcsr cPTROOT) (r.rcsr 0x1C).toNat kRead true = some 0x8_0000_0010_1000 ∧ poisoned s 0x8_0000_0010_1000 = false ∧
    memNat s 0x8_0000_0010_1000 4 = 5 ∧ x.btcache = [] ∧ s.ms.timed = false :=
  ⟨⟨can_open _ _ _ (loaded_cur _ _) (by decide +kernel) (by decide +kernel),
    can_open _ _ _ (by decide +kernel) (by decide +kernel) (by decide +kernel)⟩, by decide +kernel⟩

/-- SEW of 128 bits. -/
theorem witness_IllegalStripTraps : (base.setHart 0 hart0).CanOpen hart0 [3, 1] ∧ hart0.sheaves = [] ∧ hart0.cap = 0 ∧
    base.arb.token = none ∧ vtLegal ((5#11).zeroExtend 64) = false :=
  ⟨can_open _ _ _ cur_base (by decide +kernel) (by decide +kernel), by decide +kernel⟩

/-- 11 × 2^-2 lies between codes 5 and 6 of FP4, nearer to code 5; 6 is its largest finite value, code 7. -/
theorem witness_RoundCorrect : fp4 ∈ [fp64, fp32, fp16, bf16, e5m2, e4m3, fp4] ∧ (roundTo fp4 0 false 0 (.fin false 11 (-2) false)).1 = 5 ∧
    (5 < 2 ^ fp4.w ∧ (fp4.decode 5).exact = true) ∧ (7 < 2 ^ fp4.w ∧ (fp4.decode 7).exact = true) ∧
    fp4.decode 7 = .fin false 3 1 false := by decide +kernel

/-- 1, 3 and -2, which are exact. -/
theorem witness_ExactOperations : (FV.fin false 1 0 false).exact = true ∧ (FV.fin false 3 0 false).exact = true ∧
    (FV.fin true 1 1 false).exact = true ∧ (FV.fin false 3 0 false).val ≠ 0 ∧ 0 < (FV.fin false 3 0 false).val := by
  refine ⟨rfl, rfl, rfl, ?_, ?_⟩ <;> norm_num [FV.val]

/-- The largest code of FP64's range as operands, under SR with an empty queue. -/
theorem witness_ScalarFloats : let f := csr cFCSR 0x80 ∘ reg 2 0x7FEF_FFFF_FFFF_FFFF
    (opened f).CanRun [31, 2, 2] (f open0) ∧ frm (f open0).arch.csr = 4 ∧ (f open0).queue = [] ∧ fen (f open0).arch.csr = 0 :=
  ⟨can_run _ _ (by decide +kernel) (by decide +kernel), by decide +kernel⟩

theorem witness_DecodeEncode : (Instr.advBr 15 15 3 0x1FFF).wf = true ∧ (encode (.advBr 15 15 3 0x1FFF)).isSome = true ∧
    adviceHalf (.advBr 15 15 3 0x1FFF) = true ∧ (Instr.engCpy 31 30 30 7 1 7).wf = true ∧ (encode (.engCpy 31 30 30 7 1 7)).isSome = true ∧
    adviceHalf (.engCpy 31 30 30 7 1 7) = false := by decide +kernel

theorem witness_EncodeDecode : reads decode 0b110100_11111_11110_11110_111_1_111_0000 (.engCpy 31 30 30 7 1 7) = true ∧ reads decodeAdvice 0x0000_0000 (.advAwait 0) = false := by
  decide +kernel

/-- A hart that fetches the word of zeros at the start of its page, which is no instruction, and one that fetches an ADDI. -/
theorem witness_StepRunsDecoded : base.due = [] ∧ base.quiet = true ∧ (base.begin runAdvice).Fetches hart0 0x8_0000_0010_0000 0 ∧
    ((loaded 0 (leBytes 4 0x1022_FFFF)).begin runAdvice).Fetches hart0 0x8_0000_0010_0000 0b000100_00001_00010_1111111111111111#32 := by
  unfold State.Fetches
  decide +kernel

theorem witness_MemoryStaysCanonical : base.MemOk ∧ ∃ t, step base = .next t := by
  refine ⟨by unfold State.MemOk; decide +kernel, ?_⟩
  have h : (match step base with | .next _ => true | _ => false) = true := by decide +kernel
  revert h
  cases step base <;> simp

/-- EQ with nothing in it and no TAMW queued. -/
theorem witness_EngineIssue : (opened id).CanRun [31, 30, 31, 30, 31] open0 ∧ open0.cur = some sheaf0 ∧ open0.eqUsed < 16 ∧
    open0.tamwQueued = false := ⟨can_run id _ (by decide +kernel) (by decide +kernel), by decide +kernel⟩

/-- A sequencer in RUN with `n` actions queued. -/
def seq0 (n : Nat) : Adv :=
  { p := [], apc := 0, mode := .run, lastId := 0, lastArg := 0, queue := List.replicate n (.prio 0), line := none, windows := [], prefer := [],
    weight := 4, request := none, base := 0, size := 64, runFrom := 0, asked := none, headAt := 0 }

theorem witness_AdviceInstructions : ∀ n ∈ [0, 7, 8], let x : Hart := { open0 with adv := some (seq0 n) }
    let s := base.setHart 0 x
    s.hart s.cur = some x ∧ x.adv = some (seq0 n) ∧ (seq0 n).mode = .run ∧ (seq0 n).queue.length = n ∧ (seq0 n).runFrom ≤ s.now :=
  fun n _ => ⟨hart_setHart0 _ _ cur_base, rfl, rfl, by simp [seq0], Nat.zero_le _⟩

/-- A mark table with one entry, whose mark 5 begins at 0x40, and the sequencer of a hart that delivers mark `id`: it awaits that mark, or
is in RUN for a mark with a block and for one without. -/
theorem witness_WaitsAndMarks_advice : let s := loaded 0x1000 (leBytes 8 1 ++ leBytes 8 0 ++ leBytes 8 0x40_0000_0005)
    let x (m : AdvMode) : Hart := csr cADVPTR 0x1_1000 { open0 with adv := some { seq0 0 with mode := m } }
    (s.setHart 0 (x .run)).CanRun [1] (x .run) ∧ (x .run).adv = some (seq0 0) ∧ (x .run).arch.sup = false ∧
    (s.setHart 0 (x (.await 5))).CanRun [1] (x (.await 5)) ∧ (x (.await 5)).adv = some { seq0 0 with mode := .await 5 } ∧
    markBlock (s.setHart 0 (x .run)) (x .run) 5 = some 0x40 ∧ markBlock (s.setHart 0 (x .run)) (x .run) 6 = none :=
  ⟨canRun_setHart _ _ _ (loaded_cur _ _) (by decide +kernel) (by decide +kernel), by decide +kernel, by decide +kernel,
    canRun_setHart _ _ _ (loaded_cur _ _) (by decide +kernel) (by decide +kernel), by decide +kernel, by decide +kernel, by decide +kernel⟩
/-! ### The hypotheses of the statements about events of a hart -/

/-- The sheaf after a store of 7 at 0x1_1000, closed. -/
noncomputable def written : Sheaf :=
  { sheaf0 with writes := [(0x8_0000_0010_1000, [{ val := 7, agent := .scalar, seq := 0, nSV := 0, nVS := 0, nVV := 0 }])],
                wset := (sheaf0.addWrite 0x8_0000_0010_1000 1).wset, closed := some .ordinary, seq := 1 }

/-- A package whose hart has sheaves `k`; with the slices `a` of the arbiter held. -/
noncomputable def sheaved (f : Hart → Hart) (ks : List Sheaf) : State := base.setHart 0 { f open0 with sheaves := ks }
noncomputable def sliced (a : FMap (Option Nat)) : State := { base with arb := { base.arb with slices := a } }

/-- The first slice is free, is held by another hart, or is awaited by another. -/
theorem witness_HartEvents_slices : let x : Hart := { open0 with sheaves := [written] }
    x.sheaves[x.front]? = some written ∧ x.commitReady = true ∧ (base.setHart 0 x).tokenBlocks 0 written = false ∧
    (base.setHart 0 x).slicesWanted 0 written = [0] ∧ ((sliced [(0, some 9)]).setHart 0 x).slicesWanted 0 written = [0] ∧
    ((sliced [(0, some 0)]).setHart 0 x).slicesWanted 0 written = [] := by decide +kernel

theorem test_commitSliceAcquire : (next (.commitSliceAcquire 0) (sheaved id [written])).arb.slices = [(0, some 0)] ∧
    (next (.commitSliceAcquire 0) ((sliced [(0, some 9)]).setHart 0 { open0 with sheaves := [written] })).arb.slicesQ = [(0, 0)] := by decide +kernel

theorem witness_HartEvents_commit : let x : Hart := { open0 with sheaves := [written] }
    let s := (sliced [(0, some 0)]).setHart 0 x
    s.hart 0 = some x ∧ x.sheaves = [written] ∧ written.held = none ∧ x.commitReady = true ∧ s.tokenBlocks 0 written = false ∧
    s.slicesWanted 0 written = [] ∧ written.reds = [] ∧ s.NoneHeld ∧ s.arb.heldWrites = [] ∧ (∃ e ∈ written.writes, e.1 = 0x8_0000_0010_1000) ∧
    ∀ e ∈ written.writes, e.1 = 0x8_0000_0010_1000 →
      e.2 = [] ++ [{ val := 7, agent := .scalar, seq := 0, nSV := 0, nVS := 0, nVV := 0 }] :=
  ⟨State.hart_setHart_self .., rfl, by decide +kernel, by decide +kernel, by decide +kernel, by decide +kernel, by decide +kernel,
    none_held _ (by decide +kernel) _ (by decide +kernel), by decide +kernel, by decide +kernel, by decide +kernel⟩

/-- R271: the byte reaches memory, the stamp grows, the sheaf is gone. -/
theorem test_sheafCommit : let t := next (.sheafCommit 0) ((sliced [(0, some 0)]).setHart 0 { open0 with sheaves := [written] })
    fget 0 t.mem 0x8_0000_0010_1000 = 7 ∧ t.stamp = base.stamp + 1 ∧ t.now = base.now ∧
    (t.hart 0).map (fun z => (z.sheaves, z.arch, fget 0 z.cnt cINSTRET)) = some ([], open0.arch, 1) := by decide +kernel

theorem test_soloTokenGrant : let s : State := { base with arb := { base.arb with tokenQ := [0, 5] } }
    s.arb.token = none ∧ (next .soloTokenGrant s).arb = { s.arb with token := some 0, tokenQ := [5] } := by decide +kernel

/-- A sheaf with a trap that waits to land. -/
noncomputable def stopped : Sheaf := { sheaf0 with trap := some { cause := 3, kind := 1, tpc := 0x1_0008, telem := 5, tlane := 6, tval := 7, seq := 0, opener := false } }

theorem witness_HartEvents_traps : let x : Hart := { open0 with sheaves := [stopped] }
    x.arch.sup = false ∧ x.held = none ∧ x.sheaves = [stopped] ∧ stopped.want = none ∧ x.preempted = false ∧ base.arb.token = none ∧
    (∃ u, stopped.trap = some u ∧ u.opener = false ∧ ∀ e ∈ x.queue, e.young = false → u.seq ≤ e.seq) :=
  ⟨by decide +kernel, by decide +kernel, rfl, by decide +kernel, by decide +kernel, by decide +kernel, _, rfl, rfl, by decide +kernel⟩

theorem test_trapLanding : (after (.trapLanding 0) (sheaved id [stopped])).map (fun z => (z.arch.pc, z.arch.sup, z.arch.rcsr cTCAUSE, z.arch.rcsr 0x305, z.sheaves)) =
    some (0x2_0000, true, 0x103, 5, []) := by decide +kernel

/-- A sheaf whose instruction at 0x1_0000 has hit watchpoint 3. -/
noncomputable def watching : Sheaf := { sheaf0 with want := some {
  wp := 3, trap := { cause := 5, kind := 0, tpc := 0x1_0000, telem := 0, tlane := 0, tval := 9, seq := 0, opener := false }, x := [(4, 11)],
  csr := sheaf0.cp.csr, nSV := 0, nVS := 0, nVV := 0, resv := [] } }

theorem witness_HartEvents_hold : let x : Hart := { open0 with sheaves := [watching] }
    let s := base.setHart 0 x
    x.sheaves = [watching] ∧ x.parkReady = true ∧ s.arb.token = none ∧ s.NoneHeld ∧
    ∃ k, watching.want = some k ∧ k.trap.cause < 256 ∧ k.trap.kind < 4 ∧ s.SparesFrame { x.arch with csr := k.csr } watching :=
  ⟨rfl, by decide +kernel, by decide +kernel, none_held _ only_base _ (by decide +kernel), _, rfl, by decide, by decide, by
    unfold State.SparesFrame; exact ⟨by decide +kernel, fun m hm => by
      have h : homeOf (base.setHart 0 { open0 with sheaves := [watching] }) open0.arch.grant (open0.arch.rcsr cPTROOT)
        (open0.arch.rcsr cSAVEPTR).toNat kWrite false = some 0x8_0000_0012_0000 := by decide +kernel
      rw [show m = 0x8_0000_0012_0000 from Option.some.inj (hm.symm.trans h)]
      decide +kernel⟩⟩

theorem test_holdStop : (after (.holdStop 0) (sheaved id [watching])).map (fun z =>
    (z.held, z.arch.sup, z.arch.pc, z.arch.rcsr cTPC, bit (z.arch.rcsr cTCAUSE).toNat 11)) = some (some 3, true, 0x2_0000, 0x1_0000, true) ∧
    (after (.holdStop 0) (sheaved id [watching])).map (fun z => (z.arch.x, z.landing.map (fun l => (l.arch.pc, l.arch.x)))) =
      some ([(4, 11)], some (0x1_0004, [(4, 11)])) := by decide +kernel

/-- VINT.ADD of v1 and v2 into v3 as it stands in the queue. -/
noncomputable def waiting : QEntry := { (vec 0x03 3 open0).entry sheaf0 with op := .int .add 3 1 (.vec 2) 0 }

/-- A queued instruction has its effect, and hits no watchpoint and no enabled exception. -/
def runsFree (r : Ran) (n : Nat) : Bool :=
  match r with
  | .done d => decide (d.hold = none) && decide (d.sheaf.want = none) && decide (d.acc.fl &&& n = 0)
  | _ => false

theorem done_of_runs {r : Ran} {n : Nat} (h : runsFree r n = true) : ∃ d, r = .done d ∧ d.hold = none ∧ d.sheaf.want = none ∧ d.acc.fl &&& n = 0 := by
  cases r with
  | done d => exact ⟨d, rfl, by simpa [runsFree, and_assoc] using h⟩
  | _ => cases h

theorem witness_HartEvents_queued : let x : Hart := { vec 0x03 3 open0 with queue := [waiting], ahead := true }
    x.queue = waiting :: [] ∧ waiting.young = false ∧ waiting.op.isStrip = false ∧ (∀ v, waiting.op ≠ .trmark v) ∧ x.sheaves = [sheaf0] ∧
    sheaf0.trap = none ∧ sheaf0.want = none ∧ x.arch.grant.clusters ≠ 0 ∧ x.issueAt ≠ (base.setHart 0 x).now + 1 ∧
    base.ms.timed = false ∧ ∃ d, runVOp (base.setHart 0 x) x.gang waiting x.arch { sheaf0 with asks := [] } (sheaf0.byStrip && !waiting.sup) = .done d ∧ d.hold = none ∧
      d.sheaf.want = none ∧ d.acc.fl &&& waiting.fen = 0 := by
  exact ⟨rfl, rfl, rfl, fun v => (nofun : VOp.int .add 3 1 (.vec 2) 0 ≠ .trmark v), by decide +kernel, by decide +kernel,
    by decide +kernel, by decide +kernel, by decide +kernel, by decide +kernel, done_of_runs (by decide +kernel)⟩

/-- Loads of the oldest sheaf into registers 4 and 3, whose data have not arrived. -/
def late (n : Nat) : Pending := { reg := n, issued := 0, young := false }

/-- Load data, a fetch, the answers of the system cores, and the debugger's mark. -/
theorem witness_HartEvents_waits : (let x : Hart := { open0 with pend := [late 4, late 3] }; base.ms.timed = false ∧ x.pend = [late 4] ++ [late 3]) ∧
    (let x : Hart := { hart0 with wait := .zaction false }; x.wait = .zaction false ∧ x.sheaves = []) ∧
    (let x : Hart := { hart0 with wait := .answer true }; x.wait = .answer true ∧ x.sheaves = [] ∧ x.charac = false) ∧
    (let x : Hart := { hart0 with wait := .answer true, charac := true }; x.wait = .answer true ∧ x.sheaves = [] ∧ x.charac = true ∧ x.arch.rx 10 = 0) := by decide +kernel

/-- R129: a stall on register 3 ends with its data, and one on register 4 goes on. -/
theorem test_loadDataDelivery : let x (r : Nat) : Hart := { open0 with pend := [late 4, late 3], blocked := true, onLoad := [r] }
    next (.loadDataDelivery 0) (base.setHart 0 (x 3)) = base.setHart 0 { x 3 with pend := [late 4], onLoad := [], blocked := false } ∧
    next (.loadDataDelivery 0) (base.setHart 0 (x 4)) = base.setHart 0 { x 4 with pend := [late 4] } := by decide +kernel

theorem test_instructionFetchReturn : let x : Hart := { open0 with blocked := true }
    next (.instructionFetchReturn 0) (base.setHart 0 x) = base.setHart 0 { x with blocked := false } := by decide +kernel

theorem test_zstateZclr : let x : Hart := { hart0 with wait := .zaction false }
    next (.zstateZclr 0) (base.setHart 0 x) = base.setHart 0 { x with wait := .none, arch := { x.arch with z := [] }.wcsr cZSTATE 1 } := by decide +kernel

theorem test_systemCoreAnswer : let x : Hart := { hart0 with wait := .answer true }
    next (.systemCoreAnswer 0 5) (base.setHart 0 x) = base.setHart 0 { x with wait := .none, arch := (x.arch.wx 10 5).next } ∧
    (next (.systemCoreAnswer 0 1) (base.setHart 0 x)).hart 0 = none := by decide +kernel

theorem test_debuggerAttach : (after (.debuggerAttach 0) (base.setHart 0 open0)).map (fun z => bits (z.arch.rcsr cHSTATUS).toNat 11 11) = some 1 ∧
    (after (.debuggerDetach 0) (base.setHart 0 (csr cHSTATUS 0x800 open0))).map (fun z => bits (z.arch.rcsr cHSTATUS).toNat 11 11) = some 0 := by decide +kernel

/-- The pages of the tiles of a save area are mapped. -/
noncomputable def mapped : State :=
  (base.store (demoRoot + 0x5_0000 + 32) (leBytes 8 (demoLeaf (demoRoot + 0x13_0000) false))).store (demoRoot + 0x5_0000 + 40)
    (leBytes 8 (demoLeaf (demoRoot + 0x14_0000) false))

theorem witness_HartEvents_zload : let x : Hart := { hart0 with wait := .zaction true }
    x.wait = .zaction true ∧ x.sheaves = [] ∧ ∃ z, (mapped.setHart 0 x).loadTiles x = .ok z := by
  refine ⟨rfl, by decide +kernel, ?_⟩
  have h : (okOf ((mapped.setHart 0 { hart0 with wait := .zaction true }).loadTiles { hart0 with wait := .zaction true })).isSome = true := by decide +kernel
  obtain ⟨z, hz⟩ := Option.isSome_iff_exists.1 h
  exact ⟨z, eq_of_okOf hz⟩

/-- A hart that has called ECALL service 0. -/
noncomputable def called : State := next .sysEcall (opened id)
noncomputable def hart2 : Hart := (called.hart 0).get (by decide +kernel)

theorem witness_HartEvents_end : called.hart 0 = some hart2 ∧ (∃ l, hart2.landing = some l ∧ l.arch.rx 10 = 0) ∧
    bits (hart2.arch.rcsr cTCAUSE).toNat 7 0 = 0x0C ∧ (∀ c ∈ hart2.chans, c.err = none ∧ c.waiting = [] ∧ c.running = []) ∧ hart2.gone = false ∧
    ffind called.gangs hart2.gang = some gang0 ∧ gang0.eng = none ∧ called.arb.heldWrites = [] ∧
    -- the one that a barrier misses, and not
    (let q : Gang := { gang0 with live := [0, 1], arrived := [1] };
      (q.live.erase 0 ≠ [] ∧ ∀ k ∈ q.live.erase 0, k ∈ q.arrived.erase 0) ∧ gang0.live.erase 0 = []) :=
  ⟨by decide +kernel, ⟨hart2.landing.get (by decide +kernel), by decide +kernel⟩, by decide +kernel, by decide +kernel⟩

/-- R258: a barrier that misses only the hart that ends is passed. -/
theorem test_hartEnd_barrier : let q : Gang := { gang0 with live := [0, 1], arrived := [1], gen := 6 }
    let t := next (.hartEnd 0) (({ called with gangs := [(0, q)] } : State).setHart 1 { hart0 with wait := .gbar 6 true })
    (t.hart 1).map (·.wait) = some .none ∧ (ffind t.gangs 0).map (fun g => (g.gen, g.arrived, g.live)) = some (7, [], [1]) := by decide +kernel

theorem test_hartEnd : let t := next (.hartEnd 0) called
    t.hart 0 = none ∧ t.mg.outbox = [(4, [0])] ∧ ffind t.gangs 0 = none ∧ (t.disp.dieRegs[0]?).map (fun r => fget 0 r.lqdone 8) = some 1 := by decide +kernel

/-- R138, R312: a hart that has ended at once, with no command under way, is gone. -/
theorem test_hartEnd_gone : let x : Hart := { hart0 with gone := true }
    x.gone = true ∧ (∀ c ∈ x.chans, c.err = none ∧ c.waiting = [] ∧ c.running = []) ∧ (next (.hartEnd 0) (base.setHart 0 x)).harts = [] := by decide +kernel

theorem witness_HartEvents_write : physOk (opened id) 0x7F_FFFF_FFF8 8 = true ∧ (opened id).tokenHolds 0x7F_FFFF_FFF8 8 = false ∧
    ([1, 2, 3, 4, 5, 6, 7, 8] : List Byte) ≠ [] ∧ (opened id).NoneHeld :=
  ⟨by decide +kernel, by decide +kernel, by decide, none_held _ only_base _ (by decide +kernel)⟩
/-! ### The hypotheses of the statements about waits and launches -/

/-- Channel 7 with TL 5, with and without an error. -/
def chan0 (err : Option ChanErr) : Chan := { ctx := none, waiting := [], running := [], done := [], tl := 5, err := err }
noncomputable def chanHart (w : Wait) (err : Option ChanErr) : Hart := { hart0 with wait := w, chans := hart0.chans.set 7 (chan0 err) }

/-- A copy of 8 bytes from 0x1_1000 to 0x1_1008, command 6 of channel 7. -/
def copy8 : Cmd :=
  { fn := .cpy, ch := 7, id := 6, after := none, xa := 0x1_1008, xa1 := 0x1_1000, xb := 8, xb1 := 0, sup := false, smap := [], dmap := [], mmap := [] }

/-- Harts that break a limit of R25 for 2^20 ck: in an instruction that finds BQ full, and in a TLWAIT for a command that an AFTER condition on a command
never issued holds back; and one that breaks none, whose command only takes long. -/
noncomputable def overfull : Hart := { open0 with noProg := 1, blocked := true, overBq := true }
noncomputable def waitsAfter (a : Option (Nat × W64)) : Hart :=
  csr (cTID + 7) 6 { hart0 with noProg := 1, wait := .tlwait 7 6 0x1_0004, chans := hart0.chans.set 7 { chan0 none with waiting := [{ copy8 with after := a }] } }

theorem witness_WaitEvents_tlwait :
    (∃ x, x = chanHart (.tlwait 7 5 0x1_0000) none ∧ x.parked = false ∧ x.sheaves = [] ∧ x.wait = .tlwait 7 5 0x1_0000 ∧ x.chans[7]? = some (chan0 none) ∧
      (chan0 none).err = none ∧ (5#64).toNat ≤ (chan0 none).tl) ∧
    (∃ x e, x = chanHart (.tlwait 7 6 0x1_0000) (some e) ∧ x.chans[7]? = some (chan0 (some e)) ∧ x.arch.sup = false ∧ x.preempted = false ∧
      e = { id := 6, applied := 3, code := 2 }) ∧
    (∃ x : Hart, x = { hart0 with wait := .icwait 63 2 0x1_0000, ic := [(63, 2)] } ∧ x.sheaves = [] ∧ x.wait = .icwait 63 2 0x1_0000 ∧
      (2#64).toNat ≤ (fget 0 x.ic 63).toNat) :=
  ⟨⟨_, rfl, by decide +kernel⟩, ⟨_, { id := 6, applied := 3, code := 2 }, rfl, by decide +kernel⟩, ⟨_, rfl, by decide +kernel⟩⟩

theorem test_tlwaitResume : let x := chanHart (.tlwait 7 5 0x1_0000) none
    next (.tlwaitResume 0) (base.setHart 0 x) = base.setHart 0 { x with wait := .none, blocked := false, noProg := 0 } := by decide +kernel

/-- R243, R256: the error of a channel is delivered by CMDERR with its identifier, count, channel and code. -/
theorem test_tlwaitResume_error : (after (.tlwaitResume 0) (base.setHart 0 (chanHart (.tlwait 7 6 0x1_0000) (some { id := 6, applied := 3, code := 2 })))).map
    (fun z => (z.arch.pc, bits (z.arch.rcsr cTCAUSE).toNat 7 0, z.arch.rcsr cTPC, z.arch.rcsr 0x305, z.arch.rcsr 0x306, z.arch.rcsr 0x307)) =
      some (0x2_0000, 0x0F, 0x1_0000, 3, 0x702, 6) := by decide +kernel

theorem witness_WaitEvents_others :
    (let x : Hart := { open0 with wait := .qdrain 15 }; x.wait = .qdrain 15 ∧ x.qdrained 15 = true ∧ x.sheaves = [] ++ [sheaf0] ∧ x.parked = false) ∧
    (let x : Hart := { open0 with wait := .wfi base.now }; x.wait = .wfi base.now ∧ x.sheaves = [] ++ [sheaf0]) ∧
    (let x : Hart := { open0 with wait := .wfi (base.now + 9), preempt := 1 }; x.wait = .wfi (base.now + 9) ∧ x.preempt ≠ 0) ∧
    (let x := overfull; let s : State := { base with now := 2 ^ 20 }
      x.dead s.now = true ∧ x.breaksLimit = true ∧ x.preempt = 0 ∧ x.held = none ∧ x.wait = .none ∧ x.atOpener = false ∧ ({ s with cur := 0 } : State).CanLand x sheaf0 ∧
      sheaf0.closed = none ∧ sheaf0.held = none) ∧
    (let x := waitsAfter (some (3, 9)); x.dead (2 ^ 20) = true ∧ x.dead (2 ^ 20 - 1) = false ∧ x.breaksLimit = true ∧ x.preempt = 0 ∧ x.held = none ∧ x.arch.sup = false ∧
      x.sheaves = [] ∧ x.wait = .tlwait 7 6 0x1_0004 ∧ base.arb.token = none ∧ (waitsAfter none).dead (2 ^ 20) = true ∧
      (waitsAfter none).breaksLimit = false) := by
  unfold State.CanLand State.NoToken
  decide +kernel

theorem test_qdrainDone : let x : Hart := { open0 with wait := .qdrain 15 }
    next (.qdrainDone 0) (base.setHart 0 x) = base.setHart 0 { x with wait := .none, arch := x.arch.next, bq := [], sheaves := [{ sheaf0 with seq := 1 }] } := by
  decide +kernel

theorem test_wfiWake : let x : Hart := { open0 with wait := .wfi base.now }
    next (.wfiWake 0) (base.setHart 0 x) = base.setHart 0 { x with wait := .none, arch := x.arch.next, sheaves := [{ sheaf0 with seq := 1 }] } := by
  decide +kernel

/-- R338: 2^20 ck without progress. -/
theorem test_qdeadTimeout : let s : State := { base with now := 2 ^ 20 }
    (after (.qdeadTimeout 0) (s.setHart 0 overfull)).map (fun z =>
    (z.arch.rcsr cTCAUSE, z.arch.rcsr cTPC, z.noProg)) = some (0x0B, 0x1_0000, 0) ∧
    (after (.qdeadTimeout 0) (s.setHart 0 (waitsAfter (some (3, 9))))).map (fun z =>
    (z.arch.rcsr cTCAUSE, z.arch.rcsr cTPC, z.arch.rcsr 0x307)) = some (0x0B, 0x1_0004, 16) ∧
    next (.qdeadTimeout 0) (s.setHart 0 (waitsAfter none)) = s.setHart 0 (waitsAfter none) := by decide +kernel

/-- A barrier of two harts, one that has arrived and one whose SYNC.GBAR has just completed. -/
noncomputable def barrier : State :=
  let s : State := { base with gangs := [(0, { gang0 with live := [0, 1], arrived := [0], gen := 2 ^ 32 - 1 })] }
  (s.setHart 1 { hart0 with wait := .gbar 0 false }).setHart 0 { hart0 with wait := .gbar (2 ^ 32 - 1) true }

theorem witness_WaitEvents_barrier : let q : Gang := { gang0 with live := [0, 1], arrived := [0], gen := 2 ^ 32 - 1 }
    ffind barrier.gangs 0 = some q ∧ q.live ≠ [] ∧ ∀ h ∈ q.live, ∃ x n b, barrier.hart h = some x ∧ x.gang = 0 ∧ x.parked = false ∧ x.sheaves = [] ∧
      x.wait = .gbar n b ∧ q.arrived.contains h = b ∧ (b = true → n = q.gen) := by
  refine ⟨by decide +kernel, by decide +kernel, fun h hh => ?_⟩
  obtain rfl | rfl : h = 0 ∨ h = 1 := by simpa using hh
  · exact ⟨{ hart0 with wait := .gbar (2 ^ 32 - 1) true }, 2 ^ 32 - 1, true, by decide +kernel⟩
  · exact ⟨{ hart0 with wait := .gbar 0 false }, 0, false, by decide +kernel⟩

theorem test_barrierRelease : let t := next (.barrierRelease 0) barrier
    ffind t.gangs 0 = some { gang0 with live := [0, 1], arrived := [], gen := 0 } ∧ (t.hart 0).map (·.wait) = some .none ∧
    (t.hart 1).map (·.wait) = some .none := by decide +kernel

/-- Queue 0 with a packet of zeros in memory, and lq8 with the packet of `base`. -/
def lqRegs : DieRegs := { DieRegs.reset with lqbase := [(0, 0x1000)], lqcfg := [(0, 0x1_0701)], lqtail := [(0, 1)] }
noncomputable def queued : State := base.withDie 0 lqRegs
noncomputable def inner : State := { base with disp := { base.disp with inner := [demoPacket] } }
noncomputable def zeroPacket : Packet := (queued.queueHead 0 0).get (by decide +kernel)

theorem witness_LaunchEvents_queues :
    (queued.disp.dieRegs[0]? = some lqRegs ∧ queued.nextQueue 0 = some 0 ∧ queued.queueHead 0 0 = some zeroPacket ∧
      packetReason queued zeroPacket = some 2 ∧ zeroPacket.eng = none ∧ zeroPacket.die = 0 ∧ zeroPacket.queue = 0) ∧
    (∃ r, inner.disp.dieRegs[0]? = some r ∧ inner.nextQueue 0 = some 8 ∧ inner.queueHead 0 8 = some demoPacket ∧
      packetReason inner demoPacket = none) :=
  ⟨by decide +kernel, (inner.disp.dieRegs[0]?).get (by decide +kernel), by decide +kernel⟩

theorem test_dispatchPacket : ((next (.dispatchPacket 0 0) queued).disp.dieRegs[0]?).map (fun r => (r.lqhead, r.lqdone, r.lqerr)) =
    some ([(0, 1)], [(0, 1)], [(0, 0x1_0002)]) ∧
    (next (.dispatchPacket 0 8) inner).disp.packets = [demoPacket] ∧ (next (.dispatchPacket 0 8) inner).disp.inner = [] := by decide +kernel

theorem test_lqtailWrite : ((next (.lqtailWrite 0 7 0xFFFF_FFFF_0000_0009) queued).disp.dieRegs[0]?).map (·.lqtail) = some [(0, 1), (7, 9)] ∧
    ((next (.lqtailWrite 0 8 9) queued).disp.dieRegs[0]?).map (·.lqtail) = some [(0, 1)] := by decide +kernel

/-- R329: EN stays 0 where the size is out of its range. -/
theorem test_lqcfgWrite : ((next (.lqcfgWrite 0 7 0x1_0711) queued).disp.dieRegs[0]?).map (·.lqcfg) = some [(0, 0x1_0701), (7, 0x711)] ∧
    ((next (.lqcfgWrite 0 7 0x1_0710) queued).disp.dieRegs[0]?).map (·.lqcfg) = some [(0, 0x1_0701), (7, 0x1_0710)] := by decide +kernel

/-- A packet of a characterisation launch: one hart, VLEN 2,048, no flag. -/
def charBytes : List Byte :=
  leBytes 8 0x1_0000 ++ leBytes 8 0 ++ leBytes 8 0 ++ leBytes 2 1 ++ leBytes 2 0 ++ leBytes 4 2048 ++ List.replicate 48 0 ++ leBytes 8 0
    ++ leBytes 8 demoRoot ++ List.replicate 32 0

/-- The header of message 9 of host 3, of a type and length. -/
def head3 (type length : Nat) : Sys2Proof.MsgHead :=
  { host := 3, type := BitVec.ofNat 16 type, status := 0, seq := 9, length := BitVec.ofNat 32 length, res := 0 }

theorem witness_LaunchEvents_messages : base.mg.pkg.ready = true ∧ charBytes.length = 128 ∧ demoPacket.bytes.length = 128 ∧
    base.Unanswered (head3 4 136) ∧ headOk (head3 4 136) 4 136 = true ∧ 3 < Config.dies base.bare ∧ 127 < Config.clusters base.bare ∧
    packetReason base (corePacket base 3 charBytes (some 127)) = none ∧ packetReason base (corePacket base 3 demoPacket.bytes (some 127)) = some 0x0A := by
  unfold State.Unanswered
  decide +kernel

/-- R397: the reply to message 9 of host 3. -/
theorem test_launch : let t := next (.launch (head3 4 136) 3 charBytes) base
    t.disp.inner = [corePacket base 3 charBytes none] ∧ t.mg.outbox = [(25, [3, 0x9_0000_0004, 0])] ∧ t.mg.replies = [(3, 9, [0x9_0000_0004, 0])] := by
  decide +kernel

/-- R397: a message of a TYPE that is none, or of a wrong LENGTH, is answered BADMSG. -/
theorem test_launch_bad : (next (.launch (head3 9 136) 3 charBytes) base).mg.outbox = [(25, [3, 0x9_0003_0009, 0])] ∧
    (next (.launch (head3 4 128) 3 charBytes) base).mg.outbox = [(25, [3, 0x9_0003_0004, 0])] := by decide +kernel

theorem test_characterisationLaunch : (next (.characterisationLaunch (head3 4 136) 127 charBytes) base).disp.charQ =
      [corePacket base 3 charBytes (some 127)] ∧
    (next (.characterisationLaunch (head3 4 136) 127 demoPacket.bytes) base).mg.outbox = [(25, [3, 0x9_0002_0004, 8, 0x0A])] := by decide +kernel

/-- An elastic hart, launched for two clusters. -/
noncomputable def elasticHart : Hart := csr cHSTATUS 0x300 { hart0 with vlen := 16384 }

theorem witness_LaunchEvents_grants : elastic elasticHart.arch.csr = true ∧ elasticHart.parked = false ∧ elasticHart.gone = false ∧ 16384 ∈ vlenRows ∧ 16384 ≤ elasticHart.vlen ∧
    (needsZ elasticHart.arch.csr = true → 8192 ≤ 16384) ∧
    (let s := base.setHart 0 elasticHart;
      s.placeFree (some 0) 16384 { cluster := 126, quarter := 0 } = true ∧ 8 * (elasticHart.posted.getD elasticHart.arch.grant).vlenb < 16384 ∧
      (∀ e ∈ s.harts, s.prioOf elasticHart < s.prioOf e.2 → s.growable e.1 e.2 = false) ∧ s.disp.charQ = []) := by decide +kernel

theorem test_grantPost : next (.grantPost 0 16384 { cluster := 126, quarter := 0 }) (base.setHart 0 elasticHart) =
    base.setHart 0 { elasticHart with posted := some (grantAt 16384 { cluster := 126, quarter := 0 }) } := by decide +kernel

/-- A hart that has called ECALL service 1; a waiting launch of higher priority for every lane; and one that starves. -/
noncomputable def yielding : State := next .sysEcall (opened (reg 10 1))
def widePacket (prio since : Nat) : Packet :=
  { demoPacket with prio := prio, since := since, bytes := demoPacket.bytes.take 28 ++ leBytes 4 1048576 ++ demoPacket.bytes.drop 32 }
noncomputable def wanted : State := { base with disp := { base.disp with packets := [widePacket 1 0] } }
noncomputable def starved : State := { base with now := 2 ^ 22, disp := { base.disp with packets := [widePacket 0 0] } }

/-- A launch that an elastic hart of the starving priority, with two clusters, could make room for. -/
noncomputable def shrinkable : State :=
  { starved with disp := { starved.disp with packets := [{ demoPacket with prio := 0, since := 0 }] } }.setHart 0
    { elasticHart with arch := { elasticHart.arch with grant := grantAt 16384 { cluster := 0, quarter := 0 } } }

theorem witness_LaunchEvents_preempt : ffind base.gangs 0 = some gang0 ∧ yielding.yields gang0 = true ∧ wanted.neededBy 0 gang0 = true ∧
    (∃ p ∈ starved.disp.packets, p.prio = gang0.prio ∧ p.since + 2 ^ 22 ≤ starved.now ∧ gang0.placedAt + 2 ^ 22 ≤ starved.now ∧
      starved.shrinkFirst { p.waiter with prio := p.prio + 1 } gang0 = false) ∧
    ∀ p ∈ shrinkable.disp.packets, p.prio = gang0.prio → p.since + 2 ^ 22 ≤ shrinkable.now →
      shrinkable.shrinkFirst { p.waiter with prio := p.prio + 1 } gang0 = true := by decide +kernel

theorem test_preemptRequest : (after (.preemptRequest 0 .systemCore) base).map (·.preempt) = some 2 ∧
    (after (.preemptRequest 0 .higherPriority) base).map (·.preempt) = some 0 ∧ (after (.preemptRequest 0 .higherPriority) wanted).map (·.preempt) = some 2 ∧
    (after (.preemptRequest 0 .yield) yielding).map (·.preempt) = some 1 := by decide +kernel

theorem test_preemptStarvationTimeout : (after (.preemptStarvationTimeout 0) starved).map (·.preempt) = some 2 ∧
    (after (.preemptStarvationTimeout 0) wanted).map (·.preempt) = some 0 ∧
    (after (.preemptStarvationTimeout 0) shrinkable).map (·.preempt) = some 0 := by decide +kernel

/-- A sheaf that has stood open for 2^18 ck. -/
noncomputable def long : Hart := { open0 with preempt := 1, ahead := true }

theorem witness_LaunchEvents_split : long.sheaves = [sheaf0] ∧ sheaf0.closed = none ∧ sheaf0.held = none ∧ long.preempt = 1 ∧ long.landing = none ∧
    sheaf0.openedAt + 2 ^ 18 ≤ ({ base with now := 2 ^ 18 } : State).now ∧ long.wait = .none ∧
    (∀ b ∈ long.bq, b.here = true) ∧
    long.ahead = true ∧ ({ long with wait := .qdrain 8 } : Hart).wait = .qdrain 8 := by decide +kernel

theorem test_preemptSplitTimeout : let s : State := { base with now := 2 ^ 18 }
    next (.preemptSplitTimeout 0) (s.setHart 0 long) =
      s.setHart 0 { long with sheaves := [{ sheaf0 with closed := some .split }], arch := { long.arch with bySplit := true }, bq := [] } := by decide +kernel

theorem witness_LaunchEvents_landing : let x : Hart := { open0 with preempt := 2 }
    x.preempt = 2 ∧ x.landing = none ∧ x.held = none ∧ x.parked = false ∧ base.arb.token = none ∧ ffind (base.setHart 0 x).gangs x.gang = some gang0 ∧
    0 ∈ gang0.live ∧ (∀ e ∈ base.disp.restore, e.1 ≠ x.gang) ∧
    ∀ k ∈ gang0.live, k = 0 ∨ (base.setHart 0 x).hart k = none := by decide +kernel

/-- A packet that waits beside the hart of `base`. -/
noncomputable def placing : State := { base with disp := { base.disp with packets := [demoPacket] } }

theorem witness_GangsStart_place : placing.disp.charQ = [] ∧
    placing.disp.packets.find? (fun p => decide (p.die = 0) && decide (p.queue = 8)) = some demoPacket ∧ demoPacket.eng = none ∧
    demoPacket.charac = none ∧ (placing.disp.dieRegs[0]?).isSome = true ∧ pAdvice demoPacket.bytes = 0 ∧
    placing.placementOk 0 (pVlen demoPacket.bytes) (pGang demoPacket.bytes) [{ cluster := 31, quarter := 0 }] = true ∧
    placing.orderOk 0 demoPacket.waiter [{ cluster := 31, quarter := 0 }] = true := by
  decide +kernel

/-- R15, R46: the registers of a new hart. -/
theorem test_gangPlace : let t := next (.gangPlace 0 8 [{ cluster := 31, quarter := 0 }]) placing
    (t.hart 1).map (fun x => (x.arch.pc, x.arch.grant, x.arch.rx 17, x.arch.rcsr cVTYPE, x.arch.rcsr cSRSEED, x.arch.rcsr cVLENB)) =
      some (0x1_0000, grantAt 8192 { cluster := 31, quarter := 0 }, 0x1_0000, 3, 1, 1024) ∧ t.disp.packets = [] ∧
    (ffind t.gangs 1).map (fun g => (g.live, g.size, g.ident)) = some ([1], 1, 1) := by decide +kernel

/-- A pre-empted gang of one hart that waits for its restore. -/
noncomputable def parked : State :=
  let s : State := { base with disp := { base.disp with restore := [(0, 5)] } }
  s.setHart 0 { hart0 with parked := true }

theorem witness_GangsStart_restore : let x : Hart := { hart0 with parked := true }
    let p : Place := { cluster := 31, quarter := 0 }
    ffind parked.gangs 0 = some gang0 ∧ gang0.live = [0] ∧ parked.hart 0 = some x ∧
    parked.disp.restore.find? (fun e => decide (e.1 = 0)) = some (0, 5) ∧
    parked.placementOk gang0.die (8 * x.arch.grant.vlenb) 1 [p] = true ∧
    parked.orderOk gang0.die { prio := gang0.prio, vlen := 8 * x.arch.grant.vlenb, size := 1, restore := true, queue := gang0.queue } [p] = true ∧
    (grantAt (8 * x.arch.grant.vlenb) p).vlenb = x.arch.grant.vlenb ∧
    (x.arch.rcsr cSAVEPTR).toNat % 65536 + (0xC40 + 54 * x.arch.grant.vlenb) ≤ 65536 ∧
    homeOf parked (grantAt (8 * x.arch.grant.vlenb) p) (x.arch.rcsr cPTROOT) (x.arch.rcsr cSAVEPTR).toNat kRead false = some 0x8_0000_0012_0000 := by
  decide +kernel
/-! ### The hypotheses of the statements about engines and the fabric -/

/-- No hart is held, where none of those listed is. -/
theorem noneHeld_of (s : State) (h : s.harts.all (fun e => decide (e.2.held = none)) = true) : s.NoneHeld := by
  have key : ∀ (m : FMap Hart) (k : Nat) (x : Hart), m.all (fun e => decide (e.2.held = none)) = true → ffind m k = some x → x.held = none := by
    intro m
    induction m with
    | nil => intro k x _ hf; simp [ffind] at hf
    | cons e r ih =>
      intro k x ha hf
      simp only [List.all_cons, Bool.and_eq_true, decide_eq_true_eq] at ha
      by_cases hk : k = e.1
      · simp only [ffind, hk, if_true, Option.some.injEq] at hf; rw [← hf]; exact ha.1
      · exact ih k x ha.2 (by simpa [ffind, hk] using hf)
  exact fun k x hx => key _ k x h hx

/-- `copy8` sent to package 5, a channel bound to context 5 of engine 0 in which a command waits or runs, and the hart with that channel. -/
def ran (k : Cmd) (applied sent : Nat) : Run :=
  { cmd := k, applied := applied, sent := sent, asked := 0, early := [], due := [], writes := [], wdue := none, metas := [], gang := none }
def put8 : Cmd := { copy8 with fn := .put, xb1 := 0x16_0000_0000 }
def waitsCmd (k : Cmd) : Chan := { ctx := some (0, 5), waiting := [k], running := [], done := [7], tl := 5, err := none }
def runsCmd (k : Cmd) : Chan := { waitsCmd k with waiting := [], running := [ran k 0 0] }
noncomputable def withChan (c : Chan) : Hart := { hart0 with chans := hart0.chans.set 7 c }
noncomputable def engs (c : Chan) : State := base.setHart 0 (withChan c)
def unbound : Chan := { waitsCmd copy8 with ctx := none }

theorem witness_EngineEvents_bind : (engs unbound).hart 0 = some (withChan unbound) ∧ (withChan unbound).chans[7]? = some unbound ∧
    freeContexts (engs unbound) 0 ≠ [] ∧ unbound.ctx = none ∧ unbound.waiting ≠ [] ∧ 0 < Config.dies (engs unbound).bare :=
  ⟨State.hart_setHart_self .., by decide +kernel, by decide +kernel, rfl, by decide, by decide +kernel⟩

/-- Commands that an engine starts: with a bad operand, of no elements, of one element, toward another package, and a launch. -/
theorem witness_EngineEvents_start : ∀ k ∈ [{ copy8 with xb1 := 1 }, { copy8 with xb := 0 }, copy8, put8,
      { copy8 with fn := .launch, xa := 0x1_1000, xa1 := 0, xb := 0 }],
    let c := waitsCmd k
    nextStart (engs c) 0 = some (0, 7) ∧ (withChan c).startable 7 = some k ∧ (withChan c).wait = .none ∧ k.operands = (if k.xb1 = 1 then some 3 else none) ∧
    (k.xb = 0 → k.fn = .cpy → k.count = 0 ∧ k.raises = false) ∧ (k.xb ≠ 0 → k.count ≠ 0) ∧ (k.remote = true ↔ k.fn = .put) ∧
    fget 0 (engs c).fab.started 0 ≠ (engs c).now + 1 ∧ (engs c).fab.down = [] ∧ (engs c).bare = false ∧ (engs c).ms.timed = false ∧
    (k.fn = .launch → okOf (readPacket (engs c) (withChan c) k) = some (List.replicate 128 0) ∧ (withChan c).parked = false ∧
      boundsOk (engs c) (withChan c).arch.grant (withChan c).arch.csr 0x1_1000 128 kRead = true ∧
      homeOf (engs c) (withChan c).arch.grant ((withChan c).arch.rcsr cPTROOT) 0x1_1040 kRead true = some 0x8_0000_0010_1040) := by decide +kernel

/-- R241: an engine starts one command in a ck. -/
theorem test_engineStartsOne : let s : State := { base with fab := { base.fab with started := [(0, base.now + 1)] } }
    (after (.engineCommandStart 0) (s.setHart 0 (withChan (waitsCmd copy8)))).bind (·.chans[7]?) = some (waitsCmd copy8) := by decide +kernel

/-- R235, R237, R241, R243: what each of them leaves in the channel. -/
theorem test_engineCommandStart :
    let chan (k : Cmd) (s : State) : Option Chan := (after (.engineCommandStart 0) (s.setHart 0 (withChan (waitsCmd k)))).bind (·.chans[7]?)
    chan { copy8 with xb1 := 1 } base = some { waitsCmd copy8 with waiting := [], err := some { id := 6, applied := 0, code := 3 } } ∧
    chan { copy8 with xb := 0 } base = some { waitsCmd copy8 with waiting := [], done := [], tl := 7 } ∧ chan copy8 base = some (runsCmd copy8) ∧
    chan put8 base = some (runsCmd put8) ∧
    chan put8 { base with fab := { base.fab with down := [5] } } = some { waitsCmd copy8 with waiting := [], err := some { id := 6, applied := 0, code := 6 } } := by
  decide +kernel

/-- Elements of a copy, of a copy from an unmapped page, and of a PUT. -/
theorem witness_EngineEvents_element : (let x := withChan (runsCmd copy8); (runsCmd copy8).ctx = some (0, 5) ∧ x.parked = false ∧
      (engAccess (engs (runsCmd copy8)) x false 0x1_1000 8 kRead).toOption = some 0x8_0000_0010_1000 ∧
      (engAccess (engs (runsCmd copy8)) x false 0x1_1008 8 kWrite).toOption = some 0x8_0000_0010_1008 ∧ copy8.esize = 8 ∧
      (engs (runsCmd copy8)).tokenHolds 0x8_0000_0010_1008 8 = false ∧ base.ms.timed = false ∧
      (runsCmd copy8).run 6 = some (ran copy8 0 0)) ∧
    (let k := { copy8 with xa1 := 0x9_1000 }; (match engAccess (engs (runsCmd k)) (withChan (runsCmd k)) false 0x9_1000 8 kRead with
      | .error e => decide (e = 1)
      | .ok _ => false) = true) ∧
    (engAccess (engs (runsCmd put8)) (withChan (runsCmd put8)) false 0x1_1000 8 kRead).toOption = some 0x8_0000_0010_1000 ∧ put8.count = 1 ∧
    bits (put8.remoteAddr 0).toNat 63 58 = 0 ∧ base.link 5 = 2 ∧ base.link 0 = 0 ∧
    (let k := { put8 with xa := 0x03FF_FFFF_FFFF_FFF8, xb := 16 };
      bits (k.remoteAddr 0).toNat 63 58 = 0 ∧ bits (k.xa + BitVec.ofNat 64 (1 * k.esize)).toNat 63 58 ≠ 0 ∧ 1 < k.count) := by
  decide +kernel

theorem engs_noneHeld (c : Chan) : (engs c).NoneHeld := by
  have h : hart0.held = none := by decide +kernel
  exact none_held _ only_base _ h

/-- R243, R244, R384. -/
theorem test_engineElementApply : (let t := next (.engineElementApply 0 7 6) ((loaded 0x1000 [1, 2, 3, 4, 5, 6, 7, 8]).setHart 0 (withChan (runsCmd copy8)))
      memNat t 0x8_0000_0010_1008 8 = 0x0807_0605_0403_0201 ∧ (t.hart 0).bind (·.chans[7]?) = some { waitsCmd copy8 with waiting := [], done := [], tl := 7 }) ∧
    (let k := { copy8 with xa1 := 0x9_1000 }
     (after (.engineElementApply 0 7 6) (engs (runsCmd k))).bind (·.chans[7]?) =
       some { waitsCmd copy8 with waiting := [], err := some { id := 6, applied := 0, code := 1 } }) ∧
    (next (.engineElementApply 0 7 6) (engs (runsCmd put8))).mg.outbox = [(16, [5, 2, 0, 5, 6, 0, 0x1_1008, 0x1_1008, 0x16_0000_0000, 0])] ∧
    -- a PUT to this package takes the loopback path (R382); an element whose address has a tag is not sent (R384)
    ((next (.engineElementApply 0 7 6) (engs (runsCmd { put8 with xb1 := 0x2_0000_0000 }))).fab.loop.map (fun q => (q.1, q.2.pkg, q.2.cmd, q.2.addr)) =
      [(.put, 0, 6, 0x1_1008)]) ∧
    (let k := { put8 with xa := 0x03FF_FFFF_FFFF_FFF8, xb := 16 }
     (after (.engineElementApply 0 7 6) (engs { runsCmd k with running :=
        [ran k 1 1] })).bind (·.chans[7]?) =
       some { waitsCmd copy8 with waiting := [], err := some { id := 6, applied := 1, code := 3 } }) := by decide +kernel

/-- A PUT of two elements, of which `n` have been sent; one acknowledged or an error reported. -/
def put16 : Cmd := { put8 with xb := 16 }
def sent16 (n : Nat) : Chan := { runsCmd put16 with running := [ran put16 0 n] }

theorem witness_EngineEvents_acknowledge : (∀ n ∈ [0, 2], (sent16 n).run 6 = some (ran put16 0 n)) ∧
    put16.remote = true ∧ put16.fn ≠ .get ∧ put16.count = 2 ∧ (sent16 2).err = none ∧ (withChan (sent16 2)).wait = .none ∧
    (engs (sent16 2)).link (xPkg put16.xb1) ≠ 0 ∧ (engs (sent16 2)).fab.acks = [] := by decide +kernel

/-- R251: what has not been sent is not acknowledged. -/
theorem test_remoteAcknowledge :
    let chan (n : Nat) (a : RemoteAck) : Option Chan := (after (.remoteAcknowledge 0 7 6 a) (engs (sent16 n))).bind (·.chans[7]?)
    chan 2 { applied := 1, data := [], code := 4 } = some { waitsCmd copy8 with waiting := [], err := some { id := 6, applied := 1, code := 4 } } ∧
    chan 2 { applied := 2, data := [], code := 0 } = some { waitsCmd copy8 with waiting := [], done := [], tl := 7 } ∧
    chan 1 { applied := 2, data := [], code := 0 } = some (sent16 1) ∧
    (chan 2 { applied := 1, data := [], code := 0 }).map (fun c => c.running.map (·.applied)) = some [1] := by decide +kernel

/-- A registration of 0x1_1000 to 0x1_2000 for package 3 with every permission, owned by hart 0; element 0 of a command of that package. -/
def entry3 : Registration :=
  { low := 0x1_1000, high := 0x1_2000, ptroot := BitVec.ofNat 64 demoRoot, owner := 0, ctl := 0x8000_000F_0003_0003 }
def elem (bytes : Nat) (addr : W64) (last : Bool) : RemoteElem :=
  { pkg := 3, ctx := 8, life := 2, seq := 0, cmd := 6, index := 0, last := last, first := addr, addr := addr, bytes := bytes, data := leBytes bytes 5, xctl := 0 }
noncomputable def registered : State := { base with fab := { base.fab with regs := [(2, some entry3)], windows := [(2, some { entry := entry3, key := 0x77 })] } }

theorem registered_noneHeld : registered.NoneHeld := noneHeld_of _ (by decide +kernel)

theorem witness_FabricEvents_elements : registered.bare = false ∧ registered.mg.stopped = false ∧
    registered.isDup 3 8 0 = false ∧ registered.link 3 = 2 ∧ registered.fab.remote 3 8 2 6 = Remote.fresh 3 8 2 6 ∧ xSig 0 = false ∧ xOp 0 = some .add ∧ (xType 0).bytes = 4 ∧
    (elem 4 0x1_1FFC true).data.length = 4 ∧
    (∀ p ∈ [(permPut, kWrite), (permGet, kRead), (permReduce, kReduce)],
      registered.regCheck 3 0x1_1FFC 4 p.1 p.2 = some (2, entry3, 0x8_0000_0010_1FFC)) ∧
    registered.regCheck 3 0x1_1FFD 4 permPut kWrite = none ∧ registered.regCheck 3 0x1_1FFF 1 permSignal kRead = some (2, entry3, 0x8_0000_0010_1FFF) ∧
    registered.owner entry3 = some 0 ∧ registered.hart 0 = some hart0 ∧ registered.tokenHolds 0x8_0000_0010_1FFC 4 = false ∧
    poisoned registered 0x8_0000_0010_1FFC = false ∧
    ({ registered with fab := { registered.fab with dup := [(dupKey 3 8 0, 1)] } } : State).isDup 3 8 0 = true ∧
    -- below the window, over Ultra Ethernet and over UALink
    (let s : State := { registered with fab := { registered.fab with dup := [(dupKey 3 8 65536, 1)] } }
     s.isDup 3 8 0 = true ∧ s.isDup 3 8 1 = false ∧ ({ s with mg := { s.mg with pkg := { s.mg.pkg with podcfg := 0x100_0000_0003 } } } : State).isDup 3 8 0 = false) := by
  decide +kernel

/-- An element of a PUT of this package that the loopback path carries, of channel 7 of hart 0, and its registration. -/
def looped : RemoteElem := { elem 4 0x1_1FFC true with pkg := 0, ctx := 5, life := 0 }
noncomputable def looping : State :=
  { engs (runsCmd { put8 with xb1 := 0x2_0000_0000 }) with fab := { registered.fab with
      regs := [(2, some { entry3 with ctl := 0x8000_000F_0000_0000 })], loop := [(.put, looped)] } }

theorem witness_FabricEvents_loopback : looping.bare = false ∧ looping.link 0 = 0 ∧ (EngFn.put, looped) ∈ looping.fab.loop ∧ looped.bytes ≠ 0 ∧
    looping.isDup 0 5 0 = false ∧ (looping.fab.remote 0 5 0 6) = Remote.fresh 0 5 0 6 ∧
    (looping.regCheck 0 0x1_1FFC 4 permPut kWrite).map (fun q => q.2.2) = some 0x8_0000_0010_1FFC ∧ looping.tokenHolds 0x8_0000_0010_1FFC 4 = false ∧
    boundTo looping 0 5 = some (0, 7) ∧ ({ looping with fab := { looping.fab with loop := [] } } : State).fab.loop = [] := by decide +kernel

/-- R382. -/
theorem test_loopback : let t := next (.remotePutArrival looped) looping
    memNat t 0x8_0000_0010_1FFC 4 = 5 ∧ t.fab.loop = [] ∧ t.fab.acks = [(0, 7, 6, { applied := 1, data := [], code := 0 })] ∧
    (next (.remotePutArrival looped) { looping with fab := { looping.fab with loop := [] } }).mem = looping.mem := by decide +kernel

theorem test_remoteArrivals : (let t := next (.remotePutArrival (elem 4 0x1_1FFC true)) registered
      memNat t 0x8_0000_0010_1FFC 4 = 5 ∧ (t.fab.remote 3 8 2 6).sealed = true ∧ t.mg.outbox = [(21, [3, 8, 2, 6, 1, 0])]) ∧
    (next (.remotePutArrival (elem 4 0x1_1FFD false)) registered).mg.outbox = [(21, [3, 8, 2, 6, 0, 5])] ∧
    (next (.remoteGetArrival (elem 2 0x1_1FFE false)) (registered.store 0x8_0000_0010_1FFE [7, 8])).mg.outbox = [(21, [3, 8, 2, 6, 1, 0, 7, 8])] ∧
    memNat (next (.remoteRcopyArrival (elem 4 0x1_1FFC true)) (registered.store 0x8_0000_0010_1FFC [9])) 0x8_0000_0010_1FFC 4 = 14 ∧
    (after (.remoteSigArrival { elem 8 0x1_1FFF true with xctl := 0x3F0_0000 }) registered).map (·.ic) = some [(63, 5)] := by decide +kernel

theorem test_commandSeal : let t := next (.commandSeal ((2 * 8192 + 3) * 4096 + 8) 6) registered
    (t.fab.remote 3 8 2 6).sealed = true ∧ t.mg.outbox = [(21, [3, 8, 2, 6, 0, 6])] := by decide +kernel

/-- Package 5 goes down under a PUT toward it. -/
theorem witness_FabricEvents_down : (engs (runsCmd put8)).hart 0 = some (withChan (runsCmd put8)) ∧ (withChan (runsCmd put8)).chans[7]? = some (runsCmd put8) ∧
    (∃ r, (runsCmd put8).running = [r] ∧ r.cmd.remote = true ∧ xPkg r.cmd.xb1 = 5) ∧ (runsCmd put8).err = none :=
  ⟨State.hart_setHart_self .., by decide +kernel, ⟨_, rfl, by decide +kernel⟩, rfl⟩

theorem test_packageDown : (after (.packageDown 5) (engs (runsCmd put8))).bind (·.chans[7]?) =
      some { waitsCmd copy8 with waiting := [], err := some { id := 6, applied := 0, code := 6 } } ∧
    (after (.packageDown 4) (engs (runsCmd put8))).bind (·.chans[7]?) = some (runsCmd put8) := by decide +kernel

theorem witness_FabricEvents_registrations : fget none registered.fab.regs 2 = some entry3 ∧ bit entry3.ctl.toNat 63 = true ∧
    bit ({ entry3 with ctl := 0 } : Registration).ctl.toNat 63 = false ∧ ∀ r ∈ registered.fab.remotes, 2 ∈ r.regs → r.sealed = true := by decide +kernel

theorem test_registrationWrite : let t := next (.registrationWrite 2 { entry3 with owner := 0x7F, ctl := 0x7FFF_FFFF_FFFF_FFFF }) registered
    fget none t.fab.regs 2 = some { entry3 with owner := 0x3F, ctl := 0xF_1FFF_1FFF } ∧ fget false t.fab.revoked 2 = true ∧
    fget false (next (.revocationDone 2) t).fab.revoked 2 = false := by decide +kernel

theorem witness_FabricEvents_rdma : registered.window 0x77 = some entry3 ∧ registered.window 2 = none ∧ registered.mg.pkg.ready = true ∧
    registered.windowCheck entry3 permPut kWrite 0x1_1FF8 8 = some 0x8_0000_0010_1FF8 ∧ registered.windowCheck entry3 permGet kRead 0x1_1FF8 8 =
      some 0x8_0000_0010_1FF8 ∧ registered.tokenHolds 0x8_0000_0010_1FF8 8 = false ∧ poisoned registered 0x8_0000_0010_1FF8 = false ∧
    bit entry3.ctl.toNat permSignal = true ∧ registered.fab.bounds[3]? = some 0 := by decide +kernel

theorem test_rdma : let bs : List Byte := [1, 2, 3, 4, 5, 6, 7, 8]
    (let t := next (.rdmaWriteImm 0x77 0x1_1FF8 bs 63) registered
     memBytes t 0x8_0000_0010_1FF8 8 = bs ∧ t.mg.outbox = [(23, [0x77])] ∧ (t.hart 0).map (·.ic) = some [(63, 1)] ∧
     (next (.rdmaRead 0x77 0x1_1FFE 2) t).mg.outbox = [(23, [0x77]), (24, [0x77, 7, 8])]) ∧
    (next (.rdmaWrite 2 0x1_1FF8 bs) registered).mg.outbox = [(22, [2])] ∧ (next (.boundaryRetrain 3) registered).fab.bounds = [0, 0, 0, 1] := by
  decide +kernel
/-! ### The hypotheses of the statements about the memory system -/

/-- A class D read of granule 0x4000, which bank 5 of pseudo-channel 667 holds, for hart 0; the controller, whose next tick falls in ck 9; with the
read waiting; and with bank 5 in refresh until ck 100. -/
def req : MemReq := { granule := 0x4000, cls := .d, write := false, hart := some 0, chan := none, dest := .nothing, issued := 0, hit := false }
def ctl7 : Ctl := { Ctl.fresh 667 with due := 9, tick := 5 }
noncomputable def busy7 : State := base.setCtl 667 { ctl7 with busy := [(5, 100)] }
noncomputable def waits7 : State := base.setCtl 667 { ctl7 with waiting := [(0, 5, req)] }

theorem witness_MemoryEvents_requests : resourceOf busy7 req.granule req.write req.hit = some (667, 5) ∧ ctlExists base 667 = true ∧
    (base.setCtl 667 ctl7).ctl 667 = ctl7 ∧ (base.setCtl 667 ctl7).ticked 667 = base.setCtl 667 ctl7 ∧
    ctl7.refreshing 0 5 = none ∧ base.now = 0 ∧ (busy7.ctl 667).refreshing 0 5 = some 100 ∧ busy7.ticked 667 = busy7 ∧ busy7.hart 0 = some hart0 ∧
    (let k := (waits7.ctl 667).at waits7.now; waits7.ticked 667 = waits7 ∧ k.granted ≠ 1 ∧ k.total < periodSlots 667 ∧
      waits7.eligible 667 k (fun b => !(k.ready 0 b).isEmpty) = some .d ∧ waits7.pick (k.ready 0 .d) = some (0, 5, req)) ∧
    req.write = false ∧ req.hit = false ∧ isHbm base req.granule = true ∧ lineUnits base (homeDie base (req.granule * 64)) ≠ 0 ∧ poisoned base (req.granule * 64) = false := by
  decide +kernel

/-- R355: 100 ck of refresh remain, 13 eighths; the request arrives again after 104. -/
theorem test_requests : ((next (.requestArrival req) (base.setCtl 667 ctl7)).ctl 667).waiting = [(0, 5, req)] ∧
    (let t := next (.requestArrival req) busy7; (t.ctl 667).waiting = [] ∧ (t.hart 0).map (fun x => fget 0 x.cnt cMEMRETRY) = some 1 ∧
      t.ms.flights = [(104, req)]) ∧
    (let t := next (.requestGrant 667) waits7; (t.ctl 667).waiting = [] ∧ (t.ctl 667).use = [1, 0, 0, 0, 0, 0] ∧
      fget none t.ms.lines 0x4000 = some { cls := 1, owner := none, used := 0 }) := by decide +kernel

/-- Requests of channels 3 and 2 of a hart that prefers channel 2, in one ck. -/
def chanReq (ch : Nat) : Nat × Nat × MemReq := (4, 0, { req with chan := some ch })
noncomputable def prefers : State := base.setHart 0 { hart0 with adv := some { seq0 0 with prefer := [2, 3, 0, 1, 4, 5, 6, 7] } }

theorem witness_MemoryEvents_channels : prefers.pick [chanReq 3, chanReq 2] = some (chanReq 2) ∧ prefers.pick [chanReq 3, (5, (chanReq 2).2)] = some (chanReq 3) ∧
    prefers.channelOrder 0 = [2, 3, 0, 1, 4, 5, 6, 7] := by decide +kernel

/-- R341: below its FLOOR, class E goes before class D, which is above its own. -/
theorem test_eligible : let k : Ctl := { ctl7 with use := [896, 0, 0, 0, 0, 0] }
    base.eligible 667 k (fun b => decide (b = .d) || decide (b = .e)) = some .e ∧
    base.eligible 667 ctl7 (fun b => decide (b = .d) || decide (b = .e)) = some .d := by decide +kernel

theorem test_budgetPeriodStart : let s : State := { base with now := 4096 }.setCtl 667 { ctl7 with use := [1, 2, 3, 4, 5, 6] }
    ((next .budgetPeriodStart s).ctl 667).use = [0, 0, 0, 0, 0, 0] ∧ ((next .budgetPeriodStart s).ctl 667).period = 1 ∧
    (next .budgetPeriodStart { s with now := 4097 }).ctl 667 = s.ctl 667 := by
  decide +kernel

/-- Ticks of bank 5 in ck 9, now that it is ck 10: its group quiet, busy, and busy with eight banks owed; and a tick of bank 0 for a hart in
SYS.REFSYNC whose first stage ended in ck 9, and in ck 10. -/
def late7 : Ctl := { ctl7 with arrival := [(1, 8)] }
noncomputable def at10 (k : Ctl) : State := { base with now := 10 }.setCtl 667 k

theorem witness_MemoryEvents_refresh : (at10 ctl7).ctl 667 = ctl7 ∧ ctl7.due ≤ 10 ∧ 10 < ({ ctl7 with due := 11 } : Ctl).due ∧ ctl7.tick % 16 = 5 ∧
    (ctl7.at 9).owed = [] ∧ (at10 ctl7).now = 10 ∧
    ((ctl7.at 9).groupBusy 9 5 || ({ at10 ctl7 with now := 9 } : State).refused 667 (ctl7.at 9)) = false ∧
    ((late7.at 9).groupBusy 9 5 || ({ at10 late7 with now := 9 } : State).refused 667 (late7.at 9)) = true ∧
    8 ≤ ({ late7 with owed := List.replicate 8 0 } : Ctl).owed.length ∧ ({ ctl7 with tick := 16 } : Ctl).tick % 16 = 0 ∧
    (∀ n ∈ [9, 10], ((at10 { ctl7 with tick := 16 }).setHart 0 { hart0 with wait := .refsync 667 n }).hart 0 = some { hart0 with wait := .refsync 667 n }) ∧
    667 < Config.pseudoChannels base.bare := by decide +kernel

theorem test_refreshTick : (let k := (next (.refreshTick 667) (at10 ctl7)).ctl 667
      k.busy = [(5, 393)] ∧ k.tick = 6 ∧ k.due = 595 ∧ k.use = [0, 0, 0, 8, 0, 0]) ∧
    (let k := (next (.refreshTick 667) (at10 late7)).ctl 667; k.busy = [] ∧ k.owed = [5]) ∧
    (let k := (next (.refreshTick 667) (at10 { late7 with owed := List.replicate 8 0 })).ctl 667; k.owed = [] ∧ k.busy.length = 16 ∧ k.busy[3]? = some (3, 849)) ∧
    ((next (.refreshEnd 667) (at10 { ctl7 with busy := [(5, 10), (6, 11)] })).ctl 667).busy = [(6, 11)] := by decide +kernel

/-- R141, R356: a tick that falls before the first stage ended does not count. -/
theorem test_refsync_earlier : let t (n : Nat) : State := next (.refreshTick 667) ((at10 { ctl7 with tick := 16, owed := [3] }).setHart 0 { hart0 with wait := .refsync 667 n })
    ((t 9).hart 0).map (·.wait) = some .synced ∧ ((t 9).ctl 667).owed = [] ∧ ((t 10).hart 0).map (·.wait) = some (.refsync 667 10) := by decide +kernel

/-- The ck of the first scrub access of a granary bank, whose 12,288 granules it scrubs in 2^40 ck, and that of pseudo-channel 667, whose tick is then
to come; a ck later; and pseudo-channel 667 with its bank 0 in refresh, and wired to the cluster of a characterisation hart. -/
def scrubAt1 : Nat := 2 ^ 40 / 12288
noncomputable def scrubAt7 : Nat := 2 ^ 40 / scrubGranules base 667
noncomputable def scrubs (now : Nat) (b : FMap Nat) : State := { base with now := now }.setCtl 667 { ctl7 with due := now + 9, busy := b }

theorem witness_MemoryEvents_scrub : ctlExists base 1024 = true ∧ ¬ 1024 < Config.pseudoChannels base.bare ∧ scrubGranules base 1024 = 12288 ∧
    (base.ctl 1024).rescrub = 0 ∧ (base.ctl 1024).scrubs = 0 ∧ base.now < scrubAt1 ∧ base.scrubHeld 1024 = false ∧
    (∀ now ∈ [scrubAt1, scrubAt1 + 1], let s : State := { base with now := now };
      let p := (s.ctl 1024).at scrubAt1;
      scrubAt1 ≤ now ∧ now < 2 * 2 ^ 40 / 12288 ∧ p.refreshing scrubAt1 0 = none ∧ p.granted ≠ scrubAt1 + 1 ∧ p.total < periodSlots 1024 ∧
      p.ready scrubAt1 .m = [] ∧
      ({ s with now := scrubAt1 } : State).eligible 1024 p (fun b => decide (b = .m) || !(p.ready scrubAt1 b).isEmpty) = some .m) ∧
    (let s := scrubs scrubAt7 [(0, scrubAt7 + 9)];
      s.now < (s.ctl 667).due ∧ s.now < 2 * 2 ^ 40 / scrubGranules s 667 ∧ (s.ctl 667).scrubs = 0 ∧ (s.ctl 667).rescrub = 0 ∧ s.scrubHeld 667 = false ∧
      ((s.ctl 667).at scrubAt7).refreshing scrubAt7 0 = some (scrubAt7 + 9) ∧ s.now < scrubAt7 + 8 * max 1 (ceilDiv 9 8)) ∧
    ((scrubs scrubAt7 []).setHart 0 { hart0 with charac := true, arch := { hart0.arch with grant := { hart0.arch.grant with base := 111 } } }).scrubHeld 667 =
      true := by decide +kernel

/-- R357: one access of class M in its ck, which comes again where its bank is in refresh, and none where scrubbing is stopped. -/
theorem test_scrubPass : (let k := (next (.scrubPass 1024) { base with now := scrubAt1 + 1 }).ctl 1024;
      k.use = [0, 0, 0, 1, 0, 0] ∧ k.scrubs = 1 ∧ k.granted = scrubAt1 + 1 ∧ k.waiting = []) ∧
    ((next (.scrubPass 1024) { base with now := scrubAt1 }).ctl 1024).waiting = [(scrubAt1, 0, scrubReq)] ∧
    (let k := (next (.scrubPass 667) (scrubs scrubAt7 [(0, scrubAt7 + 9)])).ctl 667;
      k.scrubs = 0 ∧ k.rescrub = scrubAt7 + 16 ∧ k.arrival = [(0, scrubAt7)]) ∧
    (let k := (next (.scrubPass 667) ((scrubs scrubAt7 []).setHart 0
        { hart0 with charac := true, arch := { hart0.arch with grant := { hart0.arch.grant with base := 111 } } })).ctl 667;
      k.scrubs = 1 ∧ k.waiting = [] ∧ k.arrival = []) := by
  decide +kernel

/-- R296: the access of a placement. -/
theorem witness_MemoryEvents_place : let q : MemReq := { req with cls := .a, dest := .place 0 }
    let s : State := { base with ms := { base.ms with lines := [(0x4000, some { cls := 1, owner := none, used := 4 })] } }
    q.write = false ∧ q.cls = .a ∧ q.hart = some 0 ∧ q.dest = .place 0 ∧ fget none s.ms.lines q.granule = some { cls := 1, owner := none, used := 4 } ∧
    fget none (s.fillOn q).ms.lines q.granule = some { cls := 0, owner := none, used := 4 } := by decide +kernel

/-- A granule with two corrections within 2^32 ck. -/
noncomputable def twice : State := { base with ms := { base.ms with ecc := [(0x4000, [0, 0])] } }
noncomputable def dieOf : Nat := homeDie base (0x4000 * 64)

theorem witness_MemoryEvents_errors : (∃ r, base.disp.dieRegs[dieOf]? = some r ∧ r.faultAt 0x4000 1 = none ∧ r.faqTail - r.faqHead < 256) ∧
    ((fget [] twice.ms.ecc 0x4000).filter (fun t => decide (twice.now < t + 2 ^ 32))).length = 2 ∧ (opened id).hart 0 = some open0 ∧ open0.held = none ∧
    open0.sheaves = [sheaf0] ∧ ({ open0 with sheaves := [sheaf0, { sheaf0 with split := 1 }] } : Hart).sheaves = sheaf0 :: [{ sheaf0 with split := 1 }] :=
  ⟨⟨(base.disp.dieRegs[dieOf]?).get (by decide +kernel), by decide +kernel⟩, by decide +kernel⟩

theorem test_errors : (let t := next (.correctedError 1 0x4000) twice
      (t.disp.dieRegs[dieOf]?).map (·.faq) = some [(0x4000, 1, 1, 2)] ∧ ((next (.correctedError 1 0x4000) base).disp.dieRegs[dieOf]?).map (·.faq) = some []) ∧
    (let t := next (.uncorrectableError 0 0x4000) base
     poisoned t (0x4000 * 64) = true ∧ (t.disp.dieRegs[dieOf]?).map (·.faq) = some [(0x4000, 1, 0, 1)]) ∧
    fget none (next (.uncorrectableError 3 0x4000) (next (.requestGrant 667) waits7)).ms.lines 0x4000 = none ∧
    (after (.uncorrectableError 4 0) (opened (reg 9 7))).map (fun z => (z.sheaves, z.arch.rx 9, z.squash)) = some ([], sheaf0.cp.rx 9, open0.squash) ∧
    -- the younger sheaf alone
    (after (.uncorrectableError 5 0) (base.setHart 0 { reg 9 7 open0 with sheaves := [sheaf0, { sheaf0 with split := 1 }] })).map
      (fun z => (z.sheaves, z.arch.rx 9)) = some ([sheaf0], sheaf0.cp.rx 9) :=
  ⟨by decide +kernel, by decide +kernel, by decide +kernel, by decide +kernel, by decide +kernel⟩

theorem witness_MemoryEvents_pages : base.allocatable 0x1_0000 0x1_0000 = true ∧ interleaveOk base true 120 3 = true ∧
    base.allocatable (0x60_0000_0000 - 0x1_0000) 0x1_0000 = true ∧ base.tokenMeets 0x1_0000 0x1_0000 = false := by decide +kernel

theorem test_pageAllocation : let t := next (.pageAllocation 0x1_0000 0x1_0000 true 120 3) (base.store 0x1_FFF8 [1, 2])
    fget none t.ms.pages 0x1_0000 = some { size := 0x1_0000, il := true, lsbase := 120, lsk := 3 } ∧ fget 0 t.mem 0x1_FFF8 = 0 ∧
    (next (.pageAllocation 0x1_0800 0x1_0000 true 120 3) base).ms.pages = base.ms.pages := by decide +kernel

/-- A recorded page whose leaf stands in granary. -/
noncomputable def paged : State := next (.pageAllocation 0x1_0000 0x1_0000 false 0 0) base
def retire : Retirement := { old := 0x1_0000, new := 0x3_0000, leaf := demoRoot + 0x5_0030, hart := none, reason := 1 }
def page64 : Page := { size := 0x1_0000, il := false, lsbase := 0, lsk := 0 }

theorem witness_MemoryEvents_retirement : pageOf paged retire.old = some (0x1_0000, page64) ∧ retire.new % page64.size = 0 ∧
    paged.allocatable retire.new page64.size = true ∧ meets 0x1_0000 page64.size retire.new page64.size = false ∧
    paged.tokenMeets retire.new page64.size = false ∧ paged.tokenUses 0x1_0000 page64.size = false ∧ retire.hart = none ∧
    meets retire.leaf 8 0x1_0000 page64.size = false ∧ meets retire.leaf 8 retire.new page64.size = false ∧ paged.ms.bad.length + page64.size / 0x1_0000 ≤ 4096 ∧
    paged.tokenHolds retire.leaf 8 = false ∧ paged.ms.bad = [] ∧ page64.size % 64 = 0 ∧
    -- a page without data
    pageOf paged 0x5_0000 = none ∧ 0x5_0000 < Config.hbmBytes paged.bare := by decide +kernel

theorem witness_MemoryEvents_retirement_data : paged.NoneHeld ∧
    ∀ g, 0x1_0000 / 64 ≤ g → g < 0x1_0000 / 64 + page64.size / 64 → fget false paged.poison g = false := by
  have hp : paged.poison = [] := by decide +kernel
  exact ⟨noneHeld_of _ (by decide +kernel), fun g _ _ => by rw [hp]; rfl⟩

theorem test_pageRetirement : pageOf (next (.pageRetirement { retire with new := 0x3_0800 }) paged) 0x1_0000 = some (0x1_0000, page64) ∧
    (next (.pageRetirement { retire with old := 0x5_0000 }) paged).ms.bad = [(5, 1)] := by decide +kernel

/-- A sheaf that has written the old page, and one that has not. -/
noncomputable def writer (a : Nat) : Hart := reg 9 7 { open0 with sheaves := [sheaf0.addWrite a 8] }

theorem witness_MemoryEvents_retirement_users : let old := RecSet.range (0x1_0000 / 64) ((0x1_0000 + page64.size - 1) / 64)
    let sh := sheaf0.addWrite 0x1_FFF8 8
    (writer 0x1_FFF8).sheaves = [sh] ∧ (sh.rset.meets 4096 old || sh.wset.meets 4096 old || sh.dset.meets 2048 old) = true := by decide +kernel

/-- R361: the bytes that a sheaf has buffered for the old page are not lost with it. -/
theorem test_squashUsers :
    (((paged.setHart 0 (writer 0x1_FFF8)).squashUsers 0x1_0000 page64.size).hart 0).map (fun z => (z.sheaves, z.arch.rx 9)) = some ([], sheaf0.cp.rx 9) ∧
    (((paged.setHart 0 (writer 0x2_0000)).squashUsers 0x1_0000 page64.size).hart 0).map (fun z => (z.sheaves.length, z.arch.rx 9)) = some (1, 7) := by
  decide +kernel

theorem witness_MemoryEvents_budgets : base.tickedAll = base ∧ (base.disp.dieRegs[0]?).map (·.budNext) = some budgetDefaults ∧
    (let l := budgetDefaults.set 0 0x4041; l.all (fun u => decide (bits u.toNat 14 8 ≤ 64) && decide (bits u.toNat 6 0 ≤ bits u.toNat 14 8)) = false) ∧
    (let l := budgetDefaults.set 5 0x4001; l.all (fun u => decide (bits u.toNat 14 8 ≤ 64) && decide (bits u.toNat 6 0 ≤ bits u.toNat 14 8)) = true ∧ (l.map (fun u => bits u.toNat 6 0)).sum ≤ 64) := by
  decide +kernel

theorem test_budgetRegisters : ((next (.budgetRegisterWrite 0 5 0xFFFF_4001) base).disp.dieRegs[0]?).map (fun r => r.budNext[5]?) =
      some (if ((budgetDefaults.set 5 0x4001).map (fun u => bits u.toNat 6 0)).sum ≤ 64 then some 0x4001 else budgetDefaults[5]?) ∧
    ((next (.budgetRegisterWrite 0 0 0x4041) base).disp.dieRegs[0]?).map (·.budNext) = some budgetDefaults ∧
    ((next (.grsplitWrite 0 3) State.reset).disp.dieRegs[0]?).map (·.ab) = some 3 ∧ ((next (.grsplitWrite 0 13) State.reset).disp.dieRegs[0]?).map (·.ab) = some 8 ∧
    ((next (.grsplitWrite 0 3) base).disp.dieRegs[0]?).map (·.ab) = some 8 := by decide +kernel

/-! ### The hypotheses of the statements about actions of the sequencer -/

/-- A page of HBM4E at virtual 0x6_0000, and a hart whose .advice of 64 bytes lies at 0x1_4040 and whose first action is `t`. -/
noncomputable def hbm : State :=
  let s := next (.pageAllocation 0x1_0000 0x1_0000 false 0 0) base
  s.store (demoRoot + 0x5_0030) (leBytes 8 (demoLeaf 0x1_0000 true))
def advOf (t : List AdvAct) : Adv := { seq0 0 with queue := t, base := 0x1_4040 }
noncomputable def advised (t : List AdvAct) : Hart := { hart0 with adv := some (advOf t) }

theorem witness_AdviceActions_fetch : let x := advised []
    (hbm.setHart 0 x).hart 0 = some x ∧ x.adv = some (advOf []) ∧ x.parked = false ∧ (advOf []).mode = .run ∧ (advOf []).apc < (advOf []).size ∧
    (advOf []).word = none ∧ (advOf []).asked = none ∧ ((advOf []).base + (advOf []).apc) / 64 * 64 = 0x1_4040 ∧
    homeOf (hbm.setHart 0 x) x.arch.grant (x.arch.rcsr cPTROOT) 0x1_4040 kRead false = some 0x8_0000_0010_4040 ∧ hbm.ms.timed = false ∧
    poisoned hbm 0x8_0000_0010_4040 = false ∧ (resourceOf hbm (0x8_0000_0010_4040 / 64) false (hbm.holdsLine (0x8_0000_0010_4040 / 64))).isSome = true :=
  ⟨State.hart_setHart_self .., rfl, by decide +kernel⟩

/-- R288: a sequencer that is idle or awaits a mark fetches nothing. -/
theorem test_adviceLineFetch_idle : ∀ m ∈ [AdvMode.idle, .await 5], let x : Hart := { hart0 with adv := some { advOf [] with mode := m } }
    next (.adviceLineFetch 0) (hbm.setHart 0 x) = hbm.setHart 0 x := by decide +kernel

theorem test_adviceLineFetch : (after (.adviceLineFetch 0) ((hbm.store 0x8_0000_0010_4044 [7]).setHart 0 (advised []))).map
      (fun z => z.adv.map (fun a => a.line.map (fun l => (l.1, l.2.take 5, l.2.length)))) = some (some (some (0x1_4040, [0, 0, 0, 0, 7], 64))) ∧
    (let t := next (.adviceLineFetch 0) (({ hbm with ms := { hbm.ms with timed := true } } : State).setHart 0 (advised []))
     (t.hart 0).bind (fun z => z.adv.map (·.asked)) = some (some (0, 0x1_4040, 0x8_0000_0010_4040)) ∧ t.ms.flights.map (fun f => (f.2.granule, f.2.cls)) =
      [(0x8_0000_0010_4040 / 64, .a)]) := by decide +kernel

/-- Ranges of one granule: of HBM4E, unmapped, and an array of one 8-bit index that names row 3. -/
theorem witness_AdviceActions_ranges : let x := advised []
    let s := (hbm.store 0x8_0000_0010_1000 [3]).setHart 0 x
    pieceHome s x.arch.grant x.arch.csr { va := 0x6_0FC0, len := 64 } = some 0x1_0FC0 ∧ pieceHome s x.arch.grant x.arch.csr { va := 0x7_0FC0, len := 64 } = none ∧
    s.ms.timed = false ∧ isHbm s (0x1_0FC0 / 64) = true ∧ lineUnits s (homeDie s (0x1_0FC0 / 64 * 64)) ≠ 0 ∧ poisoned s (0x1_0FC0 / 64 * 64) = false ∧
    pieceHome s x.arch.grant x.arch.csr { va := 0x1_1000, len := 1 } = some 0x8_0000_0010_1000 ∧ memNat s 0x8_0000_0010_1000 1 = 3 ∧
    pieceHome s x.arch.grant x.arch.csr { va := 0x6_00C0, len := 64 } = some 0x1_00C0 := by decide +kernel

theorem test_actions : (let t := next (.prefetchAction 0) (hbm.setHart 0 (advised [.pf 0x6_0FC0 64, .prio 3]))
      (fget none t.ms.lines (0x1_0FC0 / 64)).isSome = true ∧ (t.hart 0).map (fun z => z.adv.map (·.queue)) = some (some [.prio 3])) ∧
    (after (.prefetchAction 0) (hbm.setHart 0 (advised [.pf 0x7_0FC0 64]))).map (fun z => fget 0 z.cnt cADVDROP) = some 1 ∧
    (fget none (next (.indexedPrefetchAction 0) ((hbm.store 0x8_0000_0010_1000 [3]).setHart 0 (advised [.pfx 0x1_1000 1 0x6_0000 64 8]))).ms.lines
      (0x1_00C0 / 64)).isSome = true ∧
    (after (.priorityAction 0) (hbm.setHart 0 (advised [.prio 9]))).map (fun z => (z.adv.map (·.request), fget 0 z.cnt cADVCLAMP)) = some (some (some 0), 1) ∧
    (after (.channelOrderAction 0) (hbm.setHart 0 (advised [.order 0x1_000A]))).map (fun z => z.adv.map (·.prefer)) = some (some [2, 1, 0, 3, 4, 5, 6, 7]) ∧
    (after (.channelOrderAction 0) (hbm.setHart 0 (advised [.share 17]))).map (fun z => (z.adv.map (·.weight), fget 0 z.cnt cADVCLAMP)) = some (some 16, 1) := by
  decide +kernel

/-- A line that a window puts in class 0. -/
noncomputable def lined : State := { hbm with ms := { hbm.ms with lines := [(0x1_0FC0 / 64, some { cls := 1, owner := none, used := 4 })] } }

theorem witness_AdviceActions_place : fget none lined.ms.lines (0x1_0FC0 / 64) = some { cls := 1, owner := none, used := 4 } ∧ lined.ms.timed = false ∧
    (lined.setTimed true).ms.timed = true ∧ (resourceOf (lined.setTimed true) (0x1_0FC0 / 64) false true).isSome = true := by decide +kernel

theorem test_placementAction : let t := next (.placementAction 0) (lined.setHart 0 (advised [.place 0x6_0FC0 64 0]))
    fget none t.ms.lines (0x1_0FC0 / 64) = some { cls := 0, owner := none, used := 4 } ∧
    (t.hart 0).map (fun z => z.adv.map (·.windows)) = some (some [{ base := 0x6_0FC0, len := 64, cls := 0 }]) ∧
    -- where timing is kept, in an access of class A
    (let t := next (.placementAction 0) ((lined.setTimed true).setHart 0 (advised [.place 0x6_0FC0 64 0]))
     fget none t.ms.lines (0x1_0FC0 / 64) = some { cls := 1, owner := none, used := 4 } ∧
      t.ms.flights.map (fun f => (f.2.granule, f.2.cls, f.2.dest)) = [(0x1_0FC0 / 64, .a, .place 0)]) := by decide +kernel
/-! ### The hypotheses of the statements about management -/

/-- A semantic image of one loaded section at 0x1_1000, whose hash is that of no bytes, and the same with another hash. -/
def emptyHash : List Byte :=
  [0xe3, 0xb0, 0xc4, 0x42, 0x98, 0xfc, 0x1c, 0x14, 0x9a, 0xfb, 0xf4, 0xc8, 0x99, 0x6f, 0xb9, 0x24, 0x27, 0xae, 0x41, 0xe4, 0x64, 0x9b, 0x93, 0x4c,
   0xa4, 0x95, 0x99, 0x1b, 0x78, 0x52, 0xb8, 0x55]
def imageOf (hash : List Byte) : List Byte :=
  [0x53, 0x48, 0x55, 0x4F] ++ leBytes 2 1 ++ leBytes 2 2 ++ leBytes 4 0 ++ leBytes 2 1 ++ leBytes 2 0 ++ leBytes 8 64 ++ leBytes 8 0 ++ hash
    ++ (leBytes 16 0x2E74657874 ++ leBytes 2 1 ++ leBytes 2 16 ++ leBytes 4 0 ++ leBytes 8 0x1_4000 ++ leBytes 8 128 ++ leBytes 8 3 ++ leBytes 16 0)
    ++ [7, 8, 9]

/-- The message that names it, in host window 2 with no advice; and the package whose window shows it. -/
def pair : ImagePair := { window := 2, semantic := (0x1_1000, 131), advice := (0x1_1000, 0), ptroot := BitVec.ofNat 64 demoRoot, marks := 0 }
noncomputable def imaged (hash : List Byte) : State := registered.store 0x8_0000_0010_1000 (imageOf hash)

/-- The leaf of the page at 0x1_0000 and where it stands. -/
def leaf1 : Nat × List Byte := (demoRoot + 0x5_0008, leBytes 8 0x8_0000_0010_0027)

theorem witness_ManagementEvents_messages : base.mg.pkg.ready = true ∧ base.mg.replies = [] ∧ State.reset.mg.pkg.ready = false ∧
    State.reset.mg.stopped = false ∧ headOk (head3 1 16) 1 16 = true ∧ headOk (head3 2 16) 2 16 = true ∧ headOk (head3 3 56) 3 56 = true ∧
    headOk (head3 1 8) 1 16 = false ∧ headOk { head3 1 16 with res := 1 } 1 16 = false ∧
    (imaged emptyHash).fileBytes 2 pair.semantic = some (imageOf emptyHash) ∧ (imaged emptyHash).fileBytes 2 pair.advice = some [] ∧
    semanticOk (imageOf emptyHash) = true ∧ semanticOk (imageOf emptyHash.reverse) = false ∧
    (imaged emptyHash).mg.loaded = [] ∧
    allOf ((imageSections (imageOf emptyHash)).map ((imaged emptyHash).sectionMaps pair.ptroot)) = some [leaf1] ∧
    allOf ((imageSections (imageOf emptyHash)).map ((imaged emptyHash).sectionPuts pair.ptroot 0)) = some [(0x8_0000_0010_4000, [7, 8, 9])] ∧
    ((imaged emptyHash).load pair (imageOf emptyHash) []).isSome = true ∧ (registered.harts.all (fun e => decide (e.2.held = none))) = true := by decide +kernel

/-- An advice image of the same semantic image, of one mark whose block begins at 0, for the chip of a serial number. -/
def adviceOf (serial : Nat) (marks : Nat) : List Byte :=
  [0x53, 0x48, 0x55, 0x4F] ++ leBytes 2 1 ++ leBytes 2 3 ++ leBytes 4 0 ++ leBytes 2 2 ++ leBytes 2 0 ++ leBytes 8 72 ++ leBytes 8 0 ++ emptyHash
    ++ leBytes 8 serial
    ++ (nameMarks ++ List.replicate 10 0 ++ leBytes 2 1 ++ leBytes 2 16 ++ leBytes 4 0 ++ leBytes 8 0 ++ leBytes 8 200 ++ leBytes 8 24 ++ leBytes 16 0)
    ++ (nameAdvice ++ List.replicate 9 0 ++ leBytes 2 1 ++ leBytes 2 16 ++ leBytes 4 0 ++ leBytes 8 0 ++ leBytes 8 224 ++ leBytes 8 4 ++ leBytes 16 0)
    ++ (leBytes 4 marks ++ leBytes 4 0xFFFF_FFFF ++ leBytes 8 0 ++ leBytes 2 5 ++ leBytes 2 0 ++ leBytes 4 0) ++ leBytes 4 0x7000_0000

/-- R116, R119: accepted; for another chip; for another program; and malformed: of another KIND, and of more marks than its table holds. -/
theorem test_adviceReason : let sem := imageOf emptyHash
    adviceReason sem (adviceOf 5 1) 5 = 0 ∧ adviceReason sem (adviceOf 5 1) 6 = 2 ∧ adviceReason (imageOf emptyHash.reverse) (adviceOf 5 1) 5 = 1 ∧
    adviceReason sem sem 5 = 3 ∧ adviceReason sem (adviceOf 5 2) 5 = 3 ∧
    ((imaged emptyHash).advicePlan pair.ptroot 0x2_4000 7 (adviceOf 5 1)).map (·.image) = some { root := pair.ptroot, marks := 0x2_4000, base := 0x2_4040, size := 4, hash := 7 } := by
  decide +kernel

theorem test_messages : (let t := next (.mwrite (head3 2 16) 0x80 [0x1_FFFF]) base
      t.mg.pkg.pwrcap = 0xFFFF ∧ t.mg.outbox = [(25, [3, 0x9_0000_0002, 0])] ∧
      -- message 9 again is answered with the kept reply; a read of two words
      (next (.mread (head3 1 16) 0x80 1) t).mg.outbox = [(25, [3, 0x9_0000_0002, 0]), (25, [3, 0x9_0000_0002, 0])] ∧
      (next (.mread { head3 1 16 with seq := 10 } 0x78 2) t).mg.outbox = [(25, [3, 0x9_0000_0002, 0]), (25, [3, 0xa_0000_0001, 16, t.readMgmt 0x78, 0xFFFF])]) ∧
    -- before READY (R396), where NOTREADY is not kept (R397)
    ((next (.mread (head3 1 16) 0x100 1) State.reset).mg.outbox = [(25, [3, 0x9_0001_0001, 0])] ∧ (next (.mread (head3 1 16) 0x100 1) State.reset).mg.replies = [] ∧
      (next (.mread (head3 1 16) 0x100 0) State.reset).mg.outbox = [(25, [3, 0x9_0001_0001, 0])]) ∧
    (next (.mwrite (head3 2 16) 0x10 [7]) State.reset).mg.pkg.pkgnum = 7 ∧ (next (.mwrite (head3 2 16) 0x10 [7]) base).mg.pkg.pkgnum = 0 :=
  ⟨by decide +kernel, by decide +kernel, by decide +kernel, by decide +kernel⟩

/-- R117, R119: the section reaches memory, on a page that is mapped readable only; an image whose hash differs is refused. -/
theorem test_imgload : (let t := next (.imgload (head3 3 56) pair) (imaged emptyHash)
      memBytes t 0x8_0000_0010_4000 4 = [7, 8, 9, 0] ∧ memNat t (demoRoot + 0x5_0008) 8 = 0x8_0000_0010_0027 ∧
      t.mg.outbox = [(25, [3, 0x9_0000_0003, 8, 0])]) ∧
    (next (.imgload (head3 3 56) pair) (imaged emptyHash.reverse)).mg.outbox = [(25, [3, 0x9_0002_0003, 0])] := by decide +kernel

theorem test_managementWrite : ((next (.managementWrite 0x0100_0010_01C0 (-1)) base).disp.dieRegs[1]?).map (·.lqbase) = some [(7, 0xF_FFFF_FFFF_FF80)] ∧
    (next (.managementWrite 0x40 (-1)) base).mg.pkg.sdroot = 0xF_FFFF_FFFF_FFFF ∧ (next (.podcfgWrite (-1)) State.reset).mg.pkg.podcfg = 0x3FF_E000_1FFF ∧
    (let s : State := { base with mg := { base.mg with withheld := true, pkg := { base.mg.pkg with dumpBit := true } } }
     (next (.dumprelWrite 1) s).mg.withheld = false ∧ (next (.dumprelWrite 2) s).mg.withheld = true) := by decide +kernel

/-- Three entries of TLBs: below the range of the shootdown, in it, and in it for another root. -/
noncomputable def shot : State :=
  let e (v : Nat) (r : W64) : Tlb := { cluster := 0, ptroot := r, vbase := v, size := 0x1_0000, leaf := 0 }
  { base with ms := { base.ms with tlbs := [e 0x1_0000 5, e 0x2_0000 5, e 0x2_0000 6] },
              mg := { base.mg with pkg := { base.mg.pkg with sdroot := 5, sdlow := 0x2_0000, sdhigh := 0x2_0001 } } }

theorem test_shootdown : shot.mg.pkg.sddone = true ∧ (next .shootdownGo shot).mg.pkg.sddone = false ∧
    (let t := next .shootdownDone (next .shootdownGo shot)
     t.mg.pkg.sddone = true ∧ t.ms.tlbs.map (fun e => (e.vbase, e.ptroot)) = [(0x1_0000, 5), (0x2_0000, 6)]) := by decide +kernel

/-- A buffer with one complete line and a ring of 64 lines in granary. -/
def ring : TraceBuf := { TraceBuf.reset with dbase := 0x8_0000_0010_0000, dcfg := 6, dhead := 65, dtail := 2, lines := [[1, 2, 3, 4, 5, 6, 7, 8]], lossc := 4 }
noncomputable def traced (b : TraceBuf) : State := { base with traces := base.traces.set 5 b }

theorem witness_ManagementEvents_traces : (traced ring).liveTrace 5 = some ring ∧ ring.asked = false ∧ ring.canDrain = true ∧ ring.ringAddr = 0x8_0000_0010_0040 ∧
    physOk (traced ring) ring.ringAddr 64 = true ∧ (traced ring).due = [] ∧ (traced ring).ms.timed = false ∧
    (traced ring).harts.all (fun e => decide (e.2.held = none)) = true ∧ (traced ring).tokenHolds ring.ringAddr 64 = false ∧ ring.state = 0 ∧
    ({ ring with dtail := 1 } : TraceBuf).canDrain = false := by decide +kernel

theorem test_traces : (let t := next (.traceDrainLine 5) (traced ring)
      (t.traces[5]?).map (fun b => (b.lines, b.dhead)) = some ([], 66) ∧ memNat t 0x8_0000_0010_0078 8 = 8) ∧
    ((next (.trstateWrite 5 4) (traced { ring with open_ := [1] })).traces[5]?).map (fun b => (b.state, b.lines, b.open_)) = some (0, [], []) ∧
    ((next (.trstateWrite 5 2) (traced ring)).traces[5]?).map (fun b => (b.state, b.fresh)) = some (2, true) ∧
    -- R370: TRIG and TSYNC, and the closing of the line, come after the records of the ck
    (let t := next (.trstateWrite 5 2) (traced { ring with state := 1 })
     (t.traces[5]?).map (fun b => (b.state, b.fresh)) = some (2, false) ∧ t.due.map (fun r => (r.cluster, r.head)) = [(5, header 0 1 0 2 7), (5, 1)]) ∧
    (let t := next (.trstateWrite 5 3) (traced { ring with state := 2, open_ := [1] })
     (t.traces[5]?).map (fun b => (b.state, b.open_)) = some (3, [1]) ∧
       (({ t with now := t.now + 1 } : State).writePast.traces[5]?).map (fun b => (b.state, b.lines.length, b.open_)) = some (3, 2, [])) ∧
    ((next (.trdbaseWrite 5 (-1)) (traced ring)).traces[5]?).map (fun b => (b.dbase, b.dhead)) = some (0xF_FFFF_FFFF_FFC0, 0) := by decide +kernel

/-- Trigger 3 of die 0, of event 4, selects cluster 5. -/
noncomputable def triggered (action : Nat) (b : TraceBuf) : State :=
  { traced b with disp := { base.disp with dieRegs := base.disp.dieRegs.map (fun r => { r with trig := r.trig.set 3 (0x20, 4 + 16 * action) }) } }

theorem witness_ManagementEvents_triggers : ∀ a ∈ [0, 1], ∃ r, (triggered a ring).disp.dieRegs[0]? = some r ∧
    r.trig[3]? = some (0x20, 4 + 16 * a) ∧ bits (4 + 16 * a) 3 0 = 4 ∧ bits (4 + 16 * a) 5 4 = a := fun a ha => by
  obtain rfl | rfl : a = 0 ∨ a = 1 := by simpa using ha
  · exact ⟨((triggered 0 ring).disp.dieRegs[0]?).get (by decide +kernel), by decide +kernel⟩
  · exact ⟨((triggered 1 ring).disp.dieRegs[0]?).get (by decide +kernel), by decide +kernel⟩

theorem test_triggers : ((next (.triggerStart 0 3) (triggered 0 { ring with state := 1 })).traces[5]?).map (·.state) = some 2 ∧
    ((next (.triggerFreeze 0 3) (triggered 1 { ring with state := 2 })).traces[5]?).map (·.state) = some 3 ∧
    (next (.triggerFreeze 0 3) (triggered 1 { ring with state := 2 })).due.map (fun r => (r.cluster, r.rest)) = [(5, [0]), (5, [])] ∧
    ((next (.triggerFreeze 0 3) (triggered 1 { ring with state := 1 })).traces[5]?).map (·.state) = some 1 ∧
    ((next (.triggerStart 0 3) (triggered 0 ring)).traces[5]?).map (·.state) = some 0 := by decide +kernel

/-- Clusters 5 and 0, the one without and the other with a hart; and gates that open. -/
noncomputable def gated (g : Gate) : State := { base with now := 50, mg := { base.mg with gates := base.mg.gates.set 5 g } }

/-- Cluster 0 at 116 °C; and 1 ms after both conditions have become false. -/
noncomputable def hot : State := { base with mg := { base.mg with heat := [(0, 116 * 16)] } }
noncomputable def cool : State := { base with now := 2400000, mg := { base.mg with pkg := { base.mg.pkg with throt := true } } }

/-- R378: a gated cluster's trace registers keep their values. -/
theorem test_traces_gated : let s : State := { gated { gated := true, readyAt := 0 } with traces := base.traces.set 5 { ring with state := 1 } }
    s.liveTrace 5 = none ∧ (next (.trstateWrite 5 2) s).traces = s.traces ∧ (next (.trdbaseWrite 5 (-1)) s).traces = s.traces ∧
    (next (.traceDrainLine 5) s).traces = s.traces := by decide +kernel

theorem witness_ManagementEvents_gates : base.mg.gates[5]? = some { gated := false, readyAt := 0 } ∧ (∀ e ∈ base.harts, e.2.onCluster 5 = false) ∧
    (∃ b, base.traces[5]? = some b ∧ b.lines = [] ∧ b.open_ = []) ∧ (∃ b, base.traces[0]? = some b ∧ b.lines = []) ∧
    (base.mg.gates[0]?).map (·.gated) = some false ∧ ffind base.gangs 0 = some gang0 ∧ gang0.live = [0] ∧
    hart0.onCluster 0 = true ∧ hart0.parked = false ∧ hart0.charac = false ∧ (gated { gated := true, readyAt := 0 }).mg.gates[5]? = some { gated := true, readyAt := 0 } ∧
    5 < Config.clusters base.bare ∧ base.due = [] ∧ hot.mg.gates[0]? = some { gated := false, readyAt := 0 } ∧ 105 * 16 < fget 0 hot.mg.heat 0 ∧
    (∃ e ∈ hot.mg.heat, 95 * 16 < e.2) ∧ 2400 < ({ base with mg := { base.mg with power := 2401 } } : State).mg.power ∧ base.mg.hotAt + 2400000 ≤ cool.now + 1 :=
  ⟨by decide +kernel, by decide +kernel, ⟨(base.traces[5]?).get (by decide +kernel), by decide +kernel⟩,
    ⟨(base.traces[0]?).get (by decide +kernel), by decide +kernel⟩, by decide +kernel⟩

theorem test_gates : ((next (.clusterGate 5) base).mg.gates[5]?).map (·.gated) = some true ∧
    -- R378: a buffer that is OFF enters FROZEN too
    ((next (.clusterGate 5) base).traces[5]?).map (·.state) = some 3 ∧ ((next (.clusterGate 0) base).mg.gates[0]?).map (·.gated) = some false ∧
    (let t := next (.clusterForcedGate 0) hot
     (t.mg.gates[0]?).map (·.gated) = some true ∧ (t.hart 0).map (fun z => decide (z.preempt ≠ 0)) = some true) ∧
    ((next (.clusterForcedGate 0) base).mg.gates[0]?).map (·.gated) = some false ∧
    ((next (.clusterForcedGate 5) { traced { ring with lines := [[0x80, 0, 0, 0, 0, 0, 0, 0]] } with mg := { base.mg with heat := [(5, 105 * 16 + 1)] } }).traces[5]?).map (fun b => (b.lines, b.lossc)) =
      some ([], 4 + ({ ring with lines := [[0x80, 0, 0, 0, 0, 0, 0, 0]] } : TraceBuf).held) ∧
    ((next (.clusterUngate 5) (gated { gated := true, readyAt := 0 })).mg.gates[5]?).map (·.readyAt) = some 48050 ∧
    ((next (.clusterUngateDone 5) (gated { gated := true, readyAt := 50 })).mg.gates[5]?).map (·.gated) = some false ∧
    ((next (.clusterUngateDone 5) (gated { gated := true, readyAt := 51 })).mg.gates[5]?).map (·.gated) = some true ∧
    (next .throttleOn base).mg.pkg.throt = false ∧ (next .throttleOn hot).mg.pkg.throt = true ∧ (next .throttleClear cool).mg.pkg.throt = false ∧
    (next .throttleClear { cool with now := 2399998 }).mg.pkg.throt = true :=
  by and_intros <;> decide +kernel

/-- A package that has stopped, and packages in Dawn, Morning and Noon. -/
theorem witness_ManagementEvents_bringUp : base.mg.stopped = false ∧ base.mg.withheld = false ∧ State.reset.mg.stopped = false ∧ State.reset.mg.pkg.phase = 0 ∧
    State.reset.mg.pkg.fail = false ∧ ({ base with mg := { base.mg with stopped := true } } : State).mg.stopped = true ∧
    ({ State.reset.mg.pkg with phase := 1 } : PkgRegs).fail = false ∧ ({ State.reset.mg.pkg with phase := 2 } : PkgRegs).ready = false ∧
    ({ base.mg with withheld := true } : Manage).withheld = true ∧ base.fatal 1 = true ∧ base.fatal 3 = false ∧ hot.fatal 2 = true ∧ base.fatal 2 = false := by decide +kernel

theorem test_fatalError : (let t := next (.fatalError 1) base
      t.mg.stopped = true ∧ t.mg.pkg.ready = false ∧ t.mem = base.mem) ∧
    (let t := next .dawn { base with mg := { base.mg with stopped := true } }
     t.harts = [] ∧ t.mem = base.mem ∧ t.mg.stopped = false) ∧
    (let t := next .noon { State.reset with now := 9, mg := { State.reset.mg with pkg := { State.reset.mg.pkg with phase := 2 } } }
     t.now = 0 ∧ t.mg.pkg.ready = true) := by decide +kernel
/-! ### Results of a few instructions, from the tables of the manual -/

theorem witness_AccessOrder : (0 : Nat) < 8 ∧ failsWith (opened id) open0 0x1_0004 8 kRead 2 = true ∧
    failsWith (opened id) open0 0x0400_0000_0001_0000 8 kRead 4 = true ∧ failsWith (opened id) open0 0x5_0000 8 kRead 3 = true ∧
    failsWith (opened watched) (watched open0) 0x1_0000 8 kRead 5 = true ∧ goesTo (opened id) open0 0x1_FFF8 8 kRead 0x8_0000_0010_FFF8 = true := by
  decide +kernel

/-- R122 to R125: x3 after an instruction on x1 and x2. -/
noncomputable def x3After (i : Instr) (a b : W64) : Option W64 := (after i (opened (reg 1 a ∘ reg 2 b))).map (·.arch.rx 3)

theorem test_scalarResults :
    x3After (.aluAdd 3 1 2) (-1) 1 = some 0 ∧ x3After (.aluSra 3 1 2) (-8) 65 = some (-4) ∧ x3After (.aluSlt 3 1 2) (-1) 0 = some 1 ∧
    x3After (.aluSltu 3 1 2) (-1) 0 = some 0 ∧ x3After (.aluClz 3 1) 0 0 = some 64 ∧ x3After (.aluMinu 3 1 2) (-1) 5 = some 5 ∧
    x3After (.muldivMulh 3 1 2) (-1) 2 = some (-1) ∧ x3After (.muldivMulhu 3 1 2) (-1) 2 = some 1 ∧ x3After (.muldivDiv 3 1 2) (-7) 2 = some (-3) ∧
    x3After (.muldivRem 3 1 2) (-7) 2 = some (-1) ∧ x3After (.muldivDiv 3 1 2) 0x8000_0000_0000_0000 (-1) = some 0x8000_0000_0000_0000 ∧
    x3After (.muldivDivu 3 1 2) 7 0 = some (-1) ∧ x3After (.muldivRem 3 1 2) (-7) 0 = some (-7) ∧ x3After (.addi 3 1 0xFFFF) 0 0 = some (-1) ∧
    x3After (.ori 3 1 0xFFFF) 0x1_0000 0 = some 0x1_FFFF := by decide +kernel

/-- R126: loads of the byte 0x80 and the half 0x8001 at 0x1_1000, and a store of a byte that the next load sees. -/
theorem test_loads : let s := (loaded 0x1000 [0x80, 0x80]).setHart 0 (reg 1 0x1_1000 open0)
    (after (.ldsB 3 1 0) s).map (·.arch.rx 3) = some (-128) ∧ (after (.ldsBu 3 1 0) s).map (·.arch.rx 3) = some 0x80 ∧
    (after (.ldsH 3 1 0) s).map (·.arch.rx 3) = some (-32640) ∧ (after (.ldsHu 3 1 0) s).map (·.arch.rx 3) = some 0x8080 := by decide +kernel

/-- Element 0 of v3, of `w` bits, after an instruction on v1 and v2 of one element each. -/
noncomputable def v3After (i : Instr) (vt : W64) (w a b : Nat) : Option Nat :=
  let f (x : Hart) : Hart := { x with arch := setElem (setElem x.arch 1024 w 1 0 a) 1024 w 2 0 b }
  (after i (opened (f ∘ vec vt 1))).map (fun z => getElem z.arch 1024 w 3 0)

/-- Integers of 8 bits wrap, saturate, and are divided by 0; binary32 1 + 2 and 1 / 3. -/
theorem test_vectorResults :
    v3After (.vintAdd 3 1 2 0) 0x01 8 0xFF 2 = some 1 ∧ v3After (.vintSadd 3 1 2 0) 0x01 8 0x7F 1 = some 0x7F ∧
    v3After (.vintDivu 3 1 2 0) 0x09 8 7 0 = some 0xFF ∧ v3After (.vfpAdd 3 1 2 0) 0x13 32 0x3F80_0000 0x4000_0000 = some 0x4040_0000 ∧
    v3After (.vfpDiv 3 1 2 0) 0x13 32 0x3F80_0000 0x4040_0000 = some 0x3EAA_AAAB := by decide +kernel

/-- R169: a load after an IDX store and a store of one byte, which no fence separates, may return either. -/
theorem test_readByte : let w (v : Byte) (a : Agent) (n : Nat) : WRec := { val := v, agent := a, seq := n, nSV := 0, nVS := 0, nVV := 0 }
    let got : Byte := (readByte { agent := .vec, seq := 2, nSV := 0, nVS := 0, nVV := 0 } 0 none false [w 9 .idx 0, w 5 .vec 1] 0).1
    (freeBit 0 = true → freeBit 1 = false → got = 9) ∧ (freeBit 0 = false → got = 5) := by
  refine ⟨fun h0 h1 => ?_, fun h0 => ?_⟩ <;>
    simp [readByte, WRec.replaced, ordered, WRec.outlasts, WRec.reader, *]

/-- R97: a word that is no instruction of the vector side is ILL, though BQ is full. -/
theorem test_illBeforeFull : let x : Hart := { vec 0x01 1 open0 with bq := List.replicate 16 { d := 0, here := false } }
    (after (.vredFsumt 9 2 3 0 1) (base.setHart 0 x)).map (fun z => (z.arch.rcsr cTCAUSE, z.arch.rcsr cTPC)) = some (1, 0x1_0000) := by decide +kernel

/-- R386: a SIGNAL element whose owner has ended is answered REMOTE, and raises no counter. -/
theorem test_remoteSig_gone : let t := next (.remoteSigArrival { elem 8 0x1_1FFF true with xctl := 0x3F0_0000 }) (registered.setHart 0 { hart0 with gone := true })
    (t.hart 0).map (·.ic) = some [] ∧ t.mg.outbox = [(21, [3, 8, 2, 6, 0, 5])] := by decide +kernel

end Sys2Proof.Tests
end

/-! ### The part right after power-on -/

namespace Sys2Proof.Machine

@[simp] theorem State.resetOf_dieRegs (bare : Bool) :
    (State.resetOf bare).disp.dieRegs = List.replicate (Config.dies bare) DieRegs.reset := rfl

@[simp] theorem State.resetOf_traces (bare : Bool) :
    (State.resetOf bare).traces = List.replicate (Config.clusters bare) TraceBuf.reset := rfl

@[simp] theorem State.resetOf_gates (bare : Bool) :
    (State.resetOf bare).mg.gates = List.replicate (Config.clusters bare) { gated := false, readyAt := 0 } := rfl

/-- A 960-D powers on in canonical form too: as in `State.reset_memOk`, nothing is listed. -/
theorem State.resetOf_memOk (bare : Bool) : (State.resetOf bare).MemOk := rfl

theorem State.eq_reset_of_mem_dieRegs {bare : Bool} {r : DieRegs} (hr : r ∈ (State.resetOf bare).disp.dieRegs) : r = DieRegs.reset := by
  rw [State.resetOf_dieRegs] at hr
  exact List.eq_of_mem_replicate hr

/-- R376: recording is off in every trace buffer. -/
theorem State.resetOf_traces_off (bare : Bool) : ∀ b ∈ (State.resetOf bare).traces, b.state = 0 := by
  intro b hb
  rw [State.resetOf_traces] at hb
  rw [List.eq_of_mem_replicate hb]
  rfl

/-- R340: CAP in the upper byte and FLOOR in the lower, of the classes D, E, A, M, T and X. -/
theorem budgetDefaults_toNat : budgetDefaults.map (·.toNat) =
    [24 + 64 * 2 ^ 8, 12 + 64 * 2 ^ 8, 8 * 2 ^ 8, 4 + 16 * 2 ^ 8, 1 + 8 * 2 ^ 8, 4 + 48 * 2 ^ 8] := by decide

/-- Settles O49: the fields of `State.resetOf` one by one; the lists of dies, buffers and gates repeat one reset value. -/
theorem resetState : Obligations.ResetState := by
  intro bare s
  have hdies : s.disp.dieRegs.length = if bare then 1 else 4 := by simp [s, Config.dies]
  have htraces : s.traces.length = if bare then 32 else 128 := by simp [s, Config.clusters]
  have hgates : s.mg.gates.length = if bare then 32 else 128 := by simp [s, Config.clusters]
  refine ⟨rfl, rfl, hdies, htraces, hgates, State.resetOf_memOk bare, rfl, rfl, rfl, rfl, rfl, rfl, rfl, rfl, rfl,
    State.resetOf_traces_off bare, fun r hr => ?_⟩
  obtain rfl := State.eq_reset_of_mem_dieRegs hr
  exact ⟨rfl, budgetDefaults_toNat⟩

end Sys2Proof.Machine

/-! ### Gangs that start and gangs that are restored (R15, R46, R317, R318, R332) -/

namespace Sys2Proof.Machine

/-! ### Folds of writes -/

section Folds
variable {σ ι γ : Type}

/-- A property that one element of a fold establishes and every element keeps. -/
theorem foldl_establishes {P : σ → Prop} (f : σ → ι → σ) (l : List ι) (s : σ) {e : ι} (he : e ∈ l) (hone : ∀ s, P (f s e))
    (hkeep : ∀ s, ∀ a ∈ l, P s → P (f s a)) : P (l.foldl f s) := by
  induction l generalizing s with
  | nil => simp at he
  | cons a l ih =>
    have hrest : ∀ s, ∀ b ∈ l, P s → P (f s b) := fun s b hb => hkeep s b (List.mem_cons_of_mem _ hb)
    rcases List.mem_cons.1 he with rfl | he
    · exact foldl_keeps f l _ (hone s) fun t b hb => hrest t b hb
    · exact ih _ he hrest

variable (read : σ → Nat → γ) (write : σ → ι → σ) (key : ι → Nat) (val : ι → γ)
  (hw : ∀ s e k, read (write s e) k = if k = key e then val e else read s k)
include hw

/-- A fold of writes leaves at a key what an element writes there, where every element that writes there writes the same. -/
theorem foldl_read_of_mem (l : List ι) (s : σ) {e : ι} (he : e ∈ l) (hsame : ∀ a ∈ l, key a = key e → val a = val e) :
    read (l.foldl write s) (key e) = val e := by
  refine foldl_establishes (P := fun t => read t (key e) = val e) write l s he (fun t => by rw [hw, if_pos rfl]) fun t a ha ht => ?_
  rw [hw]
  split
  · next hk => exact hsame a ha hk.symm
  · exact ht

theorem foldl_read_of_nodup (l : List ι) (hl : (l.map key).Nodup) (s : σ) {e : ι} (he : e ∈ l) :
    read (l.foldl write s) (key e) = val e :=
  foldl_read_of_mem read write key val hw l s he fun _ ha h => congrArg val (List.inj_on_of_nodup_map hl ha he h)

theorem foldl_read_of_notMem (l : List ι) (s : σ) {k : Nat} (hk : k ∉ l.map key) : read (l.foldl write s) k = read s k := by
  refine foldl_keeps (P := fun t => read t k = read s k) write l s rfl fun t a ha ht => ?_
  have hne : k ≠ key a := fun h => hk (h ▸ List.mem_map_of_mem ha)
  rw [hw, if_neg hne, ht]

end Folds

theorem fget_foldl_fset_of_nodup {β ι : Type} [DecidableEq β] (d : β) (key : ι → Nat) (val : ι → β) (l : List ι) (hl : (l.map key).Nodup)
    (m : FMap β) {e : ι} (he : e ∈ l) : fget d (l.foldl (fun m e => fset d m (key e) (val e)) m) (key e) = val e :=
  foldl_read_of_nodup (fget d) _ key val (fun m e k => fget_fset d m (key e) k (val e)) l hl m he

theorem fget_foldl_fset_of_notMem {β ι : Type} [DecidableEq β] (d : β) (key : ι → Nat) (val : ι → β) (l : List ι)
    (m : FMap β) {k : Nat} (hk : k ∉ l.map key) : fget d (l.foldl (fun m e => fset d m (key e) (val e)) m) k = fget d m k :=
  foldl_read_of_notMem (fget d) _ key val (fun m e k => fget_fset d m (key e) k (val e)) l m hk

theorem ffind_fins {β : Type} (m : FMap β) (n k : Nat) (v : β) : ffind (fins m n v) k = if k = n then some v else ffind m k := by
  split
  · next h => rw [h, ffind_fins_self]
  · next h => exact ffind_fins_ne m v h

theorem mem_range_zip {α : Type} (n : Nat) (l : List α) (e : Nat × α) : e ∈ (List.range n).zip l ↔ e.1 < n ∧ l[e.1]? = some e.2 := by
  simp only [List.mem_iff_getElem?, List.getElem?_zip_eq_some]
  constructor
  · rintro ⟨i, hi, hl⟩
    obtain ⟨hi', rfl⟩ : i < n ∧ i = e.1 := by
      simpa [List.getElem?_eq_some_iff] using hi
    exact ⟨hi', hl⟩
  · rintro ⟨hn, hl⟩
    exact ⟨e.1, by simp [hn], hl⟩

/-- A list beside its places has one element at each place. -/
theorem eq_of_mem_range_zip {α : Type} {n : Nat} {l : List α} {e f : Nat × α} (he : e ∈ (List.range n).zip l) (hf : f ∈ (List.range n).zip l)
    (h : e.1 = f.1) : e = f := by
  have h1 := ((mem_range_zip n l e).1 he).2
  have h2 := ((mem_range_zip n l f).1 hf).2
  rw [h, h2] at h1
  exact Prod.ext h (Option.some.inj h1).symm

/-! ### The scratchpads of a grant (R152, R327) -/

/-- A range of memory reads as zero. -/
def State.clearRange (s : State) (lo len : Nat) : State :=
  { s with mem := fclear s.mem lo len, poison := fclear s.poison (lo / 64) (len / 64) }

/-- The home addresses of the scratchpads of a grant. -/
def Grant.OwnsScratch (g : Grant) (a : Nat) : Prop :=
  if g.clusters = 0 then
    scratchHome g.base (g.quarter * 0x8_0000) ≤ a ∧ a < scratchHome g.base (g.quarter * 0x8_0000) + g.quarters * 0x8_0000
  else ∃ c ∈ g.clusterList, scratchHome c 0 ≤ a ∧ a < scratchHome c 0 + 0x20_0000

theorem clearScratch_eq (s : State) (g : Grant) : clearScratch s g =
    if g.clusters = 0 then s.clearRange (scratchHome g.base (g.quarter * 0x8_0000)) (g.quarters * 0x8_0000)
    else g.clusterList.foldl (fun s c => s.clearRange (scratchHome c 0) 0x20_0000) s := rfl

theorem State.clearRange_get (s : State) (lo len a : Nat) :
    fget 0 (s.clearRange lo len).mem a = if lo ≤ a ∧ a < lo + len then 0 else fget 0 s.mem a := fget_fclear 0 s.mem lo len a

/-- Clearing the scratchpads of a grant changes memory and its poison only. -/
theorem clearScratch_frame (s : State) (g : Grant) : ∃ m p, clearScratch s g = { s with mem := m, poison := p } := by
  rw [clearScratch_eq]
  split
  · exact ⟨_, _, rfl⟩
  · refine foldl_keeps (P := fun t : State => ∃ m p, t = { s with mem := m, poison := p }) _ _ _ ⟨_, _, rfl⟩ fun t c _ ht => ?_
    obtain ⟨m, p, rfl⟩ := ht
    exact ⟨_, _, rfl⟩

/-- R327: the scratchpads of the grant read as zero. -/
theorem clearScratch_get_owned (s : State) {g : Grant} {a : Nat} (ha : g.OwnsScratch a) : fget 0 (clearScratch s g).mem a = 0 := by
  unfold Grant.OwnsScratch at ha
  rw [clearScratch_eq]
  split_ifs at ha ⊢ with hc
  · rw [State.clearRange_get, if_pos ha]
  · obtain ⟨c, hmem, hlo⟩ := ha
    refine foldl_establishes (P := fun t : State => fget 0 t.mem a = 0) _ _ _ hmem (fun t => ?_) fun t b _ ht => ?_
    · rw [State.clearRange_get, if_pos hlo]
    · rw [State.clearRange_get, ht, ite_self]

/-- Clearing the scratchpads of a grant leaves every other address alone. -/
theorem clearScratch_get_other (s : State) {g : Grant} {a : Nat} (ha : ¬ g.OwnsScratch a) :
    fget 0 (clearScratch s g).mem a = fget 0 s.mem a := by
  unfold Grant.OwnsScratch at ha
  rw [clearScratch_eq]
  split_ifs at ha ⊢ with hc
  · rw [State.clearRange_get, if_neg ha]
  · refine foldl_keeps (P := fun t : State => fget 0 t.mem a = fget 0 s.mem a) _ _ _ rfl fun t c hmem ht => ?_
    rw [State.clearRange_get, if_neg (fun h => ha ⟨c, hmem, h⟩), ht]

theorem clearScratch_get_zero (s : State) (g : Grant) {a : Nat} (ha : fget 0 s.mem a = 0) : fget 0 (clearScratch s g).mem a = 0 := by
  by_cases h : g.OwnsScratch a
  · exact clearScratch_get_owned s h
  · rw [clearScratch_get_other s h, ha]

/-- R268: scratchpads lie above all other memory. -/
theorem Grant.OwnsScratch.above {g : Grant} {a : Nat} (ha : g.OwnsScratch a) : 0xF_0000_0000_0000 ≤ a := by
  unfold Grant.OwnsScratch scratchHome at ha
  split_ifs at ha
  · omega
  · obtain ⟨c, -, hlo, -⟩ := ha
    omega

/-- R152: the scratchpad window of a grant lies in its scratchpads. -/
theorem Grant.ownsScratch_windowHome (g : Grant) {o : Nat} (ho : o < g.scratch) : g.OwnsScratch (g.windowHome o) := by
  unfold Grant.scratch at ho
  unfold Grant.OwnsScratch Grant.windowHome scratchHome
  dsimp only
  split_ifs at ho ⊢ with hc
  · have hq : o / 64 % g.quarters < g.quarters := Nat.mod_lt _ (by omega)
    have hd : o / 64 / g.quarters < 0x2000 := Nat.div_lt_of_lt_mul (by omega)
    omega
  · have hi : o / 64 % g.clusters < g.clusters := Nat.mod_lt _ (by omega)
    have hd : o / 64 / g.clusters < 0x8000 := Nat.div_lt_of_lt_mul (by omega)
    refine ⟨g.cluster (o / 64 % g.clusters), ?_, by omega, by omega⟩
    simp only [Grant.clusterList, if_neg hc]
    exact List.mem_map_of_mem (List.mem_range.2 hi)

/-! ### The hart that a launch starts (R15, R46) -/

/-- The scalar registers that a launch sets, with their values (R15). -/
def launchRegEntries (p : Packet) (size index : Nat) : List (Nat × Nat) :=
  (10, fieldAt p.bytes 16 8) :: (List.range 6).map (fun i => (11 + i, fieldAt p.bytes (32 + 8 * i) 8)) ++ [(17, size * 65536 + index)]

theorem launchRegs_eq (p : Packet) (size index : Nat) : launchRegs p size index =
    (launchRegEntries p size index).foldl (fun m e => fset 0 m e.1 (BitVec.ofNat 64 e.2)) [] := rfl

theorem launchRegEntries_keys (p : Packet) (size index : Nat) : (launchRegEntries p size index).map Prod.fst = List.range' 10 8 := rfl

theorem fget_launchRegs_set (p : Packet) (size index : Nat) {e : Nat × Nat} (he : e ∈ launchRegEntries p size index) :
    fget 0 (launchRegs p size index) e.1 = BitVec.ofNat 64 e.2 := by
  rw [launchRegs_eq]
  refine fget_foldl_fset_of_nodup 0 Prod.fst (fun e : Nat × Nat => BitVec.ofNat 64 e.2) _ ?_ [] he
  rw [launchRegEntries_keys]
  exact List.nodup_range'

theorem fget_launchRegs_unset (p : Packet) (size index : Nat) {k : Nat} (hk : k < 10 ∨ 17 < k) : fget 0 (launchRegs p size index) k = 0 := by
  rw [launchRegs_eq]
  refine fget_foldl_fset_of_notMem 0 Prod.fst (fun e : Nat × Nat => BitVec.ofNat 64 e.2) _ [] ?_
  rw [launchRegEntries_keys, List.mem_range'_1]
  omega

/-- R15: x11 to x16 start with the six words of the packet from 0x20 on. -/
theorem fget_launchRegs_word (p : Packet) (size index : Nat) {j : Nat} (hj : j < 6) :
    fget 0 (launchRegs p size index) (11 + j) = BitVec.ofNat 64 (fieldAt p.bytes (32 + 8 * j) 8) :=
  fget_launchRegs_set p size index (e := (11 + j, fieldAt p.bytes (32 + 8 * j) 8))
    (List.mem_append_left _ (List.mem_cons_of_mem _ (List.mem_map.2 ⟨j, List.mem_range.2 hj, rfl⟩)))

/-- The CSRs that a launch sets, with their values (R46). -/
def launchCsrEntries (d : Dispatch) (h : Nat) (p : Packet) (g : Grant) (size index : Nat) : List (Nat × W64) :=
  let n := fun (v : Nat) => BitVec.ofNat 64 v
  [(cVTYPE, 3), (cVLENB, n g.vlenb), (cGRANT, g.csr (bit (pFlags p.bytes) 0)), (cSRSEED, 1), (cHARTINFO, n (size * 65536 + index)),
     (0x12, 0x10004), (0x16, 0x10004), (0x1A, 0x10004), (0x1E, 0x10004),
     (cMSKSHAPE, n (64 + 64 * max g.clusters 1 * 65536)),
     (cTVEC, d.tvec), (cSUPSCR, d.supscr), (cSAVEPTR, d.saveptr + n (h * 0x2000_0000)), (cPTROOT, p.ptroot),
     (cHSTATUS, launchStatus (pFlags p.bytes) p.prio p.charac.isSome),
     (cADVPTR, n (pAdvice p.bytes)), (cBNDTAB, n (fieldAt p.bytes 80 8))]
    ++ (List.range 8).map (fun i => (cZCFG + i, zcfgReset g))

/-- The numbers of the CSRs that a launch sets. -/
def launchCsrKeys : List Nat :=
  [cVTYPE, cVLENB, cGRANT, cSRSEED, cHARTINFO, 0x12, 0x16, 0x1A, 0x1E, cMSKSHAPE, cTVEC, cSUPSCR, cSAVEPTR, cPTROOT, cHSTATUS, cADVPTR, cBNDTAB]
    ++ (List.range 8).map (cZCFG + ·)

/-- R46: a launch sets no TID. -/
theorem tid_notMem_launchCsrKeys {c : Nat} (hc : c < 8) : cTID + c ∉ launchCsrKeys := by
  revert c
  decide

section NewCsrs
variable (d : Dispatch) (h : Nat) (p : Packet) (g : Grant) (size index : Nat)

theorem launchCsrs_eq : launchCsrs d h p g size index =
    (launchCsrEntries d h p g size index).foldl (fun m e => fset 0 m e.1 e.2) [] := rfl

theorem launchCsrEntries_keys : (launchCsrEntries d h p g size index).map Prod.fst = launchCsrKeys := rfl

theorem fget_launchCsrs_set {e : Nat × W64} (he : e ∈ launchCsrEntries d h p g size index) :
    fget 0 (launchCsrs d h p g size index) e.1 = e.2 := by
  rw [launchCsrs_eq]
  refine fget_foldl_fset_of_nodup 0 Prod.fst Prod.snd _ ?_ [] he
  rw [launchCsrEntries_keys]
  decide

theorem fget_launchCsrs_unset {k : Nat} (hk : k ∉ launchCsrKeys) : fget 0 (launchCsrs d h p g size index) k = 0 := by
  rw [launchCsrs_eq]
  exact fget_foldl_fset_of_notMem 0 Prod.fst Prod.snd _ [] (by rwa [launchCsrEntries_keys])

/-- R41, R46: every tile register starts with ZCFG at its reset value. -/
theorem fget_launchCsrs_zcfg {c : Nat} (hc : c < 8) : fget 0 (launchCsrs d h p g size index) (cZCFG + c) = zcfgReset g :=
  fget_launchCsrs_set d h p g size index (e := (cZCFG + c, zcfgReset g))
    (List.mem_append_right _ (List.mem_map.2 ⟨c, List.mem_range.2 hc, rfl⟩))

end NewCsrs

/-- A hart starts in user mode (R310, R332). -/
theorem launchStatus_user (flags prio : Nat) : bit (launchStatus flags prio false).toNat 0 = false := by
  unfold launchStatus bit
  rw [Nat.testBit_zero, BitVec.toNat_ofNat, decide_eq_false_iff_not]
  simp only [Bool.false_eq_true, if_false]
  split_ifs <;> omega

theorem newHart_rx (d : Dispatch) (h gang : Nat) (p : Packet) (g : Grant) (index k : Nat) :
    (newHart d h gang p g index).arch.rx k = fget 0 (launchRegs p (pGang p.bytes) index) k := by
  unfold Arch.rx
  split
  · next hk => rw [hk, fget_launchRegs_unset _ _ _ (by omega)]
  · rfl

theorem newHart_rcsr_of_mem (d : Dispatch) (h gang : Nat) (p : Packet) (g : Grant) (index : Nat) (e : Nat × W64)
    (he : e ∈ launchCsrEntries d h p g (pGang p.bytes) index) : (newHart d h gang p g index).arch.rcsr e.1 = e.2 :=
  fget_launchCsrs_set _ _ _ _ _ _ he

theorem newHart_sup (d : Dispatch) (h gang : Nat) {p : Packet} (hp : p.charac = none) (g : Grant) (index : Nat) :
    (newHart d h gang p g index).arch.sup = false := by
  have hst := newHart_rcsr_of_mem d h gang p g index (cHSTATUS, launchStatus (pFlags p.bytes) p.prio p.charac.isSome) (by simp [launchCsrEntries])
  rw [hp] at hst
  rw [Arch.sup, hst]
  exact launchStatus_user _ _

/-- R15: the scalar registers of a new hart. -/
theorem newHart_scalars (d : Dispatch) (h gang : Nat) (p : Packet) (g : Grant) (i : Nat) :
    let a := (newHart d h gang p g i).arch
    a.rx 10 = BitVec.ofNat 64 (fieldAt p.bytes 16 8) ∧ (∀ j < 6, a.rx (11 + j) = BitVec.ofNat 64 (fieldAt p.bytes (32 + 8 * j) 8)) ∧
    a.rx 17 = BitVec.ofNat 64 (pGang p.bytes * 65536 + i) ∧ ∀ j, j < 10 ∨ 17 < j → a.rx j = 0 := by
  simp only [newHart_rx]
  exact ⟨fget_launchRegs_set p _ i (e := (10, fieldAt p.bytes 16 8)) (by simp [launchRegEntries]), fun j hj => fget_launchRegs_word p _ i hj,
    fget_launchRegs_set p _ i (e := (17, pGang p.bytes * 65536 + i)) (by simp [launchRegEntries]), fun j hj => fget_launchRegs_unset p _ i hj⟩

/-- R46: the CSRs of a new hart. -/
theorem newHart_csrs (d : Dispatch) (h gang : Nat) {p : Packet} (hp : p.charac = none) (g : Grant) (i : Nat) :
    let a := (newHart d h gang p g i).arch
    let info := BitVec.ofNat 64 (pGang p.bytes * 65536 + i)
    let bndtab := BitVec.ofNat 64 (fieldAt p.bytes 80 8)
    a.rcsr cVL = 0 ∧ a.rcsr cVTYPE = 3 ∧ a.rcsr cVLENB = BitVec.ofNat 64 g.vlenb ∧ a.rcsr cSTRIP = 0 ∧
    a.rcsr cFCSR = 0 ∧ a.rcsr cSRSEED = 1 ∧ a.rcsr cHARTINFO = info ∧
    (∀ c < 8, a.rcsr (cZCFG + c) = zcfgReset g ∧ a.rcsr (cTID + c) = 0) ∧ a.rcsr cZSTATE = 0 ∧
    a.rcsr cTVEC = d.tvec ∧ a.rcsr cSUPSCR = d.supscr ∧ a.rcsr cPTROOT = p.ptroot ∧ a.rcsr cBNDTAB = bndtab ∧ a.sup = false := by
  intro a info bndtab
  have hset (e : Nat × W64) (he : e ∈ launchCsrEntries d h p g (pGang p.bytes) i) : a.rcsr e.1 = e.2 := newHart_rcsr_of_mem d h gang p g i e he
  have hunset (k : Nat) (hk : k ∉ launchCsrKeys) : a.rcsr k = 0 := fget_launchCsrs_unset d h p g (pGang p.bytes) i hk
  exact ⟨hunset cVL (by decide), hset (cVTYPE, 3) (by simp [launchCsrEntries]),
    hset (cVLENB, BitVec.ofNat 64 g.vlenb) (by simp [launchCsrEntries]), hunset cSTRIP (by decide), hunset cFCSR (by decide),
    hset (cSRSEED, 1) (by simp [launchCsrEntries]), hset (cHARTINFO, info) (by simp [launchCsrEntries, info]),
    fun c hc => ⟨fget_launchCsrs_zcfg d h p g _ i hc, hunset _ (tid_notMem_launchCsrKeys hc)⟩, hunset cZSTATE (by decide),
    hset (cTVEC, d.tvec) (by simp [launchCsrEntries]), hset (cSUPSCR, d.supscr) (by simp [launchCsrEntries]),
    hset (cPTROOT, p.ptroot) (by simp [launchCsrEntries]), hset (cBNDTAB, bndtab) (by simp [launchCsrEntries, bndtab]),
    newHart_sup d h gang hp g i⟩

/-! ### The sequencers of a new gang (R286) -/

/-- Starting the sequencer of a hart changes nothing but harts. -/
theorem State.startAdvice_frame (s : State) (img : Option AdvImage) (h : Nat) : ∃ hs, s.startAdvice img h = { s with harts := hs } := by
  unfold State.startAdvice State.updHart
  split
  · exact ⟨_, rfl⟩
  · exact ⟨_, rfl⟩

/-- Starting the sequencer of a hart changes nothing of it but its sequencer. -/
theorem State.startAdvice_hart (s : State) (img : Option AdvImage) (h k : Nat) {x : Hart} (hx : s.hart k = some x) :
    ∃ a, (s.startAdvice img h).hart k = some { x with adv := a } ∧ (img = none → a = x.adv) := by
  unfold State.startAdvice
  by_cases hk : k = h
  · subst hk
    rw [State.hart_updHart_self, hx, Option.map_some]
    cases img with
    | none => exact ⟨x.adv, rfl, fun _ => rfl⟩
    | some e =>
      dsimp only
      split
      · exact ⟨x.adv, rfl, fun _ => rfl⟩
      · exact ⟨_, rfl, nofun⟩
  · exact ⟨x.adv, (State.hart_updHart_ne s _ hk).trans hx, fun _ => rfl⟩

/-- The sequencers of the harts of a list start. -/
def State.startAdvices (s : State) (img : Option AdvImage) (hs : List Nat) : State := hs.foldl (fun s h => s.startAdvice img h) s

theorem State.startAdvices_frame (s : State) (img : Option AdvImage) (hs : List Nat) : ∃ m, s.startAdvices img hs = { s with harts := m } :=
  foldl_keeps (P := fun t : State => ∃ m, t = { s with harts := m }) _ _ _ ⟨_, rfl⟩ fun t h _ ⟨_, ht⟩ => by
    obtain ⟨m, e⟩ := t.startAdvice_frame img h
    exact ⟨m, by rw [e, ht]⟩

theorem State.startAdvices_hart_other (s : State) (img : Option AdvImage) (hs : List Nat) {k : Nat} (hk : k ∉ hs) :
    (s.startAdvices img hs).hart k = s.hart k :=
  foldl_keeps (P := fun t : State => t.hart k = s.hart k) _ _ _ rfl fun t h hh ht =>
    (State.hart_updHart_ne t _ fun e => hk (by rwa [e])).trans ht

theorem State.startAdvices_hart (s : State) (img : Option AdvImage) (hs : List Nat) {k : Nat} {x : Hart} (hx : s.hart k = some x) :
    ∃ a, (s.startAdvices img hs).hart k = some { x with adv := a } ∧ (img = none → a = x.adv) :=
  foldl_keeps (P := fun t : State => ∃ a, t.hart k = some { x with adv := a } ∧ (img = none → a = x.adv)) _ _ _
    ⟨x.adv, hx, fun _ => rfl⟩ fun t h _ ⟨a, ht, ha⟩ => by
      obtain ⟨b, hb, hba⟩ := t.startAdvice_hart img h k ht
      exact ⟨b, hb, fun hn => (hba hn).trans (ha hn)⟩

/-! ### The start of a gang (R15, R332) -/

/-- The scratchpads of the grants of a gang are cleared. -/
def State.clearScratches (s : State) (v : Nat) (ps : List Sys2Proof.Place) : State := ps.foldl (fun s q => clearScratch s (grantAt v q)) s

theorem State.clearScratches_frame (s : State) (v : Nat) (ps : List Sys2Proof.Place) :
    ∃ m p, s.clearScratches v ps = { s with mem := m, poison := p } :=
  foldl_keeps (P := fun t : State => ∃ m p, t = { s with mem := m, poison := p }) _ _ _ ⟨_, _, rfl⟩ fun t q _ ⟨_, _, ht⟩ => by
    obtain ⟨m, p, e⟩ := clearScratch_frame t (grantAt v q)
    exact ⟨m, p, by rw [e, ht]⟩

/-- R327: the scratchpad of each hart of the gang reads as zero. -/
theorem State.clearScratches_get_window (s : State) (v : Nat) {ps : List Sys2Proof.Place} {q : Sys2Proof.Place} (hq : q ∈ ps) {o : Nat}
    (ho : o < (grantAt v q).scratch) : fget 0 (s.clearScratches v ps).mem ((grantAt v q).windowHome o) = 0 :=
  foldl_establishes (P := fun t : State => fget 0 t.mem ((grantAt v q).windowHome o) = 0) _ _ _ hq
    (fun t => clearScratch_get_owned t ((grantAt v q).ownsScratch_windowHome ho)) fun t q' _ ht => clearScratch_get_zero t (grantAt v q') ht

theorem State.clearScratches_get_below (s : State) (v : Nat) (ps : List Sys2Proof.Place) {a : Nat} (ha : a < 0xF_0000_0000_0000) :
    fget 0 (s.clearScratches v ps).mem a = fget 0 s.mem a :=
  foldl_keeps (P := fun t : State => fget 0 t.mem a = fget 0 s.mem a) _ _ _ rfl fun t _ _ ht =>
    (clearScratch_get_other t fun h => absurd h.above (by omega)).trans ht

/-- The gang of a packet that no command has launched, as it starts (R332, R383). -/
def State.newGang (s : State) (p : Packet) : Gang :=
  { ident := s.nextGang % 2 ^ 48, size := pGang p.bytes, live := (List.range (pGang p.bytes)).map (s.nextHart + ·), gen := 0, arrived := [],
    prio := p.prio, die := p.die, queue := p.queue, eng := none, normal := 0, placedAt := s.now }

/-- The harts of the package with those of a new gang. -/
def State.withNewHarts (s : State) (p : Packet) (ps : List Sys2Proof.Place) : FMap Hart :=
  ((List.range (pGang p.bytes)).zip ps).foldl (fun m e =>
    fins m (s.nextHart + e.1) (newHart s.disp (s.nextHart + e.1) s.nextGang p (grantAt (pVlen p.bytes) e.2) e.1)) s.harts

theorem State.withNewHarts_new (s : State) (p : Packet) {ps : List Sys2Proof.Place} (hl : ps.length = pGang p.bytes) {i : Nat} {q : Sys2Proof.Place}
    (hi : ps[i]? = some q) :
    ffind (s.withNewHarts p ps) (s.nextHart + i) = some (newHart s.disp (s.nextHart + i) s.nextGang p (grantAt (pVlen p.bytes) q) i) := by
  have hlt : i < pGang p.bytes := hl ▸ (List.getElem?_eq_some_iff.1 hi).1
  have hmem : (i, q) ∈ (List.range (pGang p.bytes)).zip ps := (mem_range_zip _ _ (i, q)).2 ⟨hlt, hi⟩
  exact foldl_read_of_mem ffind _ (fun e : Nat × Sys2Proof.Place => s.nextHart + e.1)
    (fun e => some (newHart s.disp (s.nextHart + e.1) s.nextGang p (grantAt (pVlen p.bytes) e.2) e.1)) (fun m _ k => ffind_fins m _ k _) _ _ hmem
    fun a ha hk => by rw [eq_of_mem_range_zip ha hmem (Nat.add_left_cancel hk)]

theorem State.withNewHarts_other (s : State) (p : Packet) (ps : List Sys2Proof.Place) {k : Nat}
    (hk : k < s.nextHart ∨ s.nextHart + pGang p.bytes ≤ k) : ffind (s.withNewHarts p ps) k = s.hart k :=
  foldl_keeps (P := fun m : FMap Hart => ffind m k = s.hart k) _ _ _ rfl fun m e he hm => by
    have hlt := ((mem_range_zip _ _ e).1 he).1
    rw [ffind_fins_ne m _ (by omega), hm]

/-- The package with the gang of a packet in it, before its sequencers start. -/
def State.seated (s : State) (p : Packet) (ps : List Sys2Proof.Place) : State :=
  { s.clearScratches (pVlen p.bytes) ps with
    gangs := fins s.gangs s.nextGang (s.newGang p), nextGang := s.nextGang + 1, nextHart := s.nextHart + pGang p.bytes,
    harts := s.withNewHarts p ps, cur := if s.harts.all (fun e => e.2.gone) then s.nextHart else s.cur }

theorem State.startGang_eq (s : State) {p : Packet} (ps : List Sys2Proof.Place) (he : p.eng = none) :
    s.startGang p ps = (s.seated p ps).startAdvices p.advice ((List.range (pGang p.bytes)).map (s.nextHart + ·)) := by
  obtain ⟨m, e, hclear⟩ := s.clearScratches_frame (pVlen p.bytes) ps
  unfold State.startGang State.seated State.newGang State.withNewHarts
  unfold State.clearScratches at hclear ⊢
  simp only [he, hclear]
  rfl

/-- R332: what the start of a gang leaves in the package beside the harts and the cleared scratchpads. -/
theorem State.startGang_frame (s : State) {p : Packet} (ps : List Sys2Proof.Place) (he : p.eng = none) :
    ∃ m po hs c, s.startGang p ps = { s with
      mem := m, poison := po, harts := hs, cur := c, gangs := fins s.gangs s.nextGang (s.newGang p), nextGang := s.nextGang + 1,
      nextHart := s.nextHart + pGang p.bytes } := by
  obtain ⟨m, po, hclear⟩ := s.clearScratches_frame (pVlen p.bytes) ps
  obtain ⟨hs, hadv⟩ := (s.seated p ps).startAdvices_frame p.advice ((List.range (pGang p.bytes)).map (s.nextHart + ·))
  refine ⟨m, po, hs, (s.seated p ps).cur, ?_⟩
  rw [s.startGang_eq ps he, hadv]
  unfold State.seated
  rw [hclear]

theorem State.startGang_mem (s : State) {p : Packet} (ps : List Sys2Proof.Place) (he : p.eng = none) :
    (s.startGang p ps).mem = (s.clearScratches (pVlen p.bytes) ps).mem := by
  obtain ⟨hs, hadv⟩ := (s.seated p ps).startAdvices_frame p.advice ((List.range (pGang p.bytes)).map (s.nextHart + ·))
  rw [s.startGang_eq ps he, hadv]
  rfl

theorem State.startGang_hart_new (s : State) {p : Packet} {ps : List Sys2Proof.Place} (he : p.eng = none) (hl : ps.length = pGang p.bytes) {i : Nat}
    {q : Sys2Proof.Place} (hi : ps[i]? = some q) : ∃ a, (s.startGang p ps).hart (s.nextHart + i) =
      some { newHart s.disp (s.nextHart + i) s.nextGang p (grantAt (pVlen p.bytes) q) i with adv := a } ∧ (p.advice = none → a = none) := by
  rw [s.startGang_eq ps he]
  exact State.startAdvices_hart _ _ _ (s.withNewHarts_new p hl hi)

theorem State.startGang_hart_other (s : State) {p : Packet} (ps : List Sys2Proof.Place) (he : p.eng = none) {k : Nat}
    (hk : k < s.nextHart ∨ s.nextHart + pGang p.bytes ≤ k) : (s.startGang p ps).hart k = s.hart k := by
  rw [s.startGang_eq ps he, State.startAdvices_hart_other]
  · exact s.withNewHarts_other p ps hk
  · simp only [List.mem_map, List.mem_range, not_exists, not_and]
    omega

theorem State.updDie_eq (s : State) {d : Nat} (f : DieRegs → DieRegs) {r : DieRegs} (hr : s.disp.dieRegs[d]? = some r) :
    s.updDie d f = s.withDie d (f r) := by
  simp only [State.updDie, hr]
  rfl

theorem State.placementOk_length {s : State} {die v n : Nat} {ps : List Sys2Proof.Place} (h : s.placementOk die v n ps = true) : ps.length = n := by
  simp only [State.placementOk, Bool.and_eq_true, decide_eq_true_eq] at h
  obtain ⟨⟨⟨⟨hl, -⟩, -⟩, -⟩, -⟩ := h
  exact hl

/-- The package with a packet no longer among those that wait. -/
def State.withoutPacket (s : State) (p : Packet) : State := { s with disp := { s.disp with packets := s.disp.packets.erase p } }

/-- R332: what GANG_PLACE comes to for the packet that its queue has waiting, at a placement that the dispatcher may choose. -/
theorem exec_gangPlace_next {s : State} {die k : Nat} {ps : List Sys2Proof.Place} {p : Packet} {r : DieRegs} (hchar : s.disp.charQ = [])
    (hp : s.disp.packets.find? (fun p => decide (p.die = die) && decide (p.queue = k)) = some p) (he : p.eng = none)
    (hr : s.disp.dieRegs[die]? = some r) (hplace : s.placementOk die (pVlen p.bytes) (pGang p.bytes) ps = true)
    (horder : s.orderOk die p.waiter ps = true) :
    exec (.gangPlace die k ps) s = .next (((s.withoutPacket p).startGang p ps).withDie die { r with rr := k }) := by
  have hdie : ((s.withoutPacket p).startGang p ps).disp.dieRegs[die]? = some r := by
    obtain ⟨_, _, _, _, e⟩ := (s.withoutPacket p).startGang_frame ps he
    rw [e]
    exact hr
  have hnone : ∀ f, s.disp.charQ.find? f = none := fun f => by rw [hchar]; rfl
  have hv : p.waiter.vlen = pVlen p.bytes := rfl
  rw [exec_gangPlace, ← State.updDie_eq _ (fun r => { r with rr := k }) hdie]
  simp only [execGangPlace, hnone, hp, hv, hplace, horder, Bool.and_self, if_true]
  rfl

/-- What a placement leaves of the package beside the harts and memory (R332). -/
theorem gangPlace_frame (s : State) {p : Packet} (ps : List Sys2Proof.Place) (he : p.eng = none) {die : Nat} {r : DieRegs}
    (hr : s.disp.dieRegs[die]? = some r) (r' : DieRegs) :
    let t := ((s.withoutPacket p).startGang p ps).withDie die r'
    t.now = s.now ∧ t.disp.packets = s.disp.packets.erase p ∧ t.disp.dieRegs[die]? = some r' ∧ t.nextGang = s.nextGang + 1 ∧
      t.nextHart = s.nextHart + pGang p.bytes ∧ ∀ g, ffind t.gangs g = if g = s.nextGang then some (s.newGang p) else ffind s.gangs g := by
  have hdie : die < s.disp.dieRegs.length := (List.getElem?_eq_some_iff.1 hr).1
  obtain ⟨_, _, _, _, ht⟩ := (s.withoutPacket p).startGang_frame ps he
  dsimp only [State.withDie]
  rw [ht]
  exact ⟨rfl, rfl, List.getElem?_set_self hdie, rfl, rfl, fun g => ffind_fins ..⟩

/-! ### Bytes of a range of memory -/

theorem length_fgetMany {β : Type} (d : β) (m : FMap β) (n len : Nat) : (fgetMany d m n len).length = len := by
  induction len generalizing n with
  | zero => rfl
  | succ len ih => simp [fgetMany, ih]

theorem getElem?_fgetMany {β : Type} (d : β) (m : FMap β) (n : Nat) {len i : Nat} (hi : i < len) :
    (fgetMany d m n len)[i]? = some (fget d m (n + i)) := by
  induction len generalizing n i with
  | zero => omega
  | succ len ih =>
    cases i with
    | zero => rfl
    | succ i => rw [fgetMany, List.getElem?_cons_succ, ih (n + 1) (by omega), show n + 1 + i = n + (i + 1) by omega]

theorem take_drop_fgetMany {β : Type} (d : β) (m : FMap β) (n : Nat) {len off k : Nat} (h : off + k ≤ len) :
    ((fgetMany d m n len).drop off).take k = fgetMany d m (n + off) k := by
  apply List.ext_getElem?
  intro i
  by_cases hi : i < k
  · rw [List.getElem?_take_of_lt hi, List.getElem?_drop, getElem?_fgetMany d m n (by omega), getElem?_fgetMany d m _ hi, Nat.add_assoc]
  · rw [List.getElem?_take_eq_none (by omega), List.getElem?_eq_none (by rw [length_fgetMany]; omega)]

theorem leNat_lt (bs : List Byte) : leNat bs < 2 ^ (8 * bs.length) := by
  induction bs with
  | nil => simp [leNat]
  | cons b bs ih =>
    have hb := b.isLt
    simp only [leNat, List.length_cons, Nat.mul_add, Nat.pow_add]
    omega

theorem memNat_lt (s : State) (a n : Nat) : memNat s a n < 2 ^ (8 * n) := by
  have h := leNat_lt (fgetMany 0 s.mem a n)
  rwa [length_fgetMany] at h

theorem toNat_memNat (s : State) (a : Nat) : (BitVec.ofNat 64 (memNat s a 8)).toNat = memNat s a 8 := by
  rw [BitVec.toNat_ofNat, Nat.mod_eq_of_lt (memNat_lt s a 8)]

theorem slotAt_memBytes (s : State) (home : Nat) {len off : Nat} (h : off + 8 ≤ len) :
    slotAt (memBytes s home len) off = BitVec.ofNat 64 (memNat s (home + off) 8) := by
  unfold slotAt memBytes memNat
  rw [take_drop_fgetMany 0 s.mem home h]

theorem toNat_slotAt_memBytes (s : State) (home : Nat) {len off : Nat} (h : off + 8 ≤ len) :
    (slotAt (memBytes s home len) off).toNat = memNat s (home + off) 8 := by
  rw [slotAt_memBytes s home h, toNat_memNat]

theorem memBytes_part (s : State) (home : Nat) {len off k : Nat} (h : off + k ≤ len) :
    ((memBytes s home len).drop off).take k = memBytes s (home + off) k := take_drop_fgetMany 0 s.mem home h

/-- A range that lies in one page is read where its first byte lies. -/
theorem State.peekRange_onePage {s : State} {g : Grant} {root : W64} {va len home : Nat} (hlen : 0 < len) (hpage : va % 65536 + len ≤ 65536)
    (hhome : homeOf s g root va kRead false = some home) : s.peekRange g root va len = memBytes s home len := by
  have hpages : ceilDiv (va % 65536 + len) 65536 = 1 := by unfold ceilDiv; omega
  have hlo : max va (va / 65536 * 65536 + 0 * 65536) = va := by omega
  have hhi : min (va + len) (va / 65536 * 65536 + (0 + 1) * 65536) = va + len := by omega
  simp only [State.peekRange, hpages, List.range_one, List.flatMap_cons, List.flatMap_nil, List.append_nil, hlo, hhi, hhome,
    Nat.add_sub_cancel_left]

/-! ### What a restore reloads (R317, R318) -/

theorem mul_add_lt_mul {k n b size : Nat} (hk : k < n) (hb : b < size) : k * size + b < n * size :=
  calc k * size + b < k * size + size := Nat.add_lt_add_left hb _
    _ = (k + 1) * size := (Nat.succ_mul k size).symm
    _ ≤ n * size := Nat.mul_le_mul_right size hk

theorem mul_add_div_mod {k b size : Nat} (hb : b < size) : (k * size + b) / size = k ∧ (k * size + b) % size = b :=
  (Nat.div_mod_unique (Nat.zero_lt_of_lt hb)).2 ⟨by rw [Nat.mul_comm, Nat.add_comm], hb⟩

theorem mul_add_inj {a b c d size : Nat} (hb : b < size) (hd : d < size) (h : a * size + b = c * size + d) : a = c ∧ b = d := by
  obtain ⟨ha, hb⟩ := mul_add_div_mod (k := a) hb
  obtain ⟨hc, hd⟩ := mul_add_div_mod (k := c) hd
  exact ⟨by rw [← ha, h, hc], by rw [← hb, h, hd]⟩

theorem mem_range_zip_memBytes (s : State) (home : Nat) {len j : Nat} (hj : j < len) :
    (j, fget 0 s.mem (home + j)) ∈ (List.range (memBytes s home len).length).zip (memBytes s home len) :=
  (mem_range_zip ..).2 ⟨by rwa [memBytes, length_fgetMany], getElem?_fgetMany 0 s.mem home hj⟩

/-- Byte `b` of register `k` of a register file that is reloaded from memory. -/
theorem fget_loadRegs (s : State) (home : Nat) {stride size k b len : Nat} (hs : size ≤ stride) (hb : b < size) (hk : k * size + b < len) :
    fget 0 (loadRegs (memBytes s home len) stride size 0) (k * stride + b) = fget 0 s.mem (home + (k * size + b)) := by
  obtain ⟨hdiv, hmod⟩ := mul_add_div_mod (k := k) hb
  have hread := foldl_read_of_mem (fget 0) _ (fun e : Nat × Byte => (0 + e.1 / size) * stride + e.1 % size) Prod.snd
    (fun m e k => fget_fset 0 m _ k e.2) _ [] (mem_range_zip_memBytes s home hk) fun a ha hkey => by
      rw [Nat.zero_add, Nat.zero_add, hdiv, hmod] at hkey
      obtain ⟨hd, hm⟩ := mul_add_inj ((Nat.mod_lt _ (Nat.zero_lt_of_lt hb)).trans_le hs) (hb.trans_le hs) hkey
      have hplace : a.1 = k * size + b := by rw [← hd, ← hm, Nat.mul_comm, Nat.div_add_mod]
      rw [eq_of_mem_range_zip ha (mem_range_zip_memBytes s home hk) hplace]
  dsimp only at hread
  rwa [Nat.zero_add, hdiv, hmod] at hread

/-- The mask bits that a restore reloads, each with the byte that it stands in and that byte's place in the area (R317). -/
def areaMaskBits (mb : List Byte) : List ((Nat × Byte) × Nat) :=
  ((List.range mb.length).zip mb).flatMap (fun e => (List.range 8).map (fun i => (e, i)))

/-- The place of a mask bit in the mask registers (R317). -/
def areaMaskKey (vb : Nat) (e : (Nat × Byte) × Nat) : Nat := (1 + e.1.1 / (2 * vb)) * 2097152 + e.1.1 % (2 * vb) * 8 + e.2

/-- The mask registers that a restore reloads from their bytes in the area (R317, R318). -/
def areaMasks (vb : Nat) (mb : List Byte) : FMap Bool :=
  ((List.range mb.length).zip mb).foldl (fun m e => (List.range 8).foldl (fun m k =>
      fset false m ((1 + e.1 / (2 * vb)) * 2097152 + e.1 % (2 * vb) * 8 + k) (bit e.2.toNat k)) m) []

theorem areaMasks_eq (vb : Nat) (mb : List Byte) : areaMasks vb mb =
    (areaMaskBits mb).foldl (fun m e => fset false m (areaMaskKey vb e) (bit e.1.2.toNat e.2)) [] := by
  simp only [areaMasks, areaMaskBits, List.foldl_flatMap, List.foldl_map, areaMaskKey]

theorem mem_areaMaskBits (mb : List Byte) (e : (Nat × Byte) × Nat) :
    e ∈ areaMaskBits mb ↔ e.1 ∈ (List.range mb.length).zip mb ∧ e.2 < 8 := by
  obtain ⟨f, i⟩ := e
  simp [areaMaskBits]

/-- Bit `i` of byte `b` of mask register `k + 1` of those that are reloaded from memory. -/
theorem fget_areaMasks (s : State) (home : Nat) {vb k b i len : Nat} (hvb : vb ≤ 131072) (hb : b < 2 * vb) (hi : i < 8)
    (hk : k * (2 * vb) + b < len) : fget false (areaMasks vb (memBytes s home len)) ((k + 1) * 2097152 + (8 * b + i)) =
      bit (fget 0 s.mem (home + (k * (2 * vb) + b))).toNat i := by
  obtain ⟨hdiv, hmod⟩ := mul_add_div_mod (k := k) hb
  have hmem := mem_range_zip_memBytes s home hk
  have hkey : areaMaskKey vb ((k * (2 * vb) + b, fget 0 s.mem (home + (k * (2 * vb) + b))), i) = (k + 1) * 2097152 + (8 * b + i) := by
    rw [areaMaskKey, hdiv, hmod]
    omega
  rw [areaMasks_eq, ← hkey]
  refine foldl_read_of_mem (fget false) _ (areaMaskKey vb) (fun e => bit e.1.2.toNat e.2) (fun m e k => fget_fset false m _ k _) _ []
    ((mem_areaMaskBits _ _).2 ⟨hmem, hi⟩) fun a ha h => ?_
  obtain ⟨hz, h8⟩ := (mem_areaMaskBits _ a).1 ha
  rw [hkey, areaMaskKey] at h
  have hlt : a.1.1 % (2 * vb) < 2 * vb := Nat.mod_lt _ (Nat.zero_lt_of_lt hb)
  have hd : a.1.1 / (2 * vb) = k := by omega
  have hm : a.1.1 % (2 * vb) = b := by omega
  have hbit : a.2 = i := by omega
  have hplace : a.1.1 = k * (2 * vb) + b := by rw [← hd, ← hm, Nat.mul_comm, Nat.div_add_mod]
  rw [hbit, eq_of_mem_range_zip hz hmem hplace]

/-- What a CSR holds once a value has been stored in it (R10, R58). -/
def storedCsr (n : Nat) (v : W64) : W64 := if n = cSRSEED then (if v = 0 then 1 else v) else v &&& csrMask n

theorem Arch.storeCsr_eq (a : Arch) (n : Nat) (v : W64) : a.storeCsr n v = a.wcsr n (storedCsr n v) := by
  unfold Arch.storeCsr storedCsr
  split <;> rfl

theorem Arch.rcsr_storeCsr (a : Arch) (n k : Nat) (v : W64) :
    (a.storeCsr n v).rcsr k = if k = n then storedCsr n v else a.rcsr k := by
  rw [Arch.storeCsr_eq, Arch.rcsr_wcsr]

theorem storedCsr_masked {n : Nat} (hn : n ≠ cSRSEED) (v : W64) : storedCsr n v = v &&& csrMask n := if_neg hn

/-- A CSR without reserved bits takes the value whole. -/
theorem storedCsr_whole {n : Nat} (hn : n ≠ cSRSEED) (hmask : csrMask n = BitVec.allOnes 64) (v : W64) : storedCsr n v = v := by
  rw [storedCsr_masked hn, hmask, BitVec.and_allOnes]

/-- The scalar registers and CSRs of a restored hart, from the bytes of its save area (R317, R318). -/
def areaRegs (a : Arch) (bs : List Byte) : Arch := (List.range 31).foldl (fun b i => b.wx (i + 1) (slotAt bs (0x48 + 8 * i))) a
def areaRegsCsrs (a : Arch) (bs : List Byte) : Arch := areaCsrs.foldl (fun b e => b.storeCsr e.1 (slotAt bs e.2)) (areaRegs a bs)

theorem areaCsrs_nodup : (areaCsrs.map Prod.fst).Nodup := by decide

theorem areaRegs_rx (a : Arch) (bs : List Byte) {i : Nat} (hi : i < 31) : (areaRegs a bs).rx (i + 1) = slotAt bs (0x48 + 8 * i) :=
  foldl_read_of_mem Arch.rx _ (· + 1) (fun i => slotAt bs (0x48 + 8 * i)) (fun b i k => by rw [Arch.rx_wx]; simp) _ a (List.mem_range.2 hi)
    fun j _ hj => by rw [Nat.succ.inj hj]

theorem areaRegsCsrs_rx (a : Arch) (bs : List Byte) (r : Nat) : (areaRegsCsrs a bs).rx r = (areaRegs a bs).rx r :=
  foldl_keeps (P := fun b : Arch => b.rx r = (areaRegs a bs).rx r) _ _ _ rfl fun b e _ hb => by
    rw [Arch.storeCsr_eq, Arch.rx_wcsr, hb]

theorem areaRegsCsrs_rcsr (a : Arch) (bs : List Byte) {e : Nat × Nat} (he : e ∈ areaCsrs) :
    (areaRegsCsrs a bs).rcsr e.1 = storedCsr e.1 (slotAt bs e.2) :=
  foldl_read_of_nodup Arch.rcsr _ Prod.fst (fun e : Nat × Nat => storedCsr e.1 (slotAt bs e.2)) (fun b _ _ => b.rcsr_storeCsr _ _ _) _
    areaCsrs_nodup _ he

/-- The architectural state of a hart that is restored on the grant `g` from the bytes of its save area (R317, R318). -/
def restoredArch (a : Arch) (g : Grant) (bs : List Byte) : Arch :=
  let vb := g.vlenb
  let part (off len : Nat) : List Byte := (bs.drop off).take len
  let b := areaRegsCsrs a bs
  let b := { b with
    pc := alignPc (slotAt bs 0x40), v := loadRegs (part 0x300 (32 * vb)) 131072 vb 0, m := areaMasks vb (part (0x300 + 32 * vb) (14 * vb)),
    q := loadRegs (part (0x300 + 46 * vb) (8 * vb)) 131072 vb 0, tam := loadRegs (part (0x300 + 54 * vb) 2048) 128 128 0,
    mp := loadRegs (part (0xB00 + 54 * vb) 288) 72 72 0, grant := g, nextSplit := (slotAt bs 0x18).toNat % 2 ^ 32 }
  (b.wcsr cZSTATE 0).wcsr cGRANT (g.csr (elastic b.csr))

/-- The wait that the header of a save area gives back to a hart that resumes at `pc` (R261, R317). -/
def areaWait (bs : List Byte) (pc : W64) : Wait :=
  if bit (slotAt bs 0).toNat 50 then
    Wait.ofRecord { value := (slotAt bs 0x28).toNat, kind := (slotAt bs 0x30).toNat % 2 ^ 32, here := (slotAt bs 0x30).toNat / 2 ^ 32 } pc
  else .none

/-- A hart that is restored on the grant `g` from the bytes of its save area (R318). -/
def Hart.restored (x : Hart) (g : Grant) (bs : List Byte) : Hart :=
  { x with arch := restoredArch x.arch g bs, cnt := areaCounters.foldl (fun m e => fset 0 m e.1 (slotAt bs e.2)) x.cnt, parked := false,
           issued := 0, noProg := 0, cap := (slotAt bs 0x20).toNat, squash := (slotAt bs 0x18).toNat / 2 ^ 32,
           wait := areaWait bs (restoredArch x.arch g bs).pc }

/-- R318: a restore changes the hart, memory and its poison, and nothing else. -/
theorem State.restoreHart_eq {s : State} {h : Nat} {g : Grant} {x : Hart} {bs : List Byte} (hx : s.hart h = some x)
    (hbs : s.peekRange g (x.arch.rcsr cPTROOT) (x.arch.rcsr cSAVEPTR).toNat (0xC40 + 54 * g.vlenb) = bs) :
    ∃ m p, s.restoreHart h g = ({ s with mem := m, poison := p } : State).setHart h (x.restored g bs) := by
  obtain ⟨m, p, hclear⟩ := clearScratch_frame s g
  unfold State.restoreHart
  simp only [hx, hbs, hclear]
  exact ⟨_, p, rfl⟩

theorem Arch.rx_congr {a b : Arch} (h : a.x = b.x) (r : Nat) : a.rx r = b.rx r := by rw [Arch.rx, Arch.rx, h]

section Restored
variable (a : Arch) (g : Grant) (bs : List Byte)

theorem restoredArch_x : (restoredArch a g bs).x = (areaRegsCsrs a bs).x := by
  unfold restoredArch
  simp only [Arch.wcsr_x]

theorem restoredArch_rx {i : Nat} (hi : i < 31) : (restoredArch a g bs).rx (i + 1) = slotAt bs (0x48 + 8 * i) := by
  rw [Arch.rx_congr (restoredArch_x a g bs), areaRegsCsrs_rx, areaRegs_rx a bs hi]

theorem areaCsrs_notGrant : ∀ e ∈ areaCsrs, e.1 ≠ cGRANT ∧ e.1 ≠ cZSTATE := by decide

theorem restoredArch_rcsr {e : Nat × Nat} (he : e ∈ areaCsrs) : (restoredArch a g bs).rcsr e.1 = storedCsr e.1 (slotAt bs e.2) := by
  obtain ⟨hgrant, hz⟩ := areaCsrs_notGrant e he
  unfold restoredArch
  rw [Arch.rcsr_wcsr, if_neg hgrant, Arch.rcsr_wcsr, if_neg hz]
  exact areaRegsCsrs_rcsr a bs he

theorem restoredArch_zstate : (restoredArch a g bs).rcsr cZSTATE = 0 := by
  unfold restoredArch
  rw [Arch.rcsr_wcsr, if_neg (by decide), Arch.rcsr_wcsr, if_pos rfl]

end Restored

/-- The package with a gang no longer among those that wait for their restore (R318). -/
def State.withRestoring (s : State) (g : Nat) (q : Gang) (e : Nat × Nat) : State :=
  { s with gangs := fins s.gangs g { q with placedAt := s.now }, disp := { s.disp with restore := s.disp.restore.erase e } }

/-- Translation depends neither on the gangs nor on those that wait for a restore. -/
theorem homeOf_withRestoring (s : State) (g : Nat) (q : Gang) (e : Nat × Nat) (gr : Grant) (root : W64) (a kind : Nat) (user : Bool) :
    homeOf (s.withRestoring g q e) gr root a kind user = homeOf s gr root a kind user := rfl

/-- R318: what GANG_RESTORE comes to for a gang of one hart. -/
theorem exec_gangRestore_next {s : State} {g h : Nat} {q : Gang} {x : Hart} {e : Nat × Nat} {p : Sys2Proof.Place} (hq : ffind s.gangs g = some q)
    (hlive : q.live = [h]) (hx : s.hart h = some x) (he : s.disp.restore.find? (fun e => decide (e.1 = g)) = some e)
    (hplace : s.placementOk q.die (8 * x.arch.grant.vlenb) 1 [p] = true)
    (horder : s.orderOk q.die { prio := q.prio, vlen := 8 * x.arch.grant.vlenb, size := 1, restore := true, queue := q.queue } [p] = true) :
    exec (.gangRestore g [p]) s = .next ((s.withRestoring g q e).restoreHart h (grantAt (8 * x.arch.grant.vlenb) p)) := by
  have hw : s.gangWaiter q = { prio := q.prio, vlen := 8 * x.arch.grant.vlenb, size := 1, restore := true, queue := q.queue } := by
    simp [State.gangWaiter, hlive, hx]
  have hsort : (sortBy (fun a b => decide (a ≤ b)) q.live).zip [p] = [(h, p)] := by rw [hlive]; rfl
  have hsize : q.live.length = 1 := by rw [hlive]; rfl
  rw [exec_gangRestore]
  simp only [execGangRestore, hq, he, hw, hsort, hsize, hplace, horder, Bool.and_self, if_true]
  rfl

theorem areaCounters_nodup : (areaCounters.map Prod.fst).Nodup := by decide

theorem Hart.restored_cnt (x : Hart) (g : Grant) (bs : List Byte) {e : Nat × Nat} (he : e ∈ areaCounters) :
    fget 0 (x.restored g bs).cnt e.1 = slotAt bs e.2 :=
  fget_foldl_fset_of_nodup 0 Prod.fst (fun e : Nat × Nat => slotAt bs e.2) _ areaCounters_nodup _ he

/-- The offsets of the CSRs in the area (R317). -/
theorem areaCsrs_offset : ∀ e ∈ areaCsrs, e.2 + 8 ≤ 0xC40 := by decide

/-- CSRs with reserved bits that the area holds (R10, R317). -/
theorem areaCsrs_reserved : ∀ e ∈ [(cVTYPE, 0x148), (cFCSR, 0x150), (cMSKSHAPE, 0x180)], e ∈ areaCsrs ∧ e.1 ≠ cSRSEED := by decide

/-! ### A hart restored from a save area of `0xC40 + 54 * vb` bytes at the home address `home` (R317, R318) -/

section FromMemory
variable (s : State) (home : Nat) (a : Arch) {g : Grant} {vb : Nat} (hvb : g.vlenb = vb)

theorem restoredArch_csr_whole {e : Nat × Nat} (he : e ∈ areaCsrs) (hn : e.1 ≠ cSRSEED) (hmask : csrMask e.1 = BitVec.allOnes 64) :
    ((restoredArch a g (memBytes s home (0xC40 + 54 * vb))).rcsr e.1).toNat = memNat s (home + e.2) 8 := by
  have hoff := areaCsrs_offset e he
  rw [restoredArch_rcsr a g _ he, storedCsr_whole hn hmask, toNat_slotAt_memBytes s home (by omega)]

theorem restoredArch_csr_masked {e : Nat × Nat} (he : e ∈ areaCsrs) (hn : e.1 ≠ cSRSEED) :
    (restoredArch a g (memBytes s home (0xC40 + 54 * vb))).rcsr e.1 = BitVec.ofNat 64 (memNat s (home + e.2) 8) &&& csrMask e.1 := by
  have hoff := areaCsrs_offset e he
  rw [restoredArch_rcsr a g _ he, storedCsr_masked hn, slotAt_memBytes s home (by omega)]

/-- R58: a generator that was saved as 0 is restored as 1. -/
theorem restoredArch_srseed : ((restoredArch a g (memBytes s home (0xC40 + 54 * vb))).rcsr cSRSEED).toNat =
    if memNat s (home + 0x160) 8 = 0 then 1 else memNat s (home + 0x160) 8 := by
  have hslot := toNat_slotAt_memBytes s home (len := 0xC40 + 54 * vb) (off := 0x160) (by omega)
  rw [restoredArch_rcsr a g _ (e := (cSRSEED, 0x160)) (by decide), storedCsr, if_pos rfl, ← hslot]
  simp only [← BitVec.toNat_inj, apply_ite BitVec.toNat]
  rfl

theorem restoredArch_zcfg {c : Nat} (hc : c < 8) : (restoredArch a g (memBytes s home (0xC40 + 54 * vb))).rcsr (cZCFG + c) =
    BitVec.ofNat 64 (memNat s (home + (0x1F0 + 8 * c)) 8) &&& csrMask (cZCFG + c) :=
  restoredArch_csr_masked s home a (e := (cZCFG + c, 0x1F0 + 8 * c)) (by revert c; decide) (by revert c; decide)

theorem restoredArch_tid {c : Nat} (hc : c < 8) : ((restoredArch a g (memBytes s home (0xC40 + 54 * vb))).rcsr (cTID + c)).toNat =
    memNat s (home + (0x230 + 8 * c)) 8 :=
  restoredArch_csr_whole s home a (e := (cTID + c, 0x230 + 8 * c)) (by revert c; decide) (by revert c; decide) (by revert c; decide)

theorem fget_loadRegs_area {off len stride size k b : Nat} (hoff : off + len ≤ 0xC40 + 54 * vb) (hs : size ≤ stride) (hb : b < size)
    (hk : k * size + b < len) : fget 0 (loadRegs (((memBytes s home (0xC40 + 54 * vb)).drop off).take len) stride size 0) (k * stride + b) =
      fget 0 s.mem (home + (off + k * size + b)) := by
  rw [memBytes_part s home hoff, fget_loadRegs s (home + off) hs hb hk, Nat.add_assoc, Nat.add_assoc off]

include hvb

theorem restoredArch_v (hlen : vb ≤ 131072) {k b : Nat} (hk : k < 32) (hb : b < vb) :
    fget 0 (restoredArch a g (memBytes s home (0xC40 + 54 * vb))).v (k * 131072 + b) = fget 0 s.mem (home + (0x300 + k * vb + b)) := by
  subst hvb
  exact fget_loadRegs_area s home (by omega) hlen hb (mul_add_lt_mul hk hb)

theorem restoredArch_q (hlen : vb ≤ 131072) {k b : Nat} (hk : k < 8) (hb : b < vb) :
    fget 0 (restoredArch a g (memBytes s home (0xC40 + 54 * vb))).q (k * 131072 + b) =
      fget 0 s.mem (home + (0x300 + 46 * vb + k * vb + b)) := by
  subst hvb
  exact fget_loadRegs_area s home (by omega) hlen hb (mul_add_lt_mul hk hb)

theorem restoredArch_mask (hlen : vb ≤ 131072) {k b i : Nat} (hk : k < 7) (hb : b < 2 * vb) (hi : i < 8) :
    getMask (restoredArch a g (memBytes s home (0xC40 + 54 * vb))) (k + 1) (8 * b + i) =
      bit (fget 0 s.mem (home + (0x300 + 32 * vb + k * (2 * vb) + b))).toNat i := by
  subst hvb
  have hlt : k * (2 * g.vlenb) + b < 14 * g.vlenb := (mul_add_lt_mul hk hb).trans_eq (by omega)
  have hmask := fget_areaMasks s (home + (0x300 + 32 * g.vlenb)) hlen hb hi hlt
  rw [← memBytes_part s home (len := 0xC40 + 54 * g.vlenb) (by omega), Nat.add_assoc, ← Nat.add_assoc (0x300 + 32 * g.vlenb)] at hmask
  exact hmask

theorem restoredArch_tam {j : Nat} (hj : j < 2048) :
    fget 0 (restoredArch a g (memBytes s home (0xC40 + 54 * vb))).tam j = fget 0 s.mem (home + (0x300 + 54 * vb + j)) := by
  subst hvb
  have hload := fget_loadRegs_area s home (vb := g.vlenb) (off := 0x300 + 54 * g.vlenb) (len := 2048) (stride := 128) (size := 128) (k := j / 128)
    (b := j % 128) (by omega) le_rfl (by omega) (by omega)
  rw [Nat.add_assoc _ (j / 128 * 128), Nat.div_add_mod'] at hload
  exact hload

theorem restoredArch_mp {j : Nat} (hj : j < 288) :
    fget 0 (restoredArch a g (memBytes s home (0xC40 + 54 * vb))).mp j = fget 0 s.mem (home + (0xB00 + 54 * vb + j)) := by
  subst hvb
  have hload := fget_loadRegs_area s home (vb := g.vlenb) (off := 0xB00 + 54 * g.vlenb) (len := 288) (stride := 72) (size := 72) (k := j / 72)
    (b := j % 72) (by omega) le_rfl (by omega) (by omega)
  rw [Nat.add_assoc _ (j / 72 * 72), Nat.div_add_mod'] at hload
  exact hload

end FromMemory

/-- R261, R317: the kind of a wait stands in the low byte of its word, the number of a channel or counter above it, and the arrival in the upper half. -/
theorem areaWait_eq {bs : List Byte} (pc : W64) {flags value word : Nat} (hflags : (slotAt bs 0).toNat = flags)
    (hvalue : (slotAt bs 0x28).toNat = value) (hword : (slotAt bs 0x30).toNat = word) :
    areaWait bs pc = if bit flags 50 then
      (match word % 256 with
        | 1 => .tlwait (word % 2 ^ 32 / 256) (BitVec.ofNat 64 value) (pc - 4)
        | 2 => .icwait (word % 2 ^ 32 / 256) (BitVec.ofNat 64 value) (pc - 4)
        | 3 => .gbar value (decide (word / 2 ^ 32 = 1))
        | _ => .none)
      else .none := by
  have hkind : word % 2 ^ 32 % 256 = word % 256 := Nat.mod_mod_of_dvd _ (by decide)
  unfold areaWait Wait.ofRecord
  simp only [hflags, hvalue, hword, hkind] <;> rfl

/-- Settles O55: a placement is the start of a gang, whose harts are new ones on cleared scratchpads; a restore reads the hart back from its area. -/
theorem gangsStart : Obligations.GangsStart := by
  unfold Obligations.GangsStart
  refine ⟨?placed, ?restored⟩
  case placed =>
    intro s die k ps p r hchar hp he hc hr n v hplace horder
    have hl : ps.length = n := State.placementOk_length hplace
    let u := s.withoutPacket p
    obtain ⟨hnow, hpackets, hdie, hgang, hhart, hgangs⟩ := gangPlace_frame s ps he hr { r with rr := k }
    refine ⟨_, exec_gangPlace_next hchar hp he hr hplace horder, hnow, hpackets, hdie, hgang, hhart, ?_, fun g hg => ?_,
      fun h hh => u.startGang_hart_other ps he hh, fun i hi q hq => ⟨fun o ho => ?_, ?_⟩, fun a ha => ?_⟩
    · rw [hgangs, if_pos rfl]
      rfl
    · rw [hgangs, if_neg hg]
    · exact (congrArg (fget 0 · _) (u.startGang_mem ps he)).trans (u.clearScratches_get_window v (List.mem_of_getElem? hq) ho)
    · obtain ⟨adv, hx, hadv⟩ := u.startGang_hart_new he hl hq
      obtain ⟨h10, h11, h17, h0⟩ := newHart_scalars u.disp (u.nextHart + i) u.nextGang p (grantAt v q) i
      refine ⟨_, hx, rfl, rfl, rfl, rfl, rfl, rfl, rfl, rfl, hadv, rfl, rfl, rfl, fun c hc => ?_, rfl, rfl, rfl, rfl, rfl, rfl, rfl, rfl, rfl,
        h10, h11, h17, h0, ?_⟩
      · rw [List.eq_of_mem_replicate hc]
        exact ⟨rfl, rfl, rfl, rfl, rfl⟩
      · obtain ⟨hvl, hvt, hvb, hstrip, hfcsr, hseed, hinfo, hz, hzs, htvec, hsup, hroot, hbnd, hmode⟩ :=
          newHart_csrs u.disp (u.nextHart + i) u.nextGang hc (grantAt v q) i
        exact ⟨hvl, hvt, hvb, hstrip, hfcsr, hseed, hinfo, hz, hzs, htvec, hsup, hroot, hbnd, hmode, fun c => rfl⟩
    · exact (congrArg (fget 0 · _) (u.startGang_mem ps he)).trans (u.clearScratches_get_below v ps ha)
  case restored =>
    intro s g h home q x e p hq hlive hx he vb w hplace horder n base hvb hpage hhome word
    have hread : (s.withRestoring g q e).peekRange n (x.arch.rcsr cPTROOT) base (0xC40 + 54 * vb) = memBytes s home (0xC40 + 54 * vb) :=
      State.peekRange_onePage (by omega) hpage ((homeOf_withRestoring ..).trans hhome)
    obtain ⟨m, po, ht⟩ := State.restoreHart_eq (s := s.withRestoring g q e) (bs := memBytes s home (0xC40 + 54 * vb)) hx (by rw [hvb]; exact hread)
    have hlen : vb ≤ 131072 := by omega
    have hslot (o : Nat) (ho : o + 8 ≤ 0xC40) : (slotAt (memBytes s home (0xC40 + 54 * vb)) o).toNat = word o :=
      toNat_slotAt_memBytes s home (by omega)
    refine ⟨_, _, exec_gangRestore_next hq hlive hx he hplace horder, (congrArg (State.hart · h) ht).trans (State.hart_setHart_self ..),
      fun k hk => (congrArg (State.hart · k) ht).trans (State.hart_setHart_ne _ _ hk), congrArg (·.disp.restore) ht, congrArg (·.disp.dieRegs) ht,
      rfl, rfl, rfl, rfl, restoredArch_zstate .., ?pc, fun i hi => ?regs, hslot 0x20 (by decide), ?squash, ?split, ?wait,
      restoredArch_csr_whole s home x.arch (e := (cSTRIP, 0x10)) (by decide) (by decide) (by decide),
      restoredArch_csr_whole s home x.arch (e := (cVL, 0x140)) (by decide) (by decide) (by decide),
      restoredArch_csr_whole s home x.arch (e := (cRUNBASE, 0x158)) (by decide) (by decide) (by decide),
      fun e he => ?reserved, restoredArch_srseed s home x.arch,
      fun c hc => ⟨restoredArch_zcfg s home x.arch hc, restoredArch_tid s home x.arch hc⟩, ?instret,
      fun k hk b hb => restoredArch_v s home x.arch hvb hlen hk hb, fun k hk b hb i hi => restoredArch_mask s home x.arch hvb hlen hk hb hi,
      fun k hk b hb => restoredArch_q s home x.arch hvb hlen hk hb, fun j hj => restoredArch_tam s home x.arch hvb hj,
      fun j hj => restoredArch_mp s home x.arch hvb hj⟩
    case pc => exact congrArg alignPc (slotAt_memBytes s home (by omega))
    case regs => exact (congrArg BitVec.toNat (restoredArch_rx x.arch n _ hi)).trans (hslot _ (by omega))
    case squash => exact congrArg (· / 2 ^ 32) (hslot 0x18 (by decide))
    case split => exact congrArg (· % 2 ^ 32) (hslot 0x18 (by decide))
    case wait =>
      have hkind := hslot 0x30 (by decide)
      generalize word 0x30 = kind at hkind ⊢
      exact areaWait_eq _ (hslot 0 (by decide)) (hslot 0x28 (by decide)) hkind
    case reserved =>
      obtain ⟨hmem, hseed⟩ := areaCsrs_reserved e he
      exact restoredArch_csr_masked s home x.arch hmem hseed
    case instret => exact (congrArg BitVec.toNat (x.restored_cnt n _ (e := (cINSTRET, 0x278)) (by decide))).trans (hslot 0x278 (by decide))

end Sys2Proof.Machine

/-! ### Exact values as rationals, and the operations that are exact before rounding (R57, R61, R65, R69) -/

namespace Sys2Proof.Machine

/-- The factor that a sign bit stands for (R47). -/
def sgn (n : Bool) : ℚ := if n then -1 else 1

@[simp] theorem sgn_true : sgn true = -1 := rfl
@[simp] theorem sgn_false : sgn false = 1 := rfl

theorem sgn_bne (n n' : Bool) : sgn (n != n') = sgn n * sgn n' := by
  cases n <;> cases n' <;> norm_num

@[simp] theorem sgn_ne_zero (n : Bool) : sgn n ≠ 0 := by
  cases n <;> norm_num

@[simp] theorem abs_sgn (n : Bool) : |sgn n| = 1 := by
  cases n <;> norm_num

@[simp] theorem inv_sgn (n : Bool) : (sgn n)⁻¹ = sgn n := by
  cases n <;> norm_num

theorem sgn_mul_sgn_mul (n : Bool) (y : ℚ) : sgn n * (sgn n * y) = y := by
  cases n <;> simp

theorem abs_sub_sgn_mul (n : Bool) (y X : ℚ) : |y - sgn n * X| = |sgn n * y - X| := by
  rw [← one_mul |y - sgn n * X|, ← abs_sgn n, ← abs_mul, mul_sub, sgn_mul_sgn_mul]

theorem sgn_mul_neg_iff (n : Bool) {t : ℚ} (ht : 0 < t) : sgn n * t < 0 ↔ n = true := by
  cases n <;> simp [ht, ht.le]

theorem sgn_mul_le_abs (n : Bool) (y : ℚ) : sgn n * y ≤ |y| := by
  cases n <;> simp [le_abs_self, neg_le_abs]

namespace FV

theorem exact_iff {a : FV} : a.exact = true ↔ ∃ n m e, a = .fin n m e false := by
  cases a <;> simp [exact]

@[simp] theorem exact_fin (n : Bool) (m : Nat) (e : Int) (st : Bool) : (FV.fin n m e st).exact = !st := rfl

@[simp] theorem val_fin (n : Bool) (m : Nat) (e : Int) (st : Bool) : (FV.fin n m e st).val = sgn n * (m : ℚ) * (2 : ℚ) ^ e := rfl

@[simp] theorem exact_zero (n : Bool) : (FV.zero n).exact = true := rfl

@[simp] theorem val_zero (n : Bool) : (FV.zero n).val = 0 := by
  simp [zero]

theorem abs_val_fin (n : Bool) (m : Nat) (e : Int) (st : Bool) : |(FV.fin n m e st).val| = (m : ℚ) * (2 : ℚ) ^ e := by
  have h : (0 : ℚ) ≤ (2 : ℚ) ^ e := by positivity
  simp [abs_mul, abs_of_nonneg h]

theorem val_eq_zero_of_isZero {x : FV} (h : x.isZero = true) : x.val = 0 := by
  cases x <;> simp_all [isZero]

/-- A value that is no zero is the multiple of 2^q that `atScale` names, where q is no more than its exponent. -/
theorem atScale_mul_zpow {x : FV} (hx : x.exact = true) (hz : x.isZero = false) {q : Int} (hq : q ≤ x.expo) :
    (x.atScale q : ℚ) * (2 : ℚ) ^ q = x.val := by
  obtain ⟨n, m, e, rfl⟩ := exact_iff.1 hx
  have hm : m ≠ 0 := by simpa [isZero] using hz
  have hq : q ≤ e := by simpa [expo, hm] using hq
  have he : (2 : ℚ) ^ (e - q).toNat * (2 : ℚ) ^ q = (2 : ℚ) ^ e := by
    rw [← zpow_natCast, ← zpow_add₀ two_ne_zero, Int.toNat_of_nonneg (by omega), sub_add_cancel]
  cases n <;> simp [atScale, ← he, mul_assoc]

/-- An integer multiple of 2^q, written with its sign apart. -/
theorem val_ofInt (t q : Int) : (FV.fin (decide (t < 0)) t.natAbs q false).val = (t : ℚ) * (2 : ℚ) ^ q := by
  rcases lt_or_ge t 0 with ht | ht
  · simp [ht, Nat.cast_natAbs, abs_of_neg ht]
  · simp [ht.not_gt, Nat.cast_natAbs, abs_of_nonneg ht]

end FV

/-! ### Sums (R57, R65) -/

theorem foldl_min_expo_le (xs : List FV) (i : Int) :
    xs.foldl (fun m x => min m x.expo) i ≤ i ∧ ∀ x ∈ xs, xs.foldl (fun m x => min m x.expo) i ≤ x.expo := by
  induction xs generalizing i with
  | nil => simp
  | cons y ys ih =>
    obtain ⟨hi, hys⟩ := ih (min i y.expo)
    exact ⟨hi.trans (min_le_left ..), List.forall_mem_cons.2 ⟨hi.trans (min_le_right ..), hys⟩⟩

/-- The scale at which `sumFV` adds the values that are no zero. -/
def commonExpo (nz : List FV) : Int :=
  nz.foldl (fun m x => min m x.expo) (match nz with | x :: _ => x.expo | [] => 0)

theorem commonExpo_le {nz : List FV} {x : FV} (hx : x ∈ nz) : commonExpo nz ≤ x.expo :=
  (foldl_min_expo_le nz _).2 x hx

theorem sum_val_filter_isZero (xs : List FV) : ((xs.filter (fun x => !x.isZero)).map FV.val).sum = (xs.map FV.val).sum := by
  induction xs with
  | nil => rfl
  | cons x xs ih =>
    cases hx : x.isZero
    · simp [hx, ih]
    · simp [hx, ih, FV.val_eq_zero_of_isZero hx]

/-- The total of addends at a scale that none of them is finer than is their sum. -/
theorem foldl_atScale_mul_zpow {q : Int} {xs : List FV} (hxs : ∀ x ∈ xs, x.exact = true ∧ x.isZero = false ∧ q ≤ x.expo) :
    ((xs.foldl (fun a x => a + x.atScale q) 0 : Int) : ℚ) * (2 : ℚ) ^ q = (xs.map FV.val).sum := by
  rw [← List.foldl_map (f := FV.atScale q) (g := (· + ·)), ← List.sum_eq_foldl]
  induction xs with
  | nil => simp
  | cons x xs ih =>
    obtain ⟨⟨hx, hz, hq⟩, hxs⟩ := List.forall_mem_cons.1 hxs
    rw [List.map_cons, List.sum_cons, Int.cast_add, add_mul, FV.atScale_mul_zpow hx hz hq, ih hxs, List.map_cons, List.sum_cons]

/-- A sum of exact values is the total of those that are no zero. -/
theorem sumFV_of_exact {xs : List FV} (mode : Nat) (hxs : ∀ x ∈ xs, x.exact = true) :
    let nz := xs.filter (fun x => !x.isZero)
    let t : Int := nz.foldl (fun a x => a + x.atScale (commonExpo nz)) 0
    (t = 0 ∧ ∃ n, sumFV mode xs = (.zero n, 0)) ∨ sumFV mode xs = (.fin (decide (t < 0)) t.natAbs (commonExpo nz) false, 0) := by
  have hnan : xs.any FV.isNan = false := List.any_eq_false.2 fun x hx => by
    obtain ⟨n, m, e, rfl⟩ := FV.exact_iff.1 (hxs x hx); simp [FV.isNan]
  have hinf (p : FV → Bool) : xs.any (fun x => x.isInf && p x) = false := List.any_eq_false.2 fun x hx => by
    obtain ⟨n, m, e, rfl⟩ := FV.exact_iff.1 (hxs x hx); simp [FV.isInf]
  simp only [sumFV, hnan, hinf, Bool.false_eq_true, if_false, Bool.and_self]
  split_ifs with ht
  · exact .inl ⟨ht, _, rfl⟩
  · exact .inl ⟨ht, _, rfl⟩
  · exact .inl ⟨ht, _, rfl⟩
  · exact .inr rfl

theorem sumFV_exact {xs : List FV} (mode : Nat) (hxs : ∀ x ∈ xs, x.exact = true) :
    (sumFV mode xs).1.exact = true ∧ (sumFV mode xs).1.val = (xs.map FV.val).sum ∧ (sumFV mode xs).2 = 0 := by
  have htotal := foldl_atScale_mul_zpow (xs := xs.filter (fun x => !x.isZero)) fun x hx => by
    obtain ⟨hx', hz⟩ := List.mem_filter.1 hx
    exact ⟨hxs x hx', by simpa using hz, commonExpo_le hx⟩
  rw [sum_val_filter_isZero] at htotal
  rcases sumFV_of_exact mode hxs with ⟨ht, n, hsum⟩ | hsum
  · rw [hsum]
    exact ⟨rfl, by simpa [ht] using htotal, rfl⟩
  · rw [hsum]
    exact ⟨rfl, (FV.val_ofInt ..).trans htotal, rfl⟩

/-! ### Products and fused products (R57, R133) -/

theorem mulFV_exact {a b : FV} (ha : a.exact = true) (hb : b.exact = true) :
    (mulFV a b).1.exact = true ∧ (mulFV a b).1.val = a.val * b.val ∧ (mulFV a b).2 = 0 := by
  obtain ⟨n, m, e, rfl⟩ := FV.exact_iff.1 ha
  obtain ⟨n', m', e', rfl⟩ := FV.exact_iff.1 hb
  refine ⟨rfl, ?_, rfl⟩
  by_cases h0 : m * m' = 0
  · rcases Nat.mul_eq_zero.1 h0 with rfl | rfl <;> simp [mulFV]
  · simp only [mulFV, if_neg h0, FV.val_fin, sgn_bne, Nat.cast_mul, zpow_add₀ (two_ne_zero : (2 : ℚ) ≠ 0)]
    ring

theorem fmaFV_exact {a b c : FV} (mode : Nat) (ha : a.exact = true) (hb : b.exact = true) (hc : c.exact = true) :
    (fmaFV mode a b c).1.exact = true ∧ (fmaFV mode a b c).1.val = a.val * b.val + c.val ∧ (fmaFV mode a b c).2 = 0 := by
  obtain ⟨hp, hval, hflag⟩ := mulFV_exact ha hb
  obtain ⟨hs, hsum, hsflag⟩ := sumFV_exact (xs := [(mulFV a b).1, c]) mode (by simp [hp, hc])
  have hnan {x : FV} (hx : x.exact = true) : x.isNan = false := by
    obtain ⟨n, m, e, rfl⟩ := FV.exact_iff.1 hx; rfl
  simp [fmaFV, hnan hp, hnan hc, hs, hsum, hval, hflag, hsflag, fOr]

/-! ### Quotients (R61, R69) -/

/-- The quotient and the remainder of naturals as a rational. -/
theorem natDiv_add_mod_div (x : Nat) {d : Nat} (hd : 0 < d) : ((x / d : Nat) : ℚ) + ((x % d : Nat) : ℚ) / d = (x : ℚ) / d := by
  have hd' : (d : ℚ) ≠ 0 := by positivity
  have h : ((x / d : Nat) : ℚ) * d + (x % d : Nat) = x := by exact_mod_cast Nat.div_add_mod' x d
  field_simp
  exact h

theorem natMod_div_lt_one (x : Nat) {d : Nat} (hd : 0 < d) : ((x % d : Nat) : ℚ) / d < 1 := by
  rw [div_lt_one (by positivity)]
  exact_mod_cast Nat.mod_lt x hd

/-- A remainder puts the quotient of rationals strictly between the quotient of naturals and its successor. -/
theorem natDiv_lt {x d : Nat} (hd : 0 < d) (hrem : x % d ≠ 0) :
    ((x / d : Nat) : ℚ) < (x : ℚ) / d ∧ (x : ℚ) / d < ((x / d + 1 : Nat) : ℚ) := by
  have hsplit := natDiv_add_mod_div x hd
  have hlt := natMod_div_lt_one x hd
  have hpos : (0 : ℚ) < ((x % d : Nat) : ℚ) / d := div_pos (by exact_mod_cast Nat.pos_of_ne_zero hrem) (by exact_mod_cast hd)
  rw [Nat.cast_succ]
  exact ⟨by linarith, by linarith⟩

/-- A quotient through the integers that `divFV` divides, before the remainder is cut off. -/
theorem val_div_val {n n' : Bool} {m m' : Nat} {e e' : Int} (k : Nat) :
    (FV.fin n m e false).val / (FV.fin n' m' e' false).val = sgn (n != n') * (((m * 2 ^ k : Nat) : ℚ) / m') * (2 : ℚ) ^ (e - e' - k) := by
  have h2 : (2 : ℚ) ≠ 0 := two_ne_zero
  simp only [FV.val_fin, sgn_bne, zpow_sub₀ h2, zpow_natCast, Nat.cast_mul, Nat.cast_pow, Nat.cast_ofNat, div_eq_mul_inv, mul_inv, inv_sgn]
  field_simp

theorem divFV_truncates {a b : FV} (ha : a.exact = true) (hb : b.exact = true) (hb0 : b.val ≠ 0) :
    ∃ n m e st, (divFV a b).1 = .fin n m e st ∧ (divFV a b).2 = 0 ∧
      (st = false → (FV.fin n m e st).val = a.val / b.val) ∧
      (st = true → |(FV.fin n m e st).val| < |a.val / b.val| ∧ |a.val / b.val| < |(FV.fin n (m + 1) e st).val| ∧
        (n = true ↔ a.val / b.val < 0)) := by
  obtain ⟨n, m, e, rfl⟩ := FV.exact_iff.1 ha
  obtain ⟨n', m', e', rfl⟩ := FV.exact_iff.1 hb
  have hm' : m' ≠ 0 := by rintro rfl; simp at hb0
  by_cases hm : m = 0
  · exact ⟨n != n', 0, 0, false, by simp [divFV, hm', hm, FV.zero], by simp [divFV, hm', hm], by simp [hm], by simp⟩
  let k := 130 + bitLen m'
  have hd := Nat.pos_of_ne_zero hm'
  have hE : (0 : ℚ) < (2 : ℚ) ^ (e - e' - k) := by positivity
  refine ⟨n != n', m * 2 ^ k / m', e - e' - k, decide (m * 2 ^ k % m' ≠ 0), by simp [divFV, hm', hm, k], by simp [divFV, hm', hm],
    fun hst => ?exact, fun hst => ?truncated⟩
  case exact =>
    have hr : m * 2 ^ k % m' = 0 := by simpa using hst
    rw [val_div_val k, FV.val_fin, ← natDiv_add_mod_div _ hd, hr, Nat.cast_zero, zero_div, add_zero]
  case truncated =>
    obtain ⟨hlo, hhi⟩ := natDiv_lt hd (by simpa using hst)
    have hx := (Nat.cast_nonneg _).trans_lt hlo
    rw [FV.abs_val_fin, FV.abs_val_fin, val_div_val k, mul_assoc, sgn_mul_neg_iff _ (mul_pos hx hE), abs_mul, abs_sgn, one_mul,
      abs_of_pos (mul_pos hx hE)]
    exact ⟨mul_lt_mul_of_pos_right hlo hE, mul_lt_mul_of_pos_right hhi hE, Iff.rfl⟩

/-! ### Square roots (R61, R69) -/

theorem lt_two_pow_bitLen (x : Nat) : x < 2 ^ bitLen x := by
  unfold bitLen
  split_ifs with h
  · simp [h]
  · exact Nat.lt_log2_self

/-- The bits still to try are enough to reach the root, and what is kept does not exceed it. -/
theorem isqrt_bounds {n : Nat} (b r : Nat) (hlo : r * r ≤ n) (hhi : n < (r + 2 ^ b) * (r + 2 ^ b)) :
    isqrt n b r * isqrt n b r ≤ n ∧ n < (isqrt n b r + 1) * (isqrt n b r + 1) := by
  induction b generalizing r with
  | zero => exact ⟨hlo, hhi⟩
  | succ b ih =>
    rw [isqrt]
    split_ifs with ht
    · exact ih _ ht (by rwa [add_assoc, ← two_mul, ← pow_succ'])
    · exact ih _ hlo (not_le.1 ht)

/-- The digits that `sqrtFV` tries are enough for its operand. -/
theorem isqrt_bitLen_bounds (x : Nat) :
    let r := isqrt x (bitLen x / 2 + 1) 0
    r * r ≤ x ∧ x < (r + 1) * (r + 1) := by
  refine isqrt_bounds _ 0 (Nat.zero_le x) ((lt_two_pow_bitLen x).trans_le ?_)
  rw [zero_add, ← pow_add]
  exact Nat.pow_le_pow_right two_pos (by omega)

/-- A root at an exponent of half the radicand's, squared. -/
theorem val_root_sq (r : Nat) (e1 : Int) (he1 : e1 % 2 = 0) (st : Bool) :
    (FV.fin false r (e1 / 2 - 140) st).val ^ 2 = ((r * r : Nat) : ℚ) * (2 : ℚ) ^ (e1 - 280) := by
  have he : (2 : ℚ) ^ (e1 - 280) = (2 : ℚ) ^ (e1 / 2 - 140) * (2 : ℚ) ^ (e1 / 2 - 140) := by
    rw [← zpow_add₀ two_ne_zero]
    congr 1
    omega
  rw [FV.val_fin, he, Nat.cast_mul, sgn_false]
  ring

/-- The radicand of `sqrtFV`: 280 more digits and an even exponent, at the same value. -/
theorem sqrtFV_radicand {m : Nat} (e : Int) (hm : m ≠ 0) : ∃ m1 e1, e1 % 2 = 0 ∧
    ((m1 * 2 ^ 280 : Nat) : ℚ) * (2 : ℚ) ^ (e1 - 280) = (FV.fin false m e false).val ∧
    let r := isqrt (m1 * 2 ^ 280) (bitLen (m1 * 2 ^ 280) / 2 + 1) 0
    sqrtFV (.fin false m e false) = (.fin false r (e1 / 2 - 140) (decide (r * r ≠ m1 * 2 ^ 280)), 0) := by
  have h2 : (2 : ℚ) ≠ 0 := two_ne_zero
  have h280 (k : Nat) (j : Int) : ((k * 2 ^ 280 : Nat) : ℚ) * (2 : ℚ) ^ (j - 280) = k * (2 : ℚ) ^ j := by
    rw [Nat.cast_mul, mul_assoc, Nat.cast_pow, Nat.cast_ofNat, ← zpow_natCast, ← zpow_add₀ h2]
    congr 2
    omega
  by_cases hodd : e % 2 = 0
  · exact ⟨m, e, hodd, by rw [h280, FV.val_fin, sgn_false, one_mul],
      by simp only [sqrtFV, if_neg hm, hodd, ne_eq, not_true_eq_false, decide_false, Bool.false_eq_true, if_false]⟩
  · exact ⟨2 * m, e - 1, by omega, by rw [h280, zpow_sub_one₀ h2, FV.val_fin, sgn_false]; push_cast; ring,
      by simp only [sqrtFV, if_neg hm, hodd, ne_eq, not_false_eq_true, decide_true, if_true, Bool.false_eq_true, if_false]⟩

theorem sqrtFV_truncates {a : FV} (ha : a.exact = true) (hpos : 0 < a.val) :
    ∃ m e st, (sqrtFV a).1 = .fin false m e st ∧ (sqrtFV a).2 = 0 ∧
      (st = false → (FV.fin false m e st).val ^ 2 = a.val) ∧
      (st = true → (FV.fin false m e st).val ^ 2 < a.val ∧ a.val < (FV.fin false (m + 1) e st).val ^ 2) := by
  obtain ⟨n, m, e, rfl⟩ := FV.exact_iff.1 ha
  have hm : m ≠ 0 := by rintro rfl; simp at hpos
  have hn : n = false := by
    have : (0 : ℚ) ≤ m * 2 ^ e := by positivity
    cases n
    · rfl
    · simp at hpos; linarith
  subst hn
  obtain ⟨m1, e1, he1, hval, hsqrt⟩ := sqrtFV_radicand e hm
  have hE : (0 : ℚ) < (2 : ℚ) ^ (e1 - 280) := by positivity
  obtain ⟨hlo, hhi⟩ := isqrt_bitLen_bounds (m1 * 2 ^ 280)
  generalize m1 * 2 ^ 280 = x at *
  generalize isqrt x (bitLen x / 2 + 1) 0 = r at *
  refine ⟨_, _, _, congrArg Prod.fst hsqrt, congrArg Prod.snd hsqrt, fun hst => ?_, fun hst => ?_⟩
  · have hr : r * r = x := by simpa using hst
    rw [val_root_sq _ _ he1, hr, hval]
  · have hr : r * r ≠ x := by simpa using hst
    rw [val_root_sq _ _ he1, val_root_sq _ _ he1, ← hval]
    exact ⟨mul_lt_mul_of_pos_right (by exact_mod_cast lt_of_le_of_ne hlo hr) hE,
      mul_lt_mul_of_pos_right (by exact_mod_cast hhi) hE⟩

/-- Settles O42: sums at the common exponent of their addends, products part by part, and quotients and roots from the integer quotient
and root that the model cuts off. -/
theorem exactOperations : Obligations.ExactOperations :=
  ⟨fun _ _ _ ha hb hc mode => by
    obtain ⟨hp, hval, hflag⟩ := mulFV_exact ha hb
    exact ⟨hp, hval, hflag, fmaFV_exact mode ha hb hc⟩,
    fun _ mode hxs => sumFV_exact mode hxs, fun _ _ ha hb hb0 => divFV_truncates ha hb hb0,
    fun _ ha hpos => sqrtFV_truncates ha hpos⟩

end Sys2Proof.Machine

/-! ### Rounding to a format (R47, R48, R57 to R59, R61, R64) -/

namespace Sys2Proof.Machine

/-! ### The choice between two neighbours -/

/-- What Round chooses for a magnitude `X` between its neighbours `A` and `B` in magnitude (R57): `V`, whose last bit is 0 where `even` holds. -/
structure Chosen (mode : Nat) (neg : Bool) (A B X V : ℚ) (even : Prop) (inexact : Bool) : Prop where
  lower_le : A ≤ X
  lt_upper : X < B
  inexact_iff : inexact = true ↔ A ≠ X
  choice : V = A ∨ V = B ∧ inexact = true
  nearer : mode = 0 → |V - X| ≤ (B - A) / 2 ∧ (|V - X| = (B - A) / 2 → even)
  towardZero : mode = 1 → V = A
  downward : mode = 2 → inexact = true → V = if neg then B else A
  upward : mode = 3 → inexact = true → V = if neg then A else B

namespace Chosen

section
variable {mode : Nat} {neg inexact : Bool} {A B X V : ℚ} {even : Prop}

theorem exact (hlt : A < B) (hX : A = X) (hV : V = A) : Chosen mode neg A B X V even false where
  lower_le := hX.le
  lt_upper := hX ▸ hlt
  inexact_iff := by simp [hX]
  choice := .inl hV
  nearer _ := by
    have : 0 < (B - A) / 2 := by linarith
    simp [hV, hX, hX ▸ this.le, hX ▸ this.ne]
  towardZero _ := hV
  downward _ h := nomatch h
  upward _ h := nomatch h

theorem scale {c : ℚ} (hc : 0 < c) (h : Chosen mode neg A B X V even inexact) :
    Chosen mode neg (A * c) (B * c) (X * c) (V * c) even inexact where
  lower_le := mul_le_mul_of_nonneg_right h.lower_le hc.le
  lt_upper := mul_lt_mul_of_pos_right h.lt_upper hc
  inexact_iff := by rw [h.inexact_iff, ne_eq, ne_eq, mul_left_inj' hc.ne']
  choice := h.choice.imp (congrArg (· * c)) (And.imp_left (congrArg (· * c)))
  nearer hm := by
    have hdist : |V * c - X * c| = |V - X| * c := by rw [← sub_mul, abs_mul, abs_of_pos hc]
    have hhalf : (B * c - A * c) / 2 = (B - A) / 2 * c := by ring
    rw [hdist, hhalf, mul_le_mul_iff_of_pos_right hc, mul_left_inj' hc.ne']
    exact h.nearer hm
  towardZero hm := congrArg (· * c) (h.towardZero hm)
  downward hm hi := by rw [h.downward hm hi]; split_ifs <;> rfl
  upward hm hi := by rw [h.upward hm hi]; split_ifs <;> rfl

theorem inexact_iff_ne (h : Chosen mode neg A B X V even inexact) : inexact = true ↔ V ≠ X := by
  rcases h.choice with hV | ⟨hV, hi⟩
  · rw [hV, h.inexact_iff]
  · simp [hV, hi, h.lt_upper.ne']

/-- No value outside the neighbours is nearer, and one that is as near leaves an even choice. -/
theorem dist_le (h : Chosen mode neg A B X V even inexact) (hm : mode = 0) {y : ℚ} (hy : y ≤ A ∨ B ≤ y) :
    |V - X| ≤ |y - X| ∧ (|V - X| = |y - X| → y ≠ V → even) := by
  have hA := h.lower_le
  have hB := h.lt_upper
  obtain ⟨hnear, heven⟩ := h.nearer hm
  rcases h.choice with rfl | ⟨rfl, hi⟩
  · have hV : |V - X| = X - V := by rw [abs_of_nonpos (by linarith), neg_sub]
    rw [hV] at hnear heven ⊢
    rcases hy with hy | hy
    · rw [abs_of_nonpos (by linarith)]
      exact ⟨by linarith, fun heq hne => absurd (by linarith) hne⟩
    · rw [abs_of_pos (by linarith)]
      exact ⟨by linarith, fun heq _ => heven (by linarith)⟩
  · have hV : |V - X| = V - X := abs_of_pos (by linarith)
    rw [hV] at hnear heven ⊢
    rcases hy with hy | hy
    · rw [abs_of_nonpos (by linarith)]
      exact ⟨by linarith, fun heq _ => heven (by linarith)⟩
    · rw [abs_of_pos (by linarith)]
      exact ⟨by linarith, fun heq hne => absurd (by linarith) hne⟩

theorem not_between (h : Chosen mode neg A B X V even inexact) {y : ℚ} (hy : y ≤ A ∨ B ≤ y) :
    ¬ (V < y ∧ y < X) ∧ ¬ (X < y ∧ y < V) := by
  have hA := h.lower_le
  have hB := h.lt_upper
  rcases h.choice with rfl | ⟨rfl, -⟩ <;> rcases hy with hy | hy <;>
    exact ⟨fun ⟨h1, h2⟩ => by linarith, fun ⟨h1, h2⟩ => by linarith⟩

/-- RDN: the signed choice is not above the signed value. -/
theorem sgn_mul_le (h : Chosen mode neg A B X V even inexact) (hm : mode = 2) : sgn neg * V ≤ sgn neg * X := by
  by_cases hV : V = X
  · rw [hV]
  · have hA := h.lower_le
    have hB := h.lt_upper
    rw [h.downward hm (h.inexact_iff_ne.2 hV)]
    cases neg <;> simp [hA, hB.le]

/-- RUP: the signed choice is not below the signed value. -/
theorem le_sgn_mul (h : Chosen mode neg A B X V even inexact) (hm : mode = 3) : sgn neg * X ≤ sgn neg * V := by
  by_cases hV : V = X
  · rw [hV]
  · have hA := h.lower_le
    have hB := h.lt_upper
    rw [h.upward hm (h.inexact_iff_ne.2 hV)]
    cases neg <;> simp [hA, hB.le]

end

end Chosen

section
variable (mode u : Nat) (neg : Bool) {m : Nat} {e q : Int}

/-- Where 2^q is finer than the value, or as fine, the value is a multiple of it. -/
theorem roundAt_of_le (st : Bool) (hq : q ≤ e) : roundAt mode u neg m e st q = (m * 2 ^ (e - q).toNat, st) := by
  rw [roundAt, if_pos hq]

theorem roundAt_of_dvd (hq : ¬ q ≤ e) (hrem : m % 2 ^ (q - e).toNat = 0) :
    roundAt mode u neg m e false q = (m / 2 ^ (q - e).toNat, false) := by
  simp [roundAt, hq, hrem]

/-- Where there is a remainder the mode decides whether to round up in magnitude; SR is left open. -/
theorem roundAt_of_not_dvd (hq : ¬ q ≤ e) (hrem : m % 2 ^ (q - e).toNat ≠ 0) :
    let d := 2 ^ (q - e).toNat
    ∃ up : Bool, roundAt mode u neg m e false q = (if up then m / d + 1 else m / d, true) ∧
      (mode = 0 → (up = true ↔ d < 2 * (m % d) ∨ 2 * (m % d) = d ∧ m / d % 2 = 1)) ∧
      (mode = 1 → up = false) ∧ (mode = 2 → up = neg) ∧ (mode = 3 → up = !neg) := by
  simp only [roundAt, if_neg hq, hrem, ne_eq, not_false_eq_true, decide_true, Bool.true_or, Bool.not_true, Bool.false_eq_true, if_false]
  refine ⟨_, rfl, ?_, ?_, ?_, ?_⟩
  · rintro rfl
    simp
  all_goals (rintro rfl; rfl)

/-- The choice between a natural and its successor for a value at the fraction `x` of the way, where the mode rounds up as R57 states. -/
theorem chosen_of_fraction {mode : Nat} {neg : Bool} (lo : Nat) {x : ℚ} (up : Bool) (hpos : 0 < x) (hlt : x < 1)
    (hnear : mode = 0 → (up = true ↔ 1 / 2 < x ∨ x = 1 / 2 ∧ lo % 2 = 1))
    (hzero : mode = 1 → up = false) (hdown : mode = 2 → up = neg) (hup : mode = 3 → up = !neg) :
    let r := if up then lo + 1 else lo
    Chosen mode neg lo (lo + 1) (lo + x) r (r % 2 = 0) true where
  lower_le := by linarith
  lt_upper := by linarith
  inexact_iff := by simp [hpos.ne']
  choice := by cases up <;> simp
  nearer hm := by
    cases up
    · have hdist : |(lo : ℚ) - (lo + x)| = x := by rw [abs_of_neg (by linarith)]; ring
      have hx := hnear hm
      simp only [Bool.false_eq_true, false_iff, not_or, not_and, not_lt] at hx
      simp only [Bool.false_eq_true, if_false, hdist, add_sub_cancel_left]
      exact ⟨hx.1, fun h => by have := hx.2 h; omega⟩
    · have hdist : |((lo : ℚ) + 1) - (lo + x)| = 1 - x := by rw [abs_of_pos (by linarith)]; ring
      have hx := (hnear hm).1 rfl
      simp only [if_true, Nat.cast_succ, hdist, add_sub_cancel_left]
      rcases hx with hx | ⟨hx, hodd⟩
      · exact ⟨by linarith, fun h => absurd h (by linarith)⟩
      · exact ⟨by linarith, fun _ => by omega⟩
  towardZero hm := by simp [hzero hm]
  downward hm _ := by simp [hdown hm]
  upward hm _ := by cases neg <;> simp [hup hm]

/-- `roundAt` chooses between the multiples of 2^q around an exact value, in units of 2^q (R57). -/
theorem roundAt_chosen (m : Nat) (e q : Int) :
    let r := roundAt mode u neg m e false q
    ∃ lo : Nat, (r.1 = lo ∨ r.1 = lo + 1) ∧
      Chosen mode neg lo (lo + 1) ((m : ℚ) * (2 : ℚ) ^ (e - q)) r.1 (r.1 % 2 = 0) r.2 := by
  by_cases hq : q ≤ e
  · have he : (2 : ℚ) ^ (e - q).toNat = (2 : ℚ) ^ (e - q) := by
      rw [← zpow_natCast, Int.toNat_of_nonneg (by omega)]
    rw [roundAt_of_le _ _ _ _ hq]
    exact ⟨_, .inl rfl, .exact (lt_add_one _) (by simp [he]) rfl⟩
  have hX : (m : ℚ) * (2 : ℚ) ^ (e - q) = (m : ℚ) / (2 ^ (q - e).toNat : Nat) := by
    rw [Nat.cast_pow, Nat.cast_ofNat, ← zpow_natCast, Int.toNat_of_nonneg (by omega), div_eq_mul_inv, ← zpow_neg, neg_sub]
  have hd : 0 < 2 ^ (q - e).toNat := by positivity
  rw [hX, ← natDiv_add_mod_div m hd]
  by_cases hrem : m % 2 ^ (q - e).toNat = 0
  · rw [roundAt_of_dvd _ _ _ hq hrem]
    exact ⟨_, .inl rfl, .exact (lt_add_one _) (by simp [hrem]) rfl⟩
  obtain ⟨up, hround, hnear, hzero, hdown, hup⟩ := roundAt_of_not_dvd mode u neg hq hrem
  have hlt := natMod_div_lt_one m hd
  rw [hround]
  generalize 2 ^ (q - e).toNat = d at *
  have hd' : (0 : ℚ) < d := by exact_mod_cast hd
  refine ⟨m / d, by cases up <;> simp,
    chosen_of_fraction _ up (div_pos (by exact_mod_cast Nat.pos_of_ne_zero hrem) hd') hlt (fun h => ?_) hzero hdown hup⟩
  rw [hnear h, div_lt_div_iff₀ two_pos hd', div_eq_div_iff hd'.ne' two_ne_zero, one_mul, mul_comm 2]
  norm_cast

end

/-! ### The codes of a format (R47 to R49) -/

/-- The magnitude of a code in units of the subnormal spacing. -/
def Fmt.units (f : Fmt) (g : Nat) : Nat :=
  if g / 2 ^ f.fb = 0 then g % 2 ^ f.fb else (2 ^ f.fb + g % 2 ^ f.fb) * 2 ^ (g / 2 ^ f.fb - 1)

/-- What the formats of R48 have in common: room for an exponent, the widths of the two that have no infinity, and a largest code of the largest
value. -/
structure Fmt.Regular (f : Fmt) : Prop where
  fb_pos : 0 < f.fb
  fb_lt : f.fb + 1 < f.w
  kinds : f.kind = 0 ∨ f.kind = 1 ∧ f.w = 8 ∨ f.kind = 2 ∧ f.w = 4
  units_maxCode : f.units f.maxCode = f.maxM * 2 ^ (f.maxE - f.minQ).toNat

theorem Fmt.regular_of_mem {f : Fmt} (hf : f ∈ [fp64, fp32, fp16, bf16, e5m2, e4m3, fp4]) : f.Regular := by
  have h : ∀ f ∈ [fp64, fp32, fp16, bf16, e5m2, e4m3, fp4], 0 < f.fb ∧ f.fb + 1 < f.w ∧
      (f.kind = 0 ∨ f.kind = 1 ∧ f.w = 8 ∨ f.kind = 2 ∧ f.w = 4) ∧
      f.units f.maxCode = f.maxM * 2 ^ (f.maxE - f.minQ).toNat := by decide +kernel
  obtain ⟨hpos, hlt, hkinds, hmax⟩ := h f hf
  exact ⟨hpos, hlt, hkinds, hmax⟩

namespace Fmt

section
variable (f : Fmt)

/-- A code is a significand and the number of doublings of the subnormal spacing. -/
theorem exists_significand (g : Nat) : ∃ r s, g = r + s * 2 ^ f.fb ∧ (s = 0 ∨ 2 ^ f.fb ≤ r) ∧ r < 2 ^ (f.fb + 1) := by
  have hmod := Nat.mod_lt g (Nat.two_pow_pos f.fb)
  have hdiv := Nat.div_add_mod' g (2 ^ f.fb)
  have hpow : 2 ^ (f.fb + 1) = 2 ^ f.fb + 2 ^ f.fb := by rw [pow_succ, mul_two]
  rcases h : g / 2 ^ f.fb with _ | s
  · rw [h] at hdiv
    exact ⟨g, 0, by simp, .inl rfl, by omega⟩
  · rw [h, Nat.succ_mul] at hdiv
    exact ⟨2 ^ f.fb + g % 2 ^ f.fb, s, by omega, .inr (by omega), by omega⟩

/-- The magnitude of a code by its significand, which may have carried into the exponent. -/
theorem units_significand {r s : Nat} (hs : s = 0 ∨ 2 ^ f.fb ≤ r) (hr : r ≤ 2 ^ (f.fb + 1)) : f.units (r + s * 2 ^ f.fb) = r * 2 ^ s := by
  have hpow : 2 ^ (f.fb + 1) = 2 ^ f.fb + 2 ^ f.fb := by rw [pow_succ, mul_two]
  have h0 := Nat.two_pow_pos f.fb
  have hnormal (F E : Nat) (hF : F < 2 ^ f.fb) : f.units (F + (E + 1) * 2 ^ f.fb) = (2 ^ f.fb + F) * 2 ^ E := by
    simp [units, Nat.add_mul_div_right _ _ h0, Nat.div_eq_of_lt hF, Nat.mod_eq_of_lt hF]
  rcases lt_or_ge r (2 ^ f.fb) with hlt | hge
  · have hs : s = 0 := hs.resolve_right (by omega)
    simp [units, hs, Nat.div_eq_of_lt hlt, Nat.mod_eq_of_lt hlt]
  rcases hr.lt_or_eq with hlt | rfl
  · have h := hnormal (r - 2 ^ f.fb) s (by omega)
    rwa [Nat.succ_mul, show r - 2 ^ f.fb + (s * 2 ^ f.fb + 2 ^ f.fb) = r + s * 2 ^ f.fb by omega, Nat.add_sub_cancel' hge] at h
  · have h := hnormal 0 (s + 1) h0
    rw [Nat.succ_mul, Nat.succ_mul, show 0 + (s * 2 ^ f.fb + 2 ^ f.fb + 2 ^ f.fb) = 2 ^ (f.fb + 1) + s * 2 ^ f.fb by omega] at h
    rw [h]
    ring

theorem units_strictMono : StrictMono f.units := by
  refine strictMono_nat_of_lt_succ fun g => ?_
  obtain ⟨r, s, rfl, hs, hr⟩ := f.exists_significand g
  rw [show r + s * 2 ^ f.fb + 1 = r + 1 + s * 2 ^ f.fb by omega, f.units_significand hs hr.le,
    f.units_significand (hs.imp_right (by omega)) hr]
  exact Nat.mul_lt_mul_of_pos_right (Nat.lt_succ_self r) (Nat.two_pow_pos s)

/-- The magnitude of a code. -/
def mag (g : Nat) : ℚ := f.units g * (2 : ℚ) ^ f.minQ

theorem mag_strictMono : StrictMono f.mag := fun _ _ h =>
  mul_lt_mul_of_pos_right (by exact_mod_cast f.units_strictMono h) (by positivity)

theorem mag_significand {r s : Nat} (hs : s = 0 ∨ 2 ^ f.fb ≤ r) (hr : r ≤ 2 ^ (f.fb + 1)) :
    f.mag (r + s * 2 ^ f.fb) = r * (2 ^ s * (2 : ℚ) ^ f.minQ) := by
  rw [mag, f.units_significand hs hr, Nat.cast_mul, Nat.cast_pow, Nat.cast_ofNat, mul_assoc]

@[simp] theorem mag_zero : f.mag 0 = 0 := by
  simp [mag, units]

theorem mag_nonneg (g : Nat) : 0 ≤ f.mag g := by
  unfold mag
  positivity

end

section
variable {f : Fmt} (hf : f.Regular)
include hf

theorem Regular.two_pow_fb_lt : 2 ^ f.fb < 2 ^ (f.w - 1) :=
  Nat.pow_lt_pow_right one_lt_two (by have := hf.fb_lt; omega)

/-- The magnitudes that stand for a finite value: those that the tests of `decode` let pass. -/
theorem Regular.le_maxCode_iff {g : Nat} (hg : g < 2 ^ (f.w - 1)) :
    g ≤ f.maxCode ↔ ¬ (f.kind = 1 ∧ g = 0x7F) ∧ ¬ (f.kind = 0 ∧ f.infCode ≤ g) := by
  have hlt := hf.two_pow_fb_lt
  rcases hf.kinds with hk | ⟨hk, hw⟩ | ⟨hk, hw⟩
  · simp only [maxCode, infCode, hk]
    norm_num
    omega
  all_goals
    simp only [hw] at hg
    simp only [maxCode, hk]
    norm_num
    omega

theorem Regular.maxCode_lt : f.maxCode < 2 ^ (f.w - 1) := by
  have hpos := Nat.two_pow_pos f.fb
  have hlt := hf.two_pow_fb_lt
  rcases hf.kinds with hk | ⟨hk, hw⟩ | ⟨hk, hw⟩
  · simp only [maxCode, hk]
    norm_num
    omega
  all_goals simp [maxCode, hk, hw]

/-- A code is finite where its magnitude is no more than the largest (R48). -/
theorem Regular.decode_exact_iff (c : Nat) : (f.decode c).exact = true ↔ c % 2 ^ (f.w - 1) ≤ f.maxCode := by
  rw [hf.le_maxCode_iff (Nat.mod_lt _ (Nat.two_pow_pos _)), decode]
  split_ifs with h1 h2 h3 h4
  · simp [FV.exact, h1]
  · simp [FV.exact, h2]
  · simp [FV.exact, h2]
  · simp [h1, h2]
  · simp [h1, h2]

/-- The value of a finite code (R47). -/
theorem Regular.decode_val {c : Nat} (hc : (f.decode c).exact = true) :
    (f.decode c).val = sgn (bit c (f.w - 1)) * f.mag (c % 2 ^ (f.w - 1)) := by
  rw [hf.decode_exact_iff, hf.le_maxCode_iff (Nat.mod_lt _ (Nat.two_pow_pos _))] at hc
  simp only [decode, if_neg hc.1, if_neg hc.2, mag, units]
  generalize c % 2 ^ (f.w - 1) / 2 ^ f.fb = E
  split_ifs with hE
  · simp [mul_assoc]
  · have hexp : (2 : ℚ) ^ (f.minQ + E - 1) = 2 ^ (E - 1) * (2 : ℚ) ^ f.minQ := by
      rw [← zpow_natCast, ← zpow_add₀ two_ne_zero]
      congr 1
      omega
    rw [FV.val_fin, hexp]
    push_cast
    ring

section
variable {neg : Bool} {g : Nat} (hg : g < 2 ^ (f.w - 1))
include hg

omit hf in
@[simp] theorem withSign_mod : f.withSign neg g % 2 ^ (f.w - 1) = g := by
  cases neg <;> simp [withSign, Nat.mod_eq_of_lt hg]

omit hf in
@[simp] theorem bit_withSign : bit (f.withSign neg g) (f.w - 1) = neg := by
  cases neg <;> simp [withSign, bit, Nat.testBit_lt_two_pow hg, add_comm g, Nat.testBit_two_pow_add_eq]

theorem Regular.withSign_lt : f.withSign neg g < 2 ^ f.w := by
  have hw : 2 ^ f.w = 2 ^ (f.w - 1) + 2 ^ (f.w - 1) := by
    rw [← mul_two, ← pow_succ, Nat.sub_add_cancel (by have := hf.fb_lt; omega)]
  rw [withSign]
  split_ifs <;> omega

theorem Regular.decode_withSign_exact_iff : (f.decode (f.withSign neg g)).exact = true ↔ g ≤ f.maxCode := by
  rw [hf.decode_exact_iff, withSign_mod hg]

omit hg in
theorem Regular.decode_withSign_val (hg : g ≤ f.maxCode) :
    (f.decode (f.withSign neg g)).val = sgn neg * f.mag g := by
  have hlt := hg.trans_lt hf.maxCode_lt
  rw [hf.decode_val ((hf.decode_withSign_exact_iff hlt).2 hg), withSign_mod hlt, bit_withSign hlt]

end

theorem Regular.withSign_mod_two (neg : Bool) (g : Nat) : f.withSign neg g % 2 = g % 2 := by
  have hw : 2 ^ (f.w - 1) = 2 * 2 ^ (f.w - 2) := by
    rw [← pow_succ']
    congr 1
    have := hf.fb_lt
    omega
  cases neg <;> simp [withSign, hw]

theorem Regular.significand_mod_two (r s : Nat) : (r + s * 2 ^ f.fb) % 2 = r % 2 := by
  obtain ⟨k, hk⟩ := Nat.exists_eq_add_of_le' hf.fb_pos
  rw [hk, pow_succ, ← mul_assoc, Nat.add_mul_mod_self_right]

/-- Between the magnitudes of a code and of the next there is no code, of either sign. -/
theorem Regular.decode_val_gap (neg : Bool) (g : Nat) {c : Nat} (hc : (f.decode c).exact = true) :
    sgn neg * (f.decode c).val ≤ f.mag g ∨ f.mag (g + 1) ≤ sgn neg * (f.decode c).val := by
  have hmono := f.mag_strictMono.monotone
  rw [hf.decode_val hc, ← mul_assoc, ← sgn_bne]
  generalize c % 2 ^ (f.w - 1) = k
  cases neg != bit c (f.w - 1)
  · rw [sgn_false, one_mul]
    exact (Nat.lt_or_ge g k).symm.imp (hmono ·) (hmono ·)
  · have hg := f.mag_nonneg g
    have hk := f.mag_nonneg k
    exact .inl (by rw [sgn_true]; linarith)

/-- The largest finite magnitude bounds every finite code. -/
theorem Regular.abs_decode_val_le {c : Nat} (hc : (f.decode c).exact = true) :
    |(f.decode c).val| ≤ f.mag f.maxCode := by
  rw [hf.decode_val hc, abs_mul, abs_sgn, one_mul, abs_of_nonneg (f.mag_nonneg _)]
  exact f.mag_strictMono.monotone ((hf.decode_exact_iff c).1 hc)

/-- An overflow gives the largest finite magnitude, or a code beyond it, which is not finite (R64). -/
theorem Regular.overflowCode_eq (mode : Nat) (sat neg : Bool) :
    ∃ g, f.maxCode ≤ g ∧ g < 2 ^ (f.w - 1) ∧ overflowCode f mode sat neg = f.withSign neg g := by
  have hpos := Nat.two_pow_pos f.fb
  have hlt := hf.two_pow_fb_lt
  simp only [overflowCode]
  split_ifs with hmax h1
  · exact ⟨_, le_rfl, hf.maxCode_lt, rfl⟩
  · obtain ⟨-, hw⟩ : f.kind = 1 ∧ f.w = 8 := (hf.kinds.resolve_left (by omega)).resolve_right (by omega)
    exact ⟨0x7F, by simp [maxCode, h1], by simp [hw], rfl⟩
  · have hk : f.kind = 0 := hf.kinds.resolve_right (by rintro (⟨h, -⟩ | ⟨h, -⟩) <;> simp_all)
    exact ⟨f.infCode, by simp [maxCode, infCode, hk], by rw [infCode]; omega, rfl⟩

omit hf in
/-- The significand that `roundTo` cuts off has one digit more than the fraction, and all of them where it is not subnormal. -/
theorem significand_bounds {m lo : Nat} (hm : m ≠ 0) (e : Int) (fb : Nat) (minQ : Int) :
    let q := max (e + (bitLen m - 1 : Nat) - fb) minQ
    (lo : ℚ) * (2 : ℚ) ^ q ≤ m * (2 : ℚ) ^ e → m * (2 : ℚ) ^ e < (lo + 1) * (2 : ℚ) ^ q →
    lo < 2 ^ (fb + 1) ∧ ((q - minQ).toNat = 0 ∨ 2 ^ fb ≤ lo) := by
  intro q hlow hhigh
  have h2 : (2 : ℚ) ≠ 0 := two_ne_zero
  have hq : (0 : ℚ) < (2 : ℚ) ^ q := by positivity
  have he : (0 : ℚ) < (2 : ℚ) ^ e := by positivity
  have hlen : bitLen m = Nat.log2 m + 1 := if_neg hm
  have hmlt : (m : ℚ) < (2 : ℚ) ^ bitLen m := by exact_mod_cast lt_two_pow_bitLen m
  have hmge : (2 : ℚ) ^ (bitLen m - 1) ≤ m := by
    rw [hlen]
    exact_mod_cast Nat.log2_self_le hm
  refine ⟨?_, or_iff_not_imp_left.2 fun hs => ?_⟩
  · have hpow : (2 : ℚ) ^ bitLen m * (2 : ℚ) ^ e ≤ (2 : ℚ) ^ (fb + 1) * (2 : ℚ) ^ q := by
      rw [← zpow_natCast, ← zpow_natCast, ← zpow_add₀ h2, ← zpow_add₀ h2]
      exact zpow_le_zpow_right₀ one_le_two (by push_cast; omega)
    have h := hlow.trans_lt ((mul_lt_mul_of_pos_right hmlt he).trans_le hpow)
    exact_mod_cast lt_of_mul_lt_mul_right h hq.le
  · have hpow : (2 : ℚ) ^ fb * (2 : ℚ) ^ q = (2 : ℚ) ^ (bitLen m - 1) * (2 : ℚ) ^ e := by
      rw [← zpow_natCast, ← zpow_natCast, ← zpow_add₀ h2, ← zpow_add₀ h2]
      congr 1
      omega
    have h := (mul_le_mul_of_nonneg_right hmge he.le).trans_lt hhigh
    rw [← hpow] at h
    have h := lt_of_mul_lt_mul_right h hq.le
    exact Nat.le_of_lt_succ (by exact_mod_cast h)

/-- `roundTo` chooses between the codes around an exact value, and overflows where the choice is beyond the largest (R57, R64). -/
theorem Regular.roundTo_chosen (mode : Nat) (sat : Bool) (u : Nat) (neg : Bool) (m : Nat) (e : Int) :
    ∃ g0 g inexact tiny, (g = g0 ∨ g = g0 + 1) ∧
      Chosen mode neg (f.mag g0) (f.mag (g0 + 1)) (m * (2 : ℚ) ^ e) (f.mag g) (g % 2 = 0) inexact ∧
      roundTo f mode sat u (.fin neg m e false) = if f.maxCode < g then (overflowCode f mode sat neg, fOF + fNX)
        else (f.withSign neg g, (if inexact then fNX else 0) + if inexact && tiny then fUF else 0) := by
  by_cases hm : m = 0
  · exact ⟨0, 0, false, false, .inl rfl, .exact (f.mag_strictMono one_pos) (by simp [hm]) rfl, by simp [roundTo, hm]⟩
  let q := max (e + (bitLen m - 1 : Nat) - f.fb) f.minQ
  let s := (q - f.minQ).toNat
  obtain ⟨lo, hr, hchosen⟩ := roundAt_chosen mode u neg m e q
  generalize hround : roundAt mode u neg m e false q = r at hr hchosen
  have hq : (2 : ℚ) ^ q = 2 ^ s * (2 : ℚ) ^ f.minQ := by
    rw [← zpow_natCast, ← zpow_add₀ two_ne_zero, Int.toNat_of_nonneg (by omega), sub_add_cancel]
  have hX : (m : ℚ) * (2 : ℚ) ^ (e - q) * (2 : ℚ) ^ q = m * (2 : ℚ) ^ e := by
    rw [mul_assoc, ← zpow_add₀ two_ne_zero, sub_add_cancel]
  have hscaled := hchosen.scale (c := (2 : ℚ) ^ q) (by positivity)
  rw [hX] at hscaled
  obtain ⟨hlo, hs⟩ := significand_bounds hm e f.fb f.minQ hscaled.lower_le hscaled.lt_upper
  have hcarry {k : Nat} (hk : k = lo ∨ k = lo + 1) : (s = 0 ∨ 2 ^ f.fb ≤ k) ∧ k ≤ 2 ^ (f.fb + 1) :=
    ⟨hs.imp_right (by omega), by omega⟩
  have hmag {k : Nat} (hk : k = lo ∨ k = lo + 1) : f.mag (k + s * 2 ^ f.fb) = k * (2 : ℚ) ^ q := by
    rw [f.mag_significand (hcarry hk).1 (hcarry hk).2, hq]
  have hbig : decide (f.maxM * 2 ^ (f.maxE - f.minQ).toNat < r.1 * 2 ^ s) = true ↔ f.maxCode < r.1 + s * 2 ^ f.fb := by
    rw [decide_eq_true_eq, ← hf.units_maxCode, ← f.units_significand (hcarry hr).1 (hcarry hr).2, f.units_strictMono.lt_iff_lt]
  obtain ⟨tiny, hresult⟩ : ∃ tiny, roundTo f mode sat u (.fin neg m e false) =
      if f.maxCode < r.1 + s * 2 ^ f.fb then (overflowCode f mode sat neg, fOF + fNX)
      else (f.withSign neg (r.1 + s * 2 ^ f.fb), (if r.2 then fNX else 0) + if r.2 && tiny then fUF else 0) := by
    subst hround
    simp only [roundTo, if_neg hm]
    exact ⟨_, if_congr hbig rfl rfl⟩
  refine ⟨lo + s * 2 ^ f.fb, _, _, tiny, by omega, ?_, hresult⟩
  rw [hmag (.inl rfl), hmag hr, hf.significand_mod_two, Nat.add_right_comm, hmag (.inr rfl), Nat.cast_succ]
  exact hscaled

end

end Fmt

/-! ### Correct rounding (R57, R61, R64) -/

/-- NX is among the flags of a finite result where it is inexact. -/
theorem resultFlags_nx (inexact tiny : Bool) :
    ((if inexact then fNX else 0) + if inexact && tiny then fUF else 0) &&& fNX ≠ 0 ↔ inexact = true := by
  cases inexact <;> cases tiny <;> decide

section
variable {f : Fmt} (hf : f.Regular)
include hf

/-- Under RNE no finite code is nearer than a finite result, and a tie goes to an even code. -/
theorem Fmt.Regular.roundTo_nearest {mode : Nat} (sat : Bool) (u : Nat) (neg : Bool) (m : Nat) (e : Int) (hmode : mode = 0) {c : Nat}
    (hfin : (f.decode (roundTo f mode sat u (.fin neg m e false)).1).exact = true) (hc : (f.decode c).exact = true) :
    let x := (FV.fin neg m e false).val
    let r := roundTo f mode sat u (.fin neg m e false)
    |(f.decode r.1).val - x| ≤ |(f.decode c).val - x| ∧
      (|(f.decode r.1).val - x| = |(f.decode c).val - x| → (f.decode c).val ≠ (f.decode r.1).val → r.1 % 2 = 0) := by
  intro x r
  obtain ⟨g0, g, inexact, tiny, hg, hchosen, hround⟩ := hf.roundTo_chosen mode sat u neg m e
  have hx : x = sgn neg * (m * (2 : ℚ) ^ e) := mul_assoc ..
  rw [hx, abs_sub_sgn_mul, abs_sub_sgn_mul]
  rw [hround] at hfin
  simp only [r, hround]
  by_cases hbig : f.maxCode < g
  · -- beyond the largest magnitude, which is the nearest that is left
    obtain ⟨g', hmax, hlt, hover⟩ := hf.overflowCode_eq mode sat neg
    simp only [if_pos hbig, hover] at hfin ⊢
    obtain rfl : g' = f.maxCode := ((hf.decode_withSign_exact_iff hlt).1 hfin).antisymm hmax
    have hyM := (sgn_mul_le_abs neg _).trans (hf.abs_decode_val_le hc)
    have hMX := (f.mag_strictMono.monotone (show f.maxCode ≤ g0 by omega)).trans hchosen.lower_le
    rw [hf.decode_withSign_val hmax, sgn_mul_sgn_mul, abs_of_nonpos (by linarith), abs_of_nonpos (by linarith)]
    refine ⟨by linarith, fun heq hne => absurd ?_ hne⟩
    rw [← sgn_mul_sgn_mul neg (f.decode c).val]
    exact congrArg _ (by linarith)
  · have hle := not_lt.1 hbig
    simp only [if_neg hbig, hf.decode_withSign_val hle, sgn_mul_sgn_mul, hf.withSign_mod_two]
    obtain ⟨hdist, heven⟩ := hchosen.dist_le hmode (hf.decode_val_gap neg g0 hc)
    refine ⟨hdist, fun heq hne => heven heq fun h => hne ?_⟩
    rw [← h, sgn_mul_sgn_mul]

/-- A value within the range of a format is rounded to a finite code between whose value and it no finite code lies, on the side of the mode, and
with NX where the two differ. -/
theorem Fmt.Regular.roundTo_inRange (mode : Nat) (sat : Bool) (u : Nat) (neg : Bool) (m : Nat) (e : Int)
    (hrange : |(FV.fin neg m e false).val| ≤ f.mag f.maxCode) :
    let x := (FV.fin neg m e false).val
    let r := roundTo f mode sat u (.fin neg m e false)
    let v := (f.decode r.1).val
    (r.1 < 2 ^ f.w ∧ (f.decode r.1).exact = true) ∧
      (∀ c, (f.decode c).exact = true → ¬ (v < (f.decode c).val ∧ (f.decode c).val < x) ∧ ¬ (x < (f.decode c).val ∧ (f.decode c).val < v)) ∧
      (mode = 1 → |v| ≤ |x|) ∧ (mode = 2 → v ≤ x) ∧ (mode = 3 → x ≤ v) ∧ (r.2 &&& fNX ≠ 0 ↔ v ≠ x) ∧ (v = x → r.2 = 0) := by
  intro x r v
  obtain ⟨g0, g, inexact, tiny, hg, hchosen, hround⟩ := hf.roundTo_chosen mode sat u neg m e
  have hx : x = sgn neg * (m * (2 : ℚ) ^ e) := mul_assoc ..
  have hle : g ≤ f.maxCode := by
    rw [FV.abs_val_fin] at hrange
    have hg0 := f.mag_strictMono.le_iff_le.1 (hchosen.lower_le.trans hrange)
    rcases hchosen.choice with hV | ⟨-, hi⟩
    · exact f.mag_strictMono.injective hV ▸ hg0
    · have hlt := hchosen.lower_le.lt_of_ne (hchosen.inexact_iff.1 hi)
      have hg0 := f.mag_strictMono.lt_iff_lt.1 (hlt.trans_le hrange)
      omega
  have hr : r = (f.withSign neg g, (if inexact then fNX else 0) + if inexact && tiny then fUF else 0) :=
    hround.trans (if_neg (not_lt.2 hle))
  have hv : v = sgn neg * f.mag g := by
    simp only [v, hr, hf.decode_withSign_val hle]
  have hne : v ≠ x ↔ inexact = true := by
    rw [hchosen.inexact_iff_ne, hv, hx, ne_eq, ne_eq, mul_right_inj' (sgn_ne_zero neg)]
  have hlt := hle.trans_lt hf.maxCode_lt
  refine ⟨?_, fun c hc => ?_, fun hm => ?_, fun hm => ?_, fun hm => ?_, ?_, fun h => ?_⟩
  · rw [hr]
    exact ⟨hf.withSign_lt hlt, (hf.decode_withSign_exact_iff hlt).2 hle⟩
  · have hbetween := hchosen.not_between (hf.decode_val_gap neg g0 hc)
    rw [hv, hx]
    cases neg
    · simpa using hbetween
    · simpa [lt_neg, neg_lt, and_comm] using hbetween.symm
  · rw [hv, hx, abs_mul, abs_mul (sgn neg), hchosen.towardZero hm]
    exact mul_le_mul_of_nonneg_left (abs_le_abs_of_nonneg (f.mag_nonneg g0) hchosen.lower_le) (abs_nonneg _)
  · rw [hv, hx]
    exact hchosen.sgn_mul_le hm
  · rw [hv, hx]
    exact hchosen.le_sgn_mul hm
  · rw [hne, hr]
    exact resultFlags_nx inexact tiny
  · have hexact : inexact = false := by simpa using (not_congr hne).1 (not_not.2 h)
    rw [hr, hexact]
    rfl

end

/-- Settles O41: every format of R48 is regular; its codes in order of magnitude are the grid between whose neighbours Round chooses. -/
theorem roundCorrect : Obligations.RoundCorrect := by
  unfold Obligations.RoundCorrect
  intro f hmem mode u neg m e _ _ x r v fin
  have hf := Fmt.regular_of_mem hmem
  refine ⟨fun hfin hmode c hc => hf.roundTo_nearest false u neg m e hmode hfin.2 hc.2, fun ⟨c, hc, hxc⟩ => ?_⟩
  obtain ⟨hfin, hbetween, hside⟩ := hf.roundTo_inRange mode false u neg m e (hxc.trans ((le_abs_self _).trans (hf.abs_decode_val_le hc.2)))
  exact ⟨hfin, fun c hc => hbetween c hc.2, hside⟩

end Sys2Proof.Machine

/-! ### The encoding: words, their fields and their instructions (R71 to R97) -/

namespace Sys2Proof.Machine

/-! ### Slices of a word built from fields (R73, R74) -/

section Slices

variable {v w : Nat}

-- The width of an append in a word stands as a numeral, so the lemmas below are not indexed by the sum of two widths.
@[simp] theorem slice_append_low {start len : Nat} (x : BitVec v) (y : BitVec w) (h : start + len ≤ w) :
    @BitVec.extractLsb' (no_index (v + w)) start len (@HAppend.hAppend (BitVec v) (BitVec w) (no_index (BitVec (v + w))) _ x y) =
      y.extractLsb' start len := BitVec.extractLsb'_append_eq_of_add_le h

@[simp] theorem slice_append_high {start len : Nat} (x : BitVec v) (y : BitVec w) (h : w ≤ start) :
    @BitVec.extractLsb' (no_index (v + w)) start len (@HAppend.hAppend (BitVec v) (BitVec w) (no_index (BitVec (v + w))) _ x y) =
      x.extractLsb' (start - w) len := BitVec.extractLsb'_append_eq_of_le h

theorem append_slices (k : BitVec (v + w)) : k.extractLsb' w v ++ k.extractLsb' 0 w = k := by
  rw [BitVec.extractLsb'_append_extractLsb'_eq_extractLsb' (Nat.zero_add w).symm, BitVec.extractLsb'_eq_self]

/-- An append is a word where its parts are the word's slices. -/
@[simp] theorem append_eq_iff (x : BitVec v) (y : BitVec w) (k : BitVec (v + w)) :
    @Eq (BitVec (no_index (v + w))) (@HAppend.hAppend (BitVec v) (BitVec w) (no_index (BitVec (v + w))) _ x y) k ↔
      x = k.extractLsb' w v ∧ y = k.extractLsb' 0 w := by
  constructor
  · rintro rfl
    simp
  · rintro ⟨rfl, rfl⟩
    exact append_slices k

/-- A mask acts on the parts of an append. -/
@[simp] theorem append_and (x : BitVec v) (y : BitVec w) (k : BitVec (v + w)) :
    @HAnd.hAnd (BitVec (no_index (v + w))) (BitVec (no_index (v + w))) (BitVec (no_index (v + w))) _
        (@HAppend.hAppend (BitVec v) (BitVec w) (no_index (BitVec (v + w))) _ x y) k =
      (x &&& k.extractLsb' w v) ++ (y &&& k.extractLsb' 0 w) := by
  conv_lhs => rw [← append_slices k]
  exact BitVec.and_append

/-- A comparison under a mask, slice by slice. -/
theorem and_eq_iff (x mask k : BitVec (v + w)) : x &&& mask = k ↔
    x.extractLsb' w v &&& mask.extractLsb' w v = k.extractLsb' w v ∧ x.extractLsb' 0 w &&& mask.extractLsb' 0 w = k.extractLsb' 0 w := by
  conv_lhs => rw [← append_slices x, append_and]
  exact append_eq_iff _ _ k

end Slices

theorem and_ones {n : Nat} (x : BitVec n) {m : BitVec n} (h : m = BitVec.allOnes n) : x &&& m = x := by
  rw [h, BitVec.and_allOnes]

theorem slice_slice {n i j k l : Nat} (x : BitVec n) (h : i + k ≤ l) : (x.extractLsb' j l).extractLsb' i k = x.extractLsb' (j + i) k := by
  ext b hb
  simp only [BitVec.getElem_extractLsb', BitVec.getLsbD_extractLsb', Nat.add_assoc]
  rw [decide_eq_true (by omega), Bool.true_and]

/-! ### The masks of the decoder, as slices -/

theorem mask3_4 (x k : BitVec 3) : x &&& 0x4#3 = k ↔
    x.extractLsb' 2 1 = k.extractLsb' 2 1 ∧ 0#2 = k.extractLsb' 0 2 := by
  simp [and_eq_iff (v := 1) (w := 2), and_ones]

theorem mask5_18 (x k : BitVec 5) : x &&& 0x18#5 = k ↔
    x.extractLsb' 3 2 = k.extractLsb' 3 2 ∧ 0#3 = k.extractLsb' 0 3 := by
  simp [and_eq_iff (v := 2) (w := 3), and_ones]

theorem mask5_1C (x k : BitVec 5) : x &&& 0x1C#5 = k ↔
    x.extractLsb' 2 3 = k.extractLsb' 2 3 ∧ 0#2 = k.extractLsb' 0 2 := by
  simp [and_eq_iff (v := 3) (w := 2), and_ones]

theorem mask5_10 (x k : BitVec 5) : x &&& 0x10#5 = k ↔
    x.extractLsb' 4 1 = k.extractLsb' 4 1 ∧ 0#4 = k.extractLsb' 0 4 := by
  simp [and_eq_iff (v := 1) (w := 4), and_ones]

theorem mask8_7F (x k : BitVec 8) : x &&& 0x7F#8 = k ↔
    0#1 = k.extractLsb' 7 1 ∧ x.extractLsb' 0 7 = k.extractLsb' 0 7 := by
  simp [and_eq_iff (v := 1) (w := 7), and_ones]

theorem mask8_F (x k : BitVec 8) : x &&& 0xF#8 = k ↔
    0#4 = k.extractLsb' 4 4 ∧ x.extractLsb' 0 4 = k.extractLsb' 0 4 := by
  simp [and_eq_iff (v := 4) (w := 4), and_ones]

theorem mask8_8F (x k : BitVec 8) : x &&& 0x8F#8 = k ↔
    (x.extractLsb' 7 1 = k.extractLsb' 7 1 ∧ 0#3 = k.extractLsb' 4 3) ∧ x.extractLsb' 0 4 = k.extractLsb' 0 4 := by
  simp [and_eq_iff (v := 4) (w := 4), and_eq_iff (v := 1) (w := 3), and_ones, slice_slice]

theorem mask8_CF (x k : BitVec 8) : x &&& 0xCF#8 = k ↔
    (x.extractLsb' 6 2 = k.extractLsb' 6 2 ∧ 0#2 = k.extractLsb' 4 2) ∧ x.extractLsb' 0 4 = k.extractLsb' 0 4 := by
  simp [and_eq_iff (v := 4) (w := 4), and_eq_iff (v := 2) (w := 2), and_ones, slice_slice]

theorem mask8_10 (x k : BitVec 8) : x &&& 0x10#8 = k ↔
    (0#3 = k.extractLsb' 5 3 ∧ x.extractLsb' 4 1 = k.extractLsb' 4 1) ∧ 0#4 = k.extractLsb' 0 4 := by
  simp [and_eq_iff (v := 4) (w := 4), and_eq_iff (v := 3) (w := 1), and_ones, slice_slice]

theorem mask8_4F (x k : BitVec 8) : x &&& 0x4F#8 = k ↔
    ((0#1 = k.extractLsb' 7 1 ∧ x.extractLsb' 6 1 = k.extractLsb' 6 1) ∧ 0#2 = k.extractLsb' 4 2) ∧ x.extractLsb' 0 4 = k.extractLsb' 0 4 := by
  simp [and_eq_iff (v := 4) (w := 4), and_eq_iff (v := 2) (w := 2), and_eq_iff (v := 1) (w := 1), and_ones, slice_slice]

theorem mask8_EF (x k : BitVec 8) : x &&& 0xEF#8 = k ↔
    (x.extractLsb' 5 3 = k.extractLsb' 5 3 ∧ 0#1 = k.extractLsb' 4 1) ∧ x.extractLsb' 0 4 = k.extractLsb' 0 4 := by
  simp [and_eq_iff (v := 4) (w := 4), and_eq_iff (v := 3) (w := 1), and_ones, slice_slice]

theorem mask8_FC (x k : BitVec 8) : x &&& 0xFC#8 = k ↔
    x.extractLsb' 2 6 = k.extractLsb' 2 6 ∧ 0#2 = k.extractLsb' 0 2 := by
  simp [and_eq_iff (v := 6) (w := 2), and_ones]

theorem mask16_FFC0 (x k : BitVec 16) : x &&& 0xFFC0#16 = k ↔
    x.extractLsb' 6 10 = k.extractLsb' 6 10 ∧ 0#6 = k.extractLsb' 0 6 := by
  simp [and_eq_iff (v := 10) (w := 6), and_ones]

theorem mask16_F000 (x k : BitVec 16) : x &&& 0xF000#16 = k ↔
    x.extractLsb' 12 4 = k.extractLsb' 12 4 ∧ 0#12 = k.extractLsb' 0 12 := by
  simp [and_eq_iff (v := 4) (w := 12), and_ones]

theorem mask16_F800 (x k : BitVec 16) : x &&& 0xF800#16 = k ↔
    x.extractLsb' 11 5 = k.extractLsb' 11 5 ∧ 0#11 = k.extractLsb' 0 11 := by
  simp [and_eq_iff (v := 5) (w := 11), and_ones]

/-! ### The formats (R74) -/

@[simp] theorem opOf_packR (op d a b m f) : opOf (packR op d a b m f) = op := by simp [opOf, packR]
@[simp] theorem dOf_packR (op d a b m f) : dOf (packR op d a b m f) = d := by simp [dOf, packR]
@[simp] theorem aOf_packR (op d a b m f) : aOf (packR op d a b m f) = a := by simp [aOf, packR]
@[simp] theorem bOf_packR (op d a b m f) : bOf (packR op d a b m f) = b := by simp [bOf, packR]
@[simp] theorem mOf_packR (op d a b m f) : mOf (packR op d a b m f) = m := by simp [mOf, packR]
@[simp] theorem fOf_packR (op d a b m f) : fOf (packR op d a b m f) = f := by simp [fOf, packR]

@[simp] theorem opOf_packI (op d a i) : opOf (packI op d a i) = op := by simp [opOf, packI]
@[simp] theorem dOf_packI (op d a i) : dOf (packI op d a i) = d := by simp [dOf, packI]
@[simp] theorem aOf_packI (op d a i) : aOf (packI op d a i) = a := by simp [aOf, packI]
@[simp] theorem immOf_packI (op d a i) : immOf (packI op d a i) = i := by simp [immOf, packI]

@[simp] theorem opOf_packL (op d a c o) : opOf (packL op d a c o) = op := by simp [opOf, packL]
@[simp] theorem dOf_packL (op d a c o) : dOf (packL op d a c o) = d := by simp [dOf, packL]
@[simp] theorem aOf_packL (op d a c o) : aOf (packL op d a c o) = a := by simp [aOf, packL]
@[simp] theorem cOf_packL (op d a c o) : cOf (packL op d a c o) = c := by simp [cOf, packL]
@[simp] theorem offOf_packL (op d a c o) : offOf (packL op d a c o) = o := by simp [offOf, packL]

@[simp] theorem opOf_packW (op d x) : opOf (packW op d x) = op := by simp [opOf, packW]
@[simp] theorem dOf_packW (op d x) : dOf (packW op d x) = d := by simp [dOf, packW]
@[simp] theorem wOf_packW (op d x) : wOf (packW op d x) = x := by simp [wOf, packW]

/-! A word is packed from its own fields, and from no others. -/

theorem packR_eq_iff (w : W32) (op d a b m f) :
    packR op d a b m f = w ↔ op = opOf w ∧ d = dOf w ∧ a = aOf w ∧ b = bOf w ∧ m = mOf w ∧ f = fOf w := by
  constructor
  · rintro rfl
    simp
  · rintro ⟨rfl, rfl, rfl, rfl, rfl, rfl⟩
    simp [packR, opOf, dOf, aOf, bOf, mOf, fOf, slice_slice]

theorem packI_eq_iff (w : W32) (op d a i) : packI op d a i = w ↔ op = opOf w ∧ d = dOf w ∧ a = aOf w ∧ i = immOf w := by
  constructor
  · rintro rfl
    simp
  · rintro ⟨rfl, rfl, rfl, rfl⟩
    simp [packI, opOf, dOf, aOf, immOf, slice_slice]

theorem packL_eq_iff (w : W32) (op d a c o) :
    packL op d a c o = w ↔ op = opOf w ∧ d = dOf w ∧ a = aOf w ∧ c = cOf w ∧ o = offOf w := by
  constructor
  · rintro rfl
    simp
  · rintro ⟨rfl, rfl, rfl, rfl, rfl⟩
    simp [packL, opOf, dOf, aOf, cOf, offOf, slice_slice]

theorem packW_eq_iff (w : W32) (op d x) : packW op d x = w ↔ op = opOf w ∧ d = dOf w ∧ x = wOf w := by
  constructor
  · rintro rfl
    simp
  · rintro ⟨rfl, rfl, rfl⟩
    simp [packW, opOf, dOf, wOf, slice_slice]

theorem opOf_of_toNat {w : W32} {n : Nat} (h : (opOf w).toNat = n) : opOf w = BitVec.ofNat 6 n := by
  rw [← h, BitVec.ofNat_toNat, BitVec.setWidth_eq]

/-! ### A word that decodes is the word of its instruction (R76, R96, R289) -/

/-- Whatever instruction is read meets `P`. -/
def Reads (P : Instr → Prop) (x : Except Reject Instr) : Prop := ∀ i, x = .ok i → P i

section Reads

variable {P : Instr → Prop}

theorem reads_error (r : Reject) : Reads P (.error r) ↔ True := ⟨fun _ => trivial, fun _ _ h => nomatch h⟩

theorem reads_ok (i : Instr) : Reads P (.ok i) ↔ P i := ⟨fun h => h i rfl, fun h _ e => Except.ok.inj e ▸ h⟩

theorem Reads.ite {c : Prop} [Decidable c] {x y : Except Reject Instr} (hx : c → Reads P x) (hy : Reads P y) :
    Reads P (if c then x else y) := by
  split
  · exact hx ‹c›
  · exact hy

end Reads

/-- `w` is the word of the instruction, which is of the advice half where `adv` says so. -/
def IsWord (adv : Bool) (w : W32) (i : Instr) : Prop := encode i = some w ∧ adviceHalf i = adv

theorem IsWord.of_eq {i : Instr} {v w : W32} {adv : Bool} (he : encode i = some v) (ha : adviceHalf i = adv) (hv : v = w) : IsWord adv w i :=
  ⟨hv ▸ he, ha⟩

/-- In every branch of the decoder the fixed slices are those that the encoder writes, and the others are the operands. -/
theorem decodeRaw_isWord (w : W32) : Reads (IsWord false w) (decodeRaw w) := by
  unfold decodeRaw
  split
  case h_44 => exact (reads_error _).2 trivial
  all_goals rename_i hop
  all_goals replace hop := opOf_of_toNat hop
  -- each condition as one on slices
  all_goals simp only [
    decodeOp00, decodeOp01, decodeOp02, decodeOp03, decodeOp04, decodeOp05, decodeOp06, decodeOp07, decodeOp08, decodeOp09, decodeOp0A, decodeOp0B,
    decodeOp0C, decodeOp0D, decodeOp0E, decodeOp0F, decodeOp10, decodeOp11, decodeOp12, decodeOp13, decodeOp14, decodeOp20, decodeOp21, decodeOp22,
    decodeOp23, decodeOp24, decodeOp25, decodeOp26, decodeOp27, decodeOp28, decodeOp29, decodeOp2A, decodeOp2B, decodeOp2C, decodeOp2D, decodeOp2E,
    decodeOp30, decodeOp31, decodeOp32, decodeOp33, decodeOp34, decodeOp35, decodeOp36, mask8_7F, mask16_FFC0, mask16_F000, mask3_4, mask16_F800,
    mask8_F, mask8_8F, mask5_18, mask8_CF, mask5_10, mask8_10, mask8_4F, mask8_EF, mask5_1C, true_and, and_true, BitVec.reduceExtractLsb']
  -- `need` is a branch too
  all_goals repeat' refine Reads.ite (fun _ => ?_) ?_
  all_goals simp only [reads_ok, reads_error]
  all_goals refine .of_eq rfl rfl ?_
  all_goals simp [*, packR_eq_iff, packI_eq_iff, packL_eq_iff, packW_eq_iff, slice_slice]

/-- The same of the decoder of the advice half. -/
theorem decodeAdviceRaw_isWord (w : W32) : Reads (IsWord true w) (decodeAdviceRaw w) := by
  unfold decodeAdviceRaw
  split
  case h_15 => exact (reads_error _).2 trivial
  all_goals rename_i hop
  all_goals replace hop := opOf_of_toNat hop
  -- each condition as one on slices
  all_goals simp only [
    decodeAdvOp01, decodeAdvOp02, decodeAdvOp03, decodeAdvOp04, decodeAdvOp05, decodeAdvOp06, decodeAdvOp07, decodeAdvOp08, decodeAdvOp09,
    decodeAdvOp0A, decodeAdvOp0B, decodeAdvOp0C, decodeAdvOp0D, decodeAdvOp0E, mask5_10, mask8_FC, and_true, BitVec.reduceExtractLsb']
  -- `need` is a branch too
  all_goals repeat' refine Reads.ite (fun _ => ?_) ?_
  all_goals simp only [reads_ok, reads_error]
  all_goals refine .of_eq rfl rfl ?_
  all_goals simp [*, packR_eq_iff, packI_eq_iff, packL_eq_iff, packW_eq_iff]

/-! ### The word of an instruction decodes to it (R71, R76, R289) -/

/-! The decoder of each major: the dispatch of `decodeRaw` on the field OP (R76), once for all proofs. -/

section Majors

variable {w : W32}

theorem decodeRaw_op00 (h : opOf w = 0x00#6) : decodeRaw w = decodeOp00 (dOf w) (aOf w) (bOf w) (mOf w) (fOf w) := by rw [decodeRaw, h]; rfl
theorem decodeRaw_op01 (h : opOf w = 0x01#6) : decodeRaw w = decodeOp01 (dOf w) (aOf w) (bOf w) (mOf w) (fOf w) := by rw [decodeRaw, h]; rfl
theorem decodeRaw_op02 (h : opOf w = 0x02#6) : decodeRaw w = decodeOp02 (dOf w) (aOf w) (bOf w) (mOf w) (fOf w) := by rw [decodeRaw, h]; rfl
theorem decodeRaw_op03 (h : opOf w = 0x03#6) : decodeRaw w = decodeOp03 (dOf w) (aOf w) (bOf w) (mOf w) (fOf w) := by rw [decodeRaw, h]; rfl
theorem decodeRaw_op04 (h : opOf w = 0x04#6) : decodeRaw w = decodeOp04 (dOf w) (aOf w) (immOf w) := by rw [decodeRaw, h]; rfl
theorem decodeRaw_op05 (h : opOf w = 0x05#6) : decodeRaw w = decodeOp05 (dOf w) (aOf w) (immOf w) := by rw [decodeRaw, h]; rfl
theorem decodeRaw_op06 (h : opOf w = 0x06#6) : decodeRaw w = decodeOp06 (dOf w) (aOf w) (immOf w) := by rw [decodeRaw, h]; rfl
theorem decodeRaw_op07 (h : opOf w = 0x07#6) : decodeRaw w = decodeOp07 (dOf w) (aOf w) (immOf w) := by rw [decodeRaw, h]; rfl
theorem decodeRaw_op08 (h : opOf w = 0x08#6) : decodeRaw w = decodeOp08 (dOf w) (aOf w) (immOf w) := by rw [decodeRaw, h]; rfl
theorem decodeRaw_op09 (h : opOf w = 0x09#6) : decodeRaw w = decodeOp09 (dOf w) (aOf w) (immOf w) := by rw [decodeRaw, h]; rfl
theorem decodeRaw_op0A (h : opOf w = 0x0A#6) : decodeRaw w = decodeOp0A (dOf w) (aOf w) (immOf w) := by rw [decodeRaw, h]; rfl
theorem decodeRaw_op0B (h : opOf w = 0x0B#6) : decodeRaw w = decodeOp0B (dOf w) (wOf w) := by rw [decodeRaw, h]; rfl
theorem decodeRaw_op0C (h : opOf w = 0x0C#6) : decodeRaw w = decodeOp0C (dOf w) (wOf w) := by rw [decodeRaw, h]; rfl
theorem decodeRaw_op0D (h : opOf w = 0x0D#6) : decodeRaw w = decodeOp0D (dOf w) (aOf w) (cOf w) (offOf w) := by rw [decodeRaw, h]; rfl
theorem decodeRaw_op0E (h : opOf w = 0x0E#6) : decodeRaw w = decodeOp0E (dOf w) (aOf w) (cOf w) (offOf w) := by rw [decodeRaw, h]; rfl
theorem decodeRaw_op0F (h : opOf w = 0x0F#6) : decodeRaw w = decodeOp0F (dOf w) (aOf w) (cOf w) (offOf w) := by rw [decodeRaw, h]; rfl
theorem decodeRaw_op10 (h : opOf w = 0x10#6) : decodeRaw w = decodeOp10 (dOf w) (wOf w) := by rw [decodeRaw, h]; rfl
theorem decodeRaw_op11 (h : opOf w = 0x11#6) : decodeRaw w = decodeOp11 (dOf w) (aOf w) (immOf w) := by rw [decodeRaw, h]; rfl
theorem decodeRaw_op12 (h : opOf w = 0x12#6) : decodeRaw w = decodeOp12 (dOf w) (aOf w) (immOf w) := by rw [decodeRaw, h]; rfl
theorem decodeRaw_op13 (h : opOf w = 0x13#6) : decodeRaw w = decodeOp13 (dOf w) (aOf w) (bOf w) (mOf w) (fOf w) := by rw [decodeRaw, h]; rfl
theorem decodeRaw_op14 (h : opOf w = 0x14#6) : decodeRaw w = decodeOp14 (dOf w) (aOf w) (immOf w) := by rw [decodeRaw, h]; rfl
theorem decodeRaw_op20 (h : opOf w = 0x20#6) : decodeRaw w = decodeOp20 (dOf w) (aOf w) (bOf w) (mOf w) (fOf w) := by rw [decodeRaw, h]; rfl
theorem decodeRaw_op21 (h : opOf w = 0x21#6) : decodeRaw w = decodeOp21 (dOf w) (aOf w) (immOf w) := by rw [decodeRaw, h]; rfl
theorem decodeRaw_op22 (h : opOf w = 0x22#6) : decodeRaw w = decodeOp22 (dOf w) (aOf w) (bOf w) (mOf w) (fOf w) := by rw [decodeRaw, h]; rfl
theorem decodeRaw_op23 (h : opOf w = 0x23#6) : decodeRaw w = decodeOp23 (dOf w) (aOf w) (bOf w) (mOf w) (fOf w) := by rw [decodeRaw, h]; rfl
theorem decodeRaw_op24 (h : opOf w = 0x24#6) : decodeRaw w = decodeOp24 (dOf w) (aOf w) (bOf w) (mOf w) (fOf w) := by rw [decodeRaw, h]; rfl
theorem decodeRaw_op25 (h : opOf w = 0x25#6) : decodeRaw w = decodeOp25 (dOf w) (aOf w) (bOf w) (mOf w) (fOf w) := by rw [decodeRaw, h]; rfl
theorem decodeRaw_op26 (h : opOf w = 0x26#6) : decodeRaw w = decodeOp26 (dOf w) (aOf w) (bOf w) (mOf w) (fOf w) := by rw [decodeRaw, h]; rfl
theorem decodeRaw_op27 (h : opOf w = 0x27#6) : decodeRaw w = decodeOp27 (dOf w) (aOf w) (bOf w) (mOf w) (fOf w) := by rw [decodeRaw, h]; rfl
theorem decodeRaw_op28 (h : opOf w = 0x28#6) : decodeRaw w = decodeOp28 (dOf w) (aOf w) (bOf w) (mOf w) (fOf w) := by rw [decodeRaw, h]; rfl
theorem decodeRaw_op29 (h : opOf w = 0x29#6) : decodeRaw w = decodeOp29 (dOf w) (aOf w) (bOf w) (mOf w) (fOf w) := by rw [decodeRaw, h]; rfl
theorem decodeRaw_op2A (h : opOf w = 0x2A#6) : decodeRaw w = decodeOp2A (dOf w) (aOf w) (bOf w) (mOf w) (fOf w) := by rw [decodeRaw, h]; rfl
theorem decodeRaw_op2B (h : opOf w = 0x2B#6) : decodeRaw w = decodeOp2B (dOf w) (wOf w) := by rw [decodeRaw, h]; rfl
theorem decodeRaw_op2C (h : opOf w = 0x2C#6) : decodeRaw w = decodeOp2C (dOf w) (aOf w) (bOf w) (mOf w) (fOf w) := by rw [decodeRaw, h]; rfl
theorem decodeRaw_op2D (h : opOf w = 0x2D#6) : decodeRaw w = decodeOp2D (dOf w) (aOf w) (bOf w) (mOf w) (fOf w) := by rw [decodeRaw, h]; rfl
theorem decodeRaw_op2E (h : opOf w = 0x2E#6) : decodeRaw w = decodeOp2E (dOf w) (aOf w) (bOf w) (mOf w) (fOf w) := by rw [decodeRaw, h]; rfl
theorem decodeRaw_op30 (h : opOf w = 0x30#6) : decodeRaw w = decodeOp30 (dOf w) (aOf w) (bOf w) (mOf w) (fOf w) := by rw [decodeRaw, h]; rfl
theorem decodeRaw_op31 (h : opOf w = 0x31#6) : decodeRaw w = decodeOp31 (dOf w) (aOf w) (bOf w) (mOf w) (fOf w) := by rw [decodeRaw, h]; rfl
theorem decodeRaw_op32 (h : opOf w = 0x32#6) : decodeRaw w = decodeOp32 (dOf w) (aOf w) (bOf w) (mOf w) (fOf w) := by rw [decodeRaw, h]; rfl
theorem decodeRaw_op33 (h : opOf w = 0x33#6) : decodeRaw w = decodeOp33 (dOf w) (aOf w) (bOf w) (mOf w) (fOf w) := by rw [decodeRaw, h]; rfl
theorem decodeRaw_op34 (h : opOf w = 0x34#6) : decodeRaw w = decodeOp34 (dOf w) (aOf w) (bOf w) (mOf w) (fOf w) := by rw [decodeRaw, h]; rfl
theorem decodeRaw_op35 (h : opOf w = 0x35#6) : decodeRaw w = decodeOp35 (dOf w) (aOf w) (bOf w) (mOf w) (fOf w) := by rw [decodeRaw, h]; rfl
theorem decodeRaw_op36 (h : opOf w = 0x36#6) : decodeRaw w = decodeOp36 (dOf w) (aOf w) (bOf w) (mOf w) (fOf w) := by rw [decodeRaw, h]; rfl
theorem decodeAdviceRaw_op01 (h : opOf w = 0x01#6) : decodeAdviceRaw w = decodeAdvOp01 (dOf w) (aOf w) (immOf w) := by rw [decodeAdviceRaw, h]; rfl
theorem decodeAdviceRaw_op02 (h : opOf w = 0x02#6) : decodeAdviceRaw w = decodeAdvOp02 (dOf w) (aOf w) (cOf w) (offOf w) := by rw [decodeAdviceRaw, h]; rfl
theorem decodeAdviceRaw_op03 (h : opOf w = 0x03#6) : decodeAdviceRaw w = decodeAdvOp03 (dOf w) (aOf w) (cOf w) (offOf w) := by rw [decodeAdviceRaw, h]; rfl
theorem decodeAdviceRaw_op04 (h : opOf w = 0x04#6) : decodeAdviceRaw w = decodeAdvOp04 (dOf w) (wOf w) := by rw [decodeAdviceRaw, h]; rfl
theorem decodeAdviceRaw_op05 (h : opOf w = 0x05#6) : decodeAdviceRaw w = decodeAdvOp05 (dOf w) (wOf w) := by rw [decodeAdviceRaw, h]; rfl
theorem decodeAdviceRaw_op06 (h : opOf w = 0x06#6) : decodeAdviceRaw w = decodeAdvOp06 (dOf w) (aOf w) (bOf w) (mOf w) (fOf w) := by rw [decodeAdviceRaw, h]; rfl
theorem decodeAdviceRaw_op07 (h : opOf w = 0x07#6) : decodeAdviceRaw w = decodeAdvOp07 (dOf w) (aOf w) (immOf w) := by rw [decodeAdviceRaw, h]; rfl
theorem decodeAdviceRaw_op08 (h : opOf w = 0x08#6) : decodeAdviceRaw w = decodeAdvOp08 (dOf w) (aOf w) (bOf w) (mOf w) (fOf w) := by rw [decodeAdviceRaw, h]; rfl
theorem decodeAdviceRaw_op09 (h : opOf w = 0x09#6) : decodeAdviceRaw w = decodeAdvOp09 (dOf w) (aOf w) (bOf w) (mOf w) (fOf w) := by rw [decodeAdviceRaw, h]; rfl
theorem decodeAdviceRaw_op0A (h : opOf w = 0x0A#6) : decodeAdviceRaw w = decodeAdvOp0A (dOf w) (aOf w) (bOf w) (mOf w) (fOf w) := by rw [decodeAdviceRaw, h]; rfl
theorem decodeAdviceRaw_op0B (h : opOf w = 0x0B#6) : decodeAdviceRaw w = decodeAdvOp0B (dOf w) (aOf w) (bOf w) (mOf w) (fOf w) := by rw [decodeAdviceRaw, h]; rfl
theorem decodeAdviceRaw_op0C (h : opOf w = 0x0C#6) : decodeAdviceRaw w = decodeAdvOp0C (dOf w) (aOf w) (bOf w) (mOf w) (fOf w) := by rw [decodeAdviceRaw, h]; rfl
theorem decodeAdviceRaw_op0D (h : opOf w = 0x0D#6) : decodeAdviceRaw w = decodeAdvOp0D (dOf w) (aOf w) (bOf w) (mOf w) (fOf w) := by rw [decodeAdviceRaw, h]; rfl
theorem decodeAdviceRaw_op0E (h : opOf w = 0x0E#6) : decodeAdviceRaw w = decodeAdvOp0E (dOf w) (aOf w) (bOf w) (mOf w) (fOf w) := by rw [decodeAdviceRaw, h]; rfl

end Majors

@[simp] theorem need_eq_ok {c : Prop} [Decidable c] (i : Instr) (h : c) : need c i = .ok i := if_pos h

theorem decodes_of_word {i : Instr} {v w : W32} {dec : W32 → Except Reject Instr} (h : some v = some w) (e : dec v = .ok i) : dec w = .ok i :=
  Option.some.inj h ▸ e

theorem decodeRaw_encode {i : Instr} {w : W32} (h : encode i = some w) (ha : adviceHalf i = false) : decodeRaw w = .ok i := by
  cases i
  case sysEcall | sysEbreak | sysEret | sysWfi | sysRefsync => exact decodes_of_word h (by simp [decodeRaw_op00, decodeOp00])
  case aluAdd | aluSub | aluAnd | aluOr | aluXor | aluSll | aluSrl | aluSra | aluSlt | aluSltu | aluMin | aluMax | aluMinu | aluMaxu | aluClz |
      aluPopc =>
    exact decodes_of_word h (by simp [decodeRaw_op01, decodeOp01])
  case muldivMul | muldivMulh | muldivMulhu | muldivDiv | muldivDivu | muldivRem | muldivRemu =>
    exact decodes_of_word h (by simp [decodeRaw_op02, decodeOp02])
  case fpsAdd | fpsSub | fpsMul | fpsDiv | fpsSqrt | fpsFma | fpsMin | fpsMax | fpsCvtOther | fpsCvtFromint | fpsCvtFromuint | fpsCvtToint |
      fpsCvtTouint | fpsCmpEq | fpsCmpLt | fpsCmpLe | fpsClass | fpsMvCopy | fpsMvNeg | fpsMvAbs =>
    exact decodes_of_word h (by simp [decodeRaw_op03, decodeOp03])
  case addi => exact decodes_of_word h (by simp [decodeRaw_op04, decodeOp04])
  case andi => exact decodes_of_word h (by simp [decodeRaw_op05, decodeOp05])
  case ori => exact decodes_of_word h (by simp [decodeRaw_op06, decodeOp06])
  case xori => exact decodes_of_word h (by simp [decodeRaw_op07, decodeOp07])
  case slti => exact decodes_of_word h (by simp [decodeRaw_op08, decodeOp08])
  case sltiu => exact decodes_of_word h (by simp [decodeRaw_op09, decodeOp09])
  case shiSlli | shiSrli | shiSrai => exact decodes_of_word h (by simp [decodeRaw_op0A, decodeOp0A])
  case lui => exact decodes_of_word h (by simp [decodeRaw_op0B, decodeOp0B])
  case auipc => exact decodes_of_word h (by simp [decodeRaw_op0C, decodeOp0C])
  case ldsB | ldsH | ldsW | ldsD | ldsBu | ldsHu | ldsWu => exact decodes_of_word h (by simp [decodeRaw_op0D, decodeOp0D])
  case stsB | stsH | stsW | stsD => exact decodes_of_word h (by simp [decodeRaw_op0E, decodeOp0E])
  case brcEq | brcNe | brcLt | brcGe | brcLtu | brcGeu => exact decodes_of_word h (by simp [decodeRaw_op0F, decodeOp0F])
  case jal => exact decodes_of_word h (by simp [decodeRaw_op10, decodeOp10])
  case jalr => exact decodes_of_word h (by simp [decodeRaw_op11, decodeOp11])
  case mark => exact decodes_of_word h (by simp [decodeRaw_op12, decodeOp12])
  case fenceSv | fenceVs | fenceVv | fenceAll => exact decodes_of_word h (by simp [decodeRaw_op13, decodeOp13])
  case csrRd | csrWr | csrSet | csrClr => exact decodes_of_word h (by simp [decodeRaw_op14, decodeOp14])
  case vcfgSetvl | vcfgSetvlrun => exact decodes_of_word h (by simp [decodeRaw_op20, decodeOp20])
  case setvli => exact decodes_of_word h (by simp [decodeRaw_op21, decodeOp21])
  case vintAdd | vintSub | vintMul | vintMulh | vintMulhu | vintDiv | vintDivu | vintRem | vintRemu | vintAnd | vintOr | vintXor | vintSll |
      vintSrl | vintSra | vintMin | vintMinu | vintMax | vintMaxu | vintSadd | vintSaddu | vintSsub | vintSsubu | vintMacc | vintMerge | vintMv =>
    exact decodes_of_word h (by simp [decodeRaw_op22, decodeOp22])
  case vintxAdd | vintxSub | vintxRsub | vintxMul | vintxMulh | vintxMulhu | vintxDiv | vintxDivu | vintxRem | vintxRemu | vintxAnd | vintxOr |
      vintxXor | vintxSll | vintxSrl | vintxSra | vintxMin | vintxMinu | vintxMax | vintxMaxu | vintxSadd | vintxSaddu | vintxSsub | vintxSsubu |
      vintxMacc | vintxMerge | vintxMv =>
    exact decodes_of_word h (by simp [decodeRaw_op23, decodeOp23])
  case vintiAdd | vintiRsub | vintiAnd | vintiOr | vintiXor | vintiSll | vintiSrl | vintiSra | vintiSadd | vintiSaddu | vintiMerge | vintiMv =>
    exact decodes_of_word h (by simp [decodeRaw_op24, decodeOp24])
  case vfpAdd | vfpSub | vfpMul | vfpDiv | vfpSqrt | vfpMin | vfpMax | vfpMacc | vfpNmacc | vfpExp2 | vfpSgnj | vfpSgnjn | vfpSgnjx | vfpClass |
      vfpMv =>
    exact decodes_of_word h (by simp [decodeRaw_op25, decodeOp25])
  case vfpxAdd | vfpxSub | vfpxMul | vfpxDiv | vfpxMin | vfpxMax | vfpxMacc | vfpxNmacc | vfpxSgnj | vfpxSgnjn | vfpxSgnjx | vfpxMv =>
    exact decodes_of_word h (by simp [decodeRaw_op26, decodeOp26])
  case vcvtFf | vcvtIf | vcvtFi | vcvtNarrow | vcvtWiden | vcvtDeq | vcvtQuant | vcvtQmv | vcvtQrd | vcvtDs8e | vcvtDs8d =>
    exact decodes_of_word h (by simp [decodeRaw_op27, decodeOp27])
  case vredSum | vredMin | vredMinu | vredMax | vredMaxu | vredAnd | vredOr | vredXor | vredFsumo | vredFsumt | vredFmin | vredFmax =>
    exact decodes_of_word h (by simp [decodeRaw_op28, decodeOp28])
  case vpermSlup | vpermSldn | vpermGather | vpermCompress | vpermExpand | vpermXchg | vpermMvxs | vpermMvsx | vpermBcast =>
    exact decodes_of_word h (by simp [decodeRaw_op29, decodeOp29])
  case vmaskEq | vmaskNe | vmaskLt | vmaskLtu | vmaskLe | vmaskLeu | vmaskGt | vmaskFeq | vmaskFlt | vmaskFle | vmaskAnd | vmaskOr | vmaskXor |
      vmaskAndn | vmaskPopc | vmaskFirst | vmaskConfl =>
    exact decodes_of_word h (by simp [decodeRaw_op2A, decodeOp2A])
  case vidx => exact decodes_of_word h (by simp [decodeRaw_op2B, decodeOp2B])
  case vldUnit | vldStr | vldIdx | vldSeg | vldFf | vldTens | vldQld => exact decodes_of_word h (by simp [decodeRaw_op2C, decodeOp2C])
  case vstUnit | vstStr | vstIdx | vstSeg | vstTens | vstRed => exact decodes_of_word h (by simp [decodeRaw_op2D, decodeOp2D])
  case vxclG | vxclS => exact decodes_of_word h (by simp [decodeRaw_op2E, decodeOp2E])
  case mopOp | mopOpn => exact decodes_of_word h (by simp [decodeRaw_op30, decodeOp30])
  case zopCfg | zopEnable | zopDisable | zopZero | zopRd | zopWr | zopPatch | zopScale | zopMask =>
    exact decodes_of_word h (by simp [decodeRaw_op31, decodeOp31])
  case mskLd | mskCls | mskGen | mskCnt => exact decodes_of_word h (by simp [decodeRaw_op32, decodeOp32])
  case tamw => exact decodes_of_word h (by simp [decodeRaw_op33, decodeOp33])
  case engCpy | engTcopy | engRgath | engRcopy | engPut | engGet | engSig | engLaunch =>
    exact decodes_of_word h (by simp [decodeRaw_op34, decodeOp34])
  case syncTlwait | syncTlwaitIc | syncTlread | syncTlreadIc | syncGbar | syncQdrain | syncSheaf | syncBtinv =>
    exact decodes_of_word h (by simp [decodeRaw_op35, decodeOp35])
  case dbgTrmark | dbgWprel => exact decodes_of_word h (by simp [decodeRaw_op36, decodeOp36])
  case advAwait | advBr | advLoop | advSet | advIns | advAdd | advAddi | advMv | advMvArg | advMvId | advPf | advPfx | advPlace | advPrio |
      advOrder | advOrderShare | advHalt =>
    exact nomatch ha
  all_goals exact nomatch h

theorem decodeAdviceRaw_encode {i : Instr} {w : W32} (h : encode i = some w) (ha : adviceHalf i = true) : decodeAdviceRaw w = .ok i := by
  cases i
  case advAwait => exact decodes_of_word h (by simp [decodeAdviceRaw_op01, decodeAdvOp01])
  case advBr => exact decodes_of_word h (by simp [decodeAdviceRaw_op02, decodeAdvOp02])
  case advLoop => exact decodes_of_word h (by simp [decodeAdviceRaw_op03, decodeAdvOp03])
  case advSet => exact decodes_of_word h (by simp [decodeAdviceRaw_op04, decodeAdvOp04])
  case advIns => exact decodes_of_word h (by simp [decodeAdviceRaw_op05, decodeAdvOp05])
  case advAdd => exact decodes_of_word h (by simp [decodeAdviceRaw_op06, decodeAdvOp06])
  case advAddi => exact decodes_of_word h (by simp [decodeAdviceRaw_op07, decodeAdvOp07])
  case advMv | advMvArg | advMvId => exact decodes_of_word h (by simp [decodeAdviceRaw_op08, decodeAdvOp08])
  case advPf => exact decodes_of_word h (by simp [decodeAdviceRaw_op09, decodeAdvOp09])
  case advPfx => exact decodes_of_word h (by simp [decodeAdviceRaw_op0A, decodeAdvOp0A])
  case advPlace => exact decodes_of_word h (by simp [decodeAdviceRaw_op0B, decodeAdvOp0B])
  case advPrio => exact decodes_of_word h (by simp [decodeAdviceRaw_op0C, decodeAdvOp0C])
  case advOrder | advOrderShare => exact decodes_of_word h (by simp [decodeAdviceRaw_op0D, decodeAdvOp0D])
  case advHalt => exact decodes_of_word h (by simp [decodeAdviceRaw_op0E, decodeAdvOp0E])
  all_goals exact nomatch ha

/-! ### Both halves -/

theorem checked_eq_ok_iff (x : Except Reject Instr) (i : Instr) : checked x = .ok i ↔ x = .ok i ∧ i.wf = true := by
  cases x with
  | error r => simp [checked]
  | ok j =>
    rw [Except.ok.injEq]
    constructor
    · intro h
      cases hj : j.check with
      | none =>
        obtain rfl : j = i := by simpa [checked, hj] using h
        exact ⟨rfl, by simp [Instr.wf, hj]⟩
      | some r => simp [checked, hj] at h
    · rintro ⟨rfl, h⟩
      have hj : j.check = none := by simpa [Instr.wf] using h
      simp [checked, hj]

/-- Settles O44: in each half the word that the encoder gives decodes to its instruction, whose fields pass every check. -/
theorem decodeEncode : Obligations.DecodeEncode := by
  intro i w hwf hword
  exact ⟨fun ha => (checked_eq_ok_iff _ i).2 ⟨decodeRaw_encode hword ha, hwf⟩,
    fun ha => (checked_eq_ok_iff _ i).2 ⟨decodeAdviceRaw_encode hword ha, hwf⟩⟩

/-- Settles O45: whatever a decoder reads from a word has that word, and has passed every check. -/
theorem encodeDecode : Obligations.EncodeDecode := by
  intro i w
  constructor
  · intro h
    obtain ⟨hraw, hwf⟩ := (checked_eq_ok_iff _ i).1 h
    obtain ⟨hword, ha⟩ := decodeRaw_isWord w i hraw
    exact ⟨hword, hwf, ha⟩
  · intro h
    obtain ⟨hraw, hwf⟩ := (checked_eq_ok_iff _ i).1 h
    obtain ⟨hword, ha⟩ := decodeAdviceRaw_isWord w i hraw
    exact ⟨hword, hwf, ha⟩

/-! ### Words and steps (R71, R96) -/

/-- Settles O46: both decoders compute on each of the words. -/
theorem decodedWords : Obligations.DecodedWords :=
  ⟨rfl, rfl, rfl, rfl, rfl, rfl, rfl, rfl, rfl, rfl, rfl, rfl, rfl, rfl, rfl, rfl, rfl, rfl, rfl⟩

/-- R363: without an instruction buffer there is no block to leave. -/
theorem State.leaveBlock_of_ibuf {s : State} {h : Nat} {x : Hart} (hx : s.hart h = some x) (hb : x.ibuf = none) : s.leaveBlock h = s := by
  simp [State.leaveBlock, hx, hb]

theorem State.Fetches.fetch {s : State} {x : Hart} {p : Nat} {w : W32} (h : s.Fetches x p w) : s.fetch x = .word w := by
  obtain ⟨-, -, -, -, -, -, -, -, -, -, -, -, -, -, -, -, hbuf, hpc, hhome, hword⟩ := h
  have hb : x.buffered = none := by simp [Hart.buffered, hbuf]
  have hhi : bits x.arch.pc.toNat 63 58 = 0 := by unfold bits; omega
  unfold State.fetch
  rcases hword with hcode | ⟨hcode, hpois, htime, rfl⟩
  · simp [hhi, hb, hhome, hcode]
  · simp [hhi, hb, hhome, hcode, hpois, htime]

theorem State.Fetches.scalarTurn {s : State} {x : Hart} {p : Nat} {w : W32} (h : s.Fetches x p w) : s.scalarTurn s.cur = .word s w := by
  have hfetch := h.fetch
  obtain ⟨-, -, -, -, -, -, -, -, hx, -, -, -, -, -, -, -, hbuf, -⟩ := h
  simp [State.scalarTurn, State.leaveBlock_of_ibuf hx hbuf, hx, hfetch]

theorem State.Fetches.hartTurn {s : State} {x : Hart} {p : Nat} {w : W32} (h : s.Fetches x p w) : s.hartTurn s.cur x = .word s w := by
  have hscalar := h.scalarTurn
  obtain ⟨-, -, -, -, -, -, -, -, -, -, hparked, hpre, hprog, hwork, hwait, hblocked, -⟩ := h
  have hdead : x.dead s.now = false := by simp [Hart.dead, hprog]
  have hsplit : x.splitDue s.now = false := by
    unfold Hart.splitDue
    split <;> simp [hpre]
  simp [State.hartTurn, hparked, hpre, hdead, hsplit, hwork, hwait, hblocked, hscalar]

theorem State.Fetches.turn {s : State} {x : Hart} {p : Nat} {w : W32} (h : s.Fetches x p w) : s.turn = .word s w := by
  have hhart := h.hartTurn
  obtain ⟨-, hstop, hfail, hready, htoken, hleave, hplace, hdisp, hx, hgone, -⟩ := h
  have hsolo : (s.arb.token.isNone && !s.arb.tokenQ.isEmpty) = false := by
    rcases htoken with ht | ht
    · simp [Option.isSome_iff_ne_none.1 ht]
    · simp [ht]
  simp [State.turn, hstop, hfail, hready, hleave, hsolo, hplace, Option.isNone_iff_eq_none.1 hdisp, hx, hgone, hhart]

theorem State.Fetches.stepFrom {s : State} {x : Hart} {p : Nat} {w : W32} (h : s.Fetches x p w) : stepFrom s = execWord w s := by
  have hturn := h.turn
  obtain ⟨hagenda, -⟩ := h
  simp [Machine.stepFrom, hagenda, hturn]

theorem execWord_ok {w : W32} {i : Instr} (h : decode w = .ok i) (s : State) : execWord w s = exec i s := by
  simp [execWord, h]

theorem execWord_error {w : W32} {r : Reject} (h : decode w = .error r) (s : State) : execWord w s = exec (.illegalInstructionWord w) s := by
  simp [execWord, h]

theorem State.begin_of_quiet (run : Nat → W32 → State → State) {s : State} (hdue : s.due = []) (hquiet : s.quiet = true) : s.begin run = s := by
  simp [State.begin, hdue, hquiet]

/-- Settles O47: with the schedule empty and no event due, the turn is the fetch of the current hart. -/
theorem stepRunsDecoded : Obligations.StepRunsDecoded := by
  refine ⟨fun s x p w => ?_, fun s hdue hquiet => State.begin_of_quiet runAdvice hdue hquiet⟩
  intro t hfetch
  have hstep : step s = execWord w t := hfetch.stepFrom
  exact ⟨fun i hi => hstep.trans (execWord_ok hi t), fun r hr => hstep.trans (execWord_error hr t)⟩

/-- Settles O13: the word raises ILL on the hart, and a raised trap lands at its vector. -/
theorem illegalWordTraps : Obligations.IllegalWordTraps := by
  intro w
  refine traps_of_raiseAt fun s y hr _ _ => ?_
  rw [exec_illegalInstructionWord, execIllegalInstructionWord, withHart_canRun hr]
  rfl

/-! ### A queued instruction that traps (R97, R98, R308, R309, R335) -/

/-- A landing gives what the checkpoint of the sheaf holds: what the sheaf has counted, reserved and asked for, and the hart's registers
and queues, are gone with it. -/
theorem Hart.Landed.of_hart {w y z : Hart} {sh' sh : Sheaf} {cause kind : Nat} {tpc telem tlane tval : W64}
    (h : w.Landed z sh' cause kind tpc telem tlane tval)
    (hw : w = { y with arch := w.arch, cnt := w.cnt, sheaves := w.sheaves, queue := w.queue, bq := w.bq, blocked := w.blocked })
    (hs : sh' = { sh with seq := sh'.seq, resv := sh'.resv, asks := sh'.asks, trap := sh'.trap })
    (hc : ∀ n, n ≠ cCYCLE → n ≠ cADVIDLE → fget 0 w.cnt n = fget 0 y.cnt n) : y.Landed z sh cause kind tpc telem tlane tval := by
  have hcp : sh'.cp = sh.cp := by rw [hs]
  have hby : sh'.bySplit = sh.bySplit := by rw [hs]
  have hpc : sh'.stripPc = sh.stripPc := by rw [hs]
  have hstrip : sh'.strip = sh.strip := by rw [hs]
  have hsplit : sh'.split = sh.split := by rw [hs]
  have hcap : w.cap = y.cap := by rw [hw]
  have hsq : w.squash = y.squash := by rw [hw]
  obtain ⟨hz, h⟩ := h
  rw [hcp, hcap, hsq] at hz
  rw [hcp, hby, hpc, hstrip, hsplit] at h
  obtain ⟨harch, hcause, htpc, hspc, hst, hspl, htelem, htlane, htval, hmode, hoth, hcnt⟩ := h
  refine ⟨?_, harch, hcause, htpc, hspc, hst, hspl, htelem, htlane, htval, hmode, hoth, fun n h1 h2 => (hcnt n h1 h2).trans (hc n h1 h2)⟩
  rw [hz, hw]

/-- The trap of an instruction that has run, where it waits for no data: ILL, or FPX for a flag that FCSR enables (R39, R97). -/
def Ran.failure (e : QEntry) : Ran → Option Trap
  | .ill => some e.ill
  | .done d => if d.acc.fl &&& e.fen ≠ 0 ∧ d.sheaf.asks = [] then some (e.fpx d.acc) else none
  | _ => none

theorem Ran.opener_of_failure {e : QEntry} {q : Ran} {t : Trap} (h : q.failure e = some t) : t.opener = false := by
  cases q with
  | ill => cases h; rfl
  | done d =>
    simp only [Ran.failure, Option.ite_none_right_eq_some, Option.some.injEq] at h
    rw [← h.2]
    rfl
  | _ => cases h

theorem Ran.asks_of_failure {e : QEntry} {q : Ran} {t : Trap} (h : q.failure e = some t) : q.asks = [] := by
  cases q with
  | done d =>
    simp only [Ran.failure, Option.ite_none_right_eq_some] at h
    exact h.1.2
  | late => cases h
  | _ => rfl

section Placed

variable {s : State} {y : Hart} {sh : Sheaf} {k : Issue} {r : FMap Nat} {o : VOp}

theorem State.hart_withPlaced : (s.withPlaced y sh k r o).hart s.cur = some (y.placed sh k r o) := State.hart_setHart_self _ _ _

/-- What the placed instruction comes to when it runs. -/
def State.placedRun (s : State) (y : Hart) (sh : Sheaf) (k : Issue) (r : FMap Nat) (o : VOp) : Ran :=
  runVOp (s.withPlaced y sh k r o) y.gang (y.entryOf sh k r o) y.arch.next { sh.placed r with asks := [] } sh.byStrip

/-- Without a rival at the sequencer the placed instruction is the one that issues (R335). -/
theorem State.completeHead_placed (hdis : s.Undisputed y) :
    (s.withPlaced y sh k r o).completeHead s.cur = (s.withPlaced y sh k r o).runHead s.cur := by
  have hfirst : (s.withPlaced y sh k r o).issuesFirst s.cur (y.placed sh k r o) (y.entryOf sh k r o) = s.cur := by
    refine State.issuesFirst_self (s.withPlaced y sh k r o) _ _ (hdis.imp id fun hd f hf hne hbase => ?_)
    rcases mem_fins (show f ∈ fins s.harts s.cur (y.placed sh k r o) from hf) with hself | hother
    · exact absurd (congrArg Prod.fst hself) hne
    · exact hd f hother hne hbase
  simp only [State.completeHead, State.hart_withPlaced, Hart.placed] at hfirst ⊢
  rw [hfirst]

/-- The placed instruction runs, and its trap is held in its sheaf. -/
theorem State.runHead_placed_of_failure {t : Trap} (hia : y.issueAt ≠ s.now + 1) (ht : sh.trap = none) (hw : sh.want = none) (hop : o.isStrip = false)
    (hrun : (s.placedRun y sh k r o).failure (y.entryOf sh k r o) = some t) :
    (s.withPlaced y sh k r o).runHead s.cur =
      (s.withPlaced y sh k r o).failHead s.cur 0 (y.entryOf sh k r o) { sh.placed r with asks := [] } t := by
  have hasks := Ran.asks_of_failure hrun
  have hstops : ({ sh.placed r with asks := [] } : Sheaf).stops (y.entryOf sh k r o) = false := by simp [Sheaf.placed, Sheaf.stops, ht, hw]
  have hstrip : (y.entryOf sh k r o).op.isStrip = false := hop
  have hnow : ¬ (y.placed sh k r o).issueAt = (s.withPlaced y sh k r o).now + 1 := hia
  have hsh : (y.placed sh k r o).sheaves = [sh.placed r] := rfl
  have hq : (y.placed sh k r o).queue = [y.entryOf sh k r o] := rfl
  have hyoung : (y.entryOf sh k r o).young = false := rfl
  have hby : (({ sh.placed r with asks := [] } : Sheaf).byStrip && !(y.entryOf sh k r o).sup) = sh.byStrip := Bool.and_true _
  unfold State.runHead
  simp only [State.hart_withPlaced, hq, hyoung, Bool.false_eq_true, if_false, hsh, List.getElem?_cons_zero, hstops, hnow, decide_false, Bool.or_self,
    hstrip, Bool.not_true, hby]
  rw [show runVOp (s.withPlaced y sh k r o) (y.placed sh k r o).gang (y.entryOf sh k r o) (y.placed sh k r o).arch { sh.placed r with asks := [] }
    sh.byStrip = s.placedRun y sh k r o from rfl]
  generalize s.placedRun y sh k r o = q at hrun hasks ⊢
  simp only [hasks, List.isEmpty_nil, Bool.not_true, Bool.and_false, Bool.false_and, Bool.false_eq_true, if_false]
  cases q with
  | ill => cases hrun; rfl
  | done d =>
    simp only [Ran.failure, Option.ite_none_right_eq_some, Option.some.injEq] at hrun
    obtain ⟨⟨hfl, -⟩, rfl⟩ := hrun
    exact if_pos hfl
  | _ => cases hrun

/-- The hart whose placed instruction holds a trap. -/
def Hart.failed (y : Hart) (sh : Sheaf) (k : Issue) (r : FMap Nat) (o : VOp) (now : Nat) (t : Trap) : Hart :=
  { y.placed sh k r o with
    queue := [], issued := y.issued + 1, issueAt := now + 1, dc := y.dc - ((y.entryOf sh k r o).charge : Int),
    sheaves := [{ sh.placed r with asks := [], trap := some t }] }

theorem State.failHead_placed (ht : sh.trap = none) (t : Trap) :
    ∃ u : State, (s.withPlaced y sh k r o).Notes u ∧
      (s.withPlaced y sh k r o).failHead s.cur 0 (y.entryOf sh k r o) { sh.placed r with asks := [] } t =
        u.setHart s.cur (y.failed sh k r o s.now t) := by
  let e := y.entryOf sh k r o
  let u := (s.withPlaced y sh k r o).runPipe s.cur e ((((s.withPlaced y sh k r o).hart s.cur).map (·.issued)).getD 0) false
  have hnotes : (s.withPlaced y sh k r o).Notes u := .runPipe ..
  have hhart : u.hart s.cur = some (y.placed sh k r o) := by
    rw [hnotes]
    exact State.hart_withPlaced
  refine ⟨u, hnotes, ?_⟩
  show u.updHart s.cur _ = _
  rw [State.updHart, hhart]
  have htrap : (sh.placed r).trap = none := ht
  simp [Hart.holdTrapAt, Hart.placed, Hart.failed, State.withPlaced, State.setHart, htrap]

end Placed

/-- A trap that is held in a hart's one sheaf, with nothing queued before it, lands. -/
theorem State.settle_landed {s : State} {x : Hart} {sh : Sheaf} {t : Trap} (hx : s.hart s.cur = some x) (hsup : x.arch.sup = false)
    (hahead : x.ahead = false) (hheld : x.held = none) (hq : x.queue = []) (hsh : x.sheaves = [sh]) (ht : sh.trap = some t)
    (hwant : sh.want = none) (hpre : x.preempted = false) (hopener : t.opener = false) (hno : s.NoToken) :
    ∃ z, (s.settle s.cur).hart s.cur = some z ∧ x.Landed z sh t.cause t.kind t.tpc t.telem t.tlane t.tval := by
  have hpark : x.parkReady = false := by simp [Hart.parkReady, hsh, hwant]
  have hready : x.landReady = some t := by simp [Hart.landReady, hheld, hsh, ht, hq, hpre, hwant]
  have hsettle : s.settle s.cur = s.landTrap s.cur t false := by
    simp [State.settle, State.conclude, State.tryLand, hx, hahead, hpark, hready, hheld]
  rw [hsettle]
  exact State.landTrap_landed s x sh t hx hsup hsh hopener hno

/-- A queued instruction whose run fails is issued and charged, and its trap lands at the start of its sheaf. -/
theorem issueV_traps {s : State} {y : Hart} {sh : Sheaf} {k : Issue} {resv : Hart → FMap Nat} {op : Arch → VOp} {r : FMap Nat} {o : VOp} {t : Trap}
    (hv : s.VReady k.regs y sh) (hpre : y.preempted = false) (hno : s.NoToken) (hr : resv { y with bq := y.bqAfter k.regs } = r)
    (hfit : resvFits [sh] r = true) (ho : op y.arch = o) (hop : o.isStrip = false)
    (hrun : (s.placedRun y sh k r o).failure (y.entryOf sh k r o) = some t) :
    ∃ u z, issueV s k resv op = .next u ∧ u.hart s.cur = some z ∧
      ({ y with issued := y.issued + 1, issueAt := s.now + 1, dc := y.dc - ((y.entryOf sh k r o).charge : Int), noProg := 0 } : Hart).Landed z
        sh t.cause t.kind t.tpc t.telem t.tlane t.tval := by
  subst hr ho
  rw [issueV_placed hv hfit]
  generalize resv { y with bq := y.bqAfter k.regs } = r at hrun ⊢
  generalize op y.arch = o at hop hrun ⊢
  obtain ⟨-, hsup, hahead, hheld, -, -, -, htrap, hwant, -, hia, hdis⟩ := hv
  obtain ⟨u, hnotes, hfail⟩ := State.failHead_placed (s := s) (y := y) (k := k) (r := r) (o := o) htrap t
  let x := y.failed sh k r o s.now t
  have hissue : (s.withPlaced y sh k r o).issue s.cur = ((u.setHart s.cur x).tick 1).settle s.cur := by
    have ha : (y.placed sh k r o).ahead = false := hahead
    simp only [State.issue, State.hart_withPlaced, ha, Bool.false_eq_true, if_false, State.completeHead_placed hdis,
      State.runHead_placed_of_failure hia htrap hwant hop hrun, hfail, x]
  have hcur : u.cur = s.cur := by rw [hnotes]; rfl
  have hno' : ((u.setHart s.cur x).tick 1).NoToken := by
    have harb : u.arb = s.arb := by rw [hnotes]; rfl
    show u.arb.token = none ∨ (u.arb.token = some u.cur ∧ u.arb.heldWrites = [])
    rw [hcur, harb]
    exact hno
  have hx : ((u.setHart s.cur x).tick 1).hart u.cur = some (x.tick 1) := by
    rw [hcur]
    exact State.hart_setHart_tick _ _ _
  have hpre' : (x.tick 1).preempted = false := by
    rw [Hart.preempted, Hart.tick_preempt, Hart.tick_landing]
    exact hpre
  obtain ⟨z, hz, hland⟩ := State.settle_landed hx (by rw [Hart.tick_arch]; exact hsup) (by rw [Hart.tick_ahead]; exact hahead)
    (by rw [Hart.tick_held]; exact hheld) (Hart.tick_queue ..) (Hart.tick_sheaves ..) rfl hwant hpre' (Ran.opener_of_failure hrun) hno'
  refine ⟨_, z, rfl, by rw [hissue]; exact hcur ▸ hz, hland.of_hart ?_ rfl fun n h1 h2 => ?_⟩
  · rw [Hart.tick_eq]
    rfl
  · exact Hart.tick_cnt_other _ 1 n h1 h2 (.inl rfl)

/-! ### The flags of elements that run one after the other (R62, R308) -/

theorem foldl_fOr_and_eq_zero (l : List Nat) (k n : Nat) : l.foldl fOr k &&& n = 0 ↔ k &&& n = 0 ∧ ∀ f ∈ l, f &&& n = 0 := by
  induction l generalizing k with
  | nil => simp
  | cons f l ih => simp [ih, fOr, Nat.and_or_distrib_right, and_assoc]

/-- Where each step raises the flags `fl` of its element, they gather, and the lowest element that raises an enabled one is kept. -/
theorem eachElem_flag {step : VAcc → Nat → VAcc} {fl : Nat → Nat} {n : Nat}
    (hfl : ∀ v i, (step v i).fl = (v.flag n i (fl i)).fl) (hfpe : ∀ v i, (step v i).fpe = (v.flag n i (fl i)).fpe) (is : List Nat) (v : VAcc) :
    (eachElem is v step).fl = (is.map fl).foldl fOr v.fl ∧
      (eachElem is v step).fpe = v.fpe.or (is.find? fun i => fl i &&& n ≠ 0) := by
  induction is generalizing v with
  | nil => simp [eachElem]
  | cons i is ih =>
    obtain ⟨hl, hp⟩ := ih (step v i)
    rw [hfl] at hl
    rw [hfpe] at hp
    refine ⟨hl, hp.trans ?_⟩
    cases hv : v.fpe with
    | some j => simp [VAcc.flag, hv]
    | none =>
      by_cases hi : fl i &&& n = 0
      · simp [VAcc.flag, hv, hi]
      · simp [VAcc.flag, hv, hi]

theorem VAcc.round_flag {mode : Nat} (hmode : mode ≠ 4) (v : VAcc) (f : Fmt) (sat : Bool) (n i : Nat) (x : FV × Nat) :
    (v.round f mode sat n i x).2 = v.flag n i (roundsTo f mode sat 0 x).2 := by
  simp [VAcc.round, roundStep, roundsTo, draw, hmode, VAcc.flag]

/-! ### The traps of R18, R39, R176 and R179 -/

theorem runFp_add {e : QEntry} {x : Arch} {d a b m : Nat} (hfloat : e.isFloat = true) (hsew : 16 ≤ e.sew) (hd : e.groupHere d = true)
    (ha : e.groupHere a = true) (hb : e.groupHere b = true) (hmode : e.frm ≠ 4) {fl : Nat → Nat}
    (hfl : ∀ j, fl j = (roundsTo e.fmt e.frm false 0 (sumFV e.frm [e.fmt.decode (getElem x e.vb e.sew a j), e.fmt.decode (getElem x e.vb e.sew b j)])).2) :
    ∃ v, runFp e x .add d a (.vec b) m = some v ∧ v.fl = unionFlags ((e.active x m).map fl) ∧
      v.fpe = (e.active x m).find? (fun j => fl j &&& e.fen ≠ 0) := by
  have hok : (e.isFloat && (!FpFn.add.wide || decide (16 ≤ e.sew)) && e.groupHere d && e.groupHere a && e.srcOk (.vec b)) = true := by
    simp [QEntry.srcOk, hfloat, hsew, hd, ha, hb]
  refine ⟨_, by rw [runFp, if_pos hok], ?_⟩
  refine eachElem_flag (fun v i => ?_) (fun v i => ?_) _ _
  · simp [fpExact, QEntry.src, VAcc.set, VAcc.round_flag hmode, hfl]
  · simp [fpExact, QEntry.src, VAcc.set, VAcc.round_flag hmode, hfl]

section Runs

variable {e : QEntry} (s : State) (gang : Nat) (x : Arch) (sh : Sheaf) (canTrim : Bool)

theorem runVOp_int_ill {f : IntFn} {d a m : Nat} {b : VSrc} (hop : e.op = .int f d a b m) (h : e.isInt = false) :
    runVOp s gang e x sh canTrim = .ill := by
  simp [runVOp, hop, runInt, h, Ran.regs]

theorem runVOp_fp_ill {f : FpFn} {d a m : Nat} {b : VSrc} (hop : e.op = .fp f d a b m) (h : e.isFloat = false) :
    runVOp s gang e x sh canTrim = .ill := by
  simp [runVOp, hop, runFp, h, Ran.regs]

/-- R18: a quarter hart has no matrix unit. -/
theorem runVOp_mop_ill {neg : Bool} {d a b m r f : Nat} (hop : e.op = .mop neg d a b m r f) (h : e.grant.clusters = 0) :
    runVOp s gang e x sh canTrim = .ill := by
  simp [runVOp, hop, runMop, QEntry.hasZ, h]

theorem failure_runVOp_fp {f : FpFn} {d a m : Nat} {b : VSrc} {v : VAcc} (hop : e.op = .fp f d a b m) (hrun : runFp e x f d a b m = some v)
    (hfl : v.fl &&& e.fen ≠ 0) (hasks : sh.asks = []) : (runVOp s gang e x sh canTrim).failure e = some (e.fpx v) := by
  simp [runVOp, hop, hrun, Ran.regs, Ran.failure, hfl, hasks]

end Runs

theorem QEntry.fpx_of_perElement {e : QEntry} {v : VAcc} {j : Nat} (hop : e.op.perElement = true) (hfpe : v.fpe = some j) :
    e.fpx v = e.trap { cause := 0x0E, kind := 0, telem := j, tlane := e.grant.tlane (j * e.sew / 8 % e.vb), tval := v.fl &&& e.fen } := by
  simp [QEntry.fpx, hop, hfpe]

theorem unionFlags_and_ne_zero {l : List Nat} {f n : Nat} (hmem : f ∈ l) (hf : f &&& n ≠ 0) : unionFlags l &&& n ≠ 0 := by
  rw [unionFlags, ne_eq, foldl_fOr_and_eq_zero]
  exact fun h => hf (h.2 f hmem)

/-- The instruction `i` traps on the hart `y` at its own address, and is charged `charge` (R309, R335). -/
def State.VTraps (s : State) (y : Hart) (sh : Sheaf) (i : Instr) (charge cause : Nat) (telem tlane tval : W64) : Prop :=
  ∃ t x, exec i s = .next t ∧ t.hart s.cur = some x ∧
    ({ y with issued := y.issued + 1, issueAt := s.now + 1, dc := y.dc - (charge : Int), noProg := 0 } : Hart).Landed x sh cause 0 y.arch.pc telem tlane tval

section VTraps

variable {s : State} {y : Hart} {sh : Sheaf} {i : Instr} {k : Issue} {op : Arch → VOp} {o : VOp} {c : Nat}

/-- An instruction that reserves nothing and fails as it runs. -/
theorem State.vTraps_of_failure {p : Stop} (hv : s.VReady k.regs y sh) (hpre : y.preempted = false) (hno : s.NoToken)
    (hexec : exec i s = issueV s k noResv op) (ho : op y.arch = o) (hop : o.isStrip = false) (hcharge : (y.entryOf sh k [] o).charge = c)
    (hkind : p.kind = 0) (hrun : (s.placedRun y sh k [] o).failure (y.entryOf sh k [] o) = some ((y.entryOf sh k [] o).trap p)) :
    s.VTraps y sh i c p.cause (BitVec.ofNat 64 p.telem) (BitVec.ofNat 64 p.tlane) (BitVec.ofNat 64 p.tval) := by
  obtain ⟨u, x, hu, hx, hland⟩ := issueV_traps (resv := noResv) hv hpre hno rfl rfl ho hop hrun
  refine ⟨u, x, hexec.trans hu, hx, ?_⟩
  rw [← hcharge, ← hkind]
  exact hland

/-- An instruction that turns out to be ILL traps with its word (R97). -/
theorem State.vTraps_ill (hv : s.VReady k.regs y sh) (hpre : y.preempted = false) (hno : s.NoToken)
    (hexec : exec i s = issueV s k noResv op) (hword : encode i = some k.word) (ho : op y.arch = o) (hop : o.isStrip = false)
    (hcharge : (y.entryOf sh k [] o).charge = c) (hrun : s.placedRun y sh k [] o = .ill) :
    s.VTraps y sh i c 0x01 0 0 (((encode i).getD 0).zeroExtend 64) := by
  rw [hword, Option.getD_some, BitVec.zeroExtend_eq_setWidth, ← BitVec.ofNat_toNat]
  exact State.vTraps_of_failure (p := { cause := 0x01, kind := 0, telem := 0, tlane := 0, tval := k.word.toNat }) hv hpre hno hexec ho hop hcharge rfl
    (congrArg (Ran.failure _) hrun)

/-- A float instruction that raises an enabled flag traps with the lowest element that raises one (R39, R308). -/
theorem State.vTraps_fpx {f : FpFn} {d a m j : Nat} {b : VSrc} {v : VAcc} (hv : s.VReady k.regs y sh) (hpre : y.preempted = false) (hno : s.NoToken)
    (hexec : exec i s = issueV s k noResv op) (ho : op y.arch = .fp f d a b m)
    (hrun : runFp (y.entry sh) y.arch.next f d a b m = some v) (hfl : v.fl &&& (y.entry sh).fen ≠ 0) (hfpe : v.fpe = some j) :
    s.VTraps y sh i (max 1 (y.entry sh).vl) 0x0E j ((y.entry sh).grant.tlane (j * (y.entry sh).sew / 8 % (y.entry sh).vb))
      (BitVec.ofNat 64 (v.fl &&& (y.entry sh).fen)) := by
  have hfails : (s.placedRun y sh k [] (.fp f d a b m)).failure _ = _ :=
    failure_runVOp_fp (e := y.entryOf sh k [] (.fp f d a b m)) _ _ _ _ _ rfl hrun hfl rfl
  rw [QEntry.fpx_of_perElement rfl hfpe] at hfails
  exact State.vTraps_of_failure hv hpre hno hexec ho rfl rfl rfl hfails

end VTraps

/-- Settles O31: each of the four runs fails, with ILL or with an enabled flag. -/
theorem vectorTraps : Obligations.VectorTraps := by
  intro d a b m z r f s y sh hv hpre hno
  refine ⟨fun h => ?_, fun h => ?_, fun h => ?_, fun _ hfloat hsew hmode hd ha hb => ?_⟩
  · exact State.vTraps_ill (k := ⟨[], .viq, none, packR 34#6 d a b m 0#8⟩) hv hpre hno (exec_vintAdd ..) rfl rfl rfl rfl (runVOp_int_ill _ _ _ _ _ rfl h)
  · exact State.vTraps_ill (k := ⟨[], .viq, none, packR 37#6 d a b m 0#8⟩) hv hpre hno (exec_vfpAdd ..) rfl rfl rfl rfl (runVOp_fp_ill _ _ _ _ _ rfl h)
  · exact State.vTraps_ill (k := ⟨[], .mq, none, packR 48#6 (0#2 ++ z) a b m (r ++ 0#1 ++ f)⟩) hv hpre hno (exec_mopOp ..) rfl rfl rfl rfl
      (runVOp_mop_ill _ _ _ _ _ rfl h)
  · intro fl j hj
    obtain ⟨v, hrun, hvfl, hfpe⟩ := runFp_add (e := y.entry sh) (x := y.arch.next) (m := m.toNat) hfloat hsew hd ha hb hmode (fl := fl) fun _ => rfl
    have hraises : fl j &&& (y.entry sh).fen ≠ 0 := by simpa using List.find?_some hj
    have hraised := unionFlags_and_ne_zero (List.mem_map_of_mem (f := fl) (List.mem_of_find?_eq_some hj)) hraises
    have htraps := State.vTraps_fpx (k := ⟨[], .viq, none, packR 37#6 d a b m 0#8⟩) hv hpre hno (exec_vfpAdd d a b m s) rfl hrun (hvfl ▸ hraised)
      (hfpe.trans hj)
    rw [hvfl] at htraps
    exact htraps

end Sys2Proof.Machine

/-! ### Scalar registers and integer instructions (R32, R121 to R125, R130, R131) -/

namespace Sys2Proof.Machine

@[simp] theorem Arch.wx_zero (a : Arch) (v : W64) : a.wx 0 v = a := rfl

/-- Settles O6: a read after a write, with x0 apart. -/
theorem registerFile : Obligations.RegisterFile := by
  intro a d r v
  refine ⟨?_, Arch.wx_zero a v⟩
  by_cases hr : r = 0
  · simp [hr]
  · rw [Arch.rx_wx, if_neg hr]
    by_cases hd : r = d
    · rw [if_pos ⟨hd, hd ▸ hr⟩, if_pos hd]
    · rw [if_neg fun h => hd h.1, if_neg hd]

/-- An instruction that is `regOp`, whose function gives what a statement says. -/
theorem writes_of_regOp_eq {i : Instr} {rs : List Nat} {d : BitVec 5} {f g : Arch → W64}
    (he : ∀ s, exec i s = regOp s d.toNat rs f) (hfg : ∀ r, f r = g r) : Writes i rs d g := by
  obtain rfl : f = g := funext hfg
  exact writes_of_regOp he

/-! The model's functions on registers, as functions of bit vectors. -/

theorem toNat_extractLsb_low6 (x : W64) : (x.extractLsb 5 0).toNat = x.toNat % 64 := by
  simp [BitVec.extractLsb]

theorem shiftLeft_low6 (x y : W64) : x <<< (y.toNat % 64) = x <<< (y.extractLsb 5 0) := by
  rw [BitVec.shiftLeft_eq', toNat_extractLsb_low6]

theorem ushiftRight_low6 (x y : W64) : x >>> (y.toNat % 64) = x >>> (y.extractLsb 5 0) := by
  rw [BitVec.ushiftRight_eq', toNat_extractLsb_low6]

theorem sraReg_low6 (x y : W64) : sraReg x (y.toNat % 64) = x.sshiftRight' (y.extractLsb 5 0) := by
  rw [sraReg, BitVec.sshiftRight', toNat_extractLsb_low6]

theorem flag64_slt (x y : W64) : flag64 (decide (sreg x < sreg y)) = if x.slt y then 1 else 0 := rfl

theorem flag64_ult (x y : W64) : flag64 (decide (x.toNat < y.toNat)) = if x.ult y then 1 else 0 := rfl

theorem sreg_lt_iff (x y : W64) : sreg x < sreg y ↔ ¬ y.sle x = true := by
  simp [BitVec.sle, sreg]

theorem toNat_lt_iff_not_ule (x y : W64) : x.toNat < y.toNat ↔ ¬ y.ule x = true := by
  simp [BitVec.ule]

theorem ite_sreg_lt (x y u v : W64) : (if sreg x < sreg y then u else v) = if y.sle x then v else u := by
  simp only [sreg_lt_iff, ite_not]

theorem ite_toNat_lt (x y u v : W64) : (if x.toNat < y.toNat then u else v) = if y.ule x then v else u := by
  simp only [toNat_lt_iff_not_ule, ite_not]

/-- A nonzero register has its top one bit at 63 less its leading zeros. -/
theorem bitLen_clz {x : W64} (hx : x ≠ 0) : bitLen x.toNat = 64 - x.clz.toNat ∧ x.clz.toNat < 64 := by
  have hlt : x.clz.toNat < 64 := by
    have h := (BitVec.clz_lt_iff_ne_zero (x := x)).2 hx
    rw [BitVec.lt_def] at h
    simpa using h
  have hlow := BitVec.two_pow_sub_clz_le_toNat_of_ne_zero (by decide) hx
  have hhigh := BitVec.toNat_lt_two_pow_sub_clz (x := x)
  have hne : x.toNat ≠ 0 := fun h => hx (BitVec.eq_of_toNat_eq h)
  have hlog : Nat.log2 x.toNat = 63 - x.clz.toNat := by
    rw [Nat.log2_eq_iff hne]
    refine ⟨hlow, ?_⟩
    rwa [show 63 - x.clz.toNat + 1 = 64 - x.clz.toNat by omega]
  rw [bitLen, if_neg hne, hlog]
  omega

theorem leadingZeros_eq_clz (x : W64) : BitVec.ofNat 64 (64 - bitLen x.toNat) = x.clz := by
  by_cases hx : x = 0
  · subst hx; decide
  · obtain ⟨hlen, hlt⟩ := bitLen_clz hx
    apply BitVec.eq_of_toNat_eq
    rw [hlen, BitVec.toNat_ofNat]
    omega

theorem cpopNatRec_eq_onesBelow (x : W64) (n acc : Nat) : x.cpopNatRec n acc = acc + onesBelow x.toNat n := by
  induction n generalizing acc with
  | zero => simp [onesBelow]
  | succ n ih =>
    have hbit : (x.getLsbD n).toNat = if bit x.toNat n then 1 else 0 := by
      rw [BitVec.getLsbD, bit]
      cases x.toNat.testBit n <;> rfl
    rw [BitVec.cpopNatRec_succ, ih, hbit, onesBelow]
    omega

theorem onesBelow_eq_cpop (x : W64) : BitVec.ofNat 64 (onesBelow x.toNat 64) = x.cpop := by
  rw [BitVec.cpop, cpopNatRec_eq_onesBelow, Nat.zero_add]

theorem mulHigh_eq (x y : W64) :
    BitVec.ofInt 64 (sreg x * sreg y / (2 ^ 64 : Nat)) = (x.signExtend 128 * y.signExtend 128).extractLsb' 64 64 := by
  have hprod : x.signExtend 128 * y.signExtend 128 = BitVec.ofInt 128 (sreg x * sreg y) := by
    rw [BitVec.ofInt_mul]; rfl
  apply BitVec.eq_of_toNat_eq
  rw [hprod, BitVec.extractLsb'_toNat, BitVec.toNat_ofInt, BitVec.toNat_ofInt, Nat.shiftRight_eq_div_pow]
  generalize sreg x * sreg y = p
  omega

theorem mulHighU_eq (x y : W64) :
    BitVec.ofNat 64 (x.toNat * y.toNat / 2 ^ 64) = (x.zeroExtend 128 * y.zeroExtend 128).extractLsb' 64 64 := by
  have hx : x.toNat ≤ 2 ^ 64 - 1 := Nat.le_pred_of_lt x.isLt
  have hy : y.toNat ≤ 2 ^ 64 - 1 := Nat.le_pred_of_lt y.isLt
  have hmul := Nat.mul_le_mul hx hy
  apply BitVec.eq_of_toNat_eq
  rw [BitVec.extractLsb'_toNat, BitVec.toNat_mul, BitVec.zeroExtend_eq_setWidth, BitVec.zeroExtend_eq_setWidth,
    BitVec.toNat_setWidth_of_le (by decide), BitVec.toNat_setWidth_of_le (by decide), BitVec.toNat_ofNat, Nat.shiftRight_eq_div_pow]
  generalize x.toNat * y.toNat = p at hmul
  omega

theorem divS_eq (x y : W64) : divS x y = if y = 0 then 0xFFFF_FFFF_FFFF_FFFF#64 else x.sdiv y := by
  rw [divS]
  split
  · rfl
  · apply BitVec.eq_of_toInt_eq
    rw [BitVec.toInt_ofInt, BitVec.toInt_sdiv]

theorem remS_eq (x y : W64) : remS x y = if y = 0 then x else x.srem y := by
  rw [remS]
  split
  · rfl
  · rw [← BitVec.toInt_srem, BitVec.ofInt_toInt]

theorem divU_eq (x y : W64) : divU x y = if y = 0 then 0xFFFF_FFFF_FFFF_FFFF#64 else x.udiv y := by
  rw [divU]
  split
  · rfl
  · rw [← BitVec.toNat_udiv, BitVec.ofNat_toNat, BitVec.setWidth_eq]; rfl

theorem remU_eq (x y : W64) : remU x y = if y = 0 then x else x.umod y := by
  rw [remU]
  split
  · rfl
  · rw [← BitVec.toNat_umod, BitVec.ofNat_toNat, BitVec.setWidth_eq]; rfl

theorem mul_4096 (x : W64) : x * 4096 = x <<< 12 := by
  rw [BitVec.shiftLeft_eq_mul_twoPow]; rfl

/-- Settles O1: each function of the table is `regOp`, and its value is that of the table. -/
theorem aluResults : Obligations.AluResults := fun d a b =>
  ⟨writes_of_regOp (exec_aluAdd d a b), writes_of_regOp (exec_aluSub d a b), writes_of_regOp (exec_aluAnd d a b),
    writes_of_regOp (exec_aluOr d a b), writes_of_regOp (exec_aluXor d a b),
    writes_of_regOp_eq (exec_aluSll d a b) fun _ => shiftLeft_low6 _ _,
    writes_of_regOp_eq (exec_aluSrl d a b) fun _ => ushiftRight_low6 _ _,
    writes_of_regOp_eq (exec_aluSra d a b) fun _ => sraReg_low6 _ _,
    writes_of_regOp_eq (exec_aluSlt d a b) fun _ => flag64_slt _ _,
    writes_of_regOp_eq (exec_aluSltu d a b) fun _ => flag64_ult _ _,
    writes_of_regOp_eq (exec_aluMin d a b) fun _ => ite_sreg_lt _ _ _ _,
    writes_of_regOp_eq (exec_aluMax d a b) fun _ => ite_sreg_lt _ _ _ _,
    writes_of_regOp_eq (exec_aluMinu d a b) fun _ => ite_toNat_lt _ _ _ _,
    writes_of_regOp_eq (exec_aluMaxu d a b) fun _ => ite_toNat_lt _ _ _ _,
    writes_of_regOp_eq (exec_aluClz d a) fun _ => leadingZeros_eq_clz _,
    writes_of_regOp_eq (exec_aluPopc d a) fun _ => onesBelow_eq_cpop _⟩

/-- Settles O2: the wide products, and quotients and remainders with their cases for 0. -/
theorem mulDivResults : Obligations.MulDivResults := fun d a b =>
  ⟨writes_of_regOp (exec_muldivMul d a b), writes_of_regOp_eq (exec_muldivMulh d a b) fun _ => mulHigh_eq _ _,
    writes_of_regOp_eq (exec_muldivMulhu d a b) fun _ => mulHighU_eq _ _,
    writes_of_regOp_eq (exec_muldivDiv d a b) fun _ => divS_eq _ _, writes_of_regOp_eq (exec_muldivDivu d a b) fun _ => divU_eq _ _,
    writes_of_regOp_eq (exec_muldivRem d a b) fun _ => remS_eq _ _, writes_of_regOp_eq (exec_muldivRemu d a b) fun _ => remU_eq _ _⟩

/-- Settles O3: the immediate in place of the second register. -/
theorem immediateResults : Obligations.ImmediateResults := fun d a i n w =>
  ⟨writes_of_regOp (exec_addi d a i), writes_of_regOp (exec_andi d a i), writes_of_regOp (exec_ori d a i),
    writes_of_regOp (exec_xori d a i), writes_of_regOp_eq (exec_slti d a i) fun _ => flag64_slt _ _,
    writes_of_regOp_eq (exec_sltiu d a i) fun _ => flag64_ult _ _, writes_of_regOp (exec_shiSlli d a n),
    writes_of_regOp (exec_shiSrli d a n), writes_of_regOp (exec_shiSrai d a n),
    writes_of_regOp_eq (exec_lui d w) fun _ => mul_4096 _,
    writes_of_regOp_eq (exec_auipc d w) fun r => congrArg (r.pc + ·) (mul_4096 _)⟩

/-! Branches and jumps -/

/-- The registers and CSRs after a conditional branch with condition `c` (R130). -/
def Arch.branch (d a : Reg) (o : BitVec 13) (c : W64 → W64 → Bool) (r : Arch) : Arch :=
  { r with pc := if c (r.r d) (r.r a) then r.pc + 4 * o.signExtend 64 else r.pc + 4 }

theorem completes_of_branchOp {i : Instr} {d a : Reg} {o : BitVec 13} {c c' : W64 → W64 → Bool}
    (he : ∀ s, exec i s = branchOp s d a o c) (hc : ∀ x y, c x y = c' x y) :
    Completes i [d.toNat, a.toNat] (fun _ => True) (Arch.branch d a o c') := by
  obtain rfl : c = c' := funext fun x => funext (hc x)
  refine completes_of_retire fun s y hr _ => ?_
  rw [he, branchOp, withHart_canRun hr]
  rfl

theorem decide_sreg_le (x y : W64) : decide (sreg y ≤ sreg x) = !x.slt y := by
  rw [BitVec.slt, ← decide_not]
  exact decide_eq_decide.2 not_lt.symm

theorem decide_toNat_le (x y : W64) : decide (y.toNat ≤ x.toNat) = !x.ult y := by
  rw [BitVec.ult, ← decide_not]
  exact decide_eq_decide.2 not_lt.symm

/-- Settles O4: each condition is that of its row. -/
theorem branchesTaken : Obligations.BranchesTaken := fun d a o =>
  ⟨completes_of_branchOp (exec_brcEq d a o) fun _ _ => rfl, completes_of_branchOp (exec_brcNe d a o) fun x y => by
      by_cases h : x = y <;> simp [h],
    completes_of_branchOp (exec_brcLt d a o) fun _ _ => rfl, completes_of_branchOp (exec_brcGe d a o) decide_sreg_le,
    completes_of_branchOp (exec_brcLtu d a o) fun _ _ => rfl, completes_of_branchOp (exec_brcGeu d a o) decide_toNat_le⟩

theorem extractLsb_low2_eq_zero (x : W64) : x.extractLsb 1 0 = 0 ↔ x.toNat % 4 = 0 := by
  rw [← BitVec.toNat_inj]
  simp [BitVec.extractLsb]

/-- Settles O5: JAL always, and JALR where its target is aligned. -/
theorem jumpsLink : Obligations.JumpsLink := by
  refine fun d a i w => ⟨completes_of_retire fun s y hr _ => ?_, completes_of_retire fun s y hr halign => ?_⟩
  · rw [exec_jal, execJal, withHart_canRun hr]
  · have htarget : (y.arch.rx a.toNat + i.signExtend 64).toNat % 4 = 0 := (extractLsb_low2_eq_zero _).1 halign
    rw [exec_jalr, execJalr, withHart_canRun hr]
    simp only [htarget, ne_eq, not_true_eq_false, if_false]

end Sys2Proof.Machine

/-! ### The checks of an access (R127, R153) -/

namespace Sys2Proof.Machine

/-- What the checks of an access come to: `aligned` and `inBounds` as they pass, the home address, and the watchpoint that is hit. -/
def accessOutcome (aligned inBounds : Bool) : Option Nat → Option (Nat × Bool) → Except Nat Access
  | home, watch =>
    if !aligned then .error 2
    else if !inBounds then .error 4
    else match home, watch with
      | none, _ => .error 3
      | some _, some (_, false) => .error 5
      | some h, some (w, true) => .ok { home := h, hold := some w }
      | some h, none => .ok { home := h, hold := none }

theorem access_eq (s : State) (g : Grant) (csr : FMap W64) (sup : Bool) (a n kind al : Nat) :
    access s g csr sup a n kind al = accessOutcome (decide (a % al = 0)) (sup || boundsOk s g csr a n kind)
      (homeOf s g (fget 0 csr cPTROOT) a kind (!sup)) (if sup then none else watchHit csr a n kind) := by
  unfold access accessAt homeOf accessOutcome
  by_cases halign : a % al = 0
  · cases sup with
    | true => cases homeAt s g.base g (fget 0 csr cPTROOT) a kind (!true) <;> simp [halign]
    | false =>
      cases boundsOk s g csr a n kind with
      | false => simp [halign]
      | true =>
        cases homeAt s g.base g (fget 0 csr cPTROOT) a kind (!false) with
        | none => simp [halign]
        | some h => rcases watchHit csr a n kind with _ | ⟨w, _ | _⟩ <;> simp [halign]
  · simp [halign]

theorem Access.mk_eq_iff (h : Nat) (w : Option Nat) (x : Access) : { home := h, hold := w } = x ↔ h = x.home ∧ x.hold = w := by
  obtain ⟨h', w'⟩ := x
  simp [eq_comm]

/-- Settles O10: the checks pass up to the first that fails. -/
theorem accessOrder : Obligations.AccessOrder := by
  intro s g csr sup a n kind al _ home watch
  have hbounds : (sup = true ∨ boundsOk s g csr a n kind = true) ↔ (sup || boundsOk s g csr a n kind) = true := by simp
  have hfail : (sup = false ∧ boundsOk s g csr a n kind = false) ↔ (sup || boundsOk s g csr a n kind) = false := by simp
  have hacc : access s g csr sup a n kind al = accessOutcome (decide (a % al = 0)) (sup || boundsOk s g csr a n kind) home watch := access_eq ..
  rw [hacc, hbounds, hfail]
  clear_value home watch
  by_cases halign : a % al = 0
  · cases sup || boundsOk s g csr a n kind with
    | false => simp [accessOutcome, halign]
    | true =>
      rcases home with _ | h
      · simp [accessOutcome, halign]
      · rcases watch with _ | ⟨w, _ | _⟩ <;> simp [accessOutcome, halign, Access.mk_eq_iff]
  · simp [accessOutcome, halign]

end Sys2Proof.Machine

/-! ### Scalar loads and stores (R126 to R129, R262) -/

namespace Sys2Proof.Machine

/-! The byte a read sees -/

/-- One write in turn: it is passed over, or the read has its value now. -/
theorem readByte_cons (r : Reader) (old : Byte) (by_ : Option WRec) (sts : Bool) (w : WRec) (ws : List WRec) (n : Nat) :
    ∃ old' by' sts' n', readByte r old by_ sts (w :: ws) n = readByte r old' by' sts' ws n' ∧ (by' = by_ ∨ by' = none ∨ by' = some w) ∧
      (old' = old ∨ (old' = w.val ∧ (r.agent = .scalar → w.seq < r.seq))) := by
  rw [readByte]
  split
  · exact ⟨_, _, _, _, rfl, .inl rfl, .inl rfl⟩
  · split
    · split
      · next hover =>
        have hvec : r.agent ≠ .scalar := by
          simp only [overtakes, Bool.and_eq_true, decide_eq_true_eq] at hover
          exact hover.1.2
        refine ⟨_, _, _, _, rfl, .inl rfl, ?_⟩
        split
        · exact .inr ⟨rfl, fun h => absurd h hvec⟩
        · exact .inl rfl
      · exact ⟨_, _, _, _, rfl, .inl rfl, .inl rfl⟩
    · next hlater =>
      have hbefore : w.seq < r.seq := by omega
      split
      · refine ⟨_, _, _, _, rfl, .inr ?_, .inr ⟨rfl, fun _ => hbefore⟩⟩
        split
        · exact .inl rfl
        · exact .inr rfl
      · split
        · exact ⟨_, _, _, _, rfl, .inl rfl, .inl rfl⟩
        · cases freeBit n with
          | true => exact ⟨_, _, _, _, rfl, .inr (.inr rfl), .inr ⟨rfl, fun _ => hbefore⟩⟩
          | false => exact ⟨_, _, _, _, rfl, .inl rfl, .inl rfl⟩

/-- The writes before `w` leave the read with a value and the write that it has that value of, which is one of them. -/
theorem readByte_append (r : Reader) (us : List WRec) (w : WRec) (vs : List WRec) (old : Byte) (by_ : Option WRec) (sts : Bool) (n : Nat) :
    ∃ old' by' sts' n', readByte r old by_ sts (us ++ w :: vs) n = readByte r old' by' sts' (w :: vs) n' ∧
      ∀ u, by' = some u → by_ = some u ∨ u ∈ us := by
  induction us generalizing old by_ sts n with
  | nil => exact ⟨old, by_, sts, n, rfl, fun u h => .inl h⟩
  | cons v us ih =>
    obtain ⟨old1, by1, sts1, n1, hstep, hby1, -⟩ := readByte_cons r old by_ sts v (us ++ w :: vs) n
    obtain ⟨old2, by2, sts2, n2, hrest, hby2⟩ := ih old1 by1 sts1 n1
    refine ⟨old2, by2, sts2, n2, hstep.trans hrest, fun u hu => ?_⟩
    rcases hby2 u hu with h | h
    · rcases hby1 with rfl | rfl | rfl
      · exact .inl h
      · cases h
      · exact .inr (Option.some.inj h ▸ List.mem_cons_self)
    · exact .inr (List.mem_cons_of_mem v h)

/-- A scalar read sees the committed byte or one that the sheaf wrote before. -/
theorem readByte_mem {r : Reader} (hr : r.agent = .scalar) (ws : List WRec) (old : Byte) (by_ : Option WRec) (sts : Bool) (n : Nat) :
    (readByte r old by_ sts ws n).1 = old ∨ ∃ w ∈ ws, (readByte r old by_ sts ws n).1 = w.val ∧ w.seq < r.seq := by
  induction ws generalizing old by_ sts n with
  | nil => exact .inl rfl
  | cons w ws ih =>
    obtain ⟨old', by', sts', n', hstep, -, hold⟩ := readByte_cons r old by_ sts w ws n
    rw [hstep]
    rcases ih old' by' sts' n' with h | ⟨v, hv, h⟩
    · rcases hold with rfl | ⟨rfl, hseq⟩
      · exact .inl h
      · exact .inr ⟨w, List.mem_cons_self, h, hseq hr⟩
    · exact .inr ⟨v, List.mem_cons_of_mem w hv, h⟩

/-- A write that is ordered before the read and after what the read has seen takes its place. -/
theorem readByte_ordered {r : Reader} {w : WRec} {ws : List WRec} {by_ : Option WRec} (hrep : w.replaced ws = false) (hseq : w.seq < r.seq)
    (hord : ordered w r = true) (hby : by_.any (fun u => u.outlasts w) = false) (old : Byte) (sts : Bool) (n : Nat) :
    readByte r old by_ sts (w :: ws) n = readByte r w.val (if w.agent = .scalar then none else some w) (decide (w.agent = .scalar)) ws n := by
  have hle : ¬ r.seq ≤ w.seq := by omega
  rw [readByte]
  simp only [hrep, hle, hord, hby, Bool.false_eq_true, if_false, and_self, if_true]

/-- R128: an STS hides from a scalar read the vector writes after it that no fence orders. -/
theorem readByte_unfenced {r : Reader} (hr : r.agent = .scalar) {vs : List WRec} (hvs : ∀ v ∈ vs, ordered v r = false ∧ v.seq < r.seq)
    (old : Byte) (by_ : Option WRec) (n : Nat) : readByte r old by_ true vs n = (old, n) := by
  induction vs with
  | nil => rfl
  | cons v vs ih =>
    obtain ⟨hord, hseq⟩ := hvs v List.mem_cons_self
    have hle : ¬ r.seq ≤ v.seq := by omega
    have hrest := ih fun u hu => hvs u (List.mem_cons_of_mem v hu)
    rw [readByte]
    simp only [hle, hord, hr, hrest, Bool.false_eq_true, false_and, if_false, and_self, if_true, ite_self]

theorem WRec.isBefore_iff (w : WRec) (sh : Sheaf) : w.isBefore sh ↔ ordered w sh.scalarReader = true := by
  have hvec : w.nVS < sh.nVS ↔ decide (w.nVS < sh.nVS) = true := decide_eq_true_iff.symm
  cases h : w.agent <;> simp only [WRec.isBefore, ordered, Sheaf.scalarReader, h, reduceCtorEq, true_or, false_or] <;> exact hvec

theorem WRec.outlasts_scalar {w : WRec} (hw : w.agent = .scalar) (u : WRec) : u.outlasts w = false := by
  simp [WRec.outlasts, hw]

/-- R128: the byte that a scalar load reads is one that it may return. -/
theorem byteSeen_readByte (s : State) (sh : Sheaf) (a n : Nat) :
    ByteSeen s sh a (readByte sh.scalarReader (fget 0 s.mem a) none false (fget [] sh.writes a) n).1 := by
  have hmem := readByte_mem (r := sh.scalarReader) rfl (fget [] sh.writes a) (fget 0 s.mem a) none false n
  unfold ByteSeen
  dsimp only
  generalize fget [] sh.writes a = ws at hmem
  refine ⟨fun h => by rw [h]; rfl, fun us w h hseq hbef hout => ?_, fun us w vs h hseq hsts hvs => ?_, hmem⟩
  · subst h
    obtain ⟨old, by_, sts, m, hread, hby⟩ := readByte_append sh.scalarReader us w [] (fget 0 s.mem a) none false n
    have hany : by_.any (fun u => u.outlasts w) = false := by
      cases hb : by_ with
      | none => rfl
      | some u => exact hout u ((hby u hb).resolve_left (by simp))
    rw [hread, readByte_ordered rfl (hseq w (by simp)) ((w.isBefore_iff sh).1 hbef) hany]
    rfl
  · subst h
    obtain ⟨old, by_, sts, m, hread, -⟩ := readByte_append sh.scalarReader us w vs (fget 0 s.mem a) none false n
    have hany : by_.any (fun u => u.outlasts w) = false := by
      cases by_ with
      | none => rfl
      | some u => exact WRec.outlasts_scalar hsts u
    have hrep : w.replaced vs = false := by
      cases vs with
      | nil => rfl
      | cons v vs => exact decide_eq_false (hvs v List.mem_cons_self).2
    have hunf : ∀ v ∈ vs, ordered v sh.scalarReader = false ∧ v.seq < sh.scalarReader.seq := fun v hv =>
      ⟨by rw [← Bool.not_eq_true, ← WRec.isBefore_iff]; exact (hvs v hv).1, hseq v (by simp [hv])⟩
    rw [hread, readByte_ordered hrep (hseq w (by simp)) ((w.isBefore_iff sh).1 (.inl hsts)) hany, if_pos hsts, decide_eq_true hsts,
      readByte_unfenced rfl hunf]

theorem length_sheafRead (s : State) (sh : Sheaf) (r : Reader) (home n free : Nat) : (sheafRead s sh r home n free).1.length = n := by
  induction n generalizing home free with
  | zero => rfl
  | succ n ih => rw [sheafRead, List.length_cons, ih]

theorem getD_sheafRead (s : State) (sh : Sheaf) (r : Reader) {n k : Nat} (hk : k < n) (home free : Nat) :
    ∃ f, (sheafRead s sh r home n free).1.getD k 0 = (readByte r (fget 0 s.mem (home + k)) none false (fget [] sh.writes (home + k)) f).1 := by
  induction n generalizing home free k with
  | zero => omega
  | succ n ih =>
    rw [sheafRead]
    cases k with
    | zero => exact ⟨free, rfl⟩
    | succ k =>
      rw [List.getD_cons_succ, show home + (k + 1) = home + 1 + k by omega]
      exact ih (by omega) (home + 1) _

theorem byteSeen_sheafRead (s : State) (sh : Sheaf) {n k : Nat} (hk : k < n) (home free : Nat) :
    ByteSeen s sh (home + k) ((sheafRead s sh sh.scalarReader home n free).1.getD k 0) := by
  obtain ⟨f, hf⟩ := getD_sheafRead s sh sh.scalarReader hk home free
  rw [hf]
  exact byteSeen_readByte s sh (home + k) f

/-! Loads -/

theorem scalarHit_none {x : Hart} {sh : Sheaf} (hw : sh.want = none) (resv : FMap Nat) (a : Arch) (kind : Nat) (addr : W64) :
    scalarHit x sh resv a none kind addr = none := by
  simp [scalarHit, hw]

theorem Sheaf.want_none {sh : Sheaf} (hw : sh.want = none) : { sh with want := none } = sh := by rw [← hw]

theorem Hart.Executed.pend_congr {y z : Hart} {p q : List Pending} {rs : List Nat} {a : Arch} {sh : Sheaf} (h : p = q)
    (he : ({ y with pend := p } : Hart).Executed z rs a sh) : ({ y with pend := q } : Hart).Executed z rs a sh := h ▸ he

/-- A scalar load whose checks pass completes with the bytes that it has read. -/
theorem loads_of_loadOp {i : Instr} {d a : BitVec 5} {o : BitVec 13} {n : Nat} {signed : Bool}
    (he : ∀ s, exec i s = loadOp s d a o n signed) : Loads i d a o n signed := by
  intro s y sh home hr hcur hwant hacc hpois
  let b := sheafRead s sh sh.scalarReader home n s.free
  let late := y.ahead || s.ms.timed
  let arch := (y.arch.wx d.toNat (if signed then BitVec.ofInt 64 (toSigned (8 * n) (leNat b.1)) else BitVec.ofNat 64 (leNat b.1))).next
  let pend := if late then { reg := d.toNat, issued := s.now, young := decide (2 ≤ y.sheaves.length) } :: y.pend else y.pend
  let x : Hart := { y with bq := y.bqAfter [d.toNat, a.toNat], arch := arch, pend := pend, sheaves := y.sheaves.dropLast ++ [sh.addRead home n] }
  have hcurx : x.cur = some (sh.addRead home n) := Hart.setCur_cur y _
  have hexec : exec i s = .next (({ s with free := b.2 } : State).retireTo s.cur x (if late then .reg d.toNat else .nothing)) := by
    have hc : ({ y with bq := y.bqAfter [d.toNat, a.toNat] } : Hart).cur = some sh := hcur
    have hsh : { sh.addRead home n with want := none } = sh.addRead home n := Sheaf.want_none hwant
    rw [he, loadOp, withHart_canRun hr]
    change access s y.arch.grant y.arch.csr y.arch.sup (y.arch.rx a.toNat + o.signExtend 64).toNat n kRead n = _ at hacc
    simp only [hc, hacc, hpois, scalarHit_none hwant, Bool.false_eq_true, if_false, Option.isSome_none, hsh]
    rfl
  obtain ⟨halone, z, hz, hdone⟩ := retire_executed (s := s) (y := { y with pend := pend }) (x := x) (rs := [d.toNat, a.toNat]) (a := arch)
    b.2 (if late then .reg d.toNat else .nothing) (by simp [x, Hart.setCur, Hart.bqAfter]) hcurx
  refine ⟨_, z, b.1, hexec, halone, hz, length_sheafRead .., fun k hk => byteSeen_sheafRead s sh hk home s.free, ?_⟩
  exact hdone.pend_congr (by simp [pend, late])

/-- Settles O7: each load is `loadOp` with its width and extension. -/
theorem scalarLoads : Obligations.ScalarLoads := fun d a o =>
  ⟨loads_of_loadOp (exec_ldsB d a o), loads_of_loadOp (exec_ldsH d a o), loads_of_loadOp (exec_ldsW d a o), loads_of_loadOp (exec_ldsD d a o),
    loads_of_loadOp (exec_ldsBu d a o), loads_of_loadOp (exec_ldsHu d a o), loads_of_loadOp (exec_ldsWu d a o)⟩

/-! Stores -/

theorem length_leBytes (n x : Nat) : (leBytes n x).length = n := by
  induction n generalizing x with
  | zero => rfl
  | succ n ih => rw [leBytes, List.length_cons, ih]

theorem getD_leBytes {n i : Nat} (hi : i < n) (x : Nat) : (leBytes n x).getD i 0 = BitVec.ofNat 8 (x / 2 ^ (8 * i)) := by
  induction n generalizing x i with
  | zero => omega
  | succ n ih =>
    rw [leBytes]
    cases i with
    | zero => simp
    | succ i =>
      rw [List.getD_cons_succ, ih (by omega), Nat.div_div_eq_div_mul, show 256 = 2 ^ 8 from rfl, ← pow_add, Nat.add_comm 8, Nat.mul_succ]

theorem getD_leBytes_word {n i : Nat} (hi : i < n) (v : W64) : (leBytes n v.toNat).getD i 0 = BitVec.setWidth 8 (v.ushiftRight (8 * i)) := by
  rw [getD_leBytes hi]
  apply BitVec.eq_of_toNat_eq
  rw [BitVec.toNat_setWidth, BitVec.toNat_ofNat]
  exact congrArg (· % 2 ^ 8) (Nat.shiftRight_eq_div_pow ..).symm

/-- A write that the agent makes at its place in the sheaf. -/
def Reader.wrote (w : Reader) (b : Byte) : WRec := { val := b, agent := w.agent, seq := w.seq, nSV := w.nSV, nVS := w.nVS, nVV := w.nVV }

/-- Buffering changes the buffer alone. -/
theorem bufferBytes_eq (w : Reader) (sh : Sheaf) (home : Nat) (bs : List Byte) :
    bufferBytes w sh home bs = { sh with writes := (bufferBytes w sh home bs).writes } := by
  induction bs generalizing sh home with
  | nil => rfl
  | cons b bs ih =>
    rw [bufferBytes]
    exact ih _ _

theorem fget_bufferBytes (w : Reader) (sh : Sheaf) (home : Nat) (bs : List Byte) (k : Nat) :
    fget [] (bufferBytes w sh home bs).writes k =
      if home ≤ k ∧ k < home + bs.length then insertRec (w.wrote (bs.getD (k - home) 0)) (fget [] sh.writes k) else fget [] sh.writes k := by
  induction bs generalizing sh home with
  | nil => rw [if_neg (by simp)]; rfl
  | cons b bs ih =>
    rw [bufferBytes, ih]
    simp only [fget_fset, List.length_cons]
    by_cases hk : k = home
    · subst hk
      rw [if_neg (by omega), if_pos rfl, if_pos (by omega), Nat.sub_self]
      rfl
    · rw [if_neg hk]
      by_cases hin : home + 1 ≤ k ∧ k < home + 1 + bs.length
      · rw [if_pos hin, if_pos (by omega), show k - home = k - (home + 1) + 1 by omega, List.getD_cons_succ]
      · rw [if_neg hin, if_neg (by omega)]

/-- A scalar store whose checks pass completes with its bytes in the buffer. -/
theorem stores_of_storeOp {i : Instr} {d a : BitVec 5} {o : BitVec 13} {n : Nat}
    (he : ∀ s, exec i s = storeOp s d a o n) : Stores i d a o n := by
  intro s y sh home hr hcur hwant hfit hacc
  let bs := leBytes n (y.arch.rx d.toNat).toNat
  let r := reserve y.arch.grant.scalarQuarter 1 []
  let sh' := { sheafWrite sh.scalarReader sh home bs with resv := addResv sh.resv r }
  have hlen : bs.length = n := length_leBytes ..
  have hsh' : sh' = { sh.addWrite home n with writes := sh'.writes, resv := addResv sh.resv r } := by
    simp only [sh', sheafWrite, sheafWriteAt, hlen]
    rw [bufferBytes_eq]
    rfl
  have hexec : exec i s = .next (s.retire s.cur ((({ y with bq := y.bqAfter [d.toNat, a.toNat] } : Hart).setCur sh').withArch y.arch.next)) := by
    have hc : ({ y with bq := y.bqAfter [d.toNat, a.toNat] } : Hart).cur = some sh := hcur
    have hw : { sh' with want := none } = sh' := Sheaf.want_none (by rw [hsh']; exact hwant)
    rw [he, storeOp, withHart_canRun hr]
    change access s y.arch.grant y.arch.csr y.arch.sup (y.arch.rx a.toNat + o.signExtend 64).toNat n kWrite n = _ at hacc
    simp only [hc, hfit, hacc, scalarHit_none hwant, Bool.not_true, Bool.false_eq_true, if_false, Option.isSome_none]
    exact congrArg (fun x => Host.Outcome.next (s.retire s.cur ((({ y with bq := y.bqAfter [d.toNat, a.toNat] } : Hart).setCur x).withArch y.arch.next))) hw
  obtain ⟨halone, z, hz, hdone⟩ := retire_executed (s := s) (y := y) (rs := [d.toNat, a.toNat]) (a := y.arch.next)
    (x := (({ y with bq := y.bqAfter [d.toNat, a.toNat] } : Hart).setCur sh').withArch y.arch.next) s.free .nothing
    (by simp [Hart.setCur, Hart.withArch]) (Hart.setCur_cur _ _)
  refine ⟨_, z, sh', hexec, halone, hz, hdone, hsh', fun k => ?_⟩
  refine (fget_bufferBytes sh.scalarReader sh home bs k).trans ?_
  rw [hlen]
  split
  · next hk =>
    rw [getD_leBytes_word (by omega)]
    rfl
  · rfl

/-- Settles O8: each store is `storeOp` with its width. -/
theorem scalarStores : Obligations.ScalarStores := fun d a o =>
  ⟨stores_of_storeOp (exec_stsB d a o), stores_of_storeOp (exec_stsH d a o), stores_of_storeOp (exec_stsW d a o),
    stores_of_storeOp (exec_stsD d a o)⟩

end Sys2Proof.Machine

/-! ### Instructions that trap (R127, R131, R139, R141, R144, R255, R312) -/

namespace Sys2Proof.Machine

/-- Opening a sheaf leaves the mode of the hart alone. -/
theorem Hart.ready_sup {x y : Hart} {n : Nat} (h : x.ready n = some y) : y.arch.sup = x.arch.sup := by
  unfold Hart.ready at h
  split at h
  · cases h; rfl
  · split at h
    · cases h
    · cases h
      simp only [Hart.openHere]
      split <;> rfl

/-- An instruction of the supervisor traps ILL with its word where its condition fails (R97, R312). -/
theorem supOp_refused {s : State} {rs : List Nat} {y : Hart} (hr : s.CanRun rs y) {ok : Hart → Bool} {w : W32} {f : State → Nat → Hart → State}
    (hok : ∀ x : Hart, x.arch.sup = y.arch.sup → ok x = false) :
    supOp s rs ok w f = .next (s.ill s.cur ({ y with bq := y.bqAfter rs } : Hart) w) := by
  obtain ⟨x, hx, hy, -⟩ := id hr
  unfold supOp
  rw [hx]
  simp only [hok x (Hart.ready_sup hy).symm, Bool.not_false, if_true, withHart_canRun hr]

theorem State.CanLand.user {s : State} {y : Hart} {sh : Sheaf} (h : s.CanLand y sh) : y.arch.sup = false := h.1

theorem State.CanLand.cur {s : State} {y : Hart} {sh : Sheaf} (h : s.CanLand y sh) : y.cur = some sh := by
  obtain ⟨-, -, -, -, hsh, -⟩ := h
  rw [Hart.cur, hsh]
  rfl

/-- Settles O14: each raises its trap. -/
theorem instructionTraps : Obligations.InstructionTraps := by
  refine fun d a i k => ⟨traps_of_raiseAt fun s y hr hp _ => ?_, traps_of_raiseAt fun s y hr _ hl => ?_,
    traps_of_raiseAt fun s y hr _ hl => ?_, traps_of_raiseAt fun s y hr _ hl => ?_, traps_of_raiseAt fun s y hr hp _ => ?_⟩
  · have hodd : (y.arch.rx a.toNat + i.signExtend 64).toNat % 4 ≠ 0 := fun h => hp ((extractLsb_low2_eq_zero _).2 h)
    rw [exec_jalr, execJalr, withHart_canRun hr]
    simp only [hodd, ne_eq, not_false_eq_true, if_true]
    rfl
  · obtain ⟨sh, hl⟩ := hl
    rw [exec_sysEret, execSysEret, supOp_refused hr fun x hx => hx.trans hl.user]
    rfl
  · obtain ⟨sh, hl⟩ := hl
    rw [exec_sysRefsync, execSysRefsync, withHart_canRun hr]
    simp only [hl.user, Bool.not_false, if_true]
    rfl
  · obtain ⟨sh, hl⟩ := hl
    rw [exec_dbgWprel, execDbgWprel, supOp_refused hr fun x hx => by rw [hx, hl.user, Bool.false_and]]
    rfl
  · have hbeyond : (y.arch.rcsr (cTID + k.toNat)).toNat < (y.arch.rx a.toNat).toNat := hp
    rw [exec_syncTlwait, execSyncTlwait, syncOp, withHart_canRun hr]
    simp only [hbeyond, if_true]

/-- What makes a scalar access of `n` bytes fail with cause `c`: a check, or an uncorrectable error in the data of a load (R127). -/
def AccessFails (a : BitVec 5) (o : BitVec 13) (n kind c : Nat) (s : State) (y : Hart) : Prop :=
  (access s y.arch.grant y.arch.csr y.arch.sup (y.arch.at_ a o).toNat n kind n = .error c ∨
    (c = 0x10 ∧ kind = kRead ∧ ∃ x sh, y.cur = some sh ∧ readPoisoned s sh sh.scalarReader x.home n = true ∧
      access s y.arch.grant y.arch.csr y.arch.sup (y.arch.at_ a o).toNat n kind n = .ok x)) ∧
  (kind = kWrite → resvFits y.sheaves (reserve y.arch.grant.scalarQuarter 1 []) = true)

theorem traps_of_loadOp {i : Instr} {d a : BitVec 5} {o : BitVec 13} {n c : Nat} {signed : Bool} (he : ∀ s, exec i s = loadOp s d a o n signed) :
    Traps i [d.toNat, a.toNat] (AccessFails a o n kRead c) c 0 (fun r => r.at_ a o) := by
  refine traps_of_raiseAt fun s y hr hfails hl => ?_
  obtain ⟨sh, hl⟩ := hl
  have hc : ({ y with bq := y.bqAfter [d.toNat, a.toNat] } : Hart).cur = some sh := hl.cur
  rw [he, loadOp, withHart_canRun hr]
  rcases hfails.1 with hacc | ⟨rfl, -, x, sh', hcur, hpois, hacc⟩
  · change access s y.arch.grant y.arch.csr y.arch.sup (y.arch.rx a.toNat + o.signExtend 64).toNat n kRead n = _ at hacc
    simp only [hc, hacc]
    rfl
  · obtain rfl : sh = sh' := Option.some.inj (hl.cur.symm.trans hcur)
    change access s y.arch.grant y.arch.csr y.arch.sup (y.arch.rx a.toNat + o.signExtend 64).toNat n kRead n = _ at hacc
    simp only [hc, hacc, hpois, if_true]
    rfl

theorem traps_of_storeOp {i : Instr} {d a : BitVec 5} {o : BitVec 13} {n c : Nat} (he : ∀ s, exec i s = storeOp s d a o n) :
    Traps i [d.toNat, a.toNat] (AccessFails a o n kWrite c) c 1 (fun r => r.at_ a o) := by
  refine traps_of_raiseAt fun s y hr hfails hl => ?_
  obtain ⟨sh, hl⟩ := hl
  obtain ⟨hfail, hresv⟩ := hfails
  have hc : ({ y with bq := y.bqAfter [d.toNat, a.toNat] } : Hart).cur = some sh := hl.cur
  have hacc := hfail.resolve_right fun h => absurd h.2.1 (by decide)
  change access s y.arch.grant y.arch.csr y.arch.sup (y.arch.rx a.toNat + o.signExtend 64).toNat n kWrite n = _ at hacc
  rw [he, storeOp, withHart_canRun hr]
  simp only [hc, hresv rfl, hacc, Bool.not_true, Bool.false_eq_true, if_false]
  rfl

/-- Settles O9: loads and stores raise the trap of the check that fails. -/
theorem scalarAccessTraps : Obligations.ScalarAccessTraps := by
  intro d a o fails c
  exact ⟨traps_of_loadOp (exec_ldsB d a o), traps_of_loadOp (exec_ldsH d a o), traps_of_loadOp (exec_ldsW d a o), traps_of_loadOp (exec_ldsD d a o),
    traps_of_loadOp (exec_ldsBu d a o), traps_of_loadOp (exec_ldsHu d a o), traps_of_loadOp (exec_ldsWu d a o),
    traps_of_storeOp (exec_stsB d a o), traps_of_storeOp (exec_stsH d a o), traps_of_storeOp (exec_stsW d a o), traps_of_storeOp (exec_stsD d a o)⟩

end Sys2Proof.Machine

/-! ### Scalar floating point (R39, R60, R62, R132 to R134) -/

namespace Sys2Proof.Machine

theorem Hart.Executed.arch_eq {y z : Hart} {rs : List Nat} {a : Arch} {sh : Sheaf} (h : y.Executed z rs a sh) : z.arch = a := by
  rw [h]

/-- An instruction of the scalar side that retires with the registers and CSRs `a` has executed. -/
theorem executed_of_retire {s : State} {y : Hart} {rs : List Nat} (hr : s.CanRun rs y) {i : Instr} {a : Arch}
    (he : exec i s = .next (s.retire s.cur (({ y with bq := y.bqAfter rs } : Hart).withArch a))) :
    ∃ t z sh, exec i s = .next t ∧ s.Alone t ∧ t.hart s.cur = some z ∧ y.cur = some sh ∧ y.Executed z rs a sh := by
  obtain ⟨x, hx, hy, -⟩ := hr
  obtain ⟨sh, hc, -⟩ := Hart.ready_cur hy
  obtain ⟨halone, z, hz, hd⟩ := retire_executed (s := s) (y := y) (rs := rs) (a := a) (sh' := sh)
    (x := ({ y with bq := y.bqAfter rs } : Hart).withArch a) s.free .nothing rfl hc
  exact ⟨_, z, sh, he, halone, hz, hc, hd⟩

/-- The generator after a function that takes a draw where it `rounds` under SR (R58, R60). -/
def seedAfter (rounds : Bool) (mode : Nat) (seed : W64) : W64 := if rounds = true ∧ mode = 4 then srStep seed else seed

theorem draw_seed (mode : Nat) (seed : W64) : (draw mode seed).2 = seedAfter true mode seed := by
  by_cases h : mode = 4 <;> simp [draw, seedAfter, h]

/-- What a function gives, as R132 states it: its code or integer and its flags for a draw, and one step of the generator where it rounds under SR. -/
def FpGives (rounds : Bool) (g : Nat → W64 → Arch → FpOut) (f : Nat → Nat → Arch → Nat × Nat) : Prop :=
  ∀ mode seed r, g mode seed r =
    { val := (f mode (draw mode seed).1 r).1, fl := (f mode (draw mode seed).1 r).2, seed := seedAfter rounds mode seed }

/-- The flags of an operation with those of its rounding, which counts only where the operation was valid (R61). -/
def roundFlags (x : FV × Nat) (fl : Nat) : Nat := fOr x.2 (if x.2 &&& fNV ≠ 0 then 0 else fl)

theorem fpGives_round (t : Fmt) (h : Nat → Arch → FV × Nat) :
    FpGives true (fun mode seed r => FpOut.round t mode seed (h mode r)) fun mode u r =>
      ((roundTo t mode false u (h mode r).1).1, roundFlags (h mode r) (roundTo t mode false u (h mode r).1).2) := by
  intro mode seed r
  rw [← draw_seed]
  rfl

theorem fpGives_toInt (signed : Bool) (h : Arch → FV) :
    FpGives true (fun mode seed r => FpOut.toInt signed mode seed (h r)) fun mode u r =>
      ((BitVec.ofInt 64 (toIntFV 64 signed mode u (h r)).1).toNat, (toIntFV 64 signed mode u (h r)).2) := by
  intro mode seed r
  simp only [FpOut.toInt, wrap, ← draw_seed, BitVec.toNat_ofInt]

theorem fpGives_plain (h : Arch → Nat × Nat) : FpGives false (fun _ seed r => FpOut.plain seed (h r)) fun _ _ r => h r :=
  fun _ _ _ => rfl

theorem fpGives_compare (h : Arch → Bool × Nat) :
    FpGives false (fun _ seed r => FpOut.plain seed (if (h r).1 then 1 else 0, (h r).2)) fun _ _ r => ((h r).1.toNat, (h r).2) := by
  intro mode seed r
  cases hb : (h r).1 <;> simp [FpOut.plain, seedAfter, hb]

/-- To the nearest the draw does not count. -/
theorem roundTo_nearest_draw (t : Fmt) (sat : Bool) (u u' : Nat) (x : FV) : roundTo t 0 sat u x = roundTo t 0 sat u' x := by
  have hat (neg : Bool) (m : Nat) (e : Int) (st : Bool) (q : Int) : roundAt 0 u neg m e st q = roundAt 0 u' neg m e st q := by
    simp only [roundAt]
  cases x with
  | nan sig => rfl
  | inf neg => rfl
  | fin neg m e st => simp only [roundTo, hat]

/-- FP64 to FP32 rounds, and FP32 to FP64, which is exact, takes no draw. -/
theorem fpGives_cvtOther (p : BitVec 1) (t : Fmt) (h : Arch → FV × Nat) :
    FpGives (decide (p = 0#1)) (fun mode seed r => FpOut.round t (if p = 0#1 then mode else 0) seed (h r)) fun mode u r =>
      ((roundTo t (if p = 0 then mode else 0) false u (h r).1).1, roundFlags (h r) (roundTo t (if p = 0 then mode else 0) false u (h r).1).2) := by
  intro mode seed r
  by_cases hp : p = 0
  · subst hp
    exact fpGives_round t (fun _ => h) mode seed r
  · have hp' : ¬ p = 0#1 := hp
    simp only [FpOut.round, roundStep, if_neg hp, if_neg hp', decide_eq_false hp', roundTo_nearest_draw t false (draw mode seed).1 (draw 0 seed).1]
    rfl

/-- What O43 says of one FPS instruction. -/
def FpsDone (d : Reg) (i : Instr) (rs : List Nat) (rounds : Bool) (f : Nat → Nat → Arch → Nat × Nat) : Prop :=
  ∀ s y, s.CanRun (d.toNat :: rs) y →
    let mode := frm y.arch.csr
    let seed := y.arch.rcsr cSRSEED
    let r := f mode (draw mode seed).1 y.arch
    (rounds = true → mode = 4 → y.queue = []) → r.2 &&& fen y.arch.csr = 0 →
    ∃ t z sh, exec i s = .next t ∧ s.Alone t ∧ t.hart s.cur = some z ∧ y.cur = some sh ∧
      y.Executed z (d.toNat :: rs) z.arch sh ∧
      z.arch = { (y.arch.wx d.toNat (BitVec.ofNat 64 r.1)).next with csr := z.arch.csr } ∧
      ∀ n, z.arch.rcsr n = if n = cFCSR then y.arch.rcsr cFCSR ||| BitVec.ofNat 64 (r.2 % 32)
        else if n = cSRSEED ∧ rounds = true ∧ mode = 4 then srStep seed else y.arch.rcsr n

/-- The registers and CSRs after an FPS function that gives `out` (R39, R62, R132). -/
def Arch.afterFps (a : Arch) (d : Nat) (out : FpOut) : Arch :=
  (((a.wx d (BitVec.ofNat 64 out.val)).orFlags out.fl).wcsr cSRSEED out.seed).next

theorem Arch.rcsr_afterFps (a : Arch) (d : Nat) (out : FpOut) (n : Nat) :
    (a.afterFps d out).rcsr n = if n = cFCSR then a.rcsr cFCSR ||| BitVec.ofNat 64 (out.fl % 32) else if n = cSRSEED then out.seed else a.rcsr n := by
  rw [Arch.afterFps, Arch.rcsr_next, Arch.rcsr_wcsr, Arch.orFlags, Arch.rcsr_wcsr, Arch.rcsr_wx, Arch.rcsr_wx]
  by_cases hf : n = cFCSR
  · rw [if_pos hf, if_pos hf, if_neg (by rw [hf]; decide)]
  · rw [if_neg hf, if_neg hf]

theorem fpsDone_of_fpsOp {d : Reg} {i : Instr} {rs : List Nat} {rounds : Bool} {g : Nat → W64 → Arch → FpOut} {f : Nat → Nat → Arch → Nat × Nat}
    (he : ∀ s, exec i s = fpsOp s d rs rounds g) (hg : FpGives rounds g f) : FpsDone d i rs rounds f := by
  intro s y hr mode seed r hqueue hfen
  have hout : g mode seed y.arch = { val := r.1, fl := r.2, seed := seedAfter rounds mode seed } := hg ..
  have hstall : (rounds && decide (mode = 4) && !y.queue.isEmpty) = false := by
    by_cases h : rounds = true ∧ mode = 4
    · simp [hqueue h.1 h.2]
    · simpa using fun h1 h2 => absurd ⟨h1, h2⟩ h
  have hexec : exec i s = .next (s.retire s.cur (({ y with bq := y.bqAfter (d.toNat :: rs) } : Hart).withArch
      (y.arch.afterFps d.toNat (g mode seed y.arch)))) := by
    rw [he, fpsOp, withHart_canRun hr]
    change Host.Outcome.next (if (rounds && decide (mode = 4) && !y.queue.isEmpty) = true then _
      else if (g mode seed y.arch).fl &&& fen y.arch.csr ≠ 0 then _ else _) = _
    rw [hstall, hout]
    simp only [hfen, Bool.false_eq_true, if_false, ne_eq, not_true_eq_false]
    rfl
  obtain ⟨t, z, sh, ht, halone, hz, hcur, hdone⟩ := executed_of_retire hr hexec
  have harch := hdone.arch_eq
  refine ⟨t, z, sh, ht, halone, hz, hcur, harch.symm ▸ hdone, ?_, fun n => ?_⟩
  · rw [harch, hout]
    rfl
  · rw [harch, Arch.rcsr_afterFps, hout]
    by_cases hseed : n = cSRSEED
    · subst hseed
      by_cases hdraw : rounds = true ∧ mode = 4 <;> simp [seedAfter, hdraw, seed]
    · simp [hseed]

/-- Settles O43: each function gives its code or integer, its flags and its draw. -/
theorem scalarFloats : Obligations.ScalarFloats := by
  intro d a b p fps t o code val round toInt ab
  have done {i rs rounds g f} (he : ∀ s, exec i s = fpsOp s d rs rounds g) (hg : FpGives rounds g f) : fps i rs rounds f := fpsDone_of_fpsOp he hg
  exact ⟨done (exec_fpsAdd d a b p) (fpGives_round t fun m r => sumFV m [val r a, val r b]),
    done (exec_fpsSub d a b p) (fpGives_round t fun m r => sumFV m [val r a, (val r b).negate]),
    done (exec_fpsMul d a b p) (fpGives_round t fun _ r => mulFV (val r a) (val r b)),
    done (exec_fpsDiv d a b p) (fpGives_round t fun _ r => divFV (val r a) (val r b)),
    done (exec_fpsSqrt d a p) (fpGives_round t fun _ r => sqrtFV (val r a)),
    done (exec_fpsFma d a b p) (fpGives_round t fun m r => fmaFV m (val r a) (val r b) (val r d)),
    done (exec_fpsMin d a b p) (fpGives_plain fun r => minmax t false (code t r a) (code t r b)),
    done (exec_fpsMax d a b p) (fpGives_plain fun r => minmax t true (code t r a) (code t r b)),
    done (exec_fpsCvtOther d a p) (fpGives_cvtOther p t fun r => (o.decode (code o r a), if (o.decode (code o r a)).isSig then fNV else 0)),
    done (exec_fpsCvtFromint d a p) (fpGives_round t fun _ r => (ofIntFV (r.r a).toInt, 0)),
    done (exec_fpsCvtFromuint d a p) (fpGives_round t fun _ r => (ofIntFV (r.r a).toNat, 0)),
    done (exec_fpsCvtToint d a p) (fpGives_toInt true fun r => val r a),
    done (exec_fpsCvtTouint d a p) (fpGives_toInt false fun r => val r a),
    done (exec_fpsCmpEq d a b p) (fpGives_compare fun r => relate t 0 (code t r a) (code t r b)),
    done (exec_fpsCmpLt d a b p) (fpGives_compare fun r => relate t 1 (code t r a) (code t r b)),
    done (exec_fpsCmpLe d a b p) (fpGives_compare fun r => relate t 2 (code t r a) (code t r b)),
    done (exec_fpsClass d a p) (fpGives_plain fun r => (classOf t (code t r a), 0)),
    done (exec_fpsMvCopy d a p) (fpGives_plain fun r => moveSign t 0 (code t r a)),
    done (exec_fpsMvNeg d a p) (fpGives_plain fun r => moveSign t 1 (code t r a)),
    done (exec_fpsMvAbs d a p) (fpGives_plain fun r => moveSign t 2 (code t r a))⟩

end Sys2Proof.Machine

/-! ### What squashes and writes of agents leave alone (R272 to R276) -/

namespace Sys2Proof.Machine

/-- From `s` to `t` sheaves have been squashed and bytes of memory written: nothing else of the package has changed, the solo token is
where it was, and a hart without sheaves has not changed. -/
def State.Squashes (s t : State) : Prop :=
  t = { s with harts := t.harts, mem := t.mem, poison := t.poison, arb := t.arb, due := t.due } ∧ t.arb.token = s.arb.token ∧
  ∀ k, (s.hart k = none → t.hart k = none) ∧ ∀ x, s.Idle k x → t.Idle k x

namespace State.Squashes

variable {s t u : State}

theorem refl (s : State) : s.Squashes s := ⟨rfl, rfl, fun _ => ⟨id, fun _ => id⟩⟩

theorem trans (h : s.Squashes t) (h' : t.Squashes u) : s.Squashes u := by
  obtain ⟨e, ht, hh⟩ := h
  obtain ⟨e', ht', hh'⟩ := h'
  refine ⟨?_, ht'.trans ht, fun k => ⟨fun h => (hh' k).1 ((hh k).1 h), fun x h => (hh' k).2 x ((hh k).2 x h)⟩⟩
  rw [e', e]

theorem now (h : s.Squashes t) : t.now = s.now := by rw [h.1]
theorem cur (h : s.Squashes t) : t.cur = s.cur := by rw [h.1]
theorem stamp (h : s.Squashes t) : t.stamp = s.stamp := by rw [h.1]
theorem mg (h : s.Squashes t) : t.mg = s.mg := by rw [h.1]
theorem token (h : s.Squashes t) : t.arb.token = s.arb.token := h.2.1
theorem hart_none (h : s.Squashes t) {k : Nat} : s.hart k = none → t.hart k = none := (h.2.2 k).1
theorem idle (h : s.Squashes t) {k : Nat} {x : Hart} : s.Idle k x → t.Idle k x := (h.2.2 k).2 x

/-- A change that leaves every hart and the token where they are. -/
theorem of_harts (hs : t.harts = s.harts) (ht : t.arb.token = s.arb.token)
    (he : t = { s with harts := t.harts, mem := t.mem, poison := t.poison, arb := t.arb, due := t.due }) : s.Squashes t := by
  have hh : ∀ k, t.hart k = s.hart k := fun k => by rw [State.hart, hs]; rfl
  exact ⟨he, ht, fun k => ⟨fun h => (hh k).trans h, fun x h => h.of_hart_eq (hh k)⟩⟩

theorem arb (s : State) {a : Arbiter} (ha : a.token = s.arb.token) : s.Squashes { s with arb := a } := of_harts rfl ha rfl

theorem memory (s : State) (m : FMap Byte) (p : FMap Bool) : s.Squashes { s with mem := m, poison := p } := of_harts rfl rfl rfl

theorem traceSheaf (s : State) (h : Nat) (sh : Sheaf) (o c st : Nat) : s.Squashes (s.traceSheaf h sh o c st) := by
  obtain ⟨d, hd⟩ := s.traceSheaf_frame h sh o c st
  rw [hd]
  exact of_harts rfl rfl rfl

/-- A hart with sheaves may become any other. -/
theorem setHart {h : Nat} {x : Hart} (hx : s.hart h = some x) (hne : x.sheaves ≠ []) (y : Hart) : s.Squashes (s.setHart h y) := by
  refine ⟨rfl, rfl, fun k => ?_⟩
  by_cases hk : k = h
  · subst hk
    exact ⟨fun hn => absurd (hx.symm.trans hn) (by simp), fun z hz => absurd (Option.some.inj (hz.1.symm.trans hx) ▸ hz.2) hne⟩
  · exact ⟨fun hn => (State.hart_setHart_ne s y hk).trans hn, fun z hz => hz.setHart y (Ne.symm hk)⟩

theorem updHart {h : Nat} {x : Hart} (hx : s.hart h = some x) (hne : x.sheaves ≠ []) (f : Hart → Hart) : s.Squashes (s.updHart h f) := by
  rw [State.updHart, hx]
  exact setHart hx hne _

theorem foldl {α : Type} (f : State → α → State) (hf : ∀ (t : State) a, t.Squashes (f t a)) (l : List α) (s : State) : s.Squashes (l.foldl f s) :=
  foldl_keeps (P := fun t => s.Squashes t) f l s (refl s) fun t a _ ht => ht.trans (hf t a)

end State.Squashes

theorem Arbiter.token_dropSlices (a : Arbiter) (h : Nat) : (a.dropSlices h).token = a.token := rfl

theorem Arbiter.token_ask (a : Arbiter) (h : Nat) : (a.ask h).token = a.token := by
  unfold Arbiter.ask
  split <;> rfl

theorem State.Squashes.ask (s : State) (h : Nat) (p : Prop) [Decidable p] : s.Squashes (if p then { s with arb := s.arb.ask h } else s) := by
  split
  · exact .arb s (Arbiter.token_ask ..)
  · exact .refl s

theorem State.squash_squashes (s : State) (h i out : Nat) : s.Squashes (s.squash h i out) := by
  unfold State.squash
  split
  · exact .refl s
  · next x hx =>
    split
    · exact .refl s
    · next sh hsh =>
      have hne : x.sheaves ≠ [] := fun he => by rw [he] at hsh; cases hsh
      obtain ⟨hfold, hhart⟩ : s.Squashes ((x.sheaves.drop i).foldl (fun s y => s.traceSheaf h y out 0 0) s) ∧
          ((x.sheaves.drop i).foldl (fun s y => s.traceSheaf h y out 0 0) s).hart h = some x :=
        ⟨.foldl _ (fun t y => .traceSheaf t h y out 0 0) _ s,
          foldl_keeps (P := fun t : State => t.hart h = some x) _ _ s hx fun t y _ ht => (State.traceSheaf_hart ..).trans ht⟩
      generalize (x.sheaves.drop i).foldl (fun s y => s.traceSheaf h y out 0 0) s = t at hfold hhart
      simp only [hhart]
      have hdrop : t.Squashes { t with arb := if i = 0 ∨ i = x.front then t.arb.dropSlices h else t.arb } := .arb t (by split <;> rfl)
      have hset (y : Hart) : s.Squashes (({ t with arb := if i = 0 ∨ i = x.front then t.arb.dropSlices h else t.arb } : State).setHart h y) :=
        (hfold.trans hdrop).trans (State.Squashes.setHart (x := x) (by exact hhart) hne y)
      exact (hset _).trans (.ask ..)

theorem fillRangeWith_squashes {sq : Squasher} (hsq : ∀ (s : State) h p, s.Squashes (sq s h p)) (s : State) (g : Grant) (root : W64) (va len : Nat)
    (bytes : List (Nat × Byte)) : s.Squashes (fillRangeWith sq s g root va len bytes) := by
  refine .foldl _ (fun (t : State) p => ?_) _ s
  dsimp only
  split
  · exact .refl t
  · split
    · exact .arb t rfl
    · exact (State.Squashes.memory t _ _).trans (.foldl _ (fun (u : State) (e : Nat × Hart) => hsq u e.1 _) _ _)

theorem State.squashHeld_squashes {sq : Squasher} (hsq : ∀ (s : State) h p, s.Squashes (sq s h p)) {s : State} {h : Nat} {x : Hart}
    (hx : s.hart h = some x) (hne : x.sheaves ≠ []) (y : Hart) (sh : Sheaf) (k : Nat) : s.Squashes (State.squashHeld sq s h y sh k) := by
  have htrace := (State.traceSheaf_hart s h sh outSquash 0 0 h).trans hx
  exact ((State.Squashes.traceSheaf s h sh outSquash 0 0).trans (.updHart htrace hne _)).trans (fillRangeWith_squashes hsq ..)

theorem State.squashIfN_squashes (n : Nat) (s : State) (h : Nat) (p : Sheaf → Bool) : s.Squashes (State.squashIfN n s h p) := by
  induction n generalizing s h p with
  | zero => exact .refl s
  | succ n ih =>
    unfold State.squashIfN
    split
    · exact .refl s
    · next x hx =>
      split
      · exact .refl s
      · split
        · exact .refl s
        · split
          · next sh _ hsh =>
            have hne : x.sheaves ≠ [] := fun he => by rw [he] at hsh; cases hsh
            split
            · have hdrop : s.Squashes { s with arb := if 4 ≤ x.squash + 1 then (s.arb.dropSlices h).ask h else s.arb.dropSlices h } := .arb s (by
                split
                · exact Arbiter.token_ask _ _
                · rfl)
              exact (hdrop.trans (State.squashHeld_squashes ih (x := x) (by exact hx) hne _ _ _)).trans (ih ..)
            · exact State.squash_squashes ..
          · exact State.squash_squashes ..

theorem State.squashIf_squashes (s : State) (h : Nat) (p : Sheaf → Bool) : s.Squashes (s.squashIf h p) := State.squashIfN_squashes ..

theorem State.writeFrame_squashes (s : State) (a : Arch) (cnt : FMap W64) (sp sq cap : Nat) (r : W64) :
    s.Squashes (s.writeFrame a cnt sp sq cap r) := fillRangeWith_squashes State.squashIf_squashes ..

theorem State.squashOthers_squashes (s : State) (h : Nat) (w d : RecSet) : s.Squashes (s.squashOthers h w d) := by
  refine .foldl _ (fun (t : State) e => ?_) _ s
  split
  · exact .refl t
  · exact State.squashIf_squashes ..

theorem State.agentWrite_squashes (s : State) (home : Nat) (bs : List Byte) : s.Squashes (s.agentWrite home bs) := by
  unfold State.agentWrite
  split
  · exact .refl s
  · exact (State.Squashes.memory s _ _).trans (.foldl _ (fun t _ => .foldl _ (fun _ _ => State.squashIf_squashes ..) _ t) _ _)

theorem State.applyHeld_squashes (s : State) : s.Squashes s.applyHeld :=
  (State.Squashes.arb s rfl).trans (.foldl _ (fun _ _ => State.agentWrite_squashes ..) _ _)

/-- R271, R276: a hart that gives up its slices and the token changes the arbiter, and lets through what the token held. -/
theorem State.leaveArbiter_squashes (s : State) (h : Nat) : ∃ a, ({ s with arb := a } : State).Squashes (s.leaveArbiter h) := by
  unfold State.leaveArbiter
  split
  · exact ⟨_, State.applyHeld_squashes _⟩
  · exact ⟨_, .refl _⟩

end Sys2Proof.Machine

/-! ### A trap in supervisor mode ends the hart (R138, R312) -/

namespace Sys2Proof.Machine

/-- The hart has ended: it holds no work and waits for nothing. -/
def Hart.Over (x : Hart) : Prop := x.gone = true ∧ x.sheaves = [] ∧ x.queue = [] ∧ x.wait = .none

/-- From `s` to `t` nothing has been sent, and hart `h` is as absent or as ended as it was. -/
def State.LeavesEnded (s t : State) (h : Nat) : Prop :=
  t.mg = s.mg ∧ (s.hart h = none → t.hart h = none) ∧ ((∀ x, s.hart h = some x → x.Over) → ∀ x, t.hart h = some x → x.Over)

namespace State.LeavesEnded

variable {s t u : State} {h : Nat}

theorem refl (s : State) (h : Nat) : s.LeavesEnded s h := ⟨rfl, id, id⟩

theorem trans (a : s.LeavesEnded t h) (b : t.LeavesEnded u h) : s.LeavesEnded u h :=
  ⟨b.1.trans a.1, fun hn => b.2.1 (a.2.1 hn), fun ho => b.2.2 (a.2.2 ho)⟩

theorem of_harts (hm : t.mg = s.mg) (hs : t.harts = s.harts) : s.LeavesEnded t h := by
  have hh : t.hart h = s.hart h := by rw [State.hart, hs]; rfl
  exact ⟨hm, hh.trans, fun ho x hx => ho x (hh.symm.trans hx)⟩

theorem gangs (s : State) (g : FMap Gang) (h : Nat) : s.LeavesEnded { s with gangs := g } h := of_harts rfl rfl

theorem of_squashes (a : s.Squashes t) : s.LeavesEnded t h := by
  refine ⟨a.mg, a.hart_none, fun ho x hx => ?_⟩
  cases hs : s.hart h with
  | none => rw [a.hart_none hs] at hx; cases hx
  | some y =>
    have hy := (a.idle ⟨hs, (ho y hs).2.1⟩).1
    rw [Option.some.inj (hx.symm.trans hy)]
    exact ho y hs

theorem updHart (s : State) (h k : Nat) {f : Hart → Hart} (hf : ∀ x : Hart, x.Over → (f x).Over) : s.LeavesEnded (s.updHart k f) h := by
  refine ⟨by unfold State.updHart; split <;> rfl, ?_, ?_⟩
  · by_cases hk : h = k
    · subst hk; intro hn; rw [State.hart_updHart_self, hn]; rfl
    · rw [State.hart_updHart_ne _ _ hk]; exact id
  · by_cases hk : h = k
    · subst hk
      intro ho x hx
      rw [State.hart_updHart_self, Option.map_eq_some_iff] at hx
      obtain ⟨y, hy, rfl⟩ := hx
      exact hf y (ho y hy)
    · rw [State.hart_updHart_ne _ _ hk]; exact id

theorem foldl {α : Type} (f : State → α → State) (hf : ∀ (t : State) a, t.LeavesEnded (f t a) h) (l : List α) (s : State) :
    s.LeavesEnded (l.foldl f s) h :=
  foldl_keeps (P := fun t => s.LeavesEnded t h) f l s (refl s h) fun t a _ ht => ht.trans (hf t a)

end State.LeavesEnded

/-- Nothing wakes a hart that waits for nothing. -/
theorem Hart.wake_of_wait_none {x : Hart} (h : x.wait = .none) : x.wake = x := by
  simp [Hart.wake, h]

theorem Hart.Over.wake {x : Hart} (h : x.Over) : x.wake.Over := by
  rw [Hart.wake_of_wait_none h.2.2.2]
  exact h

theorem Hart.Over.setChan {x : Hart} (h : x.Over) (k : Nat) (c : Chan) : (x.setChan k c).Over := h

theorem State.launchEnded_leaves (s : State) (g : Gang) (normal : Bool) (h : Nat) : s.LeavesEnded (s.launchEnded g normal) h := by
  unfold State.launchEnded
  split
  · exact .refl s h
  · refine .updHart s h _ fun x hx => ?_
    split
    · exact hx
    · have hprog (n : Nat) : ({ x with noProg := n } : Hart).Over := hx
      dsimp only
      split
      · exact hprog _
      · split
        · exact (hprog _).setChan _ _
        · split
          · split
            · exact (hprog _).setChan _ _
            · exact ((hprog _).setChan _ _).wake
          · exact (hprog _).setChan _ _

theorem State.revokeGang_leaves (s : State) (ident h : Nat) : s.LeavesEnded (s.revokeGang ident) h := by
  refine .foldl _ (fun (t : State) (e : Nat × Option Registration) => ?_) _ s
  split
  · split
    · unfold State.revoke
      split
      · exact .refl t h
      · split
        · exact .of_harts rfl rfl
        · exact .refl t h
    · exact .refl t h
  · exact .refl t h

theorem State.updDie_leaves (s : State) (d : Nat) (f : DieRegs → DieRegs) (h : Nat) : s.LeavesEnded (s.updDie d f) h := by
  unfold State.updDie
  split
  · exact .of_harts rfl rfl
  · exact .refl s h

theorem State.releaseBarrier_leaves (s : State) (g h : Nat) : s.LeavesEnded (s.releaseBarrier g) h := by
  unfold State.releaseBarrier
  split
  · exact .refl s h
  · split
    · exact .refl s h
    · refine (State.LeavesEnded.gangs ..).trans (.foldl _ (fun (t : State) k => .updHart t h k fun x hx => ?_) _ _)
      split
      · exact hx
      · rw [hx.2.2.2]
        exact hx.wake

theorem State.gangLanded_leaves (s : State) (g h : Nat) : s.LeavesEnded (s.gangLanded g) h := by
  unfold State.gangLanded
  split
  · exact .refl s h
  · split
    · exact .of_harts rfl rfl
    · exact .refl s h

theorem State.leaveArbiter_leaves (s : State) (k h : Nat) : s.LeavesEnded (s.leaveArbiter k) h := by
  obtain ⟨a, ha⟩ := s.leaveArbiter_squashes k
  exact (State.LeavesEnded.of_harts (t := { s with arb := a }) rfl rfl).trans (.of_squashes ha)

/-- What is left of an end once the hart's errors are reported and its lanes are given up. -/
def State.endGang (s : State) (h gang : Nat) (normal : Bool) : State :=
  match ffind s.gangs gang with
  | none => s
  | some g =>
    let g := { g with live := g.live.erase h, arrived := g.arrived.erase h, normal := if normal then g.normal + 1 else g.normal }
    let s := s.launchEnded g normal
    if g.live.isEmpty then
      { (s.revokeGang g.ident).updDie g.die (fun r => r.gangDone g.queue) with gangs := fdel s.gangs gang }
    else (({ s with gangs := fins s.gangs gang g } : State).releaseBarrier gang).gangLanded gang

theorem State.endGang_leaves (s : State) (h gang : Nat) (normal : Bool) (k : Nat) : s.LeavesEnded (s.endGang h gang normal) k := by
  unfold State.endGang
  split
  · exact .refl s k
  · next g _ =>
    have hlaunch := s.launchEnded_leaves { g with live := g.live.erase h, arrived := g.arrived.erase h, normal := if normal then g.normal + 1 else g.normal }
      normal k
    dsimp only
    split
    · exact ((hlaunch.trans (State.revokeGang_leaves ..)).trans (State.updDie_leaves ..)).trans (.gangs ..)
    · exact ((hlaunch.trans (.gangs ..)).trans (State.releaseBarrier_leaves ..)).trans (State.gangLanded_leaves ..)

/-! The errors that no TLWAIT has delivered -/

/-- The channels of `y` hold no more work than those of `x`, but for which the harts are the same. -/
def Hart.ChansOf (x y : Hart) : Prop :=
  y = { x with chans := y.chans } ∧ ((∀ c ∈ x.chans, c.waiting = [] ∧ c.running = []) → ∀ c ∈ y.chans, c.waiting = [] ∧ c.running = [])

/-- What `reportErrors` has done on its way: reports of kind 3, and channels of the hart without their errors. -/
def State.Reported (s t : State) (h : Nat) (x : Hart) : Prop :=
  (∃ y, t.hart h = some y ∧ x.ChansOf y) ∧ ∃ more, t.mg.outbox = s.mg.outbox ++ more ∧ ∀ r ∈ more, r.1 = 3

theorem State.reportErrors_reported {s : State} {h : Nat} {x : Hart} (hx : s.hart h = some x) : s.Reported (s.reportErrors h x) h x := by
  refine foldl_keeps (P := fun t => s.Reported t h x) _ _ s ⟨⟨x, hx, rfl, id⟩, [], by simp⟩ fun t e he ht => ?_
  have hmem : e.2 ∈ x.chans := List.mem_of_getElem? ((mem_range_zip ..).1 he).2
  split
  · exact ht
  · next r _ =>
    obtain ⟨⟨y, hy, hchans, hidle⟩, more, hout, hkind⟩ := ht
    have hy' : (t.report 3 [BitVec.ofNat 64 h, BitVec.ofNat 64 e.1, BitVec.ofNat 64 r.id, BitVec.ofNat 64 r.applied, BitVec.ofNat 64 r.code]).hart h =
        some y := hy
    refine ⟨⟨_, by rw [State.hart_updHart_self, hy']; rfl, by rw [hchans]; rfl, fun hnone c hc => ?_⟩,
      more ++ [(3, [BitVec.ofNat 64 h, BitVec.ofNat 64 e.1, BitVec.ofNat 64 r.id, BitVec.ofNat 64 r.applied, BitVec.ofNat 64 r.code])], ?_, ?_⟩
    · rcases List.mem_or_eq_of_mem_set hc with hc | rfl
      · exact hidle hnone c hc
      · exact ⟨rfl, (hnone e.2 hmem).2⟩
    · rw [State.updHart, hy']
      exact (congrArg (· ++ _) hout).trans (List.append_assoc ..)
    · intro r hr
      rcases List.mem_append.1 hr with hr | hr
      · exact hkind r hr
      · rw [List.mem_singleton.1 hr]

theorem Hart.ended_over (x : Hart) : x.ended.Over := ⟨rfl, rfl, rfl, rfl⟩

/-- The end of a hart without sheaves: it is gone where no command of it is under way, and reports of kind 3 are sent (R138). -/
theorem State.endHart_ends {s : State} {h : Nat} {x : Hart} (hx : s.hart h = some x) (hsh : x.sheaves = []) (normal : Bool) :
    (∀ z, (s.endHart h normal).hart h = some z → z.Over) ∧
      ((∀ c ∈ x.chans, c.waiting = [] ∧ c.running = []) → (s.endHart h normal).hart h = none) ∧
      ∃ more, (s.endHart h normal).mg.outbox = s.mg.outbox ++ more ∧ ∀ r ∈ more, r.1 = 3 := by
  obtain ⟨⟨y, hy, -, hidle⟩, more, hout, hkind⟩ := State.reportErrors_reported hx
  let r := s.reportErrors h x
  let d : State := { r with harts := if y.commands then fins r.harts h y.ended else fdel r.harts h }
  let u : State := (d.leaveArbiter h).freeLines h
  let v : State := { u with cur := if u.cur = h then (match u.harts.find? (fun e => !e.2.gone) with | some e => e.1 | none => u.nextHart) else u.cur }
  have hend : s.endHart h normal = v.endGang h x.gang normal := by
    have hy' : (s.reportErrors h x).hart h = some y := hy
    unfold State.endHart
    simp only [hx, hsh, List.foldl_nil, hy', Option.getD_some]
    rfl
  have hleaves : d.LeavesEnded (s.endHart h normal) h := by
    rw [hend]
    exact (((State.leaveArbiter_leaves d h h).trans (.of_harts (t := u) rfl rfl)).trans (.of_harts (t := v) rfl rfl)).trans (State.endGang_leaves ..)
  have hover : ∀ z, d.hart h = some z → z.Over := by
    intro z hz
    change ffind (if y.commands then fins r.harts h y.ended else fdel r.harts h) h = some z at hz
    split at hz
    · rw [ffind_fins_self] at hz
      exact Option.some.inj hz ▸ y.ended_over
    · rw [ffind_fdel, if_pos rfl] at hz
      cases hz
  refine ⟨hleaves.2.2 hover, fun hnone => hleaves.2.1 ?_, more, by rw [hleaves.1]; exact hout, hkind⟩
  have hcommands : y.commands = false := by
    rw [Hart.commands, List.any_eq_false]
    intro c hc
    obtain ⟨hw, hr⟩ := hidle hnone c hc
    simp [hw, hr]
  change ffind (if y.commands then fins r.harts h y.ended else fdel r.harts h) h = none
  rw [hcommands, if_neg Bool.false_ne_true, ffind_fdel, if_pos rfl]

/-- R312: a double trap sends both records and ends the hart. -/
theorem State.doubleTrap_ends {s : State} {h : Nat} {x : Hart} (hx : s.hart h = some x) (t : Trap) :
    (∀ z, (s.doubleTrap h x t).hart h = some z → z.Over) ∧
      ((∀ c ∈ x.chans, c.waiting = [] ∧ c.running = []) → (s.doubleTrap h x t).hart h = none) ∧
      ∃ more, (s.doubleTrap h x t).mg.outbox = s.mg.outbox ++
        (1, [BitVec.ofNat 64 h] ++ x.secondRecord t ++ (List.range 8).map (fun i => x.arch.rcsr (0x300 + i))) :: more ∧ ∀ r ∈ more, r.1 = 3 := by
  obtain ⟨u, hu, huh, hum⟩ : ∃ u, x.sheaves.foldl (fun s y => s.traceSheaf h y outTrap t.cause 0) s = u ∧ u.hart h = some x ∧ u.mg = s.mg := by
    refine ⟨_, rfl, ?_⟩
    refine foldl_keeps (P := fun u : State => u.hart h = some x ∧ u.mg = s.mg) _ _ s ⟨hx, rfl⟩ fun u y _ hu => ?_
    exact ⟨(State.traceSheaf_hart ..).trans hu.1, (State.Squashes.traceSheaf u h y outTrap t.cause 0).mg.trans hu.2⟩
  let record := [BitVec.ofNat 64 h] ++ x.secondRecord t ++ (List.range 8).map (fun i => x.arch.rcsr (0x300 + i))
  have hdouble : s.doubleTrap h x t = ((u.report 1 record).updHart h (fun y => { y with sheaves := [] })).endHart h false := by
    rw [State.doubleTrap, hu]
  have hreport : (u.report 1 record).hart h = some x := huh
  have hhart : ((u.report 1 record).updHart h (fun y => { y with sheaves := [] })).hart h = some { x with sheaves := [] } := by
    rw [State.hart_updHart_self, hreport]
    rfl
  obtain ⟨hover, hnone, more, hout, hkind⟩ := State.endHart_ends hhart rfl false
  rw [hdouble]
  refine ⟨hover, hnone, more, hout.trans ?_, hkind⟩
  rw [State.updHart, hreport]
  show (u.mg.outbox ++ [(1, record)]) ++ more = _
  rw [hum, List.append_assoc]
  rfl

/-! Raised in supervisor mode -/

/-- The trap of a hart with one sheaf and nothing queued lands as its hart settles. -/
theorem State.settle_eq_landTrap {s : State} {h : Nat} {x : Hart} {sh : Sheaf} {t : Trap} (hx : s.hart h = some x) (hahead : x.ahead = false)
    (hheld : x.held = none) (hq : x.queue = []) (hsh : x.sheaves = [sh]) (ht : sh.trap = some t) (hwant : sh.want = none)
    (hpre : x.preempted = false) : s.settle h = s.landTrap h t false := by
  have hpark : x.parkReady = false := by simp [Hart.parkReady, hsh, hwant]
  have hready : x.landReady = some t := by simp [Hart.landReady, hheld, hsh, ht, hq, hpre, hwant]
  simp [State.settle, State.conclude, State.tryLand, hx, hahead, hpark, hready, hheld]

/-- An instruction that raises its trap on a supervisor's hart traps twice. -/
theorem doubleTraps_of_raiseAt {i : Instr} {rs : List Nat} {p : State → Hart → Prop} {cause kind : Nat} {tval : Arch → W64}
    (he : ∀ s y, s.CanRun rs y → y.arch.sup = true → y.queue = [] → p s y →
      exec i s = .next (s.raiseAt s.cur ({ y with bq := y.bqAfter rs } : Hart) cause kind (tval y.arch))) :
    DoubleTraps i rs p cause kind tval := by
  intro s y sh hr hsup hahead hheld hq hsh htrap hwant hpre hp
  let t := plainTrap cause kind y.arch.pc (tval y.arch) sh.seq
  let w : Hart := { y with bq := y.bqAfter rs, sheaves := [{ sh with trap := some t }], blocked := true, onLoad := [] }
  let u : State := (s.setHart s.cur w).tick 1
  have hw : u.hart s.cur = some (w.tick 1) := State.hart_setHart_tick ..
  have hraise : s.raiseAt s.cur ({ y with bq := y.bqAfter rs } : Hart) cause kind (tval y.arch) = u.doubleTrap s.cur (w.tick 1) t := by
    have hhold : ({ ({ y with bq := y.bqAfter rs } : Hart).holdTrap t with blocked := true, onLoad := [] } : Hart) = w := by
      simp [Hart.holdTrap, Hart.cur, hsh, htrap, Hart.setCur, w]
    have hseq : ({ y with bq := y.bqAfter rs } : Hart).seqNow = sh.seq := by simp [Hart.seqNow, Hart.cur, hsh]
    have hsettle : u.settle s.cur = u.landTrap s.cur t false :=
      State.settle_eq_landTrap hw ((Hart.tick_ahead ..).trans hahead) ((Hart.tick_held ..).trans hheld) ((Hart.tick_queue ..).trans hq)
        (Hart.tick_sheaves ..) rfl hwant (by rw [Hart.preempted, Hart.tick_preempt, Hart.tick_landing]; exact hpre)
    have hsup' : (w.tick 1).arch.sup = true := by rw [Hart.tick_arch]; exact hsup
    rw [State.raiseAt, hseq, State.raise, hhold, hsettle, State.landTrap, hw]
    simp only [hsup', if_true]
  obtain ⟨hover, hnone, more, hout, hkind⟩ := State.doubleTrap_ends hw t
  refine ⟨_, more, (he s y hr hsup hq hp).trans (congrArg _ hraise), fun z hz => ?_, fun hc => hnone (by rw [Hart.tick_chans]; exact hc), ?_, hkind⟩
  · obtain ⟨hgone, hsheaves, hqueue, -⟩ := hover z hz
    exact ⟨hgone, hsheaves, hqueue⟩
  · rw [hout]
    simp [Hart.secondRecord, Hart.cur, Hart.tick_sheaves, Hart.tick_arch, Trap.tcause, t, plainTrap, w, u]

end Sys2Proof.Machine

/-! ### CSR instructions (R44, R58, R135, R136, R310) -/

namespace Sys2Proof.Machine

/-- A CSR instruction writes: WR always, SET and CLR with a source register, RD never (R83, R135). -/
def csrDoesWrite (op : Option CsrOp) (a : BitVec 5) : Bool :=
  match op with | some o => csrWrites o a | none => false

/-- The value that the instruction writes, where it does. -/
def csrValue (s : State) (y : Hart) (op : Option CsrOp) (d a : BitVec 5) (n : Nat) : W64 :=
  match op with | none => csrOld s y d a n | some o => csrAsked s y o d a n

theorem csrDoesWrite_iff (op : Option CsrOp) (a : BitVec 5) : csrDoesWrite op a = true ↔ op = some .wr ∨ (op ≠ none ∧ a ≠ 0) := by
  rcases op with _ | _ | _ | _ <;> simp [csrDoesWrite, csrWrites]

theorem csrDoesWrite_some_iff (o : CsrOp) (a : BitVec 5) : csrDoesWrite (some o) a = true ↔ o = .wr ∨ a ≠ 0 := by
  rw [csrDoesWrite_iff]
  simp

/-- R44: the map does not give the access to the mode. -/
def csrDenied (sup : Bool) (op : Option CsrOp) (a : BitVec 5) (n : Nat) : Bool :=
  !csrListed n || (csrSup n && !sup) || (csrDoesWrite op a && !csrWritable sup n)

/-- The word of a CSR instruction (R83). -/
def csrWord (op : Option CsrOp) (d a : BitVec 5) (n : Nat) : W32 := packI 20#6 d a (csrCode op ++ BitVec.ofNat 12 n)

section
variable {s : State} {y : Hart} {op : Option CsrOp} {d a : BitVec 5} {n : Nat}

/-- An access that the map denies, or a value that the CSR's own rule rejects, is ILL. -/
theorem csrOp_refused (hr : s.CanRun [d.toNat, a.toNat] y) (hq : y.queue = [])
    (h : csrDenied y.arch.sup op a n = true ∨ (csrDoesWrite op a = true ∧ csrAccepts y.arch.grant n (csrValue s y op d a n) = false)) :
    csrOp s op d a n = .next (s.ill s.cur ({ y with bq := y.bqAfter [d.toNat, a.toNat] } : Hart) (csrWord op d a n)) := by
  by_cases hden : csrDenied y.arch.sup op a n = true
  · unfold csrOp
    rw [withHart_canRun hr]
    exact congrArg Host.Outcome.next (if_pos hden)
  · obtain ⟨hw, hacc⟩ := h.resolve_left hden
    rcases op with _ | o
    · cases hw
    · unfold csrOp
      rw [withHart_canRun hr]
      have hw' : ¬ (!csrWrites o a) = true := by simpa [csrDoesWrite] using hw
      have hacc' : (!csrAccepts y.arch.grant n (csrNew o (csrOld s y d a n) (y.arch.rx a.toNat))) = true := by
        rw [Bool.not_eq_true']
        exact hacc
      exact congrArg Host.Outcome.next ((if_neg hden).trans ((if_neg (by simp [hq])).trans ((if_neg hw').trans (if_pos hacc'))))

/-- The registers and CSRs after a CSR instruction that the map allows: the old value in xd, and the value that it writes (R135). -/
def csrArch (s : State) (y : Hart) (op : Option CsrOp) (d a : BitVec 5) (n : Nat) : Arch :=
  ((if csrDoesWrite op a then y.arch.writeCsr n (csrValue s y op d a n) else y.arch).wx d.toNat (csrOld s y d a n)).next

/-- An access that the map and the CSR's rule allow, that need not wait and asks for no action of ZSTATE, completes. -/
theorem csrOp_done (hr : s.CanRun [d.toNat, a.toNat] y) (hden : csrDenied y.arch.sup op a n = false)
    (hacc : csrDoesWrite op a = true → csrAccepts y.arch.grant n (csrValue s y op d a n) = true)
    (hact : csrDoesWrite op a = true → n = cZSTATE → bits (csrValue s y op d a n).toNat 3 2 = 0)
    (hq : n = cFCSR ∨ n = cSRSEED ∨ n = cZSTATE → y.queue = []) :
    csrOp s op d a n = .next (s.retire s.cur (({ y with bq := y.bqAfter [d.toNat, a.toNat] } : Hart).withArch (csrArch s y op d a n))) := by
  have hdenied : ¬ csrDenied y.arch.sup op a n = true := by simp [hden]
  have hwait : ¬ ((csrReadWaits n || (csrDoesWrite op a && (decide (n = cSRSEED) || decide (n = cZSTATE)))) && !y.queue.isEmpty) = true := by
    intro h
    simp only [csrReadWaits, Bool.and_eq_true, Bool.or_eq_true, decide_eq_true_eq, Bool.not_eq_true', List.isEmpty_eq_false_iff] at h
    exact h.2 (hq (by tauto))
  unfold csrOp
  rw [withHart_canRun hr]
  refine congrArg Host.Outcome.next ((if_neg hdenied).trans ((if_neg hwait).trans ?_))
  by_cases hw : csrDoesWrite op a = true
  · rcases op with _ | o
    · cases hw
    · have hw' : ¬ (!csrWrites o a) = true := by simpa [csrDoesWrite] using hw
      have hacc' : ¬ (!csrAccepts y.arch.grant n (csrNew o (csrOld s y d a n) (y.arch.rx a.toNat))) = true := by
        rw [Bool.not_eq_true', Bool.not_eq_false]
        exact hacc hw
      have hact' : n = cZSTATE → bits (csrNew o (csrOld s y d a n) (y.arch.rx a.toNat)).toNat 3 2 = 0 := hact hw
      have hdrain : ¬ (decide (n = cZSTATE) && decide (bits (csrNew o (csrOld s y d a n) (y.arch.rx a.toNat)).toNat 3 2 ≠ 0) &&
          (y.bqAfter [d.toNat, a.toNat]).any (fun b => !b.here)) = true := by
        simpa using fun hz hb => absurd (hact' hz) hb
      refine (if_neg hw').trans ((if_neg hacc').trans ((if_neg hdrain).trans ((if_neg fun h => h.2 (hact' h.1)).trans ?_)))
      rw [csrArch, if_pos hw]
      rfl
  · have hread : (!csrDoesWrite op a) = true := by simp [hw]
    refine (if_pos hread).trans ?_
    rw [csrArch, if_neg hw]
    rfl

end

/-! What the refusals say -/

section
variable {i : Instr} {d a : BitVec 5} {n : Nat} {word : W64}

/-- An access that is not allowed traps ILL in user mode. -/
theorem csr_traps {op : Option CsrOp} {p : State → Hart → Prop} (he : ∀ s, exec i s = csrOp s op d a n)
    (hw : (csrWord op d a n).setWidth 64 = word)
    (hp : ∀ s y, y.arch.sup = false → p s y → csrDenied false op a n = true ∨
      (csrDoesWrite op a = true ∧ csrAccepts y.arch.grant n (csrValue s y op d a n) = false)) :
    Traps i [d.toNat, a.toNat] p 0x01 0 fun _ => word := by
  refine traps_of_raiseAt fun s y hr hpy hl => ?_
  obtain ⟨sh, hl⟩ := hl
  obtain ⟨-, -, -, hq, -⟩ := id hl
  rw [he, csrOp_refused hr hq (by rw [hl.user]; exact hp s y hl.user hpy), State.ill, hw]

/-- An access that is not allowed is a double trap in supervisor mode. -/
theorem csr_doubleTraps {op : Option CsrOp} {p : State → Hart → Prop} (he : ∀ s, exec i s = csrOp s op d a n)
    (hw : (csrWord op d a n).setWidth 64 = word)
    (hp : ∀ s y, p s y → csrDenied true op a n = true ∨
      (csrDoesWrite op a = true ∧ csrAccepts y.arch.grant n (csrValue s y op d a n) = false)) :
    DoubleTraps i [d.toNat, a.toNat] p 0x01 0 fun _ => word := by
  refine doubleTraps_of_raiseAt fun s y hr hsup hq hpy => ?_
  rw [he, csrOp_refused hr hq (by rw [hsup]; exact hp s y hpy), State.ill, hw]

/-- What a writing CSR instruction is refused for (R44, R97). -/
theorem csrDenied_some {sup : Bool} {o : CsrOp} : csrDenied sup (some o) a n = true ↔
    csrListed n = false ∨ (csrSup n = true ∧ sup = false) ∨ ((o = .wr ∨ a ≠ 0) ∧ csrWritable sup n = false) := by
  rw [csrDenied, ← csrDoesWrite_some_iff]
  simp [or_assoc]

/-- SET, CLR and WR are refused in both modes as the obligation says. -/
theorem csrWrite_refused {o : CsrOp} (he : ∀ s, exec i s = csrOp s (some o) d a n) (hw : (csrWord (some o) d a n).setWidth 64 = word) :
    (Traps i [d.toNat, a.toNat]
      (fun s y => csrListed n = false ∨ csrSup n = true ∨
        ((o = .wr ∨ a ≠ 0) ∧ (csrWritable false n = false ∨ csrAccepts y.arch.grant n (csrAsked s y o d a n) = false))) 0x01 0 fun _ => word) ∧
    DoubleTraps i [d.toNat, a.toNat]
      (fun s y => csrListed n = false ∨
        ((o = .wr ∨ a ≠ 0) ∧ (csrWritable true n = false ∨ csrAccepts y.arch.grant n (csrAsked s y o d a n) = false))) 0x01 0 fun _ => word := by
  refine ⟨csr_traps he hw fun s y _ h => ?_, csr_doubleTraps he hw fun s y h => ?_⟩
  · rw [csrDenied_some, csrDoesWrite_some_iff]
    change _ ∨ _ ∧ csrAccepts y.arch.grant n (csrAsked s y o d a n) = false
    tauto
  · rw [csrDenied_some, csrDoesWrite_some_iff]
    change _ ∨ _ ∧ csrAccepts y.arch.grant n (csrAsked s y o d a n) = false
    tauto

end

/-- Settles O17. -/
theorem csrRefusals : Obligations.CsrRefusals := by
  intro d a c op t w word code writes user sup both
  have hcode (o : CsrOp) (n : Nat) : (csrWord (some o) d a n).setWidth 64 = ((encode (code o n)).getD 0).zeroExtend 64 := by
    cases o <;> rfl
  have hread : (csrWord none d 0 c.toNat).setWidth 64 = ((encode (.csrRd d c)).getD 0).zeroExtend 64 := by
    rw [csrWord, BitVec.ofNat_toNat, BitVec.setWidth_eq]
    rfl
  have row {i : Instr} {o : CsrOp} {n : Nat} (he : ∀ s, exec i s = csrOp s (some o) d a n) : both i o n := csrWrite_refused he (hcode o n)
  refine ⟨csr_traps (exec_csrRd d c) hread fun s y _ h => .inl ?_, csr_doubleTraps (exec_csrRd d c) hread fun s y h => .inl ?_,
    row (exec_csrWr d a c), row (exec_csrSet d a c), row (exec_csrClr d a c), row (exec_fcsrWrite op d a), row (exec_srseedWrite op d a),
    row (exec_btcfgWrite t op d a), row (exec_mskshapeWrite op d a), row (exec_docnWrite op d a), row (exec_zstateWrite op d a),
    row (exec_hstatusWrite op d a), row (exec_wpctlWrite w op d a)⟩
  · rcases h with h | h <;> simp [csrDenied, h]
  · have hlisted : csrListed c.toNat = false := h
    simp [csrDenied, hlisted]

end Sys2Proof.Machine

/-! ### What CSR instructions read and write (R10, R44, R58, R135, R136, R258, R310) -/

namespace Sys2Proof.Machine

/-! The map by rows (R44) -/

theorem mem_run {lo n k : Nat} : k ∈ (List.range n).map (lo + ·) ↔ lo ≤ k ∧ k < lo + n := by
  simp only [List.mem_map, List.mem_range]
  constructor
  · rintro ⟨i, hi, rfl⟩
    omega
  · rintro ⟨hlo, hhi⟩
    exact ⟨k - lo, by omega, by omega⟩

/-! What is stored -/

/-- What a CSR holds after a write of `v` that asks for no action (R10, R42, R58, R310). -/
def writtenCsr (a : Arch) (n : Nat) (v : W64) : W64 :=
  if n = cSRSEED then (if v = 0 then 1 else v)
  else if n = cHSTATUS then setBits (a.rcsr cHSTATUS) 0 0 v.toNat
  else if n = cZSTATE then v &&& 3 else v &&& csrMask n

theorem Arch.writeCsr_eq (a : Arch) {n : Nat} {v : W64} (hact : n = cZSTATE → bits v.toNat 3 2 = 0) :
    a.writeCsr n v = a.wcsr n (writtenCsr a n v) := by
  unfold Arch.writeCsr
  by_cases hh : n = cHSTATUS
  · subst hh
    rfl
  · rw [if_neg hh]
    by_cases hz : n = cZSTATE
    · rw [if_pos hz, if_pos (hact hz)]
      subst hz
      rfl
    · rw [if_neg hz, Arch.storeCsr_eq, storedCsr, writtenCsr, if_neg hh, if_neg hz]

theorem Arch.wx_wcsr (a : Arch) (d n : Nat) (w v : W64) : (a.wcsr n w).wx d v = (a.wx d v).wcsr n w := by
  unfold Arch.wx
  split <;> rfl

section
variable {s : State} {y : Hart} {op : Option CsrOp} {d a : BitVec 5} {n : Nat}

/-- The registers and CSRs of a CSR instruction that writes. -/
theorem csrArch_write (hw : csrDoesWrite op a = true) (hact : n = cZSTATE → bits (csrValue s y op d a n).toNat 3 2 = 0) :
    csrArch s y op d a n = ((y.arch.wx d.toNat (csrOld s y d a n)).wcsr n (writtenCsr y.arch n (csrValue s y op d a n))).next := by
  rw [csrArch, if_pos hw, Arch.writeCsr_eq y.arch hact, Arch.wx_wcsr]

theorem csrArch_read (hw : ¬ csrDoesWrite op a = true) : csrArch s y op d a n = (y.arch.wx d.toNat (csrOld s y d a n)).next := by
  rw [csrArch, if_neg hw]

/-- What R44 gives is not denied. -/
theorem csrDenied_eq_false {sup : Bool} (hl : csrListed n = true) (hs : csrSup n = true → sup = true)
    (hw : csrDoesWrite op a = true → csrWritable sup n = true) : csrDenied sup op a n = false := by
  rw [csrDenied, hl]
  simp only [Bool.not_true, Bool.false_or, Bool.or_eq_false_iff, Bool.and_eq_false_imp, Bool.not_eq_false']
  exact ⟨hs, hw⟩

end

/-- A CSR instruction does what the obligation says. -/
theorem csrDone {i : Instr} {op : Option CsrOp} {d a : BitVec 5} {n : Nat} (he : ∀ s, exec i s = csrOp s op d a n) : CsrDone i op d a n := by
  intro s y hr old v writes hlisted hsup hwritable haccepts hact hqueue
  have hwrites : csrDoesWrite op a = true ↔ writes := csrDoesWrite_iff op a
  have hv : v = csrValue s y op d a n := by cases op <;> rfl
  have hacc : csrDoesWrite op a = true → csrAccepts y.arch.grant n (csrValue s y op d a n) = true := fun h => hv ▸ haccepts (hwrites.1 h)
  have hact' : csrDoesWrite op a = true → n = cZSTATE → bits (csrValue s y op d a n).toNat 3 2 = 0 := fun h => hv ▸ hact (hwrites.1 h)
  obtain ⟨t, z, sh, ht, halone, hz, hcur, hexec⟩ := executed_of_retire hr (i := i)
    ((he s).trans (csrOp_done hr (csrDenied_eq_false hlisted hsup fun h => hwritable (hwrites.1 h)) hacc hact' hqueue))
  refine ⟨t, z, sh, ht, halone, hz, hcur, hexec.arch_eq.symm ▸ hexec, ?_⟩
  rw [hexec.arch_eq, hv]
  by_cases hw : csrDoesWrite op a = true
  · have hw' := hwrites.1 hw
    rw [csrArch_write hw (hact' hw)]
    refine ⟨rfl, fun k hk => ?_, fun h => absurd hw' h, fun _ => ?_⟩
    · rw [Arch.rcsr_next, Arch.rcsr_wcsr, if_neg hk, Arch.rcsr_wx]
    · rw [Arch.rcsr_next, Arch.rcsr_wcsr, if_pos rfl]
      rfl
  · rw [csrArch_read hw]
    exact ⟨rfl, fun k _ => Arch.rcsr_wx .., fun _ => Arch.rcsr_wx .., fun h => absurd (hwrites.2 h) hw⟩

/-! What is read -/

/-- The numbers of the elements of `l` that `p` holds of, as a set of bits. -/
def bitsOf {α : Type} (p : α → Bool) (l : List α) : Nat := ((List.range l.length).zip l).foldl (fun n e => if p e.2 then n + 2 ^ e.1 else n) 0

theorem bitsOf_append {α : Type} (p : α → Bool) (l : List α) (c : α) : bitsOf p (l ++ [c]) = bitsOf p l + if p c then 2 ^ l.length else 0 := by
  rw [bitsOf, List.length_append, List.length_singleton, List.range_succ, List.zip_append (by simp), List.foldl_append]
  change (if p c then bitsOf p l + 2 ^ l.length else bitsOf p l) = _
  split <;> rfl

theorem bitsOf_lt {α : Type} (p : α → Bool) (l : List α) : bitsOf p l < 2 ^ l.length := by
  induction l using List.reverseRecOn with
  | nil => simp [bitsOf]
  | append_singleton l c ih =>
    rw [bitsOf_append, List.length_append, List.length_singleton, pow_succ]
    split <;> omega

theorem testBit_bitsOf {α : Type} (p : α → Bool) (l : List α) {k : Nat} {c : α} (hk : l[k]? = some c) : (bitsOf p l).testBit k = p c := by
  induction l using List.reverseRecOn with
  | nil => simp at hk
  | append_singleton l b ih =>
    rw [bitsOf_append]
    rcases Nat.lt_or_ge k l.length with hlt | hge
    · rw [List.getElem?_append_left hlt] at hk
      rw [← ih hk]
      split
      · rw [Nat.add_comm, Nat.testBit_two_pow_add_gt hlt]
      · rfl
    · have hlen := (List.getElem?_eq_some_iff.1 hk).1
      rw [List.length_append, List.length_singleton] at hlen
      obtain rfl : k = l.length := by omega
      obtain rfl : b = c := by simpa using hk
      have hbit : (bitsOf p l).testBit l.length = false := Nat.testBit_lt_two_pow (bitsOf_lt p l)
      split
      · next h => rw [Nat.add_comm, Nat.testBit_two_pow_add_eq, hbit, h]; rfl
      · next h => simp [hbit, h]

theorem getLsbD_chanBits (x : Hart) (p : Chan → Bool) {k : Nat} {c : Chan} (hk : k < 64) (hc : x.chans[k]? = some c) :
    (chanBits x p).getLsbD k = p c := by
  rw [← testBit_bitsOf p x.chans hc]
  change (BitVec.ofNat 64 (bitsOf p x.chans)).getLsbD k = _
  rw [BitVec.getLsbD_ofNat, decide_eq_true hk, Bool.true_and]

/-- The read of a CSR that the map keeps with the registers. -/
theorem readCsr_stored (s : State) (x : Hart) {n : Nat} (hvcp : n ≠ cVCP) (hcount : n < 0x500 ∧ n ≠ cTRLOSS)
    (hgaps : n < 0x118 ∨ (0x208 ≤ n ∧ n < 0x210) ∨ 0x280 ≤ n) (hhit : n ≠ cWPHIT) : readCsr s x n = x.arch.rcsr n := by
  have hc : ¬ csrCounter n = true := by
    simp only [csrCounter, Bool.or_eq_true, decide_eq_true_eq, not_or]
    exact ⟨by omega, hcount.2⟩
  unfold readCsr
  rw [if_neg hvcp, if_neg hc, if_neg (by omega), if_neg (by omega), if_neg (by omega), if_neg (by omega), if_neg (by omega),
    if_neg (by omega), if_neg hhit]

theorem csrCounter_low {n : Nat} (hn : n < 0x441) : ¬ csrCounter n = true := by
  simp only [csrCounter, Bool.or_eq_true, decide_eq_true_eq]
  simp only [cTRLOSS]
  omega

/-- The mask unit's counters, TL of each channel and the inbound counters stand outside the registers (R228, R253). -/
theorem readCsr_maskCount (s : State) (x : Hart) {n : Nat} (hlo : 0x118 ≤ n) (hhi : n ≤ 0x11A) :
    readCsr s x n = fget 0 s.mskcnt (x.arch.grant.base * 3 + (n - 0x118)) := by
  have hc := csrCounter_low (n := n) (by omega)
  rw [readCsr, if_neg (by simp only [cVCP]; omega), if_neg hc, if_pos ⟨hlo, hhi⟩]

theorem readCsr_tl (s : State) (x : Hart) {n : Nat} (hlo : 0x200 ≤ n) (hhi : n ≤ 0x207) :
    readCsr s x n = BitVec.ofNat 64 ((x.chans[n - 0x200]?.map (·.tl)).getD 0) := by
  have hc := csrCounter_low (n := n) (by omega)
  rw [readCsr, if_neg (by simp only [cVCP]; omega), if_neg hc, if_neg (by omega), if_pos ⟨hlo, hhi⟩]

theorem readCsr_ic (s : State) (x : Hart) {n : Nat} (hlo : 0x240 ≤ n) (hhi : n ≤ 0x27F) : readCsr s x n = fget 0 x.ic (n - 0x240) := by
  have hc := csrCounter_low (n := n) (by omega)
  rw [readCsr, if_neg (by simp only [cVCP]; omega), if_neg hc, if_neg (by omega), if_neg (by omega), if_neg (by omega), if_neg (by omega),
    if_neg (by omega), if_pos ⟨hlo, hhi⟩]

theorem readCsr_wphit (s : State) (x : Hart) :
    readCsr s x cWPHIT = match x.held with | some w => BitVec.ofNat 64 (16 + w) | none => 0 := rfl

theorem readCsr_counter (s : State) (x : Hart) {n : Nat} (hn : 0x500 ≤ n ∨ n = cTRLOSS) : readCsr s x n = fget 0 x.cnt n := by
  have hc : csrCounter n = true := by simpa only [csrCounter, Bool.or_eq_true, decide_eq_true_eq] using hn
  have hvcp : n ≠ cVCP := by rintro rfl; simp [cVCP, cTRLOSS] at hn
  rw [readCsr, if_neg hvcp, if_pos hc]

/-- GBARC holds the generation above the count of harts that have arrived (R258). -/
theorem gbarc_fields {s : State} {x : Hart} {g : Gang} (hg : ffind s.gangs x.gang = some g) (hgen : g.gen < 2 ^ 32) (harr : g.arrived.length ≤ 64) :
    bits (gbarc s x).toNat 63 32 = g.gen ∧ bits (gbarc s x).toNat 31 0 = g.arrived.length := by
  simp only [gbarc, hg, bits, BitVec.toNat_ofNat]
  omega

/-- Settles O16. -/
theorem csrInstructions : Obligations.CsrInstructions := by
  refine ⟨fun d a c op t w => ⟨csrDone (exec_csrRd d c), csrDone (exec_csrWr d a c), csrDone (exec_csrSet d a c), csrDone (exec_csrClr d a c),
    csrDone (exec_fcsrWrite op d a), csrDone (exec_fcsrRead d), csrDone (exec_srseedWrite op d a), csrDone (exec_srseedRead d),
    csrDone (exec_btcfgWrite t op d a), csrDone (exec_mskshapeWrite op d a), csrDone (exec_docnWrite op d a), csrDone (exec_zstateWrite op d a),
    csrDone (exec_hstatusWrite op d a), csrDone (exec_wpctlWrite w op d a)⟩, ?_⟩
  intro run userRo userRw supRo supRw
  refine ⟨fun n _ => ?_, fun s x => ⟨?_, fun k hk => ?_, fun k hk c hc => ⟨?_, ?_, ?_⟩, fun g hg hgen harr => gbarc_fields hg hgen harr, fun k hk => ?_,
    fun h => ?_, fun w _ h => ?_, fun n hn => ?_, fun n hn => ?_⟩⟩
  · simp only [userRo, userRw, supRo, supRw, run, List.mem_append, mem_run, List.mem_cons, List.not_mem_nil, or_false, csrListed, csrSup, csrWritable,
      Bool.or_eq_true, Bool.and_eq_true, decide_eq_true_eq, Bool.false_and, Bool.true_and, Bool.false_eq_true]
    simp only [cFCSR, cSRSEED, cDOCB, cDOCN, cMSKSHAPE, cZSTATE, cTRCTL, cBNDTAB]
    refine ⟨?_, ?_, ?_, ?_⟩ <;> omega
  · cases h : x.sheaves <;> simp [readCsr, h]
  · rw [readCsr_maskCount s x (by omega) (by omega), Nat.add_sub_cancel_left]
  · rw [readCsr_tl s x (by omega) (by omega), Nat.add_sub_cancel_left, hc]
    rfl
  · have h : readCsr s x 0x210 = chanBits x (fun c => c.ctx.isSome) := rfl
    rw [h, getLsbD_chanBits x _ (by omega) hc]
  · have h : readCsr s x 0x211 = chanBits x (fun c => c.err.isSome) := rfl
    rw [h, getLsbD_chanBits x _ (by omega) hc]
  · rw [readCsr_ic s x (by omega) (by omega), Nat.add_sub_cancel_left]
  · rw [readCsr_wphit, h]
  · rw [readCsr_wphit, h]
  · simp only [run, List.mem_append, mem_run, List.mem_singleton] at hn
    exact readCsr_counter s x (by omega)
  · simp only [run, List.mem_append, mem_run, List.mem_cons, List.not_mem_nil, or_false] at hn
    simp only [cVL, cVTYPE, cVLENB, cGRANT, cSTRIP, cFCSR, cRUNBASE, cSRSEED, cHARTINFO, cZSTATE, cDOCB, cDOCN, cMSKSHAPE, cTRCTL, cBNDTAB, cADVPTR] at hn
    exact readCsr_stored s x (by simp only [cVCP]; omega) ⟨by omega, by simp only [cTRLOSS]; omega⟩ (by omega) (by simp only [cWPHIT]; omega)

end Sys2Proof.Machine

/-! ### The end of a sheaf that commits at once (R265, R271, R276) -/

namespace Sys2Proof.Machine

/-! The slices of the commit arbiter -/

/-- Every slice is free or `h`'s, and `h` alone asks for one. -/
def Arbiter.Serves (a : Arbiter) (h : Nat) : Prop :=
  (∀ d, fget none a.slices d = none ∨ fget none a.slices d = some h) ∧ ∀ r ∈ a.slicesQ, r.2 = h

/-- The only hart that asks takes the slice, and keeps those it has. -/
theorem Arbiter.Serves.takeSlice {a : Arbiter} {h : Nat} (ha : a.Serves h) (d : Nat) :
    (a.takeSlice d h).Serves h ∧ (a.takeSlice d h).token = a.token ∧
      ∀ k, (k = d ∨ fget none a.slices k = some h) → fget none (a.takeSlice d h).slices k = some h := by
  obtain ⟨hs, hq⟩ := ha
  have hset (k : Nat) : fget none (fset none a.slices d (some h)) k = none ∨ fget none (fset none a.slices d (some h)) k = some h := by
    rw [fget_fset]
    split
    · exact .inr rfl
    · exact hs k
  have htaken (k : Nat) (hk : k = d ∨ fget none a.slices k = some h) : fget none (fset none a.slices d (some h)) k = some h := by
    rw [fget_fset]
    split
    · rfl
    · next hne => exact hk.resolve_left hne
  have hasks : ∀ r ∈ a.slicesQ ++ [(d, h)], r.2 = h := by
    intro r hr
    rcases List.mem_append.1 hr with hr | hr
    · exact hq r hr
    · rw [List.mem_singleton.1 hr]
  unfold Arbiter.takeSlice
  split
  · split
    · exact ⟨⟨hset, hq⟩, rfl, htaken⟩
    · next r hr =>
      rw [if_pos (hq r (List.mem_of_find?_eq_some hr))]
      exact ⟨⟨hset, fun r hr => hq r (List.mem_of_mem_erase hr)⟩, rfl, htaken⟩
  · next hd =>
    have hkeep (k : Nat) (hk : k = d ∨ fget none a.slices k = some h) : fget none a.slices k = some h := by
      rcases hk with rfl | hk
      · exact (hs k).resolve_left hd
      · exact hk
    split
    · exact ⟨⟨hs, hq⟩, rfl, hkeep⟩
    · exact ⟨⟨hs, hasks⟩, rfl, hkeep⟩

/-- The only hart that asks takes every slice it wants. -/
theorem State.takeSlices_served {s : State} {h : Nat} (ds : List Nat) (ha : s.arb.Serves h) :
    ∃ a, s.takeSlices h ds = { s with arb := a } ∧ a.token = s.arb.token ∧
      ∀ k, (k ∈ ds ∨ fget none s.arb.slices k = some h) → fget none a.slices k = some h := by
  induction ds generalizing s with
  | nil => exact ⟨s.arb, rfl, rfl, fun k hk => by simpa using hk⟩
  | cons d ds ih =>
    obtain ⟨hserves, htoken, hkeep⟩ := ha.takeSlice d
    obtain ⟨a, ha', htoken', hkeep'⟩ := ih (s := { s with arb := s.arb.takeSlice d h }) hserves
    refine ⟨a, ?_, htoken'.trans htoken, fun k hk => hkeep' k ?_⟩
    · rw [State.takeSlices]
      exact (if_pos (hkeep d (.inl rfl))).trans ha'
    · rcases hk with hk | hk
      · rcases List.mem_cons.1 hk with rfl | hk
        · exact .inr (hkeep k (.inl rfl))
        · exact .inl hk
      · exact .inr (hkeep k (.inr hk))

/-- A hart that no other contends with for a slice has all that its sheaf wants. -/
theorem State.slicesWanted_served {s : State} {h : Nat} (sh : Sheaf) (ha : s.arb.Serves h) :
    ∃ a, s.takeSlices h (s.slicesWanted h sh) = { s with arb := a } ∧ a.token = s.arb.token ∧
      ((s.takeSlices h (s.slicesWanted h sh)).slicesWanted h sh).isEmpty = true := by
  obtain ⟨a, hs, htoken, hkeep⟩ := s.takeSlices_served (s.slicesWanted h sh) ha
  refine ⟨a, hs, htoken, ?_⟩
  rw [hs, List.isEmpty_iff, State.slicesWanted, List.filter_eq_nil_iff]
  intro d hd
  have hall : fget none a.slices d = some h := hkeep d (by
    by_cases hmine : fget none s.arb.slices d = some h
    · exact .inr hmine
    · exact .inl (List.mem_filter.2 ⟨hd, by simpa using hmine⟩))
  simpa using hall

/-! What a commit leaves alone -/

theorem State.applyReds_eq (s : State) (rs : List Red) :
    s.applyReds rs = { s with free := (s.applyReds rs).free, mem := (s.applyReds rs).mem, ms := (s.applyReds rs).ms } := by
  unfold State.applyReds
  exact foldl_keeps (P := fun t : State => t = { s with free := t.free, mem := t.mem, ms := t.ms }) _ _ _ rfl fun t r _ ht => by
    rw [ht]
    rfl

theorem State.sendPuts_eq (s : State) (h low : Nat) (puts : List (Nat × Option Nat)) :
    s.sendPuts h low puts = { s with ms := (s.sendPuts h low puts).ms } := by
  unfold State.sendPuts
  refine foldl_keeps (P := fun t : State => t = { s with ms := t.ms }) _ _ _ rfl fun t a _ ht => ?_
  rw [(t.demands_eq h (a.2.getD low) true .nothing [a.1]).1, ht]

/-- What the committing sheaf itself brings about: all but memory, its data, the free values and the records that are due is left alone. -/
theorem State.commitEffects_eq (s : State) (h low out n : Nat) (sh : Sheaf) (puts : List (Nat × Option Nat)) :
    ∃ u : State, ((({ s.commitWrites sh with stamp := n } : State).applyReds sh.reds).sendPuts h low puts).traceSheaf h sh out 0 n = u ∧
      u = { s with stamp := n, free := u.free, mem := u.mem, poison := u.poison, ms := u.ms, due := u.due } := by
  refine ⟨_, rfl, ?_⟩
  obtain ⟨d, hd⟩ := State.traceSheaf_frame ((({ s.commitWrites sh with stamp := n } : State).applyReds sh.reds).sendPuts h low puts) h sh out 0 n
  rw [hd, State.sendPuts_eq, State.applyReds_eq]
  rfl

theorem Hart.issueCmds_eq (x : Hart) (cs : List Cmd) : x.issueCmds cs = { x with chans := (x.issueCmds cs).chans } := by
  refine foldl_keeps (P := fun y : Hart => y = { x with chans := y.chans }) _ _ _ rfl fun y c _ hy => ?_
  split
  · rw [hy]
    rfl
  · exact hy

theorem Hart.issueCmds_chans_congr {x y : Hart} (h : x.chans = y.chans) (cs : List Cmd) : (x.issueCmds cs).chans = (y.issueCmds cs).chans := by
  induction cs generalizing x y with
  | nil => exact h
  | cons c cs ih =>
    refine ih ?_
    dsimp only
    rw [h]
    split
    · rw [Hart.setChan, Hart.setChan, h]
    · exact h

/-- The commit of a hart's only sheaf, while no hart holds the solo token. -/
theorem State.commit_only {s : State} {h : Nat} {x : Hart} {sh : Sheaf} (hx : s.hart h = some x) (hs : x.sheaves = [sh]) (hheld : sh.held = none)
    (ht : s.arb.token = none) :
    ∃ u, s.commit h = u ∧ u.hart h = some ((x.issueCmds sh.cmds).afterCommit sh) ∧ u.stamp = s.stamp + 1 ∧ u.mg = s.mg ∧ u.cur = s.cur ∧
      u.arb.token = none := by
  have hfront : x.front = 0 := by simp [Hart.front, hs, hheld]
  obtain ⟨u, hu, hframe⟩ := s.commitEffects_eq h sh.grant.base (if sh.closed = some .split then outSplit else outCommit) (s.stamp + 1) sh sh.sends
  let v := u.updHart h fun x => (x.issueCmds sh.cmds).afterCommit sh
  have hidle : v.Idle h ((x.issueCmds sh.cmds).afterCommit sh) := by
    have huh : u.hart h = some x := by rw [hframe]; exact hx
    refine ⟨by rw [State.hart_updHart_self, huh]; rfl, ?_⟩
    rw [Hart.issueCmds_eq]
    simp [Hart.afterCommit, hs, Hart.front, hheld]
  have hsq := v.squashOthers_squashes h sh.wset sh.dset
  obtain ⟨w, hw⟩ : ∃ w, v.squashOthers h sh.wset sh.dset = w := ⟨_, rfl⟩
  rw [hw] at hsq
  have hvt : v = { u with harts := v.harts } := by
    simp only [v, State.updHart]
    split <;> rfl
  have hwt : w.arb.token = none := by rw [hsq.token, hvt, hframe]; exact ht
  have hleave : w.leaveArbiter h = { w with arb := (w.arb.dropSlices h).dropToken h } := if_neg (by simp [hwt])
  have hcommit : s.commit h = { w with arb := (w.arb.dropSlices h).dropToken h } := by
    have hz : ({ w with arb := (w.arb.dropSlices h).dropToken h } : State).hart h = some ((x.issueCmds sh.cmds).afterCommit sh) := (hsq.idle hidle).1
    unfold State.commit
    simp only [hx, hfront, hs, List.getElem?_cons_zero, hu]
    change (u.updHart h _).squashOthers h sh.wset sh.dset = w at hw
    simp only [if_true, hw, hleave, hz, hidle.2, zero_ne_one, if_false]
  refine ⟨_, hcommit, (hsq.idle hidle).1, ?_, ?_, ?_, ?_⟩
  · exact hsq.stamp.trans (by rw [hvt, hframe])
  · exact hsq.mg.trans (by rw [hvt, hframe])
  · exact hsq.cur.trans (by rw [hvt, hframe])
  · have hdrop : (w.arb.dropSlices h).token = none := hwt
    show ((w.arb.dropSlices h).dropToken h).token = none
    rw [Arbiter.dropToken, if_neg (by simp [hdrop])]
    exact hdrop

/-- A prompt hart whose only sheaf has ended, with nothing of it outstanding, commits as it settles. -/
theorem State.settle_only {s : State} {h : Nat} {x : Hart} {sh : Sheaf} (hx : s.hart h = some x) (hahead : x.ahead = false)
    (hq : x.queue = []) (hp : x.pend = []) (hs : x.sheaves = [sh]) (hclosed : sh.closed.isSome = true) (htrap : sh.trap = none)
    (hwant : sh.want = none) (hshHeld : sh.held = none) (hheld : x.held = none) (hpre : x.preempted = false)
    (harb : s.arb.token = none ∧ s.arb.slices = [] ∧ s.arb.slicesQ = []) :
    ∃ u, s.settle h = u ∧ u.hart h = some ((x.issueCmds sh.cmds).afterCommit sh) ∧ u.stamp = s.stamp + 1 ∧ u.mg = s.mg ∧ u.cur = s.cur ∧
      u.arb.token = none := by
  obtain ⟨htok, hsl, hslq⟩ := harb
  have hfront : x.front = 0 := by simp [Hart.front, hs, hshHeld]
  have hpark : x.parkReady = false := by simp [Hart.parkReady, hs, hwant]
  have hland : x.landReady = none := by simp [Hart.landReady, hheld, hs, htrap]
  have hready : x.commitReady = true := by simp [Hart.commitReady, hfront, hs, hclosed, htrap, hwant, hpre, hq, hp]
  have hblocks : s.tokenBlocks h sh = false := by simp [State.tokenBlocks, htok]
  have hserves : s.arb.Serves h := ⟨fun d => .inl (by rw [hsl]; rfl), fun r hr => by rw [hslq] at hr; cases hr⟩
  obtain ⟨a, htake, hatok, hnone⟩ := s.slicesWanted_served sh hserves
  obtain ⟨u, hu, hall⟩ := State.commit_only (s := { s with arb := a }) (x := x) (by exact hx) hs hshHeld (hatok.trans htok)
  refine ⟨u, ?_, hall⟩
  have htry : s.tryCommit h = (s.takeSlices h (s.slicesWanted h sh)).commit h := by
    simp only [State.tryCommit, hx, hfront, hs, List.getElem?_cons_zero, hready, hblocks, hnone, Bool.not_true, Bool.false_eq_true, if_false, if_true]
  rw [← hu, ← htake, ← htry]
  simp [State.settle, State.conclude, hx, hahead, hpark, hland]

/-! A sheaf that an instruction ends -/

/-- The hart once its sheaf `sh` has taken `n` more instructions and ended. -/
def Hart.closing (y : Hart) (sh : Sheaf) (n : Nat) : Hart :=
  { y with sheaves := [{ sh with seq := sh.seq + n, closed := some .ordinary }], bq := [], blocked := false, noProg := 0 }

theorem State.CanEnd.openSheaf {s : State} {rs : List Nat} {y : Hart} {sh : Sheaf} (h : s.CanEnd rs y sh) : y.openSheaf = some sh ∧ sh.held = none := by
  obtain ⟨⟨x, -, hy, -⟩, -, -, -, -, -, hs, -⟩ := h
  obtain ⟨t, hc, ho⟩ := Hart.ready_cur hy
  obtain rfl : t = sh := by simpa [Hart.cur, hs] using hc.symm
  refine ⟨ho, ?_⟩
  simp only [Hart.openSheaf, hc, Option.ite_none_right_eq_some, Bool.and_eq_true, Option.isNone_iff_eq_none] at ho
  exact ho.1.2

/-- The sheaf ends where the results that its instructions have asked for are here. -/
theorem State.CanEnd.endSheafAt {s : State} {rs : List Nat} {y : Hart} {sh : Sheaf} (h : s.CanEnd rs y sh) (n : Nat) :
    ({ y with bq := y.bqAfter rs } : Hart).endSheafAt n = some (y.closing sh n) := by
  obtain ⟨hopen, -⟩ := h.openSheaf
  have hopen' : ({ y with bq := y.bqAfter rs } : Hart).openSheaf = some sh := hopen
  obtain ⟨-, -, -, -, -, hhere, hs, -⟩ := h
  have hbq : (y.bqAfter rs).any (fun b => !b.here) = false := by simpa using hhere
  have hclosed : sh.closed = none ∧ sh.held = none := by simpa [Hart.openSheaf, Hart.cur, hs] using hopen
  unfold Hart.endSheafAt
  simp only [hbq, Bool.false_eq_true, if_false, hopen']
  simp [Hart.close, Hart.openSheaf, Hart.cur, Hart.setCur, hclosed, hs, Hart.closing]

/-- A hart after its only sheaf, which ended without a split, has committed. -/
theorem Hart.afterCommit_only {x : Hart} {sh : Sheaf} (hs : x.sheaves = [sh]) (hheld : sh.held = none) (hclosed : sh.closed = some .ordinary)
    (hq : x.queue = []) :
    ∃ z, (x.issueCmds sh.cmds).afterCommit sh = z ∧ z.cnt = fset 0 x.cnt cINSTRET (fget 0 x.cnt cINSTRET + BitVec.ofNat 64 sh.seq) ∧
      z.arch = x.arch ∧ z.sheaves = [] ∧ z.queue = [] ∧ z.bq = x.bq ∧ z.landing = x.landing ∧ z.gang = x.gang ∧
      z.chans = (x.issueCmds sh.cmds).chans ∧ z.squash = 0 ∧ z.cap = (if sh.sup then x.cap else 0) ∧ z.wait = x.wait ∧ z.held = x.held ∧
      (x.preempt = 0 → z.preempt = 0) := by
  refine ⟨_, rfl, ?_⟩
  rw [Hart.issueCmds_eq]
  generalize (x.issueCmds sh.cmds).chans = c
  have hfront : ({ x with chans := c } : Hart).front = 0 := by simp [Hart.front, hs, hheld]
  have hsplit : ¬ sh.closed = some .split := by simp [hclosed]
  have hfirst (hp : x.preempt = 0) : ¬ (x.preempt = 1 ∧ (!sh.sup) = true ∧ x.landing.isNone = true) := fun h => by simp [hp] at h
  simp only [Hart.afterCommit, if_neg hsplit, hfront]
  exact ⟨rfl, rfl, by simp [hs], by simp [hq], rfl, rfl, rfl, rfl, if_pos trivial, trivial, rfl, rfl, fun hp => (if_neg (hfirst hp)).trans hp⟩

/-- An instruction ends its sheaf as its `n`-th more: the sheaf commits at once, and the hart goes on to wait. -/
theorem State.CanEnd.commits {s : State} {rs : List Nat} {y : Hart} {sh : Sheaf} (h : s.CanEnd rs y sh) (n : Nat) (w : Wait) :
    ∃ u z, ((s.setHart s.cur { y.closing sh n with wait := w }).tick 1).settle s.cur = u ∧ u.hart s.cur = some z ∧
      y.Ended z sh (sh.seq + n) y.arch ∧ z.wait = w ∧ z.held = none ∧ (y.preempt = 0 → z.preempt = 0) ∧
      u.stamp = s.stamp + 1 ∧ u.mg = s.mg ∧ u.cur = s.cur ∧ u.arb.token = none := by
  obtain ⟨-, hshHeld⟩ := h.openSheaf
  obtain ⟨-, hahead, hheld, hq, hp, -, hs, htrap, hwant, hpre, harb⟩ := h
  let x : Hart := ({ y.closing sh n with wait := w } : Hart).tick 1
  have hxt : x = { y.closing sh n with wait := w, cnt := x.cnt } := Hart.tick_eq ..
  have hxs : x.sheaves = [{ sh with seq := sh.seq + n, closed := some .ordinary }] := by rw [hxt]; rfl
  have hxq : x.queue = [] := by rw [hxt]; exact hq
  obtain ⟨u, hu, hz, hrest⟩ := State.settle_only (s := (s.setHart s.cur { y.closing sh n with wait := w }).tick 1) (h := s.cur) (x := x)
    (State.hart_setHart_tick ..) (by rw [hxt]; exact hahead) hxq (by rw [hxt]; exact hp) hxs rfl htrap hwant hshHeld
    (by rw [hxt]; exact hheld) (by rw [hxt]; exact hpre) harb
  obtain ⟨z, hzx, hcnt, harch, hsheaves, hqueue, hbq, hlanding, hgang, hchans, hsquash, hcap, hwait, hzheld, hpreempt⟩ :=
    Hart.afterCommit_only hxs hshHeld rfl hxq
  have hother (k : Nat) (h1 : k ≠ cCYCLE) (h2 : k ≠ cADVIDLE) : fget 0 x.cnt k = fget 0 y.cnt k := Hart.tick_cnt_other _ 1 k h1 h2 (.inl rfl)
  refine ⟨u, z, hu, hz.trans (congrArg some hzx), ?_, ?_, ?_, ?_, hrest⟩
  · refine ⟨?_, hsheaves, hqueue, ?_, ?_, ?_, ?_, fun hsup => ⟨hsquash, ?_⟩, ?_, fun k h1 h2 h3 => ?_⟩
    · rw [harch, hxt]; rfl
    · rw [hbq, hxt]; rfl
    · rw [hlanding, hxt]; rfl
    · rw [hgang, hxt]; rfl
    · exact hchans.trans (Hart.issueCmds_chans_congr (by rw [hxt]; rfl) _)
    · rw [hcap]; exact if_neg (by simp [hsup])
    · rw [hcnt, fget_fset_self, hother _ (by decide) (by decide)]
    · rw [hcnt, fget_fset_ne _ _ _ h3, hother k h1 h2]
  · rw [hwait, hxt]
  · rw [hzheld, hxt]; exact hheld
  · exact fun hpy => hpreempt (by rw [hxt]; exact hpy)

end Sys2Proof.Machine

/-! ### SYS.ECALL and SYS.EBREAK (R137, R264, R266, R307, R311, R312) -/

namespace Sys2Proof.Machine

/-- A call ends the sheaf before it, which commits; in supervisor mode an ECALL then goes to the system cores, and else the call traps. -/
theorem callOp_ends {s : State} {y : Hart} {sh : Sheaf} (h : s.CanEnd [] y sh) (c : Nat) :
    callOp s c = .next (if y.arch.sup ∧ c = 0x0C then (((s.setHart s.cur { y.closing sh 0 with wait := .answer false }).tick 1).settle s.cur).askCores s.cur
      else (((s.setHart s.cur { y.closing sh 0 with wait := .split c }).tick 1).settle s.cur).splitTrap s.cur) := by
  have hend := h.endSheafAt 0
  obtain ⟨hr, -⟩ := h
  rw [callOp, withHart_canRun hr]
  simp only [hend]

/-- A hart without sheaves has drained. -/
theorem Hart.drained_of_no_sheaves {z : Hart} (h : z.sheaves = []) : z.drained = true := by simp [Hart.drained, Hart.front, h]

/-- The state at which a call lands, and that state with the record and the mode (R137, R307, R311). -/
def Arch.atCall (a : Arch) : Arch := { a with nextSplit := a.nextSplit + 1 }
def Arch.recordCall (a : Arch) (t : Trap) : Arch :=
  (a.atCall.withRecord (t.tcause true false) t.tpc a.stripPc (a.rcsr cSTRIP) (BitVec.ofNat 64 a.nextSplit) t.telem t.tlane t.tval).setMode 0 1

theorem State.updHart_stamp (s : State) (h : Nat) (f : Hart → Hart) : (s.updHart h f).stamp = s.stamp := by
  unfold State.updHart
  split <;> rfl

/-- A trap at a forced split lands on a user's hart that has no sheaf, while no hart holds the solo token. -/
theorem State.landTrap_split {s : State} {h : Nat} {z : Hart} {t : Trap} (hz : s.hart h = some z) (hsup : z.arch.sup = false) (hs : z.sheaves = [])
    (ht : s.arb.token = none) (hopener : t.opener = false) :
    ∃ w, s.landTrap h t true = w ∧ w.hart h = some ((z.restoreTo 0 z.arch.atCall).enter z.arch.atCall (z.arch.recordCall t)) ∧ w.stamp = s.stamp := by
  have hfree : s.areaFree h z.arch 0x300 = true := by simp [State.areaFree, ht]
  have hleave : s.leaveArbiter h = { s with arb := (s.arb.dropSlices h).dropToken h } := if_neg (by simp [ht])
  have hland : s.landTrap h t true = ((({ s with arb := (s.arb.dropSlices h).dropToken h } : State).updHart h (fun x => x.restoreTo 0 z.arch.atCall)).writeFrame
      z.arch.atCall z.cnt z.arch.nextSplit z.squash z.cap z.arch.atCall.pc).updHart h (fun x => x.enter z.arch.atCall (z.arch.recordCall t)) := by
    simp only [State.landTrap, hz, hsup, Bool.false_eq_true, if_false, hs, List.head?_nil, Option.map_none, Option.getD_none, hfree, Bool.not_true,
      hopener, if_true, Bool.true_or, List.foldl_nil, hleave, Arch.recordCall, Arch.atCall]
  obtain ⟨u, hu⟩ : ∃ u, ({ s with arb := (s.arb.dropSlices h).dropToken h } : State).updHart h (fun x => x.restoreTo 0 z.arch.atCall) = u := ⟨_, rfl⟩
  rw [hu] at hland
  have hidle : u.Idle h (z.restoreTo 0 z.arch.atCall) := by
    refine ⟨?_, by simp [Hart.restoreTo]⟩
    rw [← hu, State.hart_updHart_self]
    exact congrArg (Option.map _) hz
  have hframe := u.writeFrame_squashes z.arch.atCall z.cnt z.arch.nextSplit z.squash z.cap z.arch.atCall.pc
  generalize u.writeFrame z.arch.atCall z.cnt z.arch.nextSplit z.squash z.cap z.arch.atCall.pc = w at hland hframe
  refine ⟨_, hland, ?_, ?_⟩
  · rw [State.hart_updHart_self, (hframe.idle hidle).1]
    rfl
  · rw [State.updHart_stamp, hframe.stamp, ← hu, State.updHart_stamp]

/-- A user's call commits the sheaf before it and traps at itself. -/
theorem callOp_traps {s : State} {y : Hart} {sh : Sheaf} (h : s.CanEnd [] y sh) (hsup : y.arch.sup = false)
    (hpre : y.preempt = 0) (c : Nat) :
    ∃ t z, callOp s c = .next t ∧ t.stamp = s.stamp + 1 ∧ y.Ended z sh sh.seq y.arch ∧
      t.hart s.cur = some ((z.restoreTo 0 y.arch.atCall).enter y.arch.atCall (y.arch.recordCall (plainTrap c 0 y.arch.pc 0 0))) := by
  obtain ⟨u, z, hu, hz, hended, hwait, -, hzpre, hstamp, -, -, htok⟩ := h.commits 0 (.split c)
  obtain ⟨harch, hs, -⟩ := id hended
  obtain ⟨w, hw, hwh, hws⟩ := State.landTrap_split (t := plainTrap c 0 y.arch.pc 0 0) hz (by rw [harch]; exact hsup) hs htok rfl
  have hready : (z.drained && !z.preempted) = true := by simp [Hart.drained_of_no_sheaves hs, Hart.preempted, hzpre hpre]
  have hsplit : u.splitTrap s.cur = w := by
    rw [State.splitTrap, hz]
    simp only [hwait, hready, if_true, harch, hw]
  refine ⟨w, z, ?_, hws.trans hstamp, hended, ?_⟩
  · rw [callOp_ends h, if_neg (by simp [hsup]), hu, hsplit]
  · rw [hwh, harch]

/-- Settles O18. -/
theorem callsTrap : Obligations.CallsTrap := by
  intro s y sh h hsup hshSup hpre enters
  have hcall {i : Instr} {c : Nat} (he : ∀ s, exec i s = callOp s c) (hc : c < 2 ^ 8) : enters i c := by
    obtain ⟨t, z, ht, hstamp, hended, hz⟩ := callOp_traps h hsup hpre c
    obtain ⟨harch, hs, -, -, -, -, -, hcaps, hret, -⟩ := hended
    obtain ⟨hsq, hcap⟩ := hcaps hshSup
    obtain ⟨r0, r1, r2, r3, r4, r5, r6, r7, r8⟩ := Arch.record_reads y.arch.atCall ((plainTrap c 0 y.arch.pc 0 0).tcause true false) y.arch.pc
      y.arch.stripPc (y.arch.rcsr cSTRIP) (BitVec.ofNat 64 y.arch.nextSplit) 0 0 0
    have hothers := Arch.record_others y.arch.atCall ((plainTrap c 0 y.arch.pc 0 0).tcause true false) y.arch.pc
      y.arch.stripPc (y.arch.rcsr cSTRIP) (BitVec.ofNat 64 y.arch.nextSplit) 0 0 0
    refine ⟨t, _, (he s).trans ht, hz, hstamp, ?_, ?_, r1, r2, r3, r4, r5, r6, r7, r8, hothers, ?_, rfl, ?_, ?_⟩
    · have htvec : (y.arch.recordCall (plainTrap c 0 y.arch.pc 0 0)).rcsr cTVEC = y.arch.rcsr cTVEC := hothers cTVEC (by simp [recordCsr, cTVEC, cHSTATUS])
      simp only [Hart.enter, Hart.restoreTo, htvec]
      rw [Arch.recordCall, Arch.withRecord_eq]
      rfl
    · refine r0.trans ?_
      simp [Trap.tcause, plainTrap]
    · simp [Hart.enter, Hart.restoreTo]
    · simp [Hart.enter, Hart.restoreTo, hsq, hcap]
      rfl
    · exact hret
  exact ⟨hcall exec_sysEcall (by decide), hcall exec_sysEbreak (by decide)⟩

end Sys2Proof.Machine

/-! ### SYS.WFI, SYS.REFSYNC, the supervisor's SYS.ECALL and MARK (R140 to R142, R287, R312, R356) -/

namespace Sys2Proof.Machine

/-! WFI -/

/-- A hart that waits for no load data counts a ck as one that is not blocked. -/
theorem Hart.tick_cnt_of_no_loads {x y : Hart} (n : Nat) (hc : x.cnt = y.cnt) (hp : x.parked = y.parked) (hg : x.gone = y.gone) (ha : x.adv = y.adv)
    (hx : (x.blocked && !x.onLoad.isEmpty) = false) (hy : (y.blocked && !y.onLoad.isEmpty) = false) : (x.tick n).cnt = (y.tick n).cnt := by
  unfold Hart.tick
  rw [hp, hg, ha, hx, hy]
  by_cases hs : (y.parked || y.gone) = true
  · simpa [hs] using hc
  · cases y.adv with
    | none => simp [hs, Hart.count, hc]
    | some a => by_cases hi : a.idling <;> simp [hs, hi, Hart.count, hc]

/-- R140: the hart idles. -/
theorem sysWfi_waits {s : State} {y : Hart} (hr : s.CanRun [] y) : ∃ t z, exec .sysWfi s = .next t ∧ s.Alone t ∧ t.hart s.cur = some z ∧
    z = { y with wait := .wfi (s.now + 65536), blocked := true, onLoad := [], noProg := 0, cnt := (Hart.tick 1 { y with blocked := false }).cnt } := by
  let w : Hart := { y with wait := .wfi (s.now + 65536), blocked := true, onLoad := [], noProg := 0 }
  refine ⟨(s.setHart s.cur w).tick 1, w.tick 1, ?_, State.alone_setHart_tick s w s.free 0 .nothing [], State.hart_setHart_tick .., ?_⟩
  · rw [exec_sysWfi, execSysWfi, withHart_canRun hr]
    rfl
  · rw [Hart.tick_eq w 1, Hart.tick_cnt_of_no_loads 1 (x := w) (y := { y with blocked := false }) rfl rfl rfl rfl rfl rfl]

/-! REFSYNC -/

/-- The sequencer that has just ticked owes nothing once it is cleared (R356). -/
theorem State.clearOwed_owed {s : State} {p : Nat} (h : s.tickedNow p = true) : ((s.clearOwed p).ctl p).owed = [] := by
  unfold State.tickedNow at h
  unfold State.clearOwed
  split at h
  · next k hk =>
    simp [State.ctl, fget_fset]
  · cases h

theorem State.clearOwed_eq (s : State) (p : Nat) : s.clearOwed p = { s with ms := (s.clearOwed p).ms } := by
  unfold State.clearOwed
  split <;> rfl

theorem State.demands_ctl (s : State) (h cl : Nat) (w : Bool) (d : Sys2Proof.DataTo) (gs : List Nat) (p : Nat) :
    (s.demands h cl w d gs).ctl p = s.ctl p := by
  obtain ⟨-, hms, -⟩ := s.demands_eq h cl w d gs
  rw [State.ctl, hms]
  rfl

section
variable {s : State} {a : Reg} {y : Hart}

/-- A number that names no pseudo-channel of the part: the instruction completes. -/
theorem sysRefsync_outside {sh : Sheaf} (hr : s.CanRun [a.toNat] y) (hsup : y.arch.sup = true) (hc : y.cur = some sh)
    (hp : Config.pseudoChannels s.bare ≤ (y.arch.r a).toNat) :
    ∃ t z, exec (.sysRefsync a) s = .next t ∧ s.Alone t ∧ t.hart s.cur = some z ∧ y.Executed z [a.toNat] y.arch.next sh := by
  obtain ⟨t, z, sh', ht, halone, hz, hc', hexec⟩ := executed_of_retire hr (i := .sysRefsync a) (a := y.arch.next) (by
    have hp' : Config.pseudoChannels s.bare ≤ (y.arch.rx a.toNat).toNat := hp
    rw [exec_sysRefsync, execSysRefsync, withHart_canRun hr]
    simp only [hsup, Bool.not_true, Bool.false_eq_true, if_false, hp', if_true])
  obtain rfl : sh' = sh := Option.some.inj (hc'.symm.trans hc)
  exact ⟨t, z, ht, halone, hz, hexec⟩

/-- A pseudo-channel of the part: the hart waits for its sequencer's tick, which may have fallen in this ck. -/
theorem sysRefsync_waits (hr : s.CanRun [a.toNat] y) (hsup : y.arch.sup = true) (hp : (y.arch.r a).toNat < Config.pseudoChannels s.bare)
    (hpend : y.pend = []) : ∃ t z, exec (.sysRefsync a) s = .next t ∧ t.hart s.cur = some z ∧ z.arch = y.arch ∧ t.mem = s.mem ∧
      z.wait = (if s.tickedNow (y.arch.r a).toNat then .synced else .refsync (y.arch.r a).toNat s.now) ∧
      (s.tickedNow (y.arch.r a).toNat = true → (t.ctl (y.arch.r a).toNat).owed = []) := by
  obtain ⟨p, hpeq⟩ : ∃ p, (y.arch.r a).toNat = p := ⟨_, rfl⟩
  rw [hpeq] at hp ⊢
  have hpx : (y.arch.rx a.toNat).toNat = p := hpeq
  let x : Hart := { y with bq := y.bqAfter [a.toNat], blocked := true, onLoad := [], noProg := 0, ibuf := s.fillBuffer { y with bq := y.bqAfter [a.toNat] } }
  let t := if s.tickedNow p then ((s.setHart s.cur { x with wait := .synced }).clearOwed p).tick 1 else s.setHart s.cur { x with wait := .refsync p s.now }
  have hexec : exec (.sysRefsync a) s =
      .next (t.demands s.cur x.arch.grant.base false .nothing (s.blockGranules { y with bq := y.bqAfter [a.toNat] })) := by
    have hloads : (!y.pend.isEmpty) = false := by simp [hpend]
    rw [exec_sysRefsync, execSysRefsync, withHart_canRun hr]
    simp only [hsup, Bool.not_true, Bool.false_eq_true, if_false, hpx, not_le.2 hp, hloads]
    rfl
  by_cases htick : s.tickedNow p = true
  · let u := s.setHart s.cur { x with wait := .synced }
    have ht : t = (u.clearOwed p).tick 1 := if_pos htick
    have hhart : t.hart s.cur = some (({ x with wait := .synced } : Hart).tick 1) := by
      rw [ht, State.clearOwed_eq]
      exact State.hart_setHart_tick s s.cur { x with wait := .synced }
    refine ⟨_, _, hexec, (State.demands_hart ..).trans hhart, Hart.tick_arch .., ?_, ?_, fun _ => ?_⟩
    · rw [State.demands_mem, ht, State.tick_mem, State.clearOwed_eq]
      rfl
    · rw [Hart.tick_wait, if_pos htick]
    · rw [State.demands_ctl, ht]
      exact State.clearOwed_owed (s := u) htick
  · have ht : t = s.setHart s.cur { x with wait := .refsync p s.now } := if_neg htick
    refine ⟨_, { x with wait := .refsync p s.now }, hexec, ?_, rfl, ?_, (if_neg htick).symm, fun h => absurd h htick⟩
    · rw [State.demands_hart, ht, State.hart_setHart_self]
    · rw [State.demands_mem, ht]
      rfl

end

/-! The supervisor's ECALL -/

/-- R312: the sheaf commits, and the system cores receive the record and where the frame is. -/
theorem sysEcall_asks {s : State} {y : Hart} {sh : Sheaf} (h : s.CanEnd [] y sh) (hsup : y.arch.sup = true) :
    ∃ t z, exec .sysEcall s = .next t ∧ t.hart s.cur = some z ∧ z.wait = .answer true ∧ y.Ended z sh sh.seq y.arch ∧
      t.mg.outbox = s.mg.outbox ++ [(2, BitVec.ofNat 64 s.cur :: (List.range 8).map (fun i => y.arch.rcsr (0x300 + i)) ++ [y.arch.rcsr cSAVEPTR])] := by
  obtain ⟨u, z, hu, hz, hended, hwait, -, -, -, hmg, -, -⟩ := h.commits 0 (.answer false)
  obtain ⟨harch, hs, hrest⟩ := id hended
  have hask : u.askCores s.cur = (u.setHart s.cur { z with wait := .answer true }).report 2 (z.ecallReport s.cur) := by
    rw [State.askCores, hz]
    simp only [hwait, Hart.drained_of_no_sheaves hs, if_true]
  refine ⟨(u.setHart s.cur { z with wait := .answer true }).report 2 (z.ecallReport s.cur), { z with wait := .answer true }, ?_,
    State.hart_setHart_self .., rfl, ⟨harch, hs, hrest⟩, ?_⟩
  · rw [exec_sysEcall, execSysEcall, callOp_ends h, if_pos ⟨hsup, rfl⟩, hu, hask]
  · show u.mg.outbox ++ _ = _
    rw [hmg, Hart.ecallReport, harch]
    rfl

/-! MARK -/

section
variable {x : Hart} {v : Adv} (now : Nat) (block : Option Nat) (id : Nat) (arg : W64)

theorem Hart.deliverMark_none (hv : x.adv = none) : x.deliverMark now block id arg = x := by
  simp [Hart.deliverMark, hv]

/-- The awaited mark: the sequencer goes on where it stands. -/
theorem Hart.deliverMark_awaited (hv : x.adv = some v) (hm : v.mode = .await id) : x.deliverMark now block id arg =
    { x with adv := some { v with lastId := id, lastArg := arg, runFrom := now + 1, mode := .run } } := by
  simp [Hart.deliverMark, hv, hm]

/-- Where the sequencer stands after another mark: at the mark's block, or nowhere. -/
def Adv.redirect (v : Adv) (now : Nat) (block : Option Nat) (id : Nat) (arg : W64) : Adv :=
  { v with lastId := id, lastArg := arg, runFrom := now + 1, asked := none, mode := if block.isSome then .run else .idle, apc := block.getD v.apc }

/-- Another mark: the sequencer is redirected, which counts unless it was idle. -/
theorem Hart.deliverMark_other (hv : x.adv = some v) (hm : v.mode ≠ .await id) : x.deliverMark now block id arg =
    ({ x with adv := some (v.redirect now block id arg) } : Hart).count cADVREALIGN (if v.mode = .idle then 0 else 1) := by
  have hmode : (∃ m, v.mode = .await m ∧ m ≠ id) ∨ v.mode = .run ∨ v.mode = .idle := by
    cases hmode : v.mode with
    | await m => exact .inl ⟨m, rfl, fun h => hm (by rw [hmode, h])⟩
    | run => exact .inr (.inl rfl)
    | idle => exact .inr (.inr rfl)
  rcases hmode with ⟨m, hmode, hne⟩ | hmode | hmode
  · cases block <;> simp [Hart.deliverMark, hv, hmode, hne, Adv.redirect]
  · cases block <;> simp [Hart.deliverMark, hv, hmode, Adv.redirect]
  · cases block <;> simp [Hart.deliverMark, hv, hmode, Adv.redirect]

/-- A delivery changes the sequencer and of the counters ADVREALIGN, and it takes no part in the queues (R287). -/
theorem Hart.deliverMark_bq (x : Hart) (q : List BqEntry) : ∃ y, ({ x with bq := q } : Hart).deliverMark now block id arg = { y with bq := q } ∧
    x.deliverMark now block id arg = y ∧ y = { x with adv := y.adv, cnt := y.cnt } ∧ ∀ n, n ≠ cADVREALIGN → fget 0 y.cnt n = fget 0 x.cnt n := by
  rcases Option.eq_none_or_eq_some x.adv with hv | ⟨v, hv⟩
  · exact ⟨x, Hart.deliverMark_none (x := { x with bq := q }) now block id arg hv, Hart.deliverMark_none now block id arg hv, rfl, fun n _ => rfl⟩
  · by_cases hm : v.mode = .await id
    · exact ⟨_, Hart.deliverMark_awaited (x := { x with bq := q }) now block id arg hv hm, Hart.deliverMark_awaited now block id arg hv hm, rfl, fun n _ => rfl⟩
    · exact ⟨_, Hart.deliverMark_other (x := { x with bq := q }) now block id arg hv hm, Hart.deliverMark_other now block id arg hv hm, rfl,
        fun n hn => fget_fset_ne _ _ _ hn⟩

/-- What a delivery makes of the sequencer (R287). -/
theorem Hart.deliverMark_adv (hv : x.adv = some v) :
    ∃ b, (x.deliverMark now block id arg).adv = some b ∧ b.lastId = id ∧ b.lastArg = arg ∧ b.p = v.p ∧ b.queue = v.queue ∧
      (v.mode = .await id → b.mode = .run ∧ b.apc = v.apc) ∧
      (v.mode ≠ .await id → ∀ e, block = some e → b.mode = .run ∧ b.apc = e) ∧
      (v.mode ≠ .await id → block = none → b.mode = .idle) ∧
      fget 0 (x.deliverMark now block id arg).cnt cADVREALIGN = fget 0 x.cnt cADVREALIGN + (if v.mode = .await id ∨ v.mode = .idle then 0 else 1) := by
  by_cases hm : v.mode = .await id
  · rw [Hart.deliverMark_awaited now block id arg hv hm]
    exact ⟨_, rfl, rfl, rfl, rfl, rfl, fun _ => ⟨rfl, rfl⟩, fun h => absurd hm h, fun h => absurd hm h, by simp [hm]⟩
  · rw [Hart.deliverMark_other now block id arg hv hm]
    refine ⟨_, rfl, rfl, rfl, rfl, rfl, fun h => absurd h hm, fun _ e he => ?_, fun _ hnone => ?_, ?_⟩
    · rw [he]
      exact ⟨rfl, rfl⟩
    · rw [hnone]
      rfl
    · rw [Hart.count_cnt, fget_fset_self]
      by_cases hi : v.mode = .idle <;> simp [hm, hi]

end

/-- MARK retires with the mark delivered where a user's hart has a sequencer. -/
theorem mark_retires {a : Reg} {i : BitVec 16} {s : State} {y : Hart} (hr : s.CanRun [a.toNat] y) :
    ∃ w, w = { y with adv := w.adv, cnt := w.cnt } ∧ (∀ n, n ≠ cADVREALIGN → fget 0 w.cnt n = fget 0 y.cnt n) ∧
      w = (if y.arch.sup then y else y.deliverMark s.now (markBlock s y i.toNat) i.toNat (y.arch.r a)) ∧
      ∃ t z sh, exec (.mark a i) s = .next t ∧ s.Alone t ∧ t.hart s.cur = some z ∧ y.cur = some sh ∧ w.Executed z [a.toNat] y.arch.next sh := by
  obtain ⟨u, hbq, hu, huy, hcnt⟩ := Hart.deliverMark_bq s.now (markBlock s y i.toNat) i.toNat (y.arch.r a) y (y.bqAfter [a.toNat])
  obtain ⟨w, hw⟩ : ∃ w, w = if y.arch.sup then y else u := ⟨_, rfl⟩
  have hwy : w = { y with adv := w.adv, cnt := w.cnt } := by
    rw [hw]
    split
    · rfl
    · exact huy
  obtain ⟨x, hx, hy, -⟩ := id hr
  obtain ⟨sh, hc, -⟩ := Hart.ready_cur hy
  have hexec : exec (.mark a i) s = .next (s.retire s.cur (({ w with bq := y.bqAfter [a.toNat] } : Hart).withArch y.arch.next)) := by
    rw [exec_mark, execMark, withHart_canRun hr, hw]
    cases hs : y.arch.sup with
    | true => simp only [if_true]
    | false =>
      simp only [Bool.false_eq_true, if_false]
      exact congrArg (fun v => Host.Outcome.next (s.retire s.cur (v.withArch y.arch.next))) hbq
  obtain ⟨halone, z, hz, hd⟩ := retire_executed (s := s) (y := w) (rs := [a.toNat]) (a := y.arch.next) (sh' := sh)
    (x := ({ w with bq := y.bqAfter [a.toNat] } : Hart).withArch y.arch.next) s.free .nothing (by rw [hwy]; rfl) (by rw [hwy]; exact hc)
  refine ⟨w, hwy, fun n hn => ?_, by rw [hw, hu], _, z, sh, hexec, halone, hz, hc, hd⟩
  rw [hw]
  split
  · rfl
  · exact hcnt n hn

/-- Settles O21. -/
theorem waitsAndMarks : Obligations.WaitsAndMarks := by
  refine ⟨fun s y hr => sysWfi_waits hr, fun a s y sh hr hsup hc => ⟨fun hp => sysRefsync_outside hr hsup hc hp, fun hp hpend => sysRefsync_waits hr hsup hp hpend⟩,
    fun s y sh h hsup _ => sysEcall_asks h hsup, fun a i s y hr => ?_⟩
  obtain ⟨w, hwy, hcnt, hw, t, z, sh, ht, halone, hz, hc, hexec⟩ := mark_retires (i := i) hr
  have hticked (n : Nat) (h1 : n ≠ cCYCLE) (h2 : n ≠ cADVIDLE) : fget 0 z.cnt n = fget 0 w.cnt n := by
    rw [hexec]
    exact Hart.tick_cnt_other _ 1 n h1 h2 (.inl rfl)
  refine ⟨t, z, sh, ht, halone, hz, hc, ?_, fun n h1 h2 => ?_, fun hnone => ?_, fun v hv hsup => ?_⟩
  · rw [hexec, hwy]
    rfl
  · have hlow : n < 0x510 := h2
    exact (hticked n h1 (by simp only [cADVIDLE]; omega)).trans (hcnt n (by simp only [cADVREALIGN]; omega))
  · have hwe : w = y := by
      rw [hw]
      split
      · rfl
      · next hs => exact Hart.deliverMark_none _ _ _ _ (hnone.resolve_right hs)
    exact hwe ▸ hexec
  · have hwd : w = y.deliverMark s.now (markBlock s y i.toNat) i.toNat (y.arch.r a) := by rw [hw, hsup]; rfl
    have hadv : z.adv = w.adv := by rw [hexec]
    rw [hticked cADVREALIGN (by decide) (by decide), hadv, hwd]
    exact Hart.deliverMark_adv _ _ _ _ hv

end Sys2Proof.Machine

/-! ### DBG.WPREL (R144, R321, R322) -/

namespace Sys2Proof.Machine

/-! Tile shapes, the record of a watchpoint, and the return of a frame -/

/-- The eight ZCFG come from `b`, and nothing else does. -/
theorem Arch.rcsr_shapesOf (a b : Arch) (n : Nat) : (a.shapesOf b).rcsr n = if cZCFG ≤ n ∧ n < cZCFG + 8 then b.rcsr n else a.rcsr n := by
  have hfold (l : List Nat) (a : Arch) : (l.foldl (fun a i => a.wcsr (cZCFG + i) (b.rcsr (cZCFG + i))) a).rcsr n =
      if ∃ i ∈ l, n = cZCFG + i then b.rcsr n else a.rcsr n := by
    induction l generalizing a with
    | nil => simp
    | cons i l ih =>
      rw [List.foldl_cons, ih, Arch.rcsr_wcsr]
      by_cases hl : ∃ j ∈ l, n = cZCFG + j
      · rw [if_pos hl, if_pos (by obtain ⟨j, hj, hn⟩ := hl; exact ⟨j, List.mem_cons_of_mem _ hj, hn⟩)]
      · by_cases hn : n = cZCFG + i
        · simp [hn]
        · rw [if_neg hl, if_neg hn, if_neg (by simpa [hn] using hl)]
  rw [Arch.shapesOf, hfold]
  congr 1
  simp only [List.mem_range, eq_iff_iff]
  exact ⟨fun ⟨i, hi, hn⟩ => by omega, fun h => ⟨n - cZCFG, by omega, by omega⟩⟩

theorem Arch.shapesOf_eq (a b : Arch) : a.shapesOf b = { a with csr := (a.shapesOf b).csr } := by
  refine foldl_keeps (P := fun c : Arch => c = { a with csr := c.csr }) _ _ _ rfl fun c i _ hc => ?_
  rw [hc]
  rfl

/-- The record's CSRs, without the mode. -/
theorem Arch.rcsr_withRecord (a : Arch) (c p sp st sl te tl tv : W64) :
    let b := a.withRecord c p sp st sl te tl tv
    b.rcsr 0x300 = c ∧ b.rcsr 0x301 = p ∧ b.rcsr 0x302 = sp ∧ b.rcsr 0x303 = st ∧ b.rcsr 0x304 = sl ∧ b.rcsr 0x305 = te ∧
    b.rcsr 0x306 = tl ∧ b.rcsr 0x307 = tv ∧ b.rcsr cHSTATUS = a.rcsr cHSTATUS := by
  simp [Arch.withRecord, Arch.rcsr_wcsr, cHSTATUS]

theorem Arch.withRecord_csr_only (a : Arch) (c p sp st sl te tl tv : W64) :
    a.withRecord c p sp st sl te tl tv = { a with csr := (a.withRecord c p sp st sl te tl tv).csr } := by
  simp only [Arch.withRecord, Arch.wcsr]

theorem Arch.sup_setBits (a : Arch) (w : W64) : (a.wcsr cHSTATUS (setBits w 0 0 0)).sup = false := by
  rw [Arch.sup, Arch.rcsr_wcsr, if_pos rfl]
  simp only [bit, setBits, bits, Nat.testBit_zero, BitVec.toNat_ofNat]
  simp
  omega

/-- A reload gives user mode, and keeps the pc (R313). -/
theorem State.reload_user {s : State} {live land b : Arch} (h : s.reload live land = some b) : b.sup = false ∧ b.pc = land.pc := by
  let get (off : Nat) : Option W64 := s.peek live.grant (live.rcsr cPTROOT) ((live.rcsr cSAVEPTR).toNat + off)
  let x := (List.range 31).foldl (fun a i => match get (0x48 + 8 * i) with | some v => a.wx (i + 1) v | none => a) land
  let c := frameCsrs.foldl (fun a e => match get e.2 with | some v => a.storeCsr e.1 v | none => a) x
  have hx : x.pc = land.pc := foldl_keeps (P := fun a : Arch => a.pc = land.pc) _ _ land rfl fun a i _ ha => by
    split
    · exact (Arch.wx_pc ..).trans ha
    · exact ha
  have hc : c.pc = land.pc := foldl_keeps (P := fun a : Arch => a.pc = land.pc) _ _ x hx fun a e _ ha => by
    split
    · rw [Arch.storeCsr_eq]
      exact ha
    · exact ha
  unfold State.reload at h
  simp only [Option.ite_none_right_eq_some, Option.some.injEq] at h
  obtain ⟨-, rfl⟩ := h
  exact ⟨Arch.sup_setBits _ _, hc⟩

/-- What is read depends neither on the harts nor on the time. -/
theorem State.peek_setHart_tick (s : State) (h n : Nat) (x : Hart) (g : Grant) (root : W64) (va : Nat) :
    ((s.setHart h x).tick n).peek g root va = s.peek g root va := rfl

/-- A reload reads memory alone. -/
theorem State.reload_congr {s t : State} (h : ∀ g root va, t.peek g root va = s.peek g root va) (live land : Arch) :
    t.reload live land = s.reload live land := by
  unfold State.reload
  simp only [h]

/-! What an abort makes of the hart -/

/-- The registers and CSRs of a hart whose held sheaf `k` is gone. -/
def Arch.backFrom (a : Arch) (k : Sheaf) (tr : Trap) : Arch :=
  (({ k.watchRecord tr false a with v := k.cp.v, m := k.cp.m, q := k.cp.q, z := k.cp.z, tam := k.cp.tam, mp := k.cp.mp } : Arch).wcsr cZSTATE
    (k.cp.rcsr cZSTATE)).shapesOf k.cp

theorem Hart.dropHeld_only {x : Hart} {k : Sheaf} {v : Nat} {tr : Trap} (hs : x.sheaves = [k]) (hk : k.held = some (v, tr)) (n : Nat) :
    x.dropHeld k n = { x with
      arch := x.arch.backFrom k tr, held := none, queue := [], bq := x.bq.filter (fun b => b.here)
      landing := some { arch := k.cp, cap := x.cap, squash := n }, sheaves := [] } := by
  simp [Hart.dropHeld, Arch.backFrom, hs, hk]

/-- A CSR that is neither ZSTATE nor ZCFG is the record's. -/
theorem Arch.rcsr_backFrom (a : Arch) (k : Sheaf) (tr : Trap) {n : Nat} (hz : n ≠ cZSTATE) (hcfg : n < cZCFG ∨ cZCFG + 8 ≤ n) :
    (a.backFrom k tr).rcsr n = (k.watchRecord tr false a).rcsr n := by
  rw [Arch.backFrom, Arch.rcsr_shapesOf, if_neg (by omega), Arch.rcsr_wcsr, if_neg hz, Arch.rcsr, Arch.rcsr]

theorem Arch.backFrom_sides (a : Arch) (k : Sheaf) (tr : Trap) :
    (a.backFrom k tr).pc = a.pc ∧ (a.backFrom k tr).v = k.cp.v ∧ (a.backFrom k tr).m = k.cp.m ∧ (a.backFrom k tr).q = k.cp.q ∧
      (a.backFrom k tr).z = k.cp.z := by
  rw [Arch.backFrom, Arch.shapesOf_eq, Sheaf.watchRecord, Arch.withRecord_csr_only]
  exact ⟨rfl, rfl, rfl, rfl, rfl⟩

/-! The instruction -/

section
variable {s : State} {a : Reg} {x : Hart} {k : Sheaf} {w v : Nat} {tr : Trap}

/-- A hart in a HOLD stop, whose supervisor has nothing open. -/
def Hart.Stopped (x : Hart) (k : Sheaf) (w v : Nat) (tr : Trap) : Prop :=
  x.arch.sup = true ∧ x.held = some w ∧ x.sheaves = [k] ∧ k.held = some (v, tr) ∧ k.want = none ∧ k.trap = none ∧ k.closed = none ∧ x.queue = [] ∧
  x.bq = [] ∧ x.pend = [] ∧ x.ahead = false

/-- The supervisor's side has gone on by one ck. -/
def Hart.resumed (x : Hart) : Hart := ({ x with bq := [], blocked := false, noProg := 0 } : Hart).tick 1

theorem Hart.resumed_eq (x : Hart) : x.resumed = { x with bq := [], blocked := false, noProg := 0, cnt := x.resumed.cnt } := Hart.tick_eq ..

/-- R322: DBG.WPREL has nothing to wait for, and acts on the stop. -/
theorem dbgWprel_acts (hx : s.hart s.cur = some x) (h : x.Stopped k w v tr) : ∃ t, t = (s.setHart s.cur { x with bq := [], blocked := false, noProg := 0 }).tick 1 ∧
    t.hart s.cur = some x.resumed ∧ exec (.dbgWprel a) s = .next (
      if bit (x.arch.rx a.toNat).toNat 0 then (t.setHart s.cur (x.resumed.withArch x.arch.next)).abort s.cur
      else t.release s.cur (packR 54#6 0#5 a 0#5 0#3 1#8)) := by
  obtain ⟨hsup, hheld, hs, hk, hwant, htrap, hclosed, hq, hbq, hpend, hahead⟩ := h
  let e : Hart := { x with bq := [], blocked := false, noProg := 0 }
  have hopen : x.openSheaf = none := by simp [Hart.openSheaf, Hart.cur, hs, hk]
  have hend : x.endSheaf = some e := by simp [Hart.endSheaf, Hart.endSheafAt, hbq, hopen, Hart.close, e]
  let t := (s.setHart s.cur e).tick 1
  have ht : t.hart s.cur = some x.resumed := State.hart_setHart_tick ..
  have hrs : x.resumed.sheaves = [k] := by rw [Hart.resumed_eq]; exact hs
  have hfront : x.resumed.front = 1 := by simp [Hart.front, hrs, hk]
  have hsettle : t.settle s.cur = t := by
    have hpark : x.resumed.parkReady = false := by simp [Hart.parkReady, hrs, hwant]
    have hland : x.resumed.landReady = none := by
      have hrheld : x.resumed.held = some w := by rw [Hart.resumed_eq]; exact hheld
      simp [Hart.landReady, hrheld, hrs, htrap]
    have hrahead : x.resumed.ahead = false := by rw [Hart.resumed_eq]; exact hahead
    simp [State.settle, State.conclude, State.tryCommit, ht, hrahead, hpark, hland, hfront, hrs]
  have hdrained : x.resumed.drained = true := by simp [Hart.drained, hfront, hrs]
  have hwaits : [a.toNat].any x.waitsOn = false := by simp [Hart.waitsOn, Hart.loads, hbq, hpend]
  have harch : x.resumed.arch = x.arch := Hart.tick_arch ..
  refine ⟨t, rfl, ht, ?_⟩
  have hok : (x.arch.sup && x.held.isSome) = true := by simp [hsup, hheld]
  rw [exec_dbgWprel, execDbgWprel, supOp, hx]
  simp only [hok, Bool.not_true, Bool.false_eq_true, if_false, hwaits, hq, List.isEmpty_nil, hend]
  have hsettle' : ((s.setHart s.cur e).tick 1).settle s.cur = t := hsettle
  simp only [hsettle', ht, hdrained, if_true, harch]

end

/-- The hart that a release makes of `x`, with the registers and CSRs `b`. -/
def Hart.released (x : Hart) (k : Sheaf) (b : Arch) : Hart :=
  { x with arch := b, held := none, landing := none, bq := [], pend := [], wait := .none, queue := [], blocked := false, sheaves := [{ k with held := none }] }

/-- R322: a release whose reload passes its check. -/
theorem State.release_of_reload {s : State} {h : Nat} {x : Hart} {k : Sheaf} {l : Landing} {b : Arch} (c : W32) (hx : s.hart h = some x)
    (hl : x.landing = some l) (hs : x.sheaves = [k])
    (hb : s.reload x.arch (({ l.arch with v := x.arch.v, m := x.arch.m, q := x.arch.q, tam := x.arch.tam, mp := x.arch.mp } : Arch).shapesOf x.arch) = some b) :
    s.release h c = s.setHart h (x.released k b) ∧ (s.setHart h (x.released k b)).hart h = some (x.released k b) := by
  refine ⟨?_, State.hart_setHart_self ..⟩
  simp only [State.release, hx, hl, hs, hb]
  rfl

/-- R322: an abort drops the held sheaf. -/
theorem State.abort_drops {s : State} {h : Nat} {x : Hart} {k : Sheaf} {v : Nat} {tr : Trap} (hx : s.hart h = some x) (hs : x.sheaves = [k])
    (hk : k.held = some (v, tr)) (ht : s.arb.token = some h → s.arb.heldWrites = []) :
    (s.abort h).hart h = some (x.dropHeld k x.squash) := by
  obtain ⟨d, hd⟩ := s.traceSheaf_frame h k outTrap 0x05 0
  obtain ⟨ab, hab⟩ := ({ s with due := d } : State).leaveArbiter_eq h ht
  have hidle : (({ s with due := d, arb := ab } : State).updHart h (fun x => x.dropHeld k x.squash)).Idle h (x.dropHeld k x.squash) := by
    refine ⟨?_, by rw [Hart.dropHeld_only hs hk]⟩
    rw [State.hart_updHart_self]
    exact congrArg (Option.map _) hx
  have habort : s.abort h = (({ s with due := d, arb := ab } : State).updHart h (fun x => x.dropHeld k x.squash)).writeFrame k.cp x.cnt k.split x.squash x.cap
      k.cp.pc := by
    simp only [State.abort, hx, hs, hd, hab]
  rw [habort]
  exact (State.writeFrame_idle hidle ..).1

/-- Settles O22. -/
theorem holdStopEnds : Obligations.HoldStopEnds := by
  intro a s x k l w v tr hx hsup hheld hs hk hwant htrap hclosed hq hbq hpend hahead htok hlanding
  obtain ⟨t, ht, hth, hexec⟩ := dbgWprel_acts (a := a) hx ⟨hsup, hheld, hs, hk, hwant, htrap, hclosed, hq, hbq, hpend, hahead⟩
  have hrs : x.resumed.sheaves = [k] := by rw [Hart.resumed_eq]; exact hs
  have hrl : x.resumed.landing = some l := by rw [Hart.resumed_eq]; exact hlanding
  have harch : x.resumed.arch = x.arch := Hart.tick_arch ..
  refine ⟨fun hbit b hb => ?_, fun hbit => ?_⟩
  · obtain ⟨huser, hpc⟩ := State.reload_user hb
    obtain ⟨hrel, hzh⟩ := State.release_of_reload (packR 54#6 0#5 a 0#5 0#3 1#8) hth hrl hrs (b := b) (by
      rw [harch, ht, State.reload_congr (s.peek_setHart_tick s.cur 1 _), hb])
    refine ⟨_, _, hexec.trans (congrArg _ ((if_neg (by simpa using hbit)).trans hrel)), hzh, rfl, huser, ?_, rfl, rfl, rfl, ?_⟩
    · exact hpc.trans (by rw [Arch.shapesOf_eq])
    · rw [ht]
      rfl
  · let y : Hart := x.resumed.withArch x.arch.next
    have hz := State.abort_drops (s := t.setHart s.cur y) (x := y) (State.hart_setHart_self ..) hrs hk (by rw [ht]; exact htok)
    rw [Hart.dropHeld_only (x := y) hrs hk] at hz
    have hcap : y.cap = x.cap := Hart.tick_cap ..
    have hsq : y.squash = x.squash := Hart.tick_squash ..
    obtain ⟨hpc, hv, hm, hq', hzt⟩ := Arch.backFrom_sides y.arch k tr
    obtain ⟨r0, r1, r2, r3, r4, r5, r6, r7, r8⟩ := Arch.rcsr_withRecord y.arch (tr.tcause k.bySplit false) tr.tpc k.stripPc k.strip
      (BitVec.ofNat 64 k.split) tr.telem tr.tlane tr.tval
    have hback (n : Nat) (hn : 0x300 ≤ n) : (y.arch.backFrom k tr).rcsr n = (k.watchRecord tr false y.arch).rcsr n :=
      Arch.rcsr_backFrom _ _ _ (by simp only [cZSTATE]; omega) (.inr (by simp only [cZCFG]; omega))
    refine ⟨_, _, hexec.trans (congrArg _ (if_pos hbit)), hz, rfl, rfl, hpc, ?_, (hback _ (by decide)).trans (r0.trans ?_), (hback _ (by decide)).trans r1,
      (hback _ (by decide)).trans r2, (hback _ (by decide)).trans r3, (hback _ (by decide)).trans r4, (hback _ (by decide)).trans r5,
      (hback _ (by decide)).trans r6, (hback _ (by decide)).trans r7, ?_, hv, hm, hq', hzt, fun i hi => ?_⟩
    · rw [Arch.sup, hback _ (by decide)]
      exact (congrArg (fun v : W64 => bit v.toNat 0) r8).trans hsup
    · simp [Trap.tcause]
    · rw [← hcap, ← hsq]
    · exact (Arch.rcsr_shapesOf ..).trans (if_pos (by omega))

end Sys2Proof.Machine

/-! ### SYS.ERET (R139, R272, R313, R322) -/

namespace Sys2Proof.Machine

/-- What the frame of `x` holds at an offset, as the supervisor reads it. -/
def State.frameOf (s : State) (x : Hart) (off : Nat) : Option W64 := s.peek x.arch.grant (x.arch.rcsr cPTROOT) ((x.arch.rcsr cSAVEPTR).toNat + off)

/-- What an ERET reloads into a CSR from there (R10, R58, R313). -/
def State.eretCsr (s : State) (x : Hart) (l : Landing) (n off : Nat) : W64 := match s.frameOf x off with
  | some v => if n = cSRSEED then (if v = 0 then 1 else v) else v &&& csrMask n
  | none => l.arch.rcsr n

/-- O19 for x1. -/
theorem eretReturns_x1 (h : Obligations.EretReturns) {s : State} {x : Hart} {sh : Sheaf} {l : Landing} (hend : s.CanEnd [] x sh) (hsup : x.arch.sup = true)
    (hw : sh.writes = []) (hr : sh.reds = []) (hheld : s.arb.heldWrites = []) (hl : x.landing = some l)
    (hbt : ∀ k < 4, btcfgOk (s.eretCsr x l (0x12 + 4 * k) (0x1A0 + 24 * k)) = true) (hmsk : mskshapeOk l.arch.grant (s.eretCsr x l cMSKSHAPE 0x180) = true) :
    ∃ t z, exec .sysEret s = .next t ∧ t.hart s.cur = some z ∧ z.arch.rx 1 = (s.frameOf x 0x48).getD (l.arch.rx 1) := by
  obtain ⟨t, z, ht, hz, -, -, -, -, -, -, hx, -⟩ := h s x sh l hend hsup hw hr hheld hl hbt hmsk
  exact ⟨t, z, ht, hz, hx 0 (by decide)⟩

/-! The package of the counterexample.  Hart 0 is a supervisor about to return, hart 1 is in a HOLD stop, and both have their save area at the same place.
The supervisor's sheaf holds no write, but its write set names a granule that the held sheaf has read. -/

namespace EretCase

/-- A whole cluster, a packet, and a hart of them as it starts, with its save area in the scratchpad. -/
def grant : Grant := { quarters := 4, clusters := 1, base := 0, quarter := 0, dies := [0] }
def packet : Packet := { die := 0, queue := 0, bytes := [], prio := 0, ptroot := 0, eng := none, charac := none, since := 0, advice := none }
def user : Hart := newHart State.reset.disp 0 0 packet grant 0

/-- The state to return to. -/
def land : Arch := user.arch.wcsr cSAVEPTR (BitVec.ofNat 64 (3 * 2 ^ 56))

/-- The supervisor's registers and CSRs. -/
def sup : Arch := land.wcsr cHSTATUS 1

/-- The supervisor's sheaf, and the sheaf of the HOLD stop, whose checkpoint has 5 in x1. -/
def sheaf : Sheaf :=
  { newSheaf sup sup.pc 0 sup.pc 0 false false 0 0 true with wset := RecSet.range 0 0 }
def held : Sheaf :=
  { newSheaf (land.wx 1 5) land.pc 0 land.pc 0 false false 0 0 false with
    rset := RecSet.range 0 0, held := some (0, { cause := 0x05, kind := 0, tpc := 0, telem := 0, tlane := 0, tval := 0, seq := 0, opener := false }) }

def landing : Landing := { arch := land, cap := 0, squash := 0 }
def hart0 : Hart := { user with arch := sup, sheaves := [sheaf], landing := some landing }
def hart1 : Hart := { hart0 with sheaves := [held], held := some 0 }

/-- The frame: a legal mask shape and four legal block tables, and 0 elsewhere. -/
def frame : List (Nat × Nat) := (0x180, 0x40_0040) :: (List.range 4).map fun k => (0x1A0 + 24 * k, 0x1_0004)

def start : State :=
  { State.reset with
    harts := [(0, hart0), (1, hart1)]
    mem := frame.foldl (fun m e => fsetMany 0 m (scratchHome 0 e.1) (leBytes 8 e.2)) [] }

/-- x1 of hart 0 after the ERET. -/
def x1After : Option W64 := match exec .sysEret start with
  | .next t => (t.hart start.cur).map fun z => z.arch.rx 1
  | _ => none

theorem start_canEnd : start.CanEnd [] hart0 sheaf :=
  ⟨⟨hart0, rfl, rfl, fun _ h => absurd h List.not_mem_nil⟩, by decide +kernel⟩

theorem hart0_sup : hart0.arch.sup = true := by decide +kernel

/-- The frame is one that an ERET accepts. -/
theorem frame_legal : (∀ k < 4, btcfgOk (start.eretCsr hart0 landing (0x12 + 4 * k) (0x1A0 + 24 * k)) = true) ∧
    mskshapeOk landing.arch.grant (start.eretCsr hart0 landing cMSKSHAPE 0x180) = true := by decide +kernel

theorem frame_x1 : start.frameOf hart0 0x48 = some 0 := by decide +kernel

/-- The commit of the supervisor's sheaf squashes the held sheaf, and the frame of hart 1 is rewritten before hart 0 reloads from it. -/
theorem x1After_eq : x1After = some 5 := by decide +kernel

end EretCase

/-- Refutes O19: the supervisor's sheaf commits before the frame is read (R139), and where its write set meets what a HOLD stop of another hart has read,
that stop's frame is rewritten (R322); in a save area that the two share, the ERET reloads 5 for the 0 that x1 had in the frame.  The premises ask for no write in
the sheaf, but not for an empty write set. -/
theorem not_eretReturns : ¬ Obligations.EretReturns := by
  intro h
  obtain ⟨hbt, hmsk⟩ := EretCase.frame_legal
  obtain ⟨t, z, ht, hz, hx⟩ := eretReturns_x1 h EretCase.start_canEnd EretCase.hart0_sup rfl rfl rfl rfl hbt hmsk
  have hafter : EretCase.x1After = some (z.arch.rx 1) := by
    simp [EretCase.x1After, ht, hz]
  rw [EretCase.frame_x1] at hx
  rw [EretCase.x1After_eq, hx] at hafter
  exact absurd hafter (by decide)

end Sys2Proof.Machine

/-! ### Fences (R168 to R171) -/

namespace Sys2Proof.Machine

/-- A fence does nothing but count in its sheaf: `f` is the count. -/
def FenceDone (i : Instr) (s : State) (y : Hart) (sh : Sheaf) (f : Sheaf → Sheaf) : Prop :=
  ∃ t z, exec i s = .next t ∧ s.Alone t ∧ t.hart s.cur = some z ∧ y.Executed z [] y.arch.next (f sh)

section Fences

variable {i : Instr} {s : State} {y : Hart} {sh : Sheaf} {f : Sheaf → Sheaf}

theorem fenceDone_of_retire (he : exec i s = .next (s.retire s.cur ((({ y with bq := y.bqAfter [] } : Hart).setCur (f sh)).withArch y.arch.next))) :
    FenceDone i s y sh f := by
  obtain ⟨halone, z, hz, hdone⟩ := retire_executed (s := s) (y := y) (rs := []) (a := y.arch.next)
    (x := (({ y with bq := y.bqAfter [] } : Hart).setCur (f sh)).withArch y.arch.next) s.free .nothing
    (by simp [Hart.setCur, Hart.withArch]) (Hart.setCur_cur _ _)
  exact ⟨_, z, he, halone, hz, hdone⟩

theorem fenceDone_of_fenceOp (he : ∀ s, exec i s = fenceOp s f) (hr : s.CanRun [] y) (hc : y.cur = some sh) : FenceDone i s y sh f := by
  have hcur : ({ y with bq := y.bqAfter [] } : Hart).cur = some sh := hc
  refine fenceDone_of_retire ?_
  rw [he, fenceOp, withHart_canRun hr]
  simp only [hcur]

/-- R171: with nothing queued the scalar side does not wait. -/
theorem fenceDone_of_fenceWaitOp (he : ∀ s, exec i s = fenceWaitOp s f) (hr : s.CanRun [] y) (hc : y.cur = some sh) (hq : y.queue = []) :
    FenceDone i s y sh f := by
  have hcur : ({ y with bq := y.bqAfter [] } : Hart).cur = some sh := hc
  refine fenceDone_of_retire ?_
  rw [he, fenceWaitOp, withHart_canRun hr]
  have hempty : ({ y with bq := y.bqAfter [] } : Hart).queue.isEmpty = true := by simp [hq]
  simp only [hcur, hempty, if_true]

end Fences

/-- Settles O12: two fences count at once, and two where nothing is queued. -/
theorem fencesOrder : Obligations.FencesOrder := by
  intro s y sh hr hc done
  exact ⟨fenceDone_of_fenceOp exec_fenceSv hr hc, fenceDone_of_fenceOp exec_fenceVv hr hc, fun hq =>
    ⟨fenceDone_of_fenceWaitOp exec_fenceVs hr hc hq, fenceDone_of_fenceWaitOp exec_fenceAll hr hc hq⟩⟩

end Sys2Proof.Machine

/-! ### A strip that is refused (R36, R97, R147, R309, R311) -/

namespace Sys2Proof.Machine

/-- The landing state of hart with the registers `a` and no sheaf, whose trap is of a strip-opening instruction: the record names the strip that did not open. -/
def Arch.recordOpener (a : Arch) (t : Trap) : Arch :=
  (a.withRecord (t.tcause a.bySplit false) t.tpc t.tpc (a.rcsr cSTRIP + 1) (BitVec.ofNat 64 a.nextSplit) t.telem t.tlane t.tval).setMode 0 1

/-- The trap of a strip-opening instruction lands on a user's hart that has no sheaf. -/
theorem State.landTrap_opener {s : State} {x : Hart} {t : Trap} (hx : s.hart s.cur = some x) (hsup : x.arch.sup = false) (hs : x.sheaves = [])
    (hno : s.NoToken) (hopener : t.opener = true) :
    (s.landTrap s.cur t false).hart s.cur = some ((x.restoreTo 0 x.arch).enter x.arch (x.arch.recordOpener t)) := by
  obtain ⟨a, ha⟩ := s.leaveArbiter_eq s.cur hno.held
  have hland : s.landTrap s.cur t false = ((({ s with arb := a } : State).updHart s.cur (fun y => y.restoreTo 0 x.arch)).writeFrame
      x.arch x.cnt x.arch.nextSplit x.squash x.cap x.arch.pc).updHart s.cur (fun y => y.enter x.arch (x.arch.recordOpener t)) := by
    simp only [State.landTrap, hx, hsup, hs, hno.areaFree, hopener, ha, Bool.false_eq_true, if_false, if_true, List.head?_nil, Option.map_none,
      Option.getD_none, Bool.not_true, Bool.false_or, List.foldl_nil, Arch.recordOpener]
  have hidle : (({ s with arb := a } : State).updHart s.cur (fun y => y.restoreTo 0 x.arch)).Idle s.cur (x.restoreTo 0 x.arch) := by
    refine ⟨?_, by simp [Hart.restoreTo]⟩
    rw [State.hart_updHart_self]
    exact congrArg (Option.map _) hx
  rw [hland, State.hart_updHart_self, (State.writeFrame_idle hidle ..).1]
  rfl

/-- What a strip-opening instruction whose VTYPE is illegal comes to on a hart that has no sheaf. -/
theorem stripOp_illegal {s : State} {x : Hart} {d : Nat} {rs : List Nat} (h : s.CanOpen x (d :: rs)) (hs : x.sheaves = []) {bad : Arch → Bool}
    (hbad : bad x.arch = true) (w : W32) (ask : State → Hart → Arch → Nat → StripAsk) :
    stripOp s d rs w bad ask = .next (((s.setHart s.cur x).tick 1).landTrap s.cur
      { plainTrap 0x01 0 x.arch.pc (w.setWidth 64) x.seqNow with opener := true } false) := by
  obtain ⟨hx, hsup, -, -, -, -, -, hwaits, -⟩ := h
  have hany : (d :: rs).any x.waitsOn = false := List.any_eq_false.2 fun r hr => by simp [hwaits r hr]
  have hopen : x.openSheaf = none := by simp [Hart.openSheaf, Hart.cur, hs]
  simp only [stripOp, hx, hsup, hany, hbad, hs, State.openerTrap, hopen, Bool.false_eq_true, if_false, List.isEmpty_nil, Bool.or_true, Bool.and_self, if_true]

theorem Arch.sup_of_setBits {a : Arch} {w : W64} (h : a.rcsr cHSTATUS = setBits w 1 0 1) : a.sup = true := by
  rw [Arch.sup, h, setBits, BitVec.toNat_ofNat, bit, Nat.testBit_mod_two_pow]
  simp only [bits]
  norm_num
  omega

theorem Hart.enter_arch (x : Hart) (a b : Arch) : (x.enter a b).arch = { b with pc := alignPc (b.rcsr cTVEC) } := rfl

/-- TCAUSE holds the cause in its low bits (R307). -/
theorem Trap.cause_of_tcause {t : Trap} (hkind : t.kind = 0) (hcause : t.cause = 1) (b : Bool) : bits (t.tcause b false).toNat 7 0 = 1 := by
  cases b <;> simp [Trap.tcause, hkind, hcause, bits]

/-- Settles O40: the trap lands at once, at the state before the instruction. -/
theorem illegalStripTraps : Obligations.IllegalStripTraps := by
  intro d a v s x hopen hno hs _ hbad
  obtain ⟨hx, hsup, -⟩ := id hopen
  obtain ⟨t, ht⟩ : ∃ t : Trap, t = { plainTrap 0x01 0 x.arch.pc ((packI 33#6 d a (0#5 ++ v)).setWidth 64) x.seqNow with opener := true } := ⟨_, rfl⟩
  have hexec : exec (.setvli d a v) s = .next (((s.setHart s.cur x).tick 1).landTrap s.cur t false) := by
    rw [exec_setvli, execSetvli, ht]
    exact stripOp_illegal hopen hs (by simpa using hbad) _ _
  have hy : ((s.setHart s.cur x).tick 1).hart s.cur = some (x.tick 1) := State.hart_setHart_tick ..
  have hland := State.landTrap_opener (t := t) hy (by rw [Hart.tick_arch]; exact hsup) (by rw [Hart.tick_sheaves]; exact hs) hno (by rw [ht])
  rw [Hart.tick_arch] at hland
  obtain ⟨b, hb⟩ : ∃ b, x.arch.recordOpener t = b := ⟨_, rfl⟩
  obtain ⟨hcause, htpc, -, hstrip, -, -, -, htval, hstatus⟩ := Arch.record_reads x.arch (t.tcause x.arch.bySplit false) t.tpc t.tpc
    (x.arch.rcsr cSTRIP + 1) (BitVec.ofNat 64 x.arch.nextSplit) t.telem t.tlane t.tval
  have hothers (n : Nat) (hn : ¬ recordCsr n) : b.rcsr n = x.arch.rcsr n := hb ▸ Arch.record_others x.arch _ _ _ _ _ _ _ _ n hn
  have hframe := Arch.withRecord_eq x.arch (t.tcause x.arch.bySplit false) t.tpc t.tpc
    (x.arch.rcsr cSTRIP + 1) (BitVec.ofNat 64 x.arch.nextSplit) t.telem t.tlane t.tval
  rw [← Arch.recordOpener, hb] at hcause htpc hstrip htval hstatus hframe
  rw [hb] at hland
  refine ⟨_, _, hexec, hland, ?_⟩
  rw [Hart.enter_arch]
  refine ⟨?_, Arch.sup_of_setBits hstatus, htpc.trans (by rw [ht]; rfl), ?_, htval.trans (by rw [ht]; rfl), hstrip,
    hothers cVTYPE (by simp [recordCsr, cVTYPE, cHSTATUS]), hothers cVL (by simp [recordCsr, cVL, cHSTATUS]), ?_, ?_, ?_⟩
  · exact congrArg alignPc (hothers cTVEC (by simp [recordCsr, cTVEC, cHSTATUS]))
  · exact (congrArg (fun c : W64 => bits c.toNat 7 0) hcause).trans (Trap.cause_of_tcause (by rw [ht]; rfl) (by rw [ht]; rfl) _)
  · show b.x = _
    rw [hframe]
  · show b.v = _
    rw [hframe]
  · simp [Hart.enter, Hart.restoreTo]

end Sys2Proof.Machine

/-! ### Elements of register groups (R21, R32, R54) -/

namespace Sys2Proof.Machine

theorem leNat_leBytes (n x : Nat) : leNat (leBytes n x) = x % 2 ^ (8 * n) := by
  induction n generalizing x with
  | zero => simp [leBytes, leNat, Nat.mod_one]
  | succ n ih =>
    rw [leBytes, leNat, ih, BitVec.toNat_ofNat, Nat.mul_succ, Nat.add_comm (8 * n), Nat.pow_add, Nat.mod_mul]

theorem fgetMany_congr {β : Type} {d : β} {m m' : FMap β} {n len : Nat} (h : ∀ i < len, fget d m (n + i) = fget d m' (n + i)) :
    fgetMany d m n len = fgetMany d m' n len := by
  apply List.ext_getElem?
  intro i
  by_cases hi : i < len
  · rw [getElem?_fgetMany d m n hi, getElem?_fgetMany d m' n hi, h i hi]
  · rw [List.getElem?_eq_none (by rw [length_fgetMany]; omega), List.getElem?_eq_none (by rw [length_fgetMany]; omega)]

theorem fgetMany_fsetMany_self {β : Type} [DecidableEq β] (d : β) (m : FMap β) (n : Nat) (vs : List β) :
    fgetMany d (fsetMany d m n vs) n vs.length = vs := by
  apply List.ext_getElem?
  intro i
  by_cases hi : i < vs.length
  · rw [getElem?_fgetMany _ _ _ hi, fget_fsetMany, if_pos (by omega), Nat.add_sub_cancel_left, List.getD_eq_getElem?_getD,
      List.getElem?_eq_getElem hi, Option.getD_some]
  · rw [List.getElem?_eq_none (by rw [length_fgetMany]; omega), List.getElem?_eq_none (by omega)]

/-- A width of elements, and the bytes of a register, as grants and VTYPE give them (R17, R35). -/
structure ElemShape (vb w : Nat) : Prop where
  width : w = 4 ∨ w = 8 * 1 ∨ w = 8 * 2 ∨ w = 8 * 4 ∨ w = 8 * 8
  pos : 0 < vb
  le : vb ≤ 131072
  dvd : 8 ∣ vb

/-- The elements of width `w` that one register holds. -/
def regElems (vb w : Nat) : Nat := vb * 8 / w

/-- A group's bytes are those of all registers in a row, from the group's first. -/
theorem vKey_base {vb : Nat} (hpos : 0 < vb) (n b : Nat) : vKey vb n b = vKey vb 0 (n * vb + b) := by
  rw [vKey, vKey, Nat.add_comm (n * vb), Nat.add_mul_div_right _ _ hpos, Nat.add_mul_mod_self_right, Nat.zero_add, Nat.add_comm n]

theorem vKey_inj {vb : Nat} (hpos : 0 < vb) (hle : vb ≤ 131072) {b b' : Nat} (h : vKey vb 0 b = vKey vb 0 b') : b = b' := by
  have h1 := Nat.mod_lt b hpos
  have h2 := Nat.mod_lt b' hpos
  simp only [vKey, Nat.zero_add] at h
  have hdiv : b / vb = b' / vb := by omega
  have hmod : b % vb = b' % vb := by omega
  rw [← Nat.div_add_mod b vb, ← Nat.div_add_mod b' vb, hdiv, hmod]

/-- An element of `k` bytes lies in one register. -/
theorem vKey_add {vb k i : Nat} (hpos : 0 < vb) (hk : k ∣ vb) (hi : i < k) (n e : Nat) : vKey vb n (e * k) + i = vKey vb n (e * k + i) := by
  obtain ⟨c, rfl⟩ := hk
  have hc : 0 < c := Nat.pos_of_mul_pos_left hpos
  have hmod : e * k % (k * c) = k * (e % c) := by rw [Nat.mul_comm e, Nat.mul_mod_mul_left]
  have hlt : e * k % (k * c) + i < k * c := by
    have := Nat.mod_lt e hc
    have : k * (e % c + 1) ≤ k * c := Nat.mul_le_mul_left k this
    rw [hmod]
    rw [Nat.mul_succ] at this
    omega
  have hsplit : e * k + i = (e * k % (k * c) + i) + (e * k / (k * c)) * (k * c) := by
    have := Nat.div_add_mod (e * k) (k * c)
    rw [Nat.mul_comm] at this
    omega
  have hdiv : (e * k + i) / (k * c) = e * k / (k * c) := by
    rw [hsplit, Nat.add_mul_div_right _ _ hpos, Nat.div_eq_of_lt hlt, Nat.zero_add]
  have hrest : (e * k + i) % (k * c) = e * k % (k * c) + i := by
    rw [hsplit, Nat.add_mul_mod_self_right, Nat.mod_eq_of_lt hlt]
  rw [vKey, vKey, hdiv, hrest, Nat.add_assoc]

theorem vKey_bounds {vb n b g : Nat} (hpos : 0 < vb) (hle : vb ≤ 131072) (hb : b < g * vb) :
    n * 131072 ≤ vKey vb n b ∧ vKey vb n b < (n + g) * 131072 := by
  have hdiv : b / vb < g := (Nat.div_lt_iff_lt_mul hpos).2 hb
  have hmod := Nat.mod_lt b hpos
  unfold vKey
  generalize b / vb = q at hdiv
  omega

theorem getElem_nibble (a : Arch) (vb n e : Nat) : getElem a vb 4 n e =
    if e % 2 = 0 then (fget 0 a.v (vKey vb n (e / 2))).toNat % 16 else (fget 0 a.v (vKey vb n (e / 2))).toNat / 16 := rfl

theorem getElem_bytes (a : Arch) (vb n e : Nat) {k : Nat} : getElem a vb (8 * k) n e = leNat (fgetMany 0 a.v (vKey vb n (e * k)) k) := by
  simp only [getElem, show ¬ 8 * k = 4 by omega, if_false, Nat.mul_div_cancel_left k (by decide : 0 < 8)]

theorem setElem_eq (a : Arch) (vb w n e x : Nat) : setElem a vb w n e x = { a with v := (setElem a vb w n e x).v } := by
  unfold setElem
  split <;> rfl

theorem setElem_bytes (a : Arch) (vb n e x : Nat) {k : Nat} :
    (setElem a vb (8 * k) n e x).v = fsetMany 0 a.v (vKey vb n (e * k)) (leBytes k x) := by
  simp only [setElem, show ¬ 8 * k = 4 by omega, if_false, Nat.mul_div_cancel_left k (by decide : 0 < 8)]

/-- The byte of a group that holds element `e` of half a byte becomes what it is with the element in its half. -/
theorem setElem_nibble (a : Arch) (vb n e x : Nat) : (setElem a vb 4 n e x).v = fset 0 a.v (vKey vb n (e / 2)) (BitVec.ofNat 8
    (if e % 2 = 0 then (fget 0 a.v (vKey vb n (e / 2))).toNat / 16 * 16 + x % 16
      else x % 16 * 16 + (fget 0 a.v (vKey vb n (e / 2))).toNat % 16)) := rfl

section Shape

variable {vb w : Nat}

/-- Elements of whole bytes. -/
theorem ElemShape.bytes (h : ElemShape vb w) (hw : w ≠ 4) : ∃ k, w = 8 * k ∧ 0 < k ∧ k ∣ vb := by
  obtain ⟨hwidth, -, -, hdvd⟩ := h
  rcases hwidth.resolve_left hw with rfl | rfl | rfl | rfl
  · exact ⟨1, rfl, by decide, Nat.one_dvd _⟩
  · exact ⟨2, rfl, by decide, Nat.dvd_trans (by decide) hdvd⟩
  · exact ⟨4, rfl, by decide, Nat.dvd_trans (by decide) hdvd⟩
  · exact ⟨8, rfl, by decide, hdvd⟩

theorem regElems_nibble (vb : Nat) : regElems vb 4 = vb * 2 := by
  unfold regElems
  omega

theorem regElems_bytes (vb : Nat) {k : Nat} : regElems vb (8 * k) = vb / k := by
  rw [regElems, Nat.mul_comm vb, Nat.mul_div_mul_left _ _ (by decide)]

/-- Element `e` of a group is an element of all registers in a row. -/
theorem ElemShape.byteOf (h : ElemShape vb w) (n e : Nat) :
    (w = 4 → (n * regElems vb w + e) / 2 = n * vb + e / 2 ∧ (n * regElems vb w + e) % 2 = e % 2) ∧
    (∀ k, w = 8 * k → (n * regElems vb w + e) * k = n * vb + e * k) := by
  refine ⟨fun hw => ?_, fun k hw => ?_⟩
  · subst hw
    rw [regElems_nibble, ← Nat.mul_assoc]
    omega
  · obtain ⟨k', hw', -, hdvd⟩ := h.bytes (by omega)
    obtain rfl : k' = k := by omega
    rw [hw, regElems_bytes, Nat.add_mul, Nat.mul_assoc, Nat.div_mul_cancel hdvd]

theorem ElemShape.getElem_base (h : ElemShape vb w) (a : Arch) (n e : Nat) : getElem a vb w n e = getElem a vb w 0 (n * regElems vb w + e) := by
  obtain ⟨hhalf, hbytes⟩ := h.byteOf n e
  by_cases hw : w = 4
  · obtain ⟨hdiv, hmod⟩ := hhalf hw
    subst hw
    rw [getElem_nibble, getElem_nibble, hdiv, hmod, ← vKey_base h.pos]
  · obtain ⟨k, rfl, -, -⟩ := h.bytes hw
    rw [getElem_bytes, getElem_bytes, hbytes k rfl, ← vKey_base h.pos]

theorem ElemShape.setElem_base (h : ElemShape vb w) (a : Arch) (n e x : Nat) :
    setElem a vb w n e x = setElem a vb w 0 (n * regElems vb w + e) x := by
  obtain ⟨hhalf, hbytes⟩ := h.byteOf n e
  suffices hv : (setElem a vb w n e x).v = (setElem a vb w 0 (n * regElems vb w + e) x).v by
    rw [setElem_eq, setElem_eq a vb w 0, hv]
  by_cases hw : w = 4
  · obtain ⟨hdiv, hmod⟩ := hhalf hw
    subst hw
    rw [setElem_nibble, setElem_nibble, hdiv, hmod, ← vKey_base h.pos]
  · obtain ⟨k, rfl, -, -⟩ := h.bytes hw
    rw [setElem_bytes, setElem_bytes, hbytes k rfl, ← vKey_base h.pos]

/-- A read of an element after a write of one, among all registers in a row. -/
theorem ElemShape.getElem_setElem_row (h : ElemShape vb w) (a : Arch) (i j x : Nat) :
    getElem (setElem a vb w 0 i x) vb w 0 j = if j = i then x % 2 ^ w else getElem a vb w 0 j := by
  by_cases hw : w = 4
  · subst hw
    have hbyte := (fget 0 a.v (vKey vb 0 (i / 2))).isLt
    rw [getElem_nibble, getElem_nibble, setElem_nibble, fget_fset]
    by_cases hkey : j / 2 = i / 2
    · rw [hkey, if_pos rfl, BitVec.toNat_ofNat]
      by_cases hji : j = i
      · rw [if_pos hji, hji]
        split <;> omega
      · rw [if_neg hji]
        by_cases hi : i % 2 = 0
        · rw [if_pos hi, if_neg (by omega), if_neg (by omega)]
          omega
        · rw [if_neg hi, if_pos (by omega), if_pos (by omega)]
          omega
    · have hne : vKey vb 0 (j / 2) ≠ vKey vb 0 (i / 2) := fun hk => hkey (vKey_inj h.pos h.le hk)
      rw [if_neg hne, if_neg (fun hji : j = i => hkey (by rw [hji]))]
  · obtain ⟨k, rfl, hk, hdvd⟩ := h.bytes hw
    rw [getElem_bytes, getElem_bytes, setElem_bytes]
    by_cases hji : j = i
    · have hread := fgetMany_fsetMany_self (0 : Byte) a.v (vKey vb 0 (i * k)) (leBytes k x)
      rw [length_leBytes] at hread
      rw [if_pos hji, hji, hread, leNat_leBytes]
    · rw [if_neg hji]
      refine congrArg leNat (fgetMany_congr fun b hb => ?_)
      rw [fget_fsetMany, length_leBytes, if_neg]
      rintro ⟨hlo, hhi⟩
      obtain ⟨c, hc, hck⟩ : ∃ c, vKey vb 0 (j * k) + b = vKey vb 0 (i * k) + c ∧ c < k := ⟨_, (Nat.add_sub_cancel' hlo).symm, by omega⟩
      rw [vKey_add h.pos hdvd hb, vKey_add h.pos hdvd hck] at hc
      have hbytes := vKey_inj h.pos h.le hc
      have hdiv (e d : Nat) (hd : d < k) : (e * k + d) / k = e := by
        rw [Nat.add_comm, Nat.add_mul_div_right _ _ hk, Nat.div_eq_of_lt hd, Nat.zero_add]
      exact hji (by rw [← hdiv j b hb, hbytes, hdiv i c hck])

/-- A read of an element of a group after a write of one (R21). -/
theorem ElemShape.getElem_setElem (h : ElemShape vb w) (a : Arch) (n i x n' j : Nat) : getElem (setElem a vb w n i x) vb w n' j =
    if n' * regElems vb w + j = n * regElems vb w + i then x % 2 ^ w else getElem a vb w n' j := by
  rw [h.getElem_base, h.setElem_base, h.getElem_setElem_row, ← h.getElem_base]

/-- A write of an element of a group leaves what lies outside the group alone. -/
theorem ElemShape.fget_setElem (h : ElemShape vb w) (a : Arch) {n g i : Nat} (hi : i < g * regElems vb w) (x : Nat) {k : Nat}
    (hk : k < n * 131072 ∨ (n + g) * 131072 ≤ k) : fget 0 (setElem a vb w n i x).v k = fget 0 a.v k := by
  by_cases hw : w = 4
  · subst hw
    rw [regElems_nibble, ← Nat.mul_assoc] at hi
    have hbounds := vKey_bounds (n := n) (b := i / 2) (g := g) h.pos h.le (by omega)
    rw [setElem_nibble, fget_fset_ne]
    omega
  · obtain ⟨c, rfl, hc, hdvd⟩ := h.bytes hw
    rw [setElem_bytes, fget_fsetMany, length_leBytes, if_neg]
    rintro ⟨hlo, hhi⟩
    obtain ⟨b, hb, hbc⟩ : ∃ b, k = vKey vb n (i * c) + b ∧ b < c := ⟨k - vKey vb n (i * c), by omega, by omega⟩
    rw [vKey_add h.pos hdvd hbc] at hb
    have hlast : i * c + b < g * vb := by
      have hle : (i + 1) * c ≤ g * regElems vb (8 * c) * c := Nat.mul_le_mul_right c hi
      rw [regElems_bytes, Nat.mul_assoc, Nat.div_mul_cancel hdvd, Nat.add_mul] at hle
      omega
    have hbounds := vKey_bounds (n := n) (g := g) h.pos h.le hlast
    omega

end Shape

/-! Groups of elements written one after the other -/

/-- Elements of width `w` as they are written in turn: the group, the place in it, and the value of each. -/
def Arch.setElems (vb w : Nat) (l : List (Nat × Nat × Nat)) (a : Arch) : Arch := l.foldl (fun a q => setElem a vb w q.1 q.2.1 q.2.2) a

theorem Arch.setElems_eq (vb w : Nat) (l : List (Nat × Nat × Nat)) (a : Arch) : a.setElems vb w l = { a with v := (a.setElems vb w l).v } :=
  foldl_keeps (P := fun b : Arch => b = { a with v := b.v }) _ l a rfl fun b q _ hb => by rw [setElem_eq, hb]

theorem Arch.setElems_append (vb w : Nat) (l l' : List (Nat × Nat × Nat)) (a : Arch) :
    (a.setElems vb w l).setElems vb w l' = a.setElems vb w (l ++ l') := List.foldl_append.symm

/-- The place of an element among all registers in a row. -/
def rowOf (vb w n i : Nat) : Nat := n * regElems vb w + i

/-- An element that is written holds what one of the writes gives it, and any other is as it was. -/
theorem ElemShape.getElem_setElems {vb w : Nat} (h : ElemShape vb w) (l : List (Nat × Nat × Nat)) (a : Arch) (n i : Nat) :
    (∃ q ∈ l, rowOf vb w q.1 q.2.1 = rowOf vb w n i ∧ getElem (a.setElems vb w l) vb w n i = q.2.2 % 2 ^ w) ∨
    ((∀ q ∈ l, rowOf vb w q.1 q.2.1 ≠ rowOf vb w n i) ∧ getElem (a.setElems vb w l) vb w n i = getElem a vb w n i) := by
  induction l generalizing a with
  | nil => exact .inr ⟨by simp, rfl⟩
  | cons p l ih =>
    rcases ih (setElem a vb w p.1 p.2.1 p.2.2) with ⟨q, hq, hrow, hval⟩ | ⟨hnone, hval⟩
    · exact .inl ⟨q, List.mem_cons_of_mem p hq, hrow, hval⟩
    · have hstep := hval.trans (h.getElem_setElem a p.1 p.2.1 p.2.2 n i)
      by_cases hp : rowOf vb w p.1 p.2.1 = rowOf vb w n i
      · exact .inl ⟨p, List.mem_cons_self, hp, hstep.trans (if_pos hp.symm)⟩
      · refine .inr ⟨fun q hq => ?_, hstep.trans (if_neg (Ne.symm hp))⟩
        rcases List.mem_cons.1 hq with rfl | hq
        · exact hp
        · exact hnone q hq

theorem ElemShape.fget_setElems {vb w : Nat} (h : ElemShape vb w) {l : List (Nat × Nat × Nat)} {k : Nat} (a : Arch)
    (hl : ∀ q ∈ l, ∃ g, q.2.1 < g * regElems vb w ∧ (k < q.1 * 131072 ∨ (q.1 + g) * 131072 ≤ k)) :
    fget 0 (a.setElems vb w l).v k = fget 0 a.v k :=
  foldl_keeps (P := fun b : Arch => fget 0 b.v k = fget 0 a.v k) _ l a rfl fun b q hq hb => by
    obtain ⟨g, hi, hk⟩ := hl q hq
    rw [h.fget_setElem b hi q.2.2 hk, hb]

end Sys2Proof.Machine

/-! ### An instruction of the vector side that raises no flag (R22, R38, R335) -/

namespace Sys2Proof.Machine

/-- Only what instructions of the vector side write differs (R32). -/
def Arch.VectorOnly (a b : Arch) : Prop :=
  b = { a with v := b.v, m := b.m, q := b.q, z := b.z, tam := b.tam, mp := b.mp }

/-- What such an instruction leaves: the registers `b`, and its sheaf. -/
def Ran.calm (a b : Arch) (sh : Sheaf) (n : Nat) : Ran :=
  .done { acc := { VAcc.start a with arch := b }, sheaf := sh, free := n, hold := none, cls := none }

/-- A queued instruction that runs to its end with the registers `b` and the sheaf `sh'`, whose reads are no longer asked for. -/
theorem vecStep_of_calm {i : Instr} {s : State} {y : Hart} {sh sh' sh₁ : Sheaf} {k : Issue} {resv : Hart → FMap Nat} {op : Arch → VOp} {r : FMap Nat}
    {o : VOp} {b : Arch} {n c : Nat} {R : Arch → Prop} (hv : s.VReady k.regs y sh) (hexec : exec i s = issueV s k resv op)
    (hr : resv { y with bq := y.bqAfter k.regs } = r) (hfit : resvFits [sh] r = true) (ho : op y.arch = o) (hop : o.isStrip = false)
    (hcharge : (y.entryOf sh k r o).charge = c) (hbq : k.bq = none) (hrun : s.placedRun y sh k r o = .calm y.arch.next b sh₁ n)
    (htime : s.ms.timed = false ∨ sh₁.asks = []) (hb : y.arch.next.VectorOnly b) (hsh : { sh₁ with asks := [] } = { sh' with asks := [] })
    (hmarks : sh'.closed = sh.closed ∧ sh'.trap = sh.trap ∧ sh'.want = sh.want) (hregs : ∀ csr, R { b with csr := csr }) :
    VecStep i s y k.regs sh' c none (y.arch.calm R) := by
  subst hr ho hcharge
  obtain ⟨-, -, -, -, -, -, hclosed, htrap, hwant, -⟩ := id hv
  obtain ⟨hc, ht, hw⟩ := hmarks
  have hwant₁ : sh₁.want = none := (congrArg Sheaf.want hsh).trans (hw.trans hwant)
  have htrap₁ : sh₁.trap = none := (congrArg Sheaf.trap hsh).trans (ht.trans htrap)
  have hclosed₁ : sh₁.closed = none := (congrArg Sheaf.closed hsh).trans (hc.trans hclosed)
  obtain ⟨t, z, hstep, halone, hz, hcnt, hdone, harch⟩ := issueV_runs hv hop hfit hrun htime (Nat.zero_and _) rfl hwant₁ htrap₁ hclosed₁
    (by simp [hbq])
  simp only [hbq] at harch hdone
  have ht : { t with mskcnt := s.mskcnt } = t := by
    have hcnt : t.mskcnt = s.mskcnt := hcnt
    rw [← hcnt]
  rw [ht] at halone
  refine ⟨t, z, hexec.trans hstep, halone, hz, ?_, ?_⟩
  · obtain ⟨hz, hcnt⟩ := hdone
    refine ⟨hz.trans ?_, hcnt⟩
    rw [hsh]
    rfl
  · have hzb : z.arch = { b with csr := z.arch.csr } := by rw [harch]; rfl
    have hread (n : Nat) : b.rcsr n = y.arch.rcsr n := by rw [hb]; rfl
    refine ⟨?_, fun n => ?_, hzb ▸ hregs _⟩
    · rw [hzb, hb]
    · rw [harch, Arch.rcsr_wcsr, Arch.orFlags, Arch.rcsr_wcsr]
      by_cases hseed : n = cSRSEED
      · subst hseed
        rfl
      · simp only [hseed, if_false]
        by_cases hfcsr : n = cFCSR
        · simp only [hfcsr, if_true, hread]
          rfl
        · by_cases hz : n = cZSTATE
          · simp [hz, hread]
            rfl
          · simp [hfcsr, hz, hread]

end Sys2Proof.Machine

/-! ### The bytes that a queued read sees (R169 to R171, R277) -/

namespace Sys2Proof.Machine

/-- A read has the committed byte, one that the sheaf wrote before, or one of a later access that no rule orders after it. -/
theorem readByte_value (r : Reader) (ws : List WRec) (old : Byte) (by_ : Option WRec) (sts : Bool) (n : Nat) :
    (readByte r old by_ sts ws n).1 = old ∨
      ∃ w ∈ ws, (readByte r old by_ sts ws n).1 = w.val ∧ (w.seq < r.seq ∨ overtakes w r = true) := by
  induction ws generalizing old by_ sts n with
  | nil => exact .inl rfl
  | cons w ws ih =>
    have hpass (by' : Option WRec) (sts' : Bool) (m : Nat) : (readByte r old by' sts' ws m).1 = old ∨
        ∃ v ∈ w :: ws, (readByte r old by' sts' ws m).1 = v.val ∧ (v.seq < r.seq ∨ overtakes v r = true) :=
      (ih old by' sts' m).imp_right fun ⟨v, hv, h⟩ => ⟨v, List.mem_cons_of_mem w hv, h⟩
    have htake (hw : w.seq < r.seq ∨ overtakes w r = true) (by' : Option WRec) (sts' : Bool) (m : Nat) :
        ∃ v ∈ w :: ws, (readByte r w.val by' sts' ws m).1 = v.val ∧ (v.seq < r.seq ∨ overtakes v r = true) := by
      rcases ih w.val by' sts' m with h | ⟨v, hv, h⟩
      · exact ⟨w, List.mem_cons_self, h, hw⟩
      · exact ⟨v, List.mem_cons_of_mem w hv, h⟩
    rw [readByte]
    split
    · exact hpass ..
    · split
      · split
        · next hover =>
          cases freeBit n with
          | true => exact .inr (htake (.inr hover) ..)
          | false => exact hpass ..
        · exact hpass ..
      · next hlater =>
        have hbefore : w.seq < r.seq := by omega
        split
        · exact .inr (htake (.inl hbefore) ..)
        · split
          · exact hpass ..
          · cases freeBit n with
            | true => exact .inr (htake (.inl hbefore) ..)
            | false => exact hpass ..

/-- Writes of the reader's own instruction give a read nothing. -/
theorem readByte_own {r : Reader} {ws : List WRec} (hws : ∀ v ∈ ws, v.seq = r.seq) (old : Byte) (by_ : Option WRec) (sts : Bool) (n : Nat) :
    (readByte r old by_ sts ws n).1 = old := by
  rcases readByte_value r ws old by_ sts n with h | ⟨w, hw, -, hlt | hover⟩
  · exact h
  · have := hws w hw
    omega
  · have := hws w hw
    simp only [overtakes, Bool.and_eq_true, decide_eq_true_eq] at hover
    omega

/-- The buffer of `sh'` is that of `sh` with writes of the instruction at the place of `r`. -/
def Sheaf.Grows (r : Reader) (sh sh' : Sheaf) : Prop :=
  ∀ a, (∀ v ∈ fget [] sh'.writes a, v ∈ fget [] sh.writes a ∨ v.seq = r.seq) ∧
    ((∀ v ∈ fget [] sh.writes a, v.seq < r.seq) → ∃ own, fget [] sh'.writes a = fget [] sh.writes a ++ own ∧ ∀ v ∈ own, v.seq = r.seq)

theorem Sheaf.Grows.of_writes_eq {sh sh' : Sheaf} (h : sh'.writes = sh.writes) (r : Reader) : sh.Grows r sh' := by
  intro a
  rw [h]
  exact ⟨fun v hv => .inl hv, fun _ => ⟨[], by simp, by simp⟩⟩

/-- What a read of a byte gives is what the reader may see of it, whatever its own instruction has written before. -/
theorem seenBy_readByte (s : State) {sh sh' : Sheaf} {r : Reader} (hgrows : sh.Grows r sh') (a n : Nat) :
    SeenBy s sh r a (readByte r (fget 0 s.mem a) none false (fget [] sh'.writes a) n).1 := by
  obtain ⟨hold, hown⟩ := hgrows a
  have hvalue : (readByte r (fget 0 s.mem a) none false (fget [] sh'.writes a) n).1 = fget 0 s.mem a ∨
      ∃ w ∈ fget [] sh.writes a, (readByte r (fget 0 s.mem a) none false (fget [] sh'.writes a) n).1 = w.val ∧
        (w.seq < r.seq ∨ overtakes w r = true) := by
    refine (readByte_value r (fget [] sh'.writes a) (fget 0 s.mem a) none false n).imp_right fun ⟨w, hw, hval, hwhen⟩ => ?_
    refine ⟨w, (hold w hw).resolve_right fun hseq => ?_, hval, hwhen⟩
    rcases hwhen with hlt | hover
    · omega
    · simp only [overtakes, Bool.and_eq_true, decide_eq_true_eq] at hover
      omega
  refine ⟨fun h => ?_, fun us w h hseq hord hout => ?_, hvalue⟩
  · refine hvalue.resolve_right fun ⟨w, hw, _⟩ => ?_
    rw [h] at hw
    cases hw
  · obtain ⟨own, hws, hownSeq⟩ := hown hseq
    rw [hws, h, List.append_assoc, List.singleton_append]
    obtain ⟨old, by_, sts, m, hread, hby⟩ := readByte_append r us w own (fget 0 s.mem a) none false n
    have hlt : w.seq < r.seq := hseq w (by simp [h])
    have hany : by_.any (fun u => u.outlasts w) = false := by
      cases hb : by_ with
      | none => rfl
      | some u => exact hout u ((hby u hb).resolve_left (by simp))
    have hrep : w.replaced own = false := by
      cases own with
      | nil => rfl
      | cons v own =>
        have hv := hownSeq v List.mem_cons_self
        exact decide_eq_false (by omega)
    rw [hread, readByte_ordered hrep hlt hord hany, readByte_own hownSeq]

theorem seenFrom_sheafRead (s : State) {sh sh' : Sheaf} {r : Reader} (hgrows : sh.Grows r sh') (home n free : Nat) :
    SeenFrom s sh r home (sheafRead s sh' r home n free).1 := by
  intro k hk
  rw [length_sheafRead] at hk
  obtain ⟨f, hf⟩ := getD_sheafRead s sh' r hk home free
  rw [hf]
  exact seenBy_readByte s hgrows (home + k) f

end Sys2Proof.Machine

/-! ### Vector loads (R153, R155 to R163) -/

namespace Sys2Proof.Machine

/-! The checks of elements -/

theorem checkElt_ok {s : State} {e : QEntry} {sh : Sheaf} {kind h : Nat} {reads idx : Bool} {x : Elt}
    (hacc : accessAt s (x.cluster e.grant) e.grant e.csr e.sup x.addr x.n kind x.al = .ok { home := h, hold := none })
    (hpois : reads = true → readPoisoned s sh (e.reader idx) h x.n = false) :
    checkElt s e sh kind reads idx x = .ok { home := h, hold := none } := by
  have hpass : (reads && readPoisoned s sh (e.reader idx) h x.n) = false := by
    cases reads with
    | false => rfl
    | true => exact hpois rfl
  simp only [checkElt, hacc, hpass, Bool.false_eq_true, if_false]

/-- Where the checks of every element pass, each has its home address. -/
theorem checkAll_ok {α : Type} {s : State} {e : QEntry} {sh : Sheaf} {kind : Nat} {reads idx : Bool} {x : α → Elt} {h : α → Nat} {l : List α}
    (hl : ∀ q ∈ l, checkElt s e sh kind reads idx (x q) = .ok { home := h q, hold := none }) :
    checkAll s e sh kind reads idx (l.map x) = .ok (l.map h, none) := by
  induction l with
  | nil => rfl
  | cons q l ih =>
    simp only [List.map_cons, checkAll, hl q List.mem_cons_self, ih fun q hq => hl q (List.mem_cons_of_mem _ hq)]

/-! The places of an access -/

theorem QEntry.mem_active {e : QEntry} {a : Arch} {m i : Nat} : i ∈ e.active a m ↔ e.isActive a m i = true := by
  simp [QEntry.active, QEntry.isActive]

theorem mem_places {e : QEntry} {a : Arch} {f : MemForm} {m : Nat} {p : Nat × Nat} :
    p ∈ places e a f m ↔ e.isActive a m p.1 = true ∧ p.2 < f.nf := by
  obtain ⟨i, k⟩ := p
  simp [places, QEntry.mem_active]

/-- The fields of active elements that have an address, each with its home address. -/
def sitesAt (e : QEntry) (a : Arch) (f : MemForm) (base : W64) (m : Nat) (h : Nat → Nat → Nat) : List (Nat × Nat × Nat) :=
  (places e a f m).filterMap (fun p => (addrOf e a f base p.1 p.2).map (fun _ => (p.1, p.2, h p.1 p.2)))

/-- The elements that an access makes, each with its place. -/
def eltsAt (e : QEntry) (a : Arch) (f : MemForm) (base : W64) (m : Nat) : List ((Nat × Nat) × Elt) :=
  (places e a f m).filterMap (fun p => (eltOf e a f base p).map (fun x => (p, x)))

section Places

variable {e : QEntry} {a : Arch} {f : MemForm} {base : W64} {m : Nat} {h : Nat → Nat → Nat}

theorem mem_sitesAt {q : Nat × Nat × Nat} : q ∈ sitesAt e a f base m h ↔
    (q.1, q.2.1) ∈ places e a f m ∧ (addrOf e a f base q.1 q.2.1).isSome ∧ q.2.2 = h q.1 q.2.1 := by
  obtain ⟨i, k, n⟩ := q
  simp only [sitesAt, List.mem_filterMap, Option.map_eq_some_iff, Prod.mk.injEq, Option.isSome_iff_exists]
  constructor
  · rintro ⟨⟨i', k'⟩, hp, x, hx, rfl, rfl, rfl⟩
    exact ⟨hp, ⟨x, hx⟩, rfl⟩
  · rintro ⟨hp, ⟨x, hx⟩, rfl⟩
    exact ⟨_, hp, x, hx, rfl, rfl, rfl⟩

theorem mem_eltsAt {q : (Nat × Nat) × Elt} : q ∈ eltsAt e a f base m ↔ q.1 ∈ places e a f m ∧ eltOf e a f base q.1 = some q.2 := by
  obtain ⟨p, x⟩ := q
  simp only [eltsAt, List.mem_filterMap, Option.map_eq_some_iff, Prod.mk.injEq]
  constructor
  · rintro ⟨p', hp, x', hx, rfl, rfl⟩
    exact ⟨hp, hx⟩
  · rintro ⟨hp, hx⟩
    exact ⟨p, hp, x, hx, rfl, rfl⟩

/-- The elements of an access in order, with the home addresses that their checks give. -/
theorem eltsAt_map (e : QEntry) (a : Arch) (f : MemForm) (base : W64) (m : Nat) (h : Nat → Nat → Nat) :
    (eltsAt e a f base m).map (fun q => (q.1.1, q.1.2, h q.1.1 q.1.2)) = sitesAt e a f base m h := by
  rw [eltsAt, List.map_filterMap, sitesAt]
  congr 1
  funext p
  cases hx : addrOf e a f base p.1 p.2 <;> simp [eltOf, hx]

theorem sitesAt_homes (e : QEntry) (a : Arch) (f : MemForm) (base : W64) (m : Nat) (h : Nat → Nat → Nat) :
    (sitesAt e a f base m h).map (fun q => q.2.2) = homesOf e a f base m h := by
  rw [sitesAt, List.map_filterMap, homesOf]
  congr 1
  funext p
  cases hx : addrOf e a f base p.1 p.2 <;> simp

theorem sitesAt_sites (e : QEntry) (a : Arch) (f : MemForm) (base : W64) (m : Nat) (h : Nat → Nat → Nat) :
    (sitesAt e a f base m h).map (fun q => (e.clusterOf q.1, q.2.2)) = sitesOf e a f base m h := by
  rw [sitesAt, List.map_filterMap, sitesOf]
  congr 1
  funext p
  cases hx : addrOf e a f base p.1 p.2 <;> simp

/-- The checks of an element that has an address. -/
theorem QEntry.eltOk.check {s : State} {sh : Sheaf} {kind : Nat} {reads idx : Bool} {p : Nat × Nat} {x : Elt} {n : Nat} (hsup : e.sup = false)
    (hok : e.eltOk s sh kind reads idx p.1 (addrOf e a f base p.1 p.2) n) (hx : eltOf e a f base p = some x) :
    checkElt s e sh kind reads idx x = .ok { home := n, hold := none } := by
  simp only [eltOf, Option.map_eq_some_iff] at hx
  obtain ⟨addr, haddr, rfl⟩ := hx
  obtain ⟨hacc, hpois⟩ := hok addr haddr
  exact checkElt_ok (by rw [hsup]; exact hacc) hpois

end Places

end Sys2Proof.Machine


namespace Sys2Proof.Machine

/-! Reading the elements of a load -/

/-- The value of element `i` in the bytes that it has been read from (R155). -/
def QEntry.loaded (e : QEntry) (i : Nat) (bs : List Byte) : Nat :=
  if e.sew = 4 then (if i % 2 = 0 then leNat bs % 16 else leNat bs / 16) else leNat bs

/-- The elements that a load writes to the group at vd, from the bytes read for each. -/
def QEntry.writesOf (e : QEntry) (d : Nat) (ys : List ((Nat × Nat × Nat) × List Byte)) : List (Nat × Nat × Nat) :=
  ys.map (fun y => (d + y.1.2.1 * e.lmul, y.1.1, e.loaded y.1.1 y.2))

/-- Each read of the elements in turn joins the sheaf. -/
def Sheaf.addReads (e : QEntry) (xs : List (Nat × Nat × Nat)) (sh : Sheaf) : Sheaf :=
  xs.foldl (fun sh x => sh.addReadAt (some (e.clusterOf x.1)) x.2.2 e.eltBytes) sh

/-- A load gives each element in turn a value that its reader may see, and its reads join the sheaf. -/
theorem loadElts_eq {s : State} {e : QEntry} {r : Reader} {d : Nat} {sh₀ : Sheaf} (xs : List (Nat × Nat × Nat)) (v : VAcc) (sh : Sheaf) (n : Nat)
    (hsh : sh.writes = sh₀.writes) :
    ∃ ys n', ys.map Prod.fst = xs ∧ (∀ y ∈ ys, y.2.length = e.eltBytes ∧ SeenFrom s sh₀ r y.1.2.2 y.2) ∧
      loadElts s e r d xs v sh n = ({ v with arch := v.arch.setElems e.vb e.sew (e.writesOf d ys) }, sh.addReads e xs, n') := by
  induction xs generalizing v sh n with
  | nil => exact ⟨[], n, rfl, by simp, rfl⟩
  | cons x xs ih =>
    obtain ⟨i, k, home⟩ := x
    let b := sheafRead s sh r home e.eltBytes n
    obtain ⟨ys, n', hys, hseen, hrest⟩ := ih (v.set e.vb e.sew (d + k * e.lmul) i (e.loaded i b.1))
      (sh.addReadAt (some (e.clusterOf i)) home e.eltBytes) b.2 hsh
    refine ⟨((i, k, home), b.1) :: ys, n', by rw [List.map_cons, hys], fun y hy => ?_, hrest⟩
    rcases List.mem_cons.1 hy with rfl | hy
    · exact ⟨length_sheafRead .., seenFrom_sheafRead s (Sheaf.Grows.of_writes_eq hsh r) home e.eltBytes n⟩
    · exact hseen y hy

/-- The elements of a group are set to 0 in turn. -/
theorem foldl_set_zero (vb w : Nat) (g : Nat × Nat → Nat) (l : List (Nat × Nat)) (v : VAcc) :
    l.foldl (fun v p => v.set vb w (g p) p.1 0) v = { v with arch := v.arch.setElems vb w (l.map fun p => (g p, p.1, 0)) } := by
  induction l generalizing v with
  | nil => rfl
  | cons p l ih => exact ih _

/-- The places of an access that have no address, with the 0 that a load writes there (R162). -/
def QEntry.zerosOf (e : QEntry) (a : Arch) (f : MemForm) (d : Nat) (base : W64) (m : Nat) : List (Nat × Nat × Nat) :=
  ((places e a f m).filter (fun p => (eltOf e a f base p).isNone)).map (fun p => (d + p.2 * e.lmul, p.1, 0))

/-- A load whose checks pass. -/
theorem runLoad_ok {s : State} {e : QEntry} {a : Arch} {sh : Sheaf} {trims : Bool} {f : MemForm} {d m : Nat} {base : W64} {h : Nat → Nat → Nat}
    (hsup : e.sup = false) (hok : memOk e a f d = true) (htrim : trims = true → tensTrim e a f base = none)
    (hchecks : ∀ j k, e.isActive a m j → k < f.nf → e.eltOk s sh kRead true f.isIdx j (addrOf e a f base j k) (h j k)) :
    ∃ ys n, ys.map Prod.fst = sitesAt e a f base m h ∧
      (∀ y ∈ ys, y.2.length = e.eltBytes ∧ SeenFrom s sh (e.reader f.isIdx) y.1.2.2 y.2) ∧
      runLoad s e a sh trims f d base m = .calm a (a.setElems e.vb e.sew (e.zerosOf a f d base m ++ e.writesOf d ys))
        (sh.addReads e (sitesAt e a f base m h)) n := by
  let v : VAcc := { VAcc.start a with arch := a.setElems e.vb e.sew (e.zerosOf a f d base m) }
  obtain ⟨ys, n, hys, hseen, hload⟩ := loadElts_eq (s := s) (e := e) (r := e.reader f.isIdx) (d := d) (sh₀ := sh) (sitesAt e a f base m h) v sh s.free rfl
  refine ⟨ys, n, hys, hseen, ?_⟩
  have hnotrim : (if trims = true then tensTrim e a f base else none) = none := by
    split
    · next ht => exact htrim ht
    · rfl
  have hall : checkAll s e sh kRead true f.isIdx ((eltsAt e a f base m).map Prod.snd) =
      .ok ((eltsAt e a f base m).map (fun q => h q.1.1 q.1.2), none) := by
    refine checkAll_ok fun q hq => ?_
    obtain ⟨hp, hx⟩ := mem_eltsAt.1 hq
    obtain ⟨hact, hk⟩ := mem_places.1 hp
    exact (hchecks q.1.1 q.1.2 hact hk).check hsup hx
  have hzeros : ((places e a f m).filter (fun p => (eltOf e a f base p).isNone)).foldl
      (fun v p => v.set e.vb e.sew (d + p.2 * e.lmul) p.1 0) (VAcc.start a) = v := foldl_set_zero ..
  have hsites : ((eltsAt e a f base m).zip ((eltsAt e a f base m).map (fun q => h q.1.1 q.1.2))).map (fun x => (x.1.1.1, x.1.1.2, x.2)) =
      sitesAt e a f base m h := by
    rw [← List.map_prod_left_eq_zip, List.map_map, ← eltsAt_map]
    rfl
  simp only [eltsAt] at hall hsites
  rw [runLoad, hok, hnotrim]
  simp only [Bool.not_true, Bool.false_eq_true, if_false, hall, hsites]
  rw [hzeros, hload, Ran.calm, ← Arch.setElems_append]

end Sys2Proof.Machine


namespace Sys2Proof.Machine

/-! The shapes that SETVL and the dispatcher leave (R17, R36, R37) -/

theorem QEntry.shapeOk.elem {e : QEntry} (h : e.shapeOk) : ElemShape e.vb e.sew := by
  obtain ⟨hvb, hlegal, -⟩ := h
  obtain ⟨k, hk, hvb⟩ := List.mem_map.1 hvb
  have hk : k ≤ 9 := by
    have := List.mem_range.1 hk
    omega
  have hsew : vtSew e.vt ≤ 4 := by
    simp only [vtLegal, Bool.and_eq_true, decide_eq_true_eq] at hlegal
    exact hlegal.1.1.1.1.1
  refine ⟨?_, ?_, ?_, ?_⟩
  · unfold QEntry.sew vtBits
    generalize vtSew e.vt = n at hsew
    interval_cases n <;> simp
  · rw [← hvb]
    positivity
  · rw [← hvb]
    exact Nat.mul_le_mul_left 256 (Nat.pow_le_pow_right (by decide) hk)
  · rw [← hvb]
    exact Nat.dvd_mul_right_of_dvd (by decide) _

/-- The elements of a group are those of its registers (R37). -/
theorem QEntry.shapeOk.vlmax_eq {e : QEntry} (h : e.shapeOk) : e.vlmax = e.lmul * regElems e.vb e.sew := by
  have hdvd : e.sew ∣ e.vb * 8 := by
    by_cases hw : e.sew = 4
    · rw [hw]
      exact Nat.dvd_mul_left_of_dvd (by decide) _
    · obtain ⟨k, hk, -, hdvd⟩ := h.elem.bytes hw
      rw [hk, Nat.mul_comm 8]
      exact Nat.mul_dvd_mul_right hdvd 8
  show e.vb * 8 * e.lmul / e.sew = _
  rw [Nat.mul_comm, Nat.mul_div_assoc _ hdvd]
  rfl

theorem QEntry.shapeOk.active_lt {e : QEntry} (h : e.shapeOk) {a : Arch} {m i : Nat} (hi : e.isActive a m i = true) :
    i < e.lmul * regElems e.vb e.sew := by
  obtain ⟨-, -, hvl⟩ := id h
  rw [h.vlmax_eq] at hvl
  simp only [QEntry.isActive, Bool.and_eq_true, decide_eq_true_eq] at hi
  omega

/-- Groups of `g` registers that follow each other share no element. -/
theorem rowOf_inj {vb w d g k k' i j : Nat} (hi : i < g * regElems vb w) (hj : j < g * regElems vb w)
    (h : rowOf vb w (d + k * g) i = rowOf vb w (d + k' * g) j) : k = k' ∧ i = j := by
  simp only [rowOf, Nat.add_mul, Nat.mul_assoc] at h
  generalize g * regElems vb w = n at hi hj h
  have hrow : k * n + i = k' * n + j := by omega
  have hdiv (k i : Nat) (hi : i < n) : (k * n + i) / n = k := by
    rw [Nat.add_comm, Nat.add_mul_div_right _ _ (by omega), Nat.div_eq_of_lt hi, Nat.zero_add]
  have hk : k = k' := by rw [← hdiv k i hi, hrow, hdiv k' j hj]
  subst hk
  exact ⟨rfl, by omega⟩

theorem QEntry.shapeOk.loaded_lt {e : QEntry} (h : e.shapeOk) (i : Nat) {bs : List Byte} (hbs : bs.length = e.eltBytes) :
    e.loaded i bs < 2 ^ e.sew := by
  have hlt := leNat_lt bs
  rw [hbs, QEntry.eltBytes] at hlt
  unfold QEntry.loaded
  by_cases hw : e.sew = 4
  · rw [hw] at hlt ⊢
    change leNat bs < 256 at hlt
    simp only [if_true]
    split <;> omega
  · obtain ⟨k, hk, hpos, -⟩ := h.elem.bytes hw
    rw [hk, Nat.mul_div_cancel_left _ (by decide), Nat.max_eq_right hpos] at hlt
    rwa [if_neg hw, hk]

/-! What a load leaves in the registers -/

section Loaded

variable {s : State} {e : QEntry} {a : Arch} {sh : Sheaf} {f : MemForm} {d m : Nat} {base : W64} {h : Nat → Nat → Nat}
  {ys : List ((Nat × Nat × Nat) × List Byte)}

/-- What a load gives field `k` of element `i`: 0 where it has no address, and else what its bytes hold. -/
def LoadedFrom (s : State) (e : QEntry) (a : Arch) (sh : Sheaf) (f : MemForm) (base : W64) (h : Nat → Nat → Nat) (i k x : Nat) : Prop :=
  (addrOf e a f base i k = none ∧ x = 0) ∨
  ((addrOf e a f base i k).isSome ∧ ∃ bs : List Byte, bs.length = e.eltBytes ∧ SeenFrom s sh (e.reader f.isIdx) (h i k) bs ∧ x = e.loaded i bs)

/-- The writes of a load are those of its places. -/
theorem mem_loadWrites (hys : ys.map Prod.fst = sitesAt e a f base m h)
    (hseen : ∀ y ∈ ys, y.2.length = e.eltBytes ∧ SeenFrom s sh (e.reader f.isIdx) y.1.2.2 y.2) {q : Nat × Nat × Nat}
    (hq : q ∈ e.zerosOf a f d base m ++ e.writesOf d ys) :
    ∃ k, (q.2.1, k) ∈ places e a f m ∧ q.1 = d + k * e.lmul ∧ LoadedFrom s e a sh f base h q.2.1 k q.2.2 := by
  rcases List.mem_append.1 hq with hq | hq
  · obtain ⟨p, hp, rfl⟩ := List.mem_map.1 hq
    obtain ⟨hp, hnone⟩ := List.mem_filter.1 hp
    exact ⟨p.2, hp, rfl, .inl ⟨by simpa [eltOf] using hnone, rfl⟩⟩
  · obtain ⟨y, hy, rfl⟩ := List.mem_map.1 hq
    obtain ⟨hlen, hfrom⟩ := hseen y hy
    obtain ⟨hp, hsome, hhome⟩ := mem_sitesAt.1 (hys ▸ List.mem_map_of_mem (f := Prod.fst) hy)
    exact ⟨y.1.2.1, hp, rfl, .inr ⟨hsome, y.2, hlen, hhome ▸ hfrom, rfl⟩⟩

/-- Every place of a load is written. -/
theorem exists_loadWrite (hys : ys.map Prod.fst = sitesAt e a f base m h) {i k : Nat} (hp : (i, k) ∈ places e a f m) :
    ∃ q ∈ e.zerosOf a f d base m ++ e.writesOf d ys, q.1 = d + k * e.lmul ∧ q.2.1 = i := by
  cases haddr : addrOf e a f base i k with
  | none =>
    have hnone : (eltOf e a f base (i, k)).isNone = true := by simp [eltOf, haddr]
    exact ⟨_, List.mem_append_left _ (List.mem_map_of_mem (List.mem_filter.2 ⟨hp, hnone⟩)), rfl, rfl⟩
  | some x =>
    have hsite : (i, k, h i k) ∈ ys.map Prod.fst := hys ▸ mem_sitesAt.2 ⟨hp, by simp [haddr], rfl⟩
    obtain ⟨y, hy, hfst⟩ := List.mem_map.1 hsite
    exact ⟨_, List.mem_append_right _ (List.mem_map_of_mem hy), by simp [hfst], by simp [hfst]⟩

/-- A load gives each active element what it reads, and leaves the rest of the registers alone. -/
theorem loaded_regs (hshape : e.shapeOk) (hys : ys.map Prod.fst = sitesAt e a f base m h)
    (hseen : ∀ y ∈ ys, y.2.length = e.eltBytes ∧ SeenFrom s sh (e.reader f.isIdx) y.1.2.2 y.2) :
    ∃ z, a.setElems e.vb e.sew (e.zerosOf a f d base m ++ e.writesOf d ys) = z ∧ z = { a with v := z.v } ∧
      (∀ j k, e.isActive a m j = true → k < f.nf → LoadedFrom s e a sh f base h j k (getElem z e.vb e.sew (d + k * e.lmul) j)) ∧
      (∀ j k, j < e.vlmax → e.isActive a m j = false →
        getElem z e.vb e.sew (d + k * e.lmul) j = getElem a e.vb e.sew (d + k * e.lmul) j) ∧
      ∀ n, n < d * 131072 ∨ (d + f.nf * e.lmul) * 131072 ≤ n → fget 0 z.v n = fget 0 a.v n := by
  have hrow := hshape.elem.getElem_setElems (e.zerosOf a f d base m ++ e.writesOf d ys) a
  refine ⟨_, rfl, Arch.setElems_eq .., fun j k hact hk => ?_, fun j k hj hact => ?_, fun n hn => hshape.elem.fget_setElems a fun q hq => ?_⟩
  · rcases hrow (d + k * e.lmul) j with ⟨q, hq, hsame, hval⟩ | ⟨hnone, -⟩
    · obtain ⟨k', hp, hgroup, hfrom⟩ := mem_loadWrites hys hseen hq
      rw [hgroup] at hsame
      obtain ⟨rfl, rfl⟩ := rowOf_inj (hshape.active_lt (mem_places.1 hp).1) (hshape.active_lt hact) hsame
      rw [hval]
      rcases hfrom with ⟨haddr, hzero⟩ | ⟨haddr, bs, hlen, hfrom, hx⟩
      · exact .inl ⟨haddr, by rw [hzero, Nat.zero_mod]⟩
      · exact .inr ⟨haddr, bs, hlen, hfrom, by rw [hx, Nat.mod_eq_of_lt (hshape.loaded_lt _ hlen)]⟩
    · obtain ⟨q, hq, hgroup, hplace⟩ := exists_loadWrite (d := d) hys (mem_places.2 ⟨hact, hk⟩)
      exact absurd (by rw [hgroup, hplace]) (hnone q hq)
  · refine (hrow (d + k * e.lmul) j).elim (fun ⟨q, hq, hsame, _⟩ => ?_) fun h => h.2
    obtain ⟨k', hp, hgroup, -⟩ := mem_loadWrites hys hseen hq
    rw [hgroup] at hsame
    obtain ⟨-, rfl⟩ := rowOf_inj (hshape.active_lt (mem_places.1 hp).1) (hshape.vlmax_eq ▸ hj) hsame
    exact absurd ((mem_places.1 hp).1) (by simp [hact])
  · obtain ⟨k', hp, hgroup, -⟩ := mem_loadWrites hys hseen hq
    obtain ⟨hact, hk'⟩ := mem_places.1 hp
    refine ⟨e.lmul, hshape.active_lt hact, ?_⟩
    rw [hgroup]
    have hlast : k' * e.lmul + e.lmul ≤ f.nf * e.lmul := Nat.succ_mul k' e.lmul ▸ Nat.mul_le_mul_right _ hk'
    exact hn.imp (fun hlo => hlo.trans_le (Nat.mul_le_mul_right _ (by omega))) fun hhi => (Nat.mul_le_mul_right _ (by omega)).trans hhi

end Loaded

/-! The sheaf after its reads -/

/-- Reads change the sheaf's read set and what it has to ask for, whichever cluster makes them. -/
theorem Sheaf.addReads_unasked {α : Type} (c : α → Option Nat) (h : α → Nat) (n : Nat) (xs : List α) {sh sh' : Sheaf}
    (hsh : { sh with asks := [] } = { sh' with asks := [] }) :
    { xs.foldl (fun t x => t.addReadAt (c x) (h x) n) sh with asks := [] } = { xs.foldl (fun t x => t.addRead (h x) n) sh' with asks := [] } := by
  induction xs generalizing sh sh' with
  | nil => exact hsh
  | cons x xs ih =>
    refine ih ?_
    have hrset : sh.rset = sh'.rset := by
      have hread := congrArg (fun t : Sheaf => t.rset) hsh
      exact hread
    have hset (r : RecSet) : { sh with asks := [], rset := r } = { sh' with asks := [], rset := r } := congrArg (fun t : Sheaf => { t with rset := r }) hsh
    simp only [Sheaf.addReadAt, Sheaf.addRead, hrset]
    exact hset _

/-- What an instruction records in its sheaf neither closes nor stops it. -/
theorem Sheaf.foldl_marks {α : Type} {f : Sheaf → α → Sheaf}
    (hf : ∀ sh a, (f sh a).closed = sh.closed ∧ (f sh a).trap = sh.trap ∧ (f sh a).want = sh.want)
    (l : List α) (sh : Sheaf) : (l.foldl f sh).closed = sh.closed ∧ (l.foldl f sh).trap = sh.trap ∧ (l.foldl f sh).want = sh.want :=
  foldl_keeps (P := fun sh' : Sheaf => sh'.closed = sh.closed ∧ sh'.trap = sh.trap ∧ sh'.want = sh.want) f l sh ⟨rfl, rfl, rfl⟩ fun t a _ ht => by
    obtain ⟨hc, htrap, hw⟩ := hf t a
    rw [hc, htrap, hw]
    exact ht

theorem Sheaf.addRead_marks {α : Type} (h : α → Nat) (n : Nat) (l : List α) (sh : Sheaf) :
    (l.foldl (fun t x => t.addRead (h x) n) sh).closed = sh.closed ∧ (l.foldl (fun t x => t.addRead (h x) n) sh).trap = sh.trap ∧
      (l.foldl (fun t x => t.addRead (h x) n) sh).want = sh.want :=
  Sheaf.foldl_marks (f := fun t x => t.addRead (h x) n) (fun _ _ => ⟨rfl, rfl, rfl⟩) l sh

/-- A load completes where its checks pass. -/
theorem vLoads_of_load {i : Instr} {k : Issue} {d m : Nat} {form : Arch → MemForm} {base : Arch → W64}
    (he : ∀ s, exec i s = issueV s k noResv (fun a => .load (form a) d (base a) m)) (hbq : k.bq = none) :
    VLoads i k.regs d form base m := by
  intro s y sh h hv htimed e he' hshape a f hok htrim hchecks
  subst he'
  let e' := y.entryOf sh k [] (.load f d (base a) m)
  obtain ⟨ys, n, hys, hseen, hrun⟩ := runLoad_ok (s := s.withPlaced y sh k [] (.load f d (base a) m)) (e := e') (a := a.next)
    (sh := { sh.placed [] with asks := [] }) (trims := sh.byStrip) (h := h) rfl hok htrim hchecks
  obtain ⟨z, hz, hframe, hactive, hrest, hout⟩ := loaded_regs (d := d) (e := e') hshape hys hseen
  rw [hz] at hrun
  refine vecStep_of_calm hv (he s) rfl rfl rfl rfl rfl hbq hrun (.inl htimed) (by rw [hframe]; rfl)
    ?_ (Sheaf.addRead_marks (fun p => p) ..) fun csr => ⟨?_, ?_, ?_, ?_⟩
  · rw [← sitesAt_homes, List.foldl_map]
    exact Sheaf.addReads_unasked (fun x : Nat × Nat × Nat => some ((y.entry sh).clusterOf x.1)) (fun x => x.2.2) (y.entry sh).eltBytes
      (sitesAt (y.entry sh) a f (base a) m h) (sh := { sh.placed [] with asks := [] }) (sh' := { sh with seq := sh.seq + 1 }) rfl
  · rw [hframe]
    simp [Arch.Only]
  · intro j k hact hk
    refine ⟨fun haddr => ?_, fun haddr => ?_⟩
    · rcases hactive j k hact hk with ⟨-, hzero⟩ | ⟨hsome, -⟩
      · exact hzero
      · exact absurd hsome (by rw [show addrOf e' a.next f (base a) j k = none from haddr]; simp)
    · rcases hactive j k hact hk with ⟨hnone, -⟩ | ⟨-, bs, hlen, hfrom, hval⟩
      · exact absurd haddr (by rw [show addrOf (y.entry sh) a f (base a) j k = none from hnone]; simp)
      · exact ⟨bs, hlen, hfrom, hval⟩
  · exact fun k _ j hj hact => hrest j k hj hact
  · exact hout

/-- Settles O32: the six loads differ in their form alone. -/
theorem vectorLoads : Obligations.VectorLoads := fun d a b m n w t =>
  ⟨vLoads_of_load (exec_vldUnit d a m) rfl, vLoads_of_load (exec_vldStr d a b m) rfl, vLoads_of_load (exec_vldIdx d a b m w) rfl,
    vLoads_of_load (exec_vldSeg d a m n) rfl, vLoads_of_load (exec_vldFf d a m) rfl, vLoads_of_load (exec_vldTens d a t m) rfl⟩

end Sys2Proof.Machine

/-! ### Vector stores (R153, R155 to R157, R162, R262, R263) -/

namespace Sys2Proof.Machine

theorem checkStore_ok {α : Type} {s : State} {e : QEntry} {sh : Sheaf} {act : List Nat} {x : α → Elt} {h : α → Nat} {l : List α}
    (hl : ∀ q ∈ l, checkElt s e sh kWrite (decide (e.sew = 4) && lonely act (x q).i) false (x q) = .ok { home := h q, hold := none }) :
    checkStore s e sh act (l.map x) = .ok (l.map h, none) := by
  induction l with
  | nil => rfl
  | cons q l ih =>
    simp only [List.map_cons, checkStore, hl q List.mem_cons_self, ih fun q hq => hl q (List.mem_cons_of_mem _ hq)]

/-- The writes that an access buffers, each in the cluster that makes it. -/
def Sheaf.addWrites (n : Nat) (xs : List (Nat × Nat)) (sh : Sheaf) : Sheaf :=
  xs.foldl (fun x p => x.addWriteAt (some p.1) p.2 n) sh

/-- An update of the sheaf that its write set and its buffered granules do not see. -/
theorem Sheaf.addWrites_comm {u : Sheaf → Sheaf} (hu : ∀ sh c home n, (u sh).addWriteAt c home n = u (sh.addWriteAt c home n)) (n : Nat)
    (xs : List (Nat × Nat)) (sh : Sheaf) : (u sh).addWrites n xs = u (sh.addWrites n xs) :=
  List.foldl_hom u fun sh p => hu sh (some p.1) p.2 n

theorem Sheaf.addWrites_marks (n : Nat) (xs : List (Nat × Nat)) (sh : Sheaf) :
    (sh.addWrites n xs).closed = sh.closed ∧ (sh.addWrites n xs).trap = sh.trap ∧ (sh.addWrites n xs).want = sh.want :=
  Sheaf.foldl_marks (f := fun (x : Sheaf) (p : Nat × Nat) => x.addWriteAt (some p.1) p.2 n) (fun _ _ => ⟨rfl, rfl, rfl⟩) xs sh

/-- No register of the vector side changes where only the scalar side's do. -/
theorem Arch.only_nil {a b : Arch} (h : b = { a with pc := b.pc, x := b.x, csr := b.csr }) : a.Only b [] := by
  rw [h]
  exact ⟨fun _ => rfl, fun _ => rfl, fun _ => rfl, fun _ => rfl, fun _ => rfl, fun _ => rfl⟩

/-- The sheaf with its reservation and nothing to ask for. -/
def Sheaf.reserving (r : FMap Nat) (sh : Sheaf) : Sheaf := { sh with resv := r, asks := [] }

/-- Byte `b` of the writes of a store that are made at the place of `r`, in order. -/
def Reader.recsAt (r : Reader) (n : Nat) (val : Nat × Nat × Nat → Nat) (b : Nat) (xs : List (Nat × Nat × Nat)) : List WRec :=
  xs.filterMap (fun x => if x.2.2 ≤ b ∧ b < x.2.2 + n then some (r.wrote (BitVec.ofNat 8 (val x / 2 ^ (8 * (b - x.2.2))))) else none)

/-- One element of a store joins the buffer. -/
theorem fget_sheafWriteAt (c : Option Nat) (r : Reader) (sh : Sheaf) (home n x b : Nat) :
    fget [] (sheafWriteAt c r sh home (leBytes n x)).writes b = joinRecs
      (if home ≤ b ∧ b < home + n then [r.wrote (BitVec.ofNat 8 (x / 2 ^ (8 * (b - home))))] else []) (fget [] sh.writes b) := by
  refine (fget_bufferBytes r sh home (leBytes n x) b).trans ?_
  rw [length_leBytes]
  split
  · next hb =>
    rw [getD_leBytes (by omega)]
    rfl
  · rfl

theorem joinRecs_append (us ws vs : List WRec) : joinRecs (us ++ ws) vs = joinRecs ws (joinRecs us vs) := List.foldl_append

/-- The elements of a store join the buffer in turn, and the store changes nothing else of its sheaf. -/
theorem storeElts_eq (e : QEntry) (a : Arch) (r : Reader) (d : Nat) (xs : List (Nat × Nat × Nat)) (sh : Sheaf) :
    ∃ ws, storeElts e a r d xs sh = { sh.addWrites (e.sew / 8) (xs.map fun x => (e.clusterOf x.1, x.2.2)) with writes := ws } ∧
      ∀ b, fget [] ws b = joinRecs (r.recsAt (e.sew / 8) (fun x => getElem a e.vb e.sew (d + x.2.1 * e.lmul) x.1) b xs) (fget [] sh.writes b) := by
  induction xs generalizing sh with
  | nil => exact ⟨sh.writes, rfl, fun b => rfl⟩
  | cons x xs ih =>
    obtain ⟨i, k, home⟩ := x
    let bs := leBytes (e.sew / 8) (getElem a e.vb e.sew (d + k * e.lmul) i)
    let sh₁ := sheafWriteAt (some (e.clusterOf i)) r sh home bs
    have hsh₁ : sh₁ = { sh.addWriteAt (some (e.clusterOf i)) home (e.sew / 8) with writes := sh₁.writes } := by
      simp only [sh₁, sheafWriteAt, bs, length_leBytes]
      rw [bufferBytes_eq]
      rfl
    obtain ⟨ws, hstore, hws⟩ := ih sh₁
    refine ⟨ws, hstore.trans ?_, fun b => (hws b).trans ?_⟩
    · rw [hsh₁, Sheaf.addWrites_comm (u := fun sh => { sh with writes := sh₁.writes }) (fun _ _ _ _ => rfl)]
      rfl
    · rw [fget_sheafWriteAt, ← joinRecs_append]
      congr 1
      rw [Reader.recsAt, Reader.recsAt, List.filterMap_cons]
      dsimp only
      split <;> rfl

/-- A store whose checks pass. -/
theorem runStore_checked {s : State} {e : QEntry} {a : Arch} {sh : Sheaf} {trims : Bool} {f : MemForm} {d m : Nat} {base : W64} {h : Nat → Nat → Nat}
    (hok : memOk e a f d = true) (htrim : trims = true → tensTrim e a f base = none)
    (hchecks : ∀ q ∈ eltsAt e a f base m, checkElt s e sh kWrite (decide (e.sew = 4) && lonely (e.active a m) q.2.i) false q.2 =
      .ok { home := h q.1.1 q.1.2, hold := none }) :
    runStore s e a sh trims f d base m =
      if e.sew = 4 then
        let t := storeNibbles s e a (e.reader f.isIdx) d ((sitesAt e a f base m h).map (fun q => (q.1, q.2.2))) sh s.free
        .calm a a t.1 t.2
      else .calm a a (storeElts e a (e.reader f.isIdx) d (sitesAt e a f base m h) sh) s.free := by
  have hnotrim : (if trims = true then tensTrim e a f base else none) = none := by
    split
    · next ht => exact htrim ht
    · rfl
  have hall : checkStore s e sh (e.active a m) ((eltsAt e a f base m).map Prod.snd) =
      .ok ((eltsAt e a f base m).map (fun q => h q.1.1 q.1.2), none) := checkStore_ok hchecks
  have hsites : ((eltsAt e a f base m).zip ((eltsAt e a f base m).map (fun q => h q.1.1 q.1.2))).map (fun x => (x.1.1.1, x.1.1.2, x.2)) =
      sitesAt e a f base m h := by
    rw [← List.map_prod_left_eq_zip, List.map_map, ← eltsAt_map]
    rfl
  have hhalves : ((eltsAt e a f base m).zip ((eltsAt e a f base m).map (fun q => h q.1.1 q.1.2))).map (fun x => (x.1.1.1, x.2)) =
      (sitesAt e a f base m h).map (fun q => (q.1, q.2.2)) := by
    rw [← hsites, List.map_map]
    rfl
  simp only [eltsAt] at hall hsites hhalves
  rw [runStore, hok, hnotrim]
  simp only [Bool.not_true, Bool.false_eq_true, if_false, hall, hsites, hhalves]
  rfl

/-- A store of whole bytes whose checks pass. -/
theorem runStore_bytes {s : State} {e : QEntry} {a : Arch} {sh : Sheaf} {trims : Bool} {f : MemForm} {d m : Nat} {base : W64} {h : Nat → Nat → Nat}
    (hsup : e.sup = false) (hsew : e.sew ≠ 4) (hok : memOk e a f d = true) (htrim : trims = true → tensTrim e a f base = none)
    (hchecks : ∀ j k, e.isActive a m j → k < f.nf → e.eltOk s sh kWrite false f.isIdx j (addrOf e a f base j k) (h j k)) :
    runStore s e a sh trims f d base m = .calm a a (storeElts e a (e.reader f.isIdx) d (sitesAt e a f base m h) sh) s.free := by
  refine (runStore_checked (h := h) hok htrim fun q hq => ?_).trans (if_neg hsew)
  obtain ⟨hp, hx⟩ := mem_eltsAt.1 hq
  obtain ⟨hact, hk⟩ := mem_places.1 hp
  simp only [eltOf, Option.map_eq_some_iff] at hx
  obtain ⟨addr, haddr, hx⟩ := hx
  have hacc := (hchecks q.1.1 q.1.2 hact hk addr haddr).1
  exact checkElt_ok (by rw [hsup, ← hx]; exact hacc) (by simp [hsew])

/-- A store of whole bytes completes where its checks pass and its reservation fits. -/
theorem vStores_of_store {i : Instr} {k : Issue} {resv : Hart → FMap Nat} {d m : Nat} {form : Arch → MemForm} {base : Arch → W64}
    (he : ∀ s, exec i s = issueV s k resv (fun a => .store (form a) d (base a) m)) (hbq : k.bq = none)
    (hresv : ∀ (y : Hart) q, resv { y with bq := q } = resv y) : VStores i k.regs resv d form base m := by
  intro s y sh h hv e he' hshape hsew a f hok htrim hfit hchecks
  subst he'
  have hne : (y.entry sh).sew ≠ 4 := by omega
  let e' := y.entryOf sh k (resv y) (.store f d (base a) m)
  let sh₀ := ({ sh with seq := sh.seq + 1 } : Sheaf).reserving (addResv sh.resv (resv y))
  have hrun := runStore_bytes (s := s.withPlaced y sh k (resv y) (.store f d (base a) m)) (e := e') (a := a.next) (sh := sh₀) (trims := sh.byStrip) (h := h)
    rfl hne hok htrim hchecks
  obtain ⟨ws, hstore, hws⟩ := storeElts_eq e' a.next (e'.reader f.isIdx) d (sitesAt e' a.next f (base a) m h) sh₀
  have hbytes : e'.sew / 8 = (y.entry sh).eltBytes := (Nat.max_eq_right (Nat.div_pos hsew (by decide))).symm
  have hsites : sitesOf e' a.next f (base a) m h = sitesOf (y.entry sh) a f (base a) m h := rfl
  rw [hstore, sitesAt_sites, hbytes, hsites, Sheaf.addWrites_comm (u := Sheaf.reserving (addResv sh.resv (resv y))) (fun _ _ _ _ => rfl)] at hrun
  refine ⟨ws, fun b => (hws b).trans ?_, ?_⟩
  · rw [hbytes, Reader.recsAt, sitesAt, List.filterMap_filterMap]
    congr 2
    funext p
    have haddr : addrOf e' a.next f (base a) p.1 p.2 = addrOf (y.entry sh) a f (base a) p.1 p.2 := rfl
    rw [haddr]
    cases addrOf (y.entry sh) a f (base a) p.1 p.2 with
    | none => simp
    | some x =>
      simp only [Option.map_some, Option.bind_some, Option.isSome_some, true_and]
      rfl
  · exact vecStep_of_calm hv (he s) (hresv ..) hfit rfl rfl rfl hbq hrun (.inr rfl) rfl rfl (Sheaf.addWrites_marks ..) fun _ =>
      Arch.only_nil rfl

end Sys2Proof.Machine


namespace Sys2Proof.Machine

/-! Stores of half a byte (R155) -/

/-- The active elements whose halves byte `k` holds, with the byte's home address. -/
def halvesOf (act : Nat → Bool) (h : Nat → Nat) (k : Nat) : List (Nat × Nat) :=
  (if act (2 * k) then [(2 * k, h k)] else []) ++ (if act (2 * k + 1) then [(2 * k + 1, h k)] else [])

theorem filter_range_lt {n N : Nat} (hn : n ≤ N) (p : Nat → Bool) :
    (List.range N).filter (fun i => decide (i < n) && p i) = (List.range n).filter p := by
  induction N, hn using Nat.le_induction with
  | base =>
    refine List.filter_congr fun i hi => ?_
    rw [decide_eq_true (List.mem_range.1 hi), Bool.true_and]
  | succ N hN ih =>
    have hlast : decide (N < n) = false := decide_eq_false (by omega)
    rw [List.range_succ, List.filter_append, ih, List.filter_cons_of_neg (by simp [hlast]), List.filter_nil, List.append_nil]

/-- The active elements, byte by byte. -/
theorem active_halves (e : QEntry) (a : Arch) (m : Nat) (h : Nat → Nat) :
    (e.active a m).map (fun i => (i, h (i / 2))) = (List.range ((e.vl + 1) / 2)).flatMap (halvesOf (e.isActive a m) h) := by
  have heven : e.active a m = (List.range (2 * ((e.vl + 1) / 2))).filter (e.isActive a m) :=
    (filter_range_lt (by omega) (getMask a m)).symm
  rw [heven]
  generalize (e.vl + 1) / 2 = n
  induction n with
  | zero => rfl
  | succ n ih =>
    rw [show 2 * (n + 1) = 2 * n + 1 + 1 by omega, List.range_succ, List.range_succ, List.filter_append, List.filter_append, List.map_append, List.map_append,
      ih, List.range_succ, List.flatMap_append, List.append_assoc]
    congr 1
    have hodd : (2 * n + 1) / 2 = n := by omega
    have heven : 2 * n / 2 = n := by omega
    cases h0 : e.isActive a m (2 * n) <;> cases h1 : e.isActive a m (2 * n + 1) <;> simp [halvesOf, h0, h1, hodd, heven]

section Halves

variable (s : State) (e : QEntry) (a : Arch) (r : Reader) (d : Nat)

/-- The store of the half byte of a lone element `i`: the byte's other half keeps what the reader sees. -/
def storeHalf (i home : Nat) (sh : Sheaf) (n : Nat) : Sheaf × Nat :=
  let x := getElem a e.vb 4 d i
  let b := sheafRead s sh r home 1 n
  let o := leNat b.1
  let y := if i % 2 = 0 then o / 16 * 16 + x else x * 16 + o % 16
  (sheafWriteAt (some (e.clusterOf i)) r (sh.addReadAt (some (e.clusterOf i)) home 1) home [BitVec.ofNat 8 y], b.2)

/-- The store of byte `k`, of which the halves `act` are written. -/
def storeByte (act : Nat → Bool) (h : Nat → Nat) (p : Sheaf × Nat) (k : Nat) : Sheaf × Nat :=
  match act (2 * k), act (2 * k + 1) with
  | true, true => (sheafWriteAt (some (e.clusterOf (2 * k))) r p.1 (h k)
      [BitVec.ofNat 8 (getElem a e.vb 4 d (2 * k) + 16 * getElem a e.vb 4 d (2 * k + 1))], p.2)
  | true, false => storeHalf s e a r d (2 * k) (h k) p.1 p.2
  | false, true => storeHalf s e a r d (2 * k + 1) (h k) p.1 p.2
  | false, false => p

theorem storeNibbles_lone {i home : Nat} {rest : List (Nat × Nat)} (hrest : ∀ q ∈ rest, ¬ (i % 2 = 0 ∧ q.1 = i + 1)) (sh : Sheaf) (n : Nat) :
    storeNibbles s e a r d ((i, home) :: rest) sh n =
      storeNibbles s e a r d rest (storeHalf s e a r d i home sh n).1 (storeHalf s e a r d i home sh n).2 := by
  cases rest with
  | nil => rfl
  | cons q rest =>
    rw [storeNibbles, if_neg (hrest q List.mem_cons_self)]
    rfl

/-- A store of half bytes goes byte by byte. -/
theorem storeNibbles_bytes {act : Nat → Bool} {h : Nat → Nat} {ks : List Nat} (hks : ks.Nodup) (sh : Sheaf) (n : Nat) :
    storeNibbles s e a r d (ks.flatMap (halvesOf act h)) sh n = ks.foldl (storeByte s e a r d act h) (sh, n) := by
  induction ks generalizing sh n with
  | nil => rfl
  | cons k ks ih =>
    obtain ⟨hk, hks⟩ := List.nodup_cons.1 hks
    have hrest : ∀ q ∈ ks.flatMap (halvesOf act h), q.1 ≠ 2 * k + 1 := by
      intro q hq
      obtain ⟨j, hj, hq⟩ := List.mem_flatMap.1 hq
      have hjk : j ≠ k := fun he => hk (he ▸ hj)
      have : q.1 = 2 * j ∨ q.1 = 2 * j + 1 := by
        rcases List.mem_append.1 hq with hq | hq
        · split at hq
          · exact .inl (by rw [List.mem_singleton.1 hq])
          · cases hq
        · split at hq
          · exact .inr (by rw [List.mem_singleton.1 hq])
          · cases hq
      omega
    rw [List.flatMap_cons, List.foldl_cons]
    cases h0 : act (2 * k) <;> cases h1 : act (2 * k + 1)
    · rw [halvesOf, h0, h1, storeByte, h0, h1]
      exact ih hks sh n
    · rw [halvesOf, h0, h1, storeByte, h0, h1]
      refine (storeNibbles_lone s e a r d (fun q hq hc => ?_) sh n).trans (ih hks ..)
      omega
    · rw [halvesOf, h0, h1, storeByte, h0, h1]
      exact (storeNibbles_lone s e a r d (fun q hq hc => hrest q hq hc.2) sh n).trans (ih hks ..)
    · rw [halvesOf, h0, h1, storeByte, h0, h1]
      have hpair : 2 * k % 2 = 0 ∧ 2 * k + 1 = 2 * k + 1 := ⟨by omega, rfl⟩
      exact (if_pos hpair).trans (ih hks ..)

end Halves

end Sys2Proof.Machine


namespace Sys2Proof.Machine

theorem mem_insertRec {w v : WRec} {l : List WRec} (h : v ∈ insertRec w l) : v = w ∨ v ∈ l := by
  induction l with
  | nil => exact .inl (List.mem_singleton.1 h)
  | cons u l ih =>
    rw [insertRec] at h
    split at h
    · exact List.mem_cons.1 h
    · rcases List.mem_cons.1 h with rfl | h
      · exact .inr List.mem_cons_self
      · exact (ih h).imp_right (List.mem_cons_of_mem u)

/-- A write goes after the writes that no later place holds. -/
theorem insertRec_last {w : WRec} {l : List WRec} (h : ∀ v ∈ l, v.seq ≤ w.seq) : insertRec w l = l ++ [w] := by
  induction l with
  | nil => rfl
  | cons u l ih =>
    have hu := h u List.mem_cons_self
    rw [insertRec, if_neg (by omega), ih fun v hv => h v (List.mem_cons_of_mem u hv)]
    rfl

/-- A buffer that has grown by writes of an instruction grows by one more. -/
theorem Sheaf.Grows.insert {r : Reader} {sh sh₁ sh₂ : Sheaf} (hgrows : sh.Grows r sh₁) {home : Nat} {b : Byte}
    (hw : ∀ a, fget [] sh₂.writes a = if home = a then insertRec (r.wrote b) (fget [] sh₁.writes a) else fget [] sh₁.writes a) : sh.Grows r sh₂ := by
  intro a
  obtain ⟨hold, hown⟩ := hgrows a
  rw [hw]
  split
  · refine ⟨fun v hv => ?_, fun hseq => ?_⟩
    · rcases mem_insertRec hv with rfl | hv
      · exact .inr rfl
      · exact hold v hv
    · obtain ⟨own, hown, hownSeq⟩ := hown hseq
      refine ⟨own ++ [r.wrote b], ?_, fun v hv => ?_⟩
      · rw [hown, insertRec_last, List.append_assoc]
        intro v hv
        rcases List.mem_append.1 hv with hv | hv
        · exact Nat.le_of_lt (hseq v hv)
        · exact Nat.le_of_eq (hownSeq v hv)
      · rcases List.mem_append.1 hv with hv | hv
        · exact hownSeq v hv
        · rw [List.mem_singleton.1 hv]
          rfl
  · exact ⟨hold, hown⟩

/-- What a store does of its sheaf but for the buffer. -/
def Sheaf.Stored (sh sh' : Sheaf) : Prop :=
  sh' = { sh with writes := sh'.writes, rset := sh'.rset, wset := sh'.wset, puts := sh'.puts, asks := sh'.asks }

theorem Sheaf.Stored.trans {sh sh' sh'' : Sheaf} (h : sh.Stored sh') (h' : sh'.Stored sh'') : sh.Stored sh'' := by
  unfold Sheaf.Stored at *
  rw [h', h]

theorem sheafWriteAt_stored (c : Option Nat) (r : Reader) (sh : Sheaf) (home : Nat) (bs : List Byte) : sh.Stored (sheafWriteAt c r sh home bs) := by
  rw [sheafWriteAt, bufferBytes_eq]
  rfl

/-- One byte joins the buffer. -/
theorem fget_sheafWriteAt_byte (c : Option Nat) (r : Reader) (sh : Sheaf) (home : Nat) (y : Byte) (p : Nat) :
    fget [] (sheafWriteAt c r sh home [y]).writes p = if home = p then insertRec (r.wrote y) (fget [] sh.writes p) else fget [] sh.writes p := by
  refine (fget_bufferBytes r sh home [y] p).trans ?_
  by_cases hp : home = p
  · rw [if_pos ⟨by omega, by simp [hp]⟩, if_pos hp, hp, Nat.sub_self]
    rfl
  · rw [if_neg (by simp; omega), if_neg hp]

section Bytes

variable (s : State) (e : QEntry) (a : Arch) (r : Reader) (d : Nat) (act : Nat → Bool) (h : Nat → Nat)

/-- Byte `k` of a store of half bytes, where it holds `o` before: the halves of elements that are not active are kept. -/
def halvesByte (k : Nat) (o : Byte) : Byte := BitVec.ofNat 8
  ((if act (2 * k) then getElem a e.vb 4 d (2 * k) else o.toNat % 16) +
    16 * (if act (2 * k + 1) then getElem a e.vb 4 d (2 * k + 1) else o.toNat / 16))

/-- One byte of a store, from a sheaf whose buffer has grown by the store's own writes: `o` is what its reader sees of the byte. -/
structure ByteStored (sh₀ : Sheaf) (k : Nat) (o : Byte) (sh sh' : Sheaf) : Prop where
  seen : act (2 * k) ≠ act (2 * k + 1) → SeenBy s sh₀ r (h k) o
  writes : ∀ p, fget [] sh'.writes p =
    if (act (2 * k) || act (2 * k + 1)) && h k == p then insertRec (r.wrote (halvesByte e a d act k o)) (fget [] sh.writes p) else fget [] sh.writes p
  stored : sh.Stored sh'

variable {s e a r d act h}

theorem storeHalf_stored {sh₀ sh : Sheaf} (hgrows : sh₀.Grows r sh) {i k : Nat} (n : Nat)
    (hi : (i = 2 * k ∧ act (2 * k) = true ∧ act (2 * k + 1) = false) ∨ (i = 2 * k + 1 ∧ act (2 * k) = false ∧ act (2 * k + 1) = true)) :
    ∃ o, ByteStored s e a r d act h sh₀ k o sh (storeHalf s e a r d i (h k) sh n).1 := by
  obtain ⟨o, ho⟩ : ∃ o, (sheafRead s sh r (h k) 1 n).1 = [o] := List.length_eq_one_iff.1 (length_sheafRead ..)
  have hseen : SeenBy s sh₀ r (h k) o := by
    have := seenFrom_sheafRead s hgrows (h k) 1 n 0
    rw [ho] at this
    exact this (by simp)
  have hhalf : BitVec.ofNat 8 (if i % 2 = 0 then leNat [o] / 16 * 16 + getElem a e.vb 4 d i else getElem a e.vb 4 d i * 16 + leNat [o] % 16) =
      halvesByte e a d act k o := by
    have hval : leNat [o] = o.toNat := by simp [leNat]
    rw [hval, halvesByte]
    congr 1
    rcases hi with ⟨rfl, h0, h1⟩ | ⟨rfl, h0, h1⟩
    · rw [if_pos (by omega), h0, h1]
      simp only [if_true, Bool.false_eq_true, if_false]
      omega
    · rw [if_neg (by omega), h0, h1]
      simp only [if_true, Bool.false_eq_true, if_false]
      omega
  have hany : (act (2 * k) || act (2 * k + 1)) = true := by
    rcases hi with ⟨-, h0, h1⟩ | ⟨-, h0, h1⟩ <;> simp [h0, h1]
  refine ⟨o, fun _ => hseen, fun p => ?_, ?_⟩
  · simp only [storeHalf, ho, hhalf, hany, Bool.true_and, beq_iff_eq]
    exact fget_sheafWriteAt_byte ..
  · exact Sheaf.Stored.trans (sh' := sh.addReadAt (some (e.clusterOf i)) (h k) 1) rfl (sheafWriteAt_stored ..)

theorem storeByte_stored {sh₀ : Sheaf} {p : Sheaf × Nat} (hgrows : sh₀.Grows r p.1) (k : Nat) :
    ∃ o, ByteStored s e a r d act h sh₀ k o p.1 (storeByte s e a r d act h p k).1 := by
  rw [storeByte]
  cases h0 : act (2 * k) <;> cases h1 : act (2 * k + 1)
  · exact ⟨0, fun hne => absurd (h0.trans h1.symm) hne, fun b => by simp [h0, h1], rfl⟩
  · exact storeHalf_stored hgrows p.2 (.inr ⟨rfl, h0, h1⟩)
  · exact storeHalf_stored hgrows p.2 (.inl ⟨rfl, h0, h1⟩)
  · refine ⟨0, fun hne => absurd (h0.trans h1.symm) hne, fun b => ?_, sheafWriteAt_stored ..⟩
    simp only [h0, h1, Bool.true_or, Bool.true_and, beq_iff_eq, halvesByte, if_true]
    exact fget_sheafWriteAt_byte ..

theorem ByteStored.grows {sh₀ sh sh' : Sheaf} {k : Nat} {o : Byte} (hb : ByteStored s e a r d act h sh₀ k o sh sh') (hgrows : sh₀.Grows r sh) :
    sh₀.Grows r sh' := by
  by_cases hany : (act (2 * k) || act (2 * k + 1)) = true
  · exact hgrows.insert fun p => by simpa [hany] using hb.writes p
  · intro p
    rw [hb.writes p]
    simpa [hany] using hgrows p

/-- All bytes of a store in turn. -/
theorem foldl_storeByte {sh₀ : Sheaf} {ks : List Nat} (hks : ks.Nodup) {p : Sheaf × Nat} (hgrows : sh₀.Grows r p.1) :
    ∃ old : Nat → Byte, (∀ k ∈ ks, act (2 * k) ≠ act (2 * k + 1) → SeenBy s sh₀ r (h k) (old k)) ∧
      (∀ b, fget [] (ks.foldl (storeByte s e a r d act h) p).1.writes b =
        joinRecs ((ks.filter (fun k => (act (2 * k) || act (2 * k + 1)) && h k == b)).map (fun k => r.wrote (halvesByte e a d act k (old k))))
          (fget [] p.1.writes b)) ∧
      p.1.Stored (ks.foldl (storeByte s e a r d act h) p).1 := by
  induction ks generalizing p with
  | nil => exact ⟨fun _ => 0, by simp, fun _ => rfl, rfl⟩
  | cons k ks ih =>
    obtain ⟨hk, hks⟩ := List.nodup_cons.1 hks
    obtain ⟨o, hstep⟩ := storeByte_stored (s := s) (e := e) (a := a) (d := d) (act := act) (h := h) hgrows k
    obtain ⟨old, hseen, hwrites, hstored⟩ := ih hks (hstep.grows hgrows)
    have hsame : ∀ j ∈ ks, Function.update old k o j = old j := fun j hj => Function.update_of_ne (fun he : j = k => hk (he ▸ hj)) ..
    refine ⟨Function.update old k o, fun j hj hne => ?_, fun b => (hwrites b).trans ?_, hstep.stored.trans hstored⟩
    · rcases List.mem_cons.1 hj with rfl | hj
      · rw [Function.update_self]
        exact hstep.seen hne
      · rw [hsame j hj]
        exact hseen j hj hne
    · have hrest : (ks.filter (fun k => (act (2 * k) || act (2 * k + 1)) && h k == b)).map
            (fun j => r.wrote (halvesByte e a d act j (Function.update old k o j))) =
          (ks.filter (fun k => (act (2 * k) || act (2 * k + 1)) && h k == b)).map (fun j => r.wrote (halvesByte e a d act j (old j))) :=
        List.map_congr_left fun j hj => by rw [hsame j (List.mem_filter.1 hj).1]
      rw [hstep.writes b, List.filter_cons]
      split
      · rw [List.map_cons, hrest, Function.update_self]
        rfl
      · rw [hrest]

end Bytes

end Sys2Proof.Machine


namespace Sys2Proof.Machine

theorem sitesAt_unit (e : QEntry) (a : Arch) (base : W64) (m : Nat) (h : Nat → Nat) :
    (sitesAt e a .unit base m (fun i _ => h i)).map (fun q => (q.1, q.2.2)) = (e.active a m).map (fun i => (i, h i)) := by
  simp [sitesAt, places, addrOf, MemForm.nf, List.range_one, ← List.map_eq_flatMap]

/-- An element that shares its byte with no other active one: the byte's two halves are not both written. -/
theorem halves_of_lonely {e : QEntry} {a : Arch} {m i : Nat} (h : lonely (e.active a m) i = true) :
    (e.isActive a m (2 * (i / 2)) && e.isActive a m (2 * (i / 2) + 1)) = false := by
  rw [lonely, Bool.not_eq_true', ← Bool.not_eq_true, List.contains_iff_mem, QEntry.mem_active, Bool.not_eq_true] at h
  split at h
  · rw [show 2 * (i / 2) + 1 = i + 1 by omega, h, Bool.and_false]
  · rw [show 2 * (i / 2) = i - 1 by omega, h, Bool.false_and]

/-- Byte `k` holds an active element only below VL. -/
theorem half_mem_range {e : QEntry} {a : Arch} {m k : Nat} (h : e.isActive a m (2 * k) = true ∨ e.isActive a m (2 * k + 1) = true) :
    k ∈ List.range ((e.vl + 1) / 2) := by
  simp only [QEntry.isActive, Bool.and_eq_true, decide_eq_true_eq] at h
  exact List.mem_range.2 (by omega)

/-- A store of half bytes whose checks pass. -/
theorem runStore_halves {s : State} {e : QEntry} {a : Arch} {sh : Sheaf} {trims : Bool} {d m : Nat} {base : W64} {h : Nat → Nat}
    (hsup : e.sup = false) (hsew : e.sew = 4) (hd : e.groupHere d = true)
    (hchecks : ∀ k, (e.isActive a m (2 * k) || e.isActive a m (2 * k + 1)) = true →
      accessAt s (e.grant.clusterAt (k % e.vb)) e.grant e.csr false ((base.toNat + k) % 2 ^ 64) 1 kWrite 1 = .ok { home := h k, hold := none } ∧
      ((e.isActive a m (2 * k) && e.isActive a m (2 * k + 1)) = false → readPoisoned s sh (e.reader false) (h k) 1 = false)) :
    let t := (List.range ((e.vl + 1) / 2)).foldl (storeByte s e a (e.reader false) d (e.isActive a m) h) (sh, s.free)
    runStore s e a sh trims .unit d base m = .calm a a t.1 t.2 := by
  have hbytes := storeNibbles_bytes s e a (e.reader false) d (act := e.isActive a m) (h := h) (List.nodup_range (n := (e.vl + 1) / 2)) sh s.free
  rw [← active_halves, ← sitesAt_unit e a base m (fun i => h (i / 2))] at hbytes
  refine (runStore_checked (h := fun i _ => h (i / 2)) (by simp [memOk, hd]) (fun _ => rfl) fun q hq => ?_).trans ?_
  · obtain ⟨hp, hx⟩ := mem_eltsAt.1 hq
    obtain ⟨hact, -⟩ := mem_places.1 hp
    obtain ⟨⟨i, k⟩, x⟩ := q
    have hx := Option.some.inj hx
    dsimp only at hact hx ⊢
    subst hx
    have hi : i = 2 * (i / 2) ∨ i = 2 * (i / 2) + 1 := by omega
    have hact' : (e.isActive a m (2 * (i / 2)) || e.isActive a m (2 * (i / 2) + 1)) = true := by
      rcases hi with hi | hi
      · rw [← hi, hact, Bool.true_or]
      · rw [← hi, hact, Bool.or_true]
    obtain ⟨hacc, hpois⟩ := hchecks (i / 2) hact'
    have hhalf : i * e.sew / 8 = i / 2 := by
      rw [hsew]
      omega
    have hone : max 1 (e.sew / 8) = 1 := by rw [hsew]; rfl
    refine checkElt_ok ?_ fun hlonely => ?_
    · simp only [Elt.cluster, hhalf, hone, hsup]
      exact hacc
    · simp only [hone]
      exact hpois (halves_of_lonely (Bool.and_eq_true_iff.1 hlonely).2)
  · rw [if_pos hsew]
    exact congrArg (fun t : Sheaf × Nat => Ran.calm a a t.1 t.2) hbytes

/-- A store of half bytes completes where its checks pass and its reservation fits. -/
theorem vstUnit_halves {d a : Reg} {m : BitVec 3} {s : State} {y : Hart} {sh : Sheaf} {h : Nat → Nat} (hv : s.VReady [a.toNat] y sh)
    (htimed : s.ms.timed = false) (hsew : (y.entry sh).sew = 4) (hd : (y.entry sh).groupHere d.toNat = true)
    (hfit : resvFits [sh] (storeResv 1 y) = true)
    (hchecks : ∀ k, ((y.entry sh).isActive y.arch m.toNat (2 * k) || (y.entry sh).isActive y.arch m.toNat (2 * k + 1)) = true →
      accessAt s (y.arch.grant.clusterAt (k % (y.entry sh).vb)) y.arch.grant y.arch.csr false (((y.arch.r a).toNat + k) % 2 ^ 64) 1 kWrite 1 =
        .ok { home := h k, hold := none } ∧
      (((y.entry sh).isActive y.arch m.toNat (2 * k) && (y.entry sh).isActive y.arch m.toNat (2 * k + 1)) = false →
        readPoisoned s sh ((y.entry sh).reader false) (h k) 1 = false)) :
    let e := y.entry sh
    let act := e.isActive y.arch m.toNat
    ∃ (old : Nat → Byte) (sh' : Sheaf),
      (∀ k ∈ List.range ((e.vl + 1) / 2), act (2 * k) ≠ act (2 * k + 1) → SeenBy s sh (e.reader false) (h k) (old k)) ∧
      (∀ p, fget [] sh'.writes p = joinRecs (((List.range ((e.vl + 1) / 2)).filter (fun k => (act (2 * k) || act (2 * k + 1)) && h k == p)).map
        (fun k => (e.reader false).wrote (halvesByte e y.arch d.toNat act k (old k)))) (fget [] sh.writes p)) ∧
      sh' = { sh with
        seq := sh.seq + 1, writes := sh'.writes, rset := sh'.rset, wset := sh'.wset, puts := sh'.puts, resv := addResv sh.resv (storeResv 1 y) } ∧
      VecStep (.vstUnit d a m) s y [a.toNat] sh' (max 1 e.vl) none (y.arch.calm (fun z => y.arch.Only z [])) := by
  intro e act
  let k : Issue := ⟨[a.toNat], .viq, none, packR 45#6 d a 0#5 m 0#8⟩
  let o : VOp := .store .unit d.toNat (y.arch.r a) m.toNat
  let e' := y.entryOf sh k (storeResv 1 y) o
  let sh₀ := ({ sh with seq := sh.seq + 1 } : Sheaf).reserving (addResv sh.resv (storeResv 1 y))
  have hrun := runStore_halves (s := s.withPlaced y sh k (storeResv 1 y) o) (e := e') (a := y.arch.next) (sh := sh₀) (trims := sh.byStrip)
    (d := d.toNat) (base := y.arch.r a) (m := m.toNat) (h := h) rfl hsew hd hchecks
  obtain ⟨old, hseen, hwrites, hstored⟩ := foldl_storeByte (s := s.withPlaced y sh k (storeResv 1 y) o) (e := e') (a := y.arch.next) (r := e.reader false)
    (d := d.toNat) (act := act) (h := h) (sh₀ := sh) (List.nodup_range (n := (e.vl + 1) / 2)) (p := (sh₀, s.free)) (.of_writes_eq rfl _)
  let t := (List.range ((e.vl + 1) / 2)).foldl
    (storeByte (s.withPlaced y sh k (storeResv 1 y) o) e' y.arch.next (e.reader false) d.toNat act h) (sh₀, s.free)
  have hrun : s.placedRun y sh k (storeResv 1 y) o = .calm y.arch.next y.arch.next t.1 t.2 := hrun
  have hstored : sh₀.Stored t.1 := hstored
  have hwrites : ∀ p, fget [] t.1.writes p = _ := hwrites
  clear_value t
  refine ⟨old, { t.1 with asks := sh.asks }, hseen, hwrites, ?_, ?_⟩
  · rw [hstored]
    rfl
  · exact vecStep_of_calm hv (exec_vstUnit d a m s) rfl hfit rfl rfl rfl rfl hrun (.inl htimed) rfl rfl (by rw [hstored]; exact ⟨rfl, rfl, rfl⟩)
      fun _ => Arch.only_nil rfl

/-- Settles O33: the stores of whole bytes differ in their form alone, and VST.UNIT at SEW 4 goes byte by byte. -/
theorem vectorStores : Obligations.VectorStores := by
  refine ⟨fun d a b m n w t => ⟨vStores_of_store (exec_vstUnit d a m) rfl fun _ _ => rfl, vStores_of_store (exec_vstStr d a b m) rfl fun _ _ => rfl,
    vStores_of_store (exec_vstIdx d a b m w) rfl fun _ _ => rfl, vStores_of_store (exec_vstSeg d a m n) rfl fun _ _ => rfl,
    vStores_of_store (exec_vstTens d a t m) rfl fun _ _ => rfl⟩, ?_⟩
  intro d a m s y sh h hv htimed e he hshape hsew hd hfit act hchecks
  subst he
  obtain ⟨old, sh', hseen, hwrites, hsh', hstep⟩ := vstUnit_halves hv htimed hsew hd hfit hchecks
  refine ⟨old, sh'.writes, sh', fun k hk => ?_, hwrites, hsh', hstep⟩
  have hne : act (2 * k) ≠ act (2 * k + 1) := bne_iff_ne.1 hk
  refine hseen k (half_mem_range (a := y.arch) (m := m.toNat) ?_) hne
  cases h0 : act (2 * k)
  · exact .inr (Bool.ne_false_iff.1 (h0 ▸ hne.symm))
  · exact .inl h0

end Sys2Proof.Machine

/-! ### VLD.QLD, TAMW, VST.RED, VXCL and DBG.TRMARK (R143, R158, R161, R164, R166, R167) -/

namespace Sys2Proof.Machine

/-! Scales (R158) -/

/-- Scales that are read one byte each, with the home address of each. -/
theorem foldl_readScale {s : State} {r : Reader} {d : Nat} {sh₀ : Sheaf} (c : Nat → Option Nat) (xs : List (Nat × Nat)) (a : Arch) (sh : Sheaf) (n : Nat)
    (hsh : sh.writes = sh₀.writes) :
    ∃ (ys : List ((Nat × Nat) × Byte)) (n' : Nat), ys.map Prod.fst = xs ∧ (∀ y ∈ ys, SeenBy s sh₀ r y.1.2 y.2) ∧
      xs.foldl (fun (p : Arch × Sheaf × Nat) x =>
        let b := sheafRead s p.2.1 r x.2 1 p.2.2
        (setScale p.1 d x.1 (leNat b.1), p.2.1.addReadAt (c x.1) x.2 1, b.2)) (a, sh, n) =
      ({ a with q := ys.foldl (fun q y => fset 0 q (d * 131072 + y.1.1) y.2) a.q }, xs.foldl (fun t x => t.addReadAt (c x.1) x.2 1) sh, n') := by
  induction xs generalizing a sh n with
  | nil => exact ⟨[], n, rfl, by simp, rfl⟩
  | cons x xs ih =>
    obtain ⟨o, ho⟩ : ∃ o, (sheafRead s sh r x.2 1 n).1 = [o] := List.length_eq_one_iff.1 (length_sheafRead ..)
    have hseen : SeenBy s sh₀ r x.2 o := by
      have := seenFrom_sheafRead s (Sheaf.Grows.of_writes_eq hsh r) x.2 1 n 0
      rw [ho] at this
      exact this (by simp)
    have hset : setScale a d x.1 (leNat (sheafRead s sh r x.2 1 n).1) = { a with q := fset 0 a.q (d * 131072 + x.1) o } := by
      rw [ho, setScale]
      simp [leNat]
    obtain ⟨ys, n', hys, hall, hrest⟩ := ih { a with q := fset 0 a.q (d * 131072 + x.1) o } (sh.addReadAt (c x.1) x.2 1) (sheafRead s sh r x.2 1 n).2 hsh
    refine ⟨(x, o) :: ys, n', by rw [List.map_cons, hys], List.forall_mem_cons.2 ⟨hseen, hall⟩, ?_⟩
    rw [List.foldl_cons]
    dsimp only
    rw [hset]
    exact hrest

/-- The scales of a load are at most those of its register. -/
theorem QEntry.shapeOk.scales_le {e : QEntry} (h : e.shapeOk) : ceilDiv e.vl (vtBlk e.vt) ≤ 131072 := by
  have hvl : e.vl ≤ 8 * (131072 * 8 / 4) := by
    obtain ⟨-, -, hvl⟩ := id h
    have hregs : regElems e.vb e.sew ≤ 131072 * 8 / 4 :=
      (Nat.div_le_div_right (Nat.mul_le_mul_right 8 h.elem.le)).trans (Nat.div_le_div_left (Nat.le_mul_of_pos_right 4 (Nat.two_pow_pos _)) (by decide))
    have hbits : bits e.vt.toNat 6 5 ≤ 3 := Nat.le_of_lt_succ (Nat.mod_lt _ (by decide))
    have hlmul : e.lmul ≤ 8 := Nat.pow_le_pow_right (by decide : 0 < 2) hbits
    exact hvl.trans (h.vlmax_eq ▸ Nat.mul_le_mul hlmul hregs)
  have hblk : 16 ≤ vtBlk e.vt := Nat.le_mul_of_pos_right 16 (Nat.two_pow_pos _)
  exact Nat.le_of_lt_succ ((Nat.div_lt_iff_lt_mul (by omega)).2 (by omega))

/-- VLD.QLD where its checks pass. -/
theorem runQld_ok {s : State} {e : QEntry} {a : Arch} {sh : Sheaf} {d : Nat} {base : W64} {h : Nat → Nat} (hsup : e.sup = false) (hshape : e.shapeOk)
    (hchecks : ∀ j < ceilDiv e.vl (vtBlk e.vt), accessAt s (e.grant.clusterAt (j % e.vb)) e.grant e.csr false ((base.toNat + j) % 2 ^ 64) 1 kRead 1 =
      .ok { home := h j, hold := none } ∧ readPoisoned s sh (e.reader false) (h j) 1 = false) :
    ∃ b n, runQld s e a sh d base = .calm a b
        ((List.range (ceilDiv e.vl (vtBlk e.vt))).foldl (fun x j => x.addReadAt (some (e.grant.place (j % e.vb / 64)).1) (h j) 1) sh) n ∧
      b = { a with q := b.q } ∧
      ∃ f : Nat → Byte, (∀ j < ceilDiv e.vl (vtBlk e.vt), SeenBy s sh (e.reader false) (h j) (f j)) ∧
        SetsScales d (fun j => given (j < ceilDiv e.vl (vtBlk e.vt)) (f j).toNat) a b := by
  have hle := hshape.scales_le
  generalize hn : ceilDiv e.vl (vtBlk e.vt) = n at *
  obtain ⟨ys, n', hys, hseen, hread⟩ := foldl_readScale (s := s) (r := e.reader false) (d := d) (sh₀ := sh)
    (fun j => some (e.grant.place (j % e.vb / 64)).1) ((List.range n).map fun j => (j, h j)) a sh s.free rfl
  let b : Arch := { a with q := ys.foldl (fun q y => fset 0 q (d * 131072 + y.1.1) y.2) a.q }
  have hnodup : (ys.map fun y => d * 131072 + y.1.1).Nodup := by
    have : (ys.map fun y => d * 131072 + y.1.1) = (List.range n).map (fun j => d * 131072 + j) := by
      have := congrArg (List.map fun x : Nat × Nat => d * 131072 + x.1) hys
      simpa [List.map_map, Function.comp_def] using this
    rw [this]
    exact List.nodup_range.map fun i j (hij : d * 131072 + i = d * 131072 + j) => Nat.add_left_cancel hij
  have hin (j : Nat) (hj : j < n) : SeenBy s sh (e.reader false) (h j) (fget 0 b.q (d * 131072 + j)) := by
    obtain ⟨y, hy, hfst⟩ := List.mem_map.1 (show (j, h j) ∈ ys.map Prod.fst by rw [hys]; exact List.mem_map_of_mem (List.mem_range.2 hj))
    have hval := fget_foldl_fset_of_nodup (0 : Byte) (fun y : (Nat × Nat) × Byte => d * 131072 + y.1.1) Prod.snd ys hnodup a.q hy
    have := hseen y hy
    rw [← hval, hfst] at this
    exact this
  have hout (k : Nat) (hk : ∀ j < n, k ≠ d * 131072 + j) : fget 0 b.q k = fget 0 a.q k := by
    refine fget_foldl_fset_of_notMem (0 : Byte) (fun y : (Nat × Nat) × Byte => d * 131072 + y.1.1) Prod.snd ys a.q fun hmem => ?_
    obtain ⟨y, hy, rfl⟩ := List.mem_map.1 hmem
    obtain ⟨j, hj, hfst⟩ := List.mem_map.1 (hys ▸ List.mem_map_of_mem (f := Prod.fst) hy)
    exact hk j (List.mem_range.1 hj) (by rw [← hfst])
  refine ⟨b, n', ?_, rfl, fun j => fget 0 b.q (d * 131072 + j), hin, ?_, fun j hj => ?_, fun k hk => hout k fun j hj => by omega⟩
  · have hall := checkAll_ok (s := s) (e := e) (sh := sh) (kind := kRead) (reads := true) (idx := false) (h := h) (l := List.range n)
      (x := fun j => { i := j, lane := j % e.vb, addr := (base.toNat + j) % 2 ^ 64, n := 1, al := 1 }) fun j hj => by
        obtain ⟨hacc, hpois⟩ := hchecks j (List.mem_range.1 hj)
        exact checkElt_ok (by rw [hsup]; exact hacc) fun _ => hpois
    simp only [runQld, hn, hall]
    rw [← List.map_prod_left_eq_zip, hread, List.foldl_map]
    rfl
  · exact ⟨fun _ => rfl, fun _ => rfl, fun h => absurd List.mem_cons_self h, fun _ => rfl, fun _ => rfl, fun _ => rfl⟩
  · by_cases hjn : j < n
    · simp only [given, hjn, if_true, Option.map_some, Option.getD_some, getScale]
      exact (Nat.mod_eq_of_lt (BitVec.isLt _)).symm
    · simp only [given, hjn, if_false, Option.map_none, Option.getD_none, getScale]
      rw [hout _ fun i hi => by omega]

theorem vldQld_completes (q : BitVec 3) (a : Reg) {s : State} {y : Hart} {sh : Sheaf} {h : Nat → Nat} (hv : s.VReady [a.toNat] y sh)
    (htimed : s.ms.timed = false) (hshape : (y.entry sh).shapeOk)
    (hchecks : ∀ j < ceilDiv (y.entry sh).vl (vtBlk (y.entry sh).vt), accessAt s ((y.entry sh).grant.clusterAt (j % (y.entry sh).vb)) (y.entry sh).grant
        (y.entry sh).csr false (((y.arch.r a).toNat + j) % 2 ^ 64) 1 kRead 1 = .ok { home := h j, hold := none } ∧
      readPoisoned s sh ((y.entry sh).reader false) (h j) 1 = false) :
    let n := ceilDiv (y.entry sh).vl (vtBlk (y.entry sh).vt)
    VecStep (.vldQld q a) s y [a.toNat] ((List.range n).foldl (fun x j => x.addRead (h j) 1) { sh with seq := sh.seq + 1 }) (max 1 (y.entry sh).vl) none
      (y.arch.calm (fun z => ∃ f : Nat → Byte, (∀ j < n, SeenBy s sh ((y.entry sh).reader false) (h j) (f j)) ∧
        SetsScales q.toNat (fun j => given (j < n) (f j).toNat) y.arch z)) := by
  let k : Issue := ⟨[a.toNat], .viq, none, packR 44#6 (0#2 ++ q) a 0#5 0#3 6#8⟩
  let o : VOp := .qld q.toNat (y.arch.r a)
  obtain ⟨b, n', hrun, hb, f, hseen, hsets⟩ := runQld_ok (s := s.withPlaced y sh k [] o) (e := y.entryOf sh k [] o) (a := y.arch.next)
    (sh := { sh.placed [] with asks := [] }) (d := q.toNat) (base := y.arch.r a) (h := h) rfl hshape hchecks
  refine vecStep_of_calm hv (exec_vldQld q a s) (r := []) rfl rfl rfl rfl rfl rfl hrun (.inl htimed) (by rw [hb]; rfl) ?_
    (Sheaf.addRead_marks h 1 ..) fun csr => ⟨f, hseen, hsets⟩
  exact Sheaf.addReads_unasked (fun j => some ((y.entry sh).grant.place (j % (y.entry sh).vb / 64)).1) h 1
    (List.range (ceilDiv (y.entry sh).vl (vtBlk (y.entry sh).vt))) (sh := { sh.placed [] with asks := [] }) (sh' := { sh with seq := sh.seq + 1 }) rfl

/-! DBG.TRMARK (R143) -/

theorem dbgTrmark_completes (a : Reg) : VecRuns (.dbgTrmark a) [a.toNat] none (fun _ _ => True) (fun _ z => z.calm (fun t => z.Only t [])) := by
  intro s y sh hv e he _ _ _
  subst he
  exact vecStep_of_calm hv (exec_dbgTrmark a s) (r := []) rfl rfl rfl rfl rfl rfl (b := y.arch.next)
    (sh₁ := { sh.placed [] with asks := [] }) rfl (.inr rfl) rfl rfl ⟨rfl, rfl, rfl⟩ fun _ => Arch.only_nil rfl

end Sys2Proof.Machine


namespace Sys2Proof.Machine

/-! Tensor maps (R161) -/

/-- A long read gives bytes that its reader may see, eight at each home address. -/
theorem longRead_eq {s : State} {r : Reader} {sh₀ : Sheaf} (hs : List Nat) (sh : Sheaf) (n : Nat) (hsh : sh.writes = sh₀.writes) :
    ∃ bs n', longRead s r hs sh n = (bs, hs.foldl (fun x p => x.addRead p 8) sh, n') ∧ bs.length = 8 * hs.length ∧
      ∀ j < 8 * hs.length, SeenBy s sh₀ r (hs.getD (j / 8) 0 + j % 8) (bs.getD j 0) := by
  induction hs generalizing sh n with
  | nil => exact ⟨[], n, rfl, rfl, fun j hj => absurd hj (Nat.not_lt_zero j)⟩
  | cons h hs ih =>
    let b := sheafRead s sh r h 8 n
    have hlen : b.1.length = 8 := length_sheafRead ..
    obtain ⟨bs, n', hrest, hbs, hseen⟩ := ih (sh.addRead h 8) b.2 hsh
    refine ⟨b.1 ++ bs, n', by rw [longRead, hrest]; rfl, by rw [List.length_append, hlen, hbs, List.length_cons]; omega, fun j hj => ?_⟩
    by_cases hj8 : j < 8
    · rw [List.getD_append _ _ _ _ (by omega), Nat.div_eq_of_lt hj8, Nat.mod_eq_of_lt hj8]
      exact seenFrom_sheafRead s (.of_writes_eq hsh r) h 8 n j (by rw [length_sheafRead]; exact hj8)
    · have hnext := hseen (j - 8) (by rw [List.length_cons] at hj; omega)
      rw [List.getD_append_right _ _ _ _ (by omega), hlen, show j / 8 = (j - 8) / 8 + 1 by omega, show j % 8 = (j - 8) % 8 by omega]
      exact hnext

/-- A long access that passes its checks has a home address for each eight bytes. -/
theorem longCheck_length {s : State} {e : QEntry} {sh : Sheaf} {a n al : Nat} {r : List Nat × Option (Nat × Stop)}
    (h : longCheck s e sh a n al = .ok r) : r.1.length = n / 8 := by
  have hall (homes : List (Option Nat)) (hnone : ¬ homes.any Option.isNone = true) : (homes.filterMap id).length = homes.length := by
    have hsome : ∀ x ∈ homes, (id x).isSome = true := fun x hx => by
      cases x with
      | none => exact absurd (List.any_eq_true.2 ⟨none, hx, rfl⟩) hnone
      | some v => rfl
    exact List.filterMap_length_eq_length.2 hsome
  unfold longCheck at h
  dsimp only at h
  split at h
  · cases h
  · split at h
    · cases h
    · split at h
      · cases h
      · next hnone =>
        have hlen := (hall _ hnone).trans ((List.length_map _).trans List.length_range)
        split at h
        · cases h
        · split at h
          · cases h
          · cases h
            exact hlen
        · split at h
          · cases h
          · cases h
            exact hlen

/-- TAMW where its checks pass and all that its read may give is a legal map. -/
theorem runTamw_ok {s : State} {e : QEntry} {a : Arch} {sh : Sheaf} {k : Nat} {base : W64} {hs : List Nat}
    (hcheck : longCheck s e sh base.toNat 128 128 = .ok (hs, none))
    (hlegal : ∀ bs : List Byte, bs.length = 128 →
      (∀ j < 128, SeenBy s sh (e.reader false) (hs.getD (j / 8) 0 + j % 8) (bs.getD j 0)) → (TensMap.ofBytes bs).isSome) :
    ∃ bs n, runTamw s e a sh k base = .calm a { a with tam := fsetMany 0 a.tam (k * 128) bs } (hs.foldl (fun x p => x.addRead p 8) sh) n ∧
      bs.length = 128 ∧ ∀ j < 128, SeenBy s sh (e.reader false) (hs.getD (j / 8) 0 + j % 8) (bs.getD j 0) := by
  have hlen : hs.length = 16 := longCheck_length hcheck
  obtain ⟨bs, n, hread, hbs, hseen⟩ := longRead_eq (s := s) (r := e.reader false) (sh₀ := sh) hs sh s.free rfl
  rw [hlen] at hbs hseen
  obtain ⟨map, hmap⟩ := Option.isSome_iff_exists.1 (hlegal bs hbs hseen)
  refine ⟨bs, n, ?_, hbs, hseen⟩
  simp only [runTamw, hcheck, hread, hmap]
  rfl

theorem tamw_completes (k : BitVec 4) (a : Reg) {s : State} {y : Hart} {sh : Sheaf} {hs : List Nat} (hv : s.VReady [a.toNat] y sh)
    (htimed : s.ms.timed = false) (hcheck : longCheck s (y.entry sh) sh (y.arch.r a).toNat 128 128 = .ok (hs, none))
    {seen : List Byte → Prop}
    (hseen : ∀ bs, seen bs ↔ bs.length = 128 ∧ ∀ j < 128, SeenBy s sh ((y.entry sh).reader false) (hs.getD (j / 8) 0 + j % 8) (bs.getD j 0))
    (hlegal : ∀ bs, seen bs → (TensMap.ofBytes bs).isSome) :
    VecStep (.tamw k a) s y [a.toNat] (hs.foldl (fun x p => x.addRead p 8) { sh with seq := sh.seq + 1 }) (max 1 (y.entry sh).vl) none
      (y.arch.calm (fun z => y.arch.Only z [.tam] ∧ ∃ bs, seen bs ∧
        ∀ j, fget 0 z.tam j = if k.toNat * 128 ≤ j ∧ j < k.toNat * 128 + 128 then bs.getD (j - k.toNat * 128) 0 else fget 0 y.arch.tam j)) := by
  let i : Issue := ⟨[a.toNat], .viq, none, packR 51#6 (0#1 ++ k) a 0#5 0#3 0#8⟩
  let o : VOp := .tamw k.toNat (y.arch.r a)
  obtain ⟨bs, n, hrun, hlen, hbs⟩ := runTamw_ok (s := s.withPlaced y sh i [] o) (e := y.entryOf sh i [] o) (a := y.arch.next)
    (sh := { sh.placed [] with asks := [] }) (k := k.toNat) hcheck fun bs hlen hbs => hlegal bs ((hseen bs).2 ⟨hlen, hbs⟩)
  refine vecStep_of_calm hv (exec_tamw k a s) (r := []) rfl rfl rfl rfl rfl rfl hrun (.inl htimed) rfl ?_
    (Sheaf.addRead_marks (fun p => p) 8 ..) fun csr => ⟨?_, bs, (hseen bs).2 ⟨hlen, hbs⟩, fun j => ?_⟩
  · exact Sheaf.addReads_unasked (fun _ => none) (fun p => p) 8 hs (sh := { sh.placed [] with asks := [] }) (sh' := { sh with seq := sh.seq + 1 }) rfl
  · exact ⟨fun _ => rfl, fun _ => rfl, fun _ => rfl, fun _ => rfl, fun h => absurd List.mem_cons_self h, fun _ => rfl⟩
  · exact (fget_fsetMany ..).trans (by rw [hlen]; rfl)

end Sys2Proof.Machine


namespace Sys2Proof.Machine

/-! Reductions in memory (R164) -/

/-- The reduction that element `i` of the group at vs asks for. -/
def QEntry.redOf (e : QEntry) (a : Arch) (ty : AluType) (op : AluOp) (d : Nat) (h : Nat → Nat) (i : Nat) : Red :=
  { home := h i, ty := ty, op := op, val := BitVec.ofNat 64 (getElem a e.vb e.sew d i) }

/-- The places that the reductions of an instruction touch. -/
def Sheaf.addRedsAt (e : QEntry) (h : Nat → Nat) (w : Nat) (act : List Nat) (sh : Sheaf) : Sheaf :=
  act.foldl (fun x j => x.addRedAt (some (e.clusterOf j)) (h j) w) sh

/-- An update of the sheaf that its data set and its granules to put do not see. -/
theorem Sheaf.addRedsAt_comm {u : Sheaf → Sheaf} (hu : ∀ sh c home n, (u sh).addRedAt c home n = u (sh.addRedAt c home n))
    (e : QEntry) (h : Nat → Nat) (w : Nat) (act : List Nat) (sh : Sheaf) : (u sh).addRedsAt e h w act = u (sh.addRedsAt e h w act) :=
  List.foldl_hom u fun sh j => hu sh (some (e.clusterOf j)) (h j) w

/-- The sheaf with the reductions `rs` to make. -/
def Sheaf.reducing (rs : List Red) (sh : Sheaf) : Sheaf := { sh with reds := rs }

/-- Each active element in turn leaves its reduction. -/
theorem foldl_reds (e : QEntry) (h : Nat → Nat) (w : Nat) (red : Nat → Red) (act : List Nat) (sh : Sheaf) :
    act.foldl (fun (x : Sheaf) j => (x.reducing (x.reds ++ [red j])).addRedAt (some (e.clusterOf j)) (h j) w) sh =
      (sh.addRedsAt e h w act).reducing (sh.reds ++ act.map red) := by
  rw [← Sheaf.addRedsAt_comm (u := Sheaf.reducing _) fun _ _ _ _ => rfl]
  induction act generalizing sh with
  | nil =>
    rw [List.map_nil, List.append_nil]
    rfl
  | cons j act ih =>
    rw [List.foldl_cons, ih, List.map_cons, List.append_cons sh.reds (red j) (act.map red)]
    rfl

/-- What is added to the base for element `i`: its index, or where it lies. -/
def redOffset (e : QEntry) (a : Arch) (idx : Option Nat) (i : Nat) : Nat := idx.elim (i * (e.sew / 8)) (fun b => getElem a e.vb e.sew b i)

/-- VST.RED where its checks pass. -/
theorem runRedst_ok {s : State} {e : QEntry} {a : Arch} {sh : Sheaf} {o d m : Nat} {idx : Option Nat} {base : W64} {ty : AluType} {op : AluOp} {h : Nat → Nat}
    (hsup : e.sup = false) (hty : aluTypeOf e.vt = some ty) (hop : aluOpOf o = some op) (hd : e.groupHere d = true) (hidx : ∀ b ∈ idx, e.groupHere b = true)
    (hchecks : ∀ j ∈ e.active a m, accessAt s (e.grant.clusterAt (j * (e.sew / 8) % e.vb)) e.grant e.csr false ((base.toNat + redOffset e a idx j) % 2 ^ 64)
      (e.sew / 8) kReduce (e.sew / 8) = .ok { home := h j, hold := none }) :
    runRedst s e a sh o idx d base m =
      .calm a a ((sh.addRedsAt e h (e.sew / 8) (e.active a m)).reducing (sh.reds ++ (e.active a m).map (e.redOf a ty op d h))) s.free := by
  have hall := checkAll_ok (s := s) (e := e) (sh := sh) (kind := kReduce) (reads := false) (idx := false) (h := h) (l := e.active a m)
    (x := fun i => { i := i, lane := i * (e.sew / 8) % e.vb, n := e.sew / 8, al := e.sew / 8, addr := (base.toNat + redOffset e a idx i) % 2 ^ 64 }) fun j hj =>
      checkElt_ok (by rw [hsup]; exact hchecks j hj) nofun
  have hreds := foldl_reds e h (e.sew / 8) (e.redOf a ty op d h) (e.active a m) sh
  cases idx with
  | none =>
    simp only [redOffset, Option.elim_none] at hall
    simp only [runRedst, hty, hop, hd, hall, ← List.map_prod_left_eq_zip, List.foldl_map, Bool.not_true, Bool.or_false, Bool.false_eq_true, if_false]
    rw [← hreds]
    rfl
  | some b =>
    simp only [redOffset, Option.elim_some] at hall
    simp only [runRedst, hty, hop, hd, hidx b rfl, hall, ← List.map_prod_left_eq_zip, List.foldl_map, Bool.not_true, Bool.or_false, Bool.false_eq_true, if_false]
    rw [← hreds]
    rfl

/-- The checks of an access do not see the hart that makes it. -/
theorem accessAt_withPlaced (s : State) (y : Hart) (sh : Sheaf) (k : Issue) (r : FMap Nat) (o : VOp) : accessAt (s.withPlaced y sh k r o) = accessAt s := rfl

theorem vstRed_completes (d a b : Reg) (m : BitVec 3) (x : BitVec 1) (o : BitVec 3) {s : State} {y : Hart} {sh : Sheaf}
    {ty : AluType} {op : AluOp} {h : Nat → Nat} {idx : Option Nat} {r : FMap Nat} (hv : s.VReady [a.toNat] y sh) (hidx : (if x = 1#1 then some b.toNat else none) = idx)
    (hr : ∀ q, (if x = 1#1 then scatterResv else storeResv 1) { y with bq := q } = r) (hty : aluTypeOf (y.entry sh).vt = some ty)
    (hop : aluOpOf o.toNat = some op) (hd : (y.entry sh).groupHere d.toNat = true) (hgroup : ∀ b ∈ idx, (y.entry sh).groupHere b = true)
    (hfit : resvFits [sh] r = true)
    (hchecks : ∀ j ∈ (y.entry sh).active y.arch m.toNat,
      accessAt s ((y.entry sh).grant.clusterAt (j * ((y.entry sh).sew / 8) % (y.entry sh).vb)) (y.entry sh).grant
      (y.entry sh).csr false (((y.arch.r a).toNat + redOffset (y.entry sh) y.arch idx j) % 2 ^ 64) ((y.entry sh).sew / 8) kReduce ((y.entry sh).sew / 8) =
        .ok { home := h j, hold := none }) :
    let e := y.entry sh
    VecStep (.vstRed d a b m x o) s y [a.toNat] { Sheaf.addRedsAt e h (e.sew / 8) (e.active y.arch m.toNat) { sh with seq := sh.seq + 1 } with
        reds := sh.reds ++ (e.active y.arch m.toNat).map (e.redOf y.arch ty op d.toNat h), resv := addResv sh.resv r }
      (max 1 e.vl) none (y.arch.calm (fun z => y.arch.Only z [])) := by
  intro e
  let k : Issue := ⟨[a.toNat], .viq, none, packR 45#6 d a b m (x ++ o ++ 7#4)⟩
  let op' : VOp := .redst o.toNat idx d.toNat (y.arch.r a) m.toNat
  have hsame : Sheaf.addRedsAt (y.entryOf sh k r op') h = Sheaf.addRedsAt e h := rfl
  have hsameRed : (y.entryOf sh k r op').redOf y.arch.next = e.redOf y.arch := rfl
  have hsameAct : (y.entryOf sh k r op').active y.arch.next = e.active y.arch := rfl
  have hsameSew : (y.entryOf sh k r op').sew = e.sew := rfl
  have hsameOff : redOffset (y.entryOf sh k r op') y.arch.next idx = redOffset e y.arch idx := rfl
  have hrun := runRedst_ok (s := s.withPlaced y sh k r op') (e := y.entryOf sh k r op') (a := y.arch.next)
    (sh := Sheaf.reserving (addResv sh.resv r) { sh with seq := sh.seq + 1 }) (o := o.toNat) (idx := idx) (d := d.toNat) (m := m.toNat) (base := y.arch.r a) (h := h) rfl hty hop hd hgroup (by
      rw [accessAt_withPlaced, hsameAct, hsameOff, hsameSew]
      exact hchecks)
  rw [Sheaf.addRedsAt_comm (u := Sheaf.reserving (addResv sh.resv r)) fun _ _ _ _ => rfl] at hrun
  have hmarks := Sheaf.foldl_marks (f := fun (x : Sheaf) j => x.addRedAt (some (e.clusterOf j)) (h j) (e.sew / 8)) (fun _ _ => ⟨rfl, rfl, rfl⟩)
    (e.active y.arch m.toNat) { sh with seq := sh.seq + 1 }
  have hexec : exec (.vstRed d a b m x o) s = issueV s k (if x = 1#1 then scatterResv else storeResv 1)
      (fun a₀ => .redst o.toNat idx d.toNat (a₀.rx a.toNat) m.toNat) := by
    rw [← hidx]
    exact exec_vstRed d a b m x o s
  rw [hsame, hsameRed, hsameAct, hsameSew] at hrun
  have hplaced : s.placedRun y sh k r op' = _ := hrun
  exact vecStep_of_calm hv hexec (hr _) hfit rfl rfl rfl rfl hplaced (.inr rfl) rfl rfl hmarks fun _ => Arch.only_nil rfl

end Sys2Proof.Machine


namespace Sys2Proof.Machine

/-! The harts of a gang as an instruction is placed -/

theorem mem_fins_self {β : Type} (m : FMap β) (n : Nat) (v : β) : (n, v) ∈ fins m n v := by
  induction m with
  | nil => exact List.mem_singleton_self _
  | cons e m ih =>
    rw [fins]
    split
    · exact List.mem_cons_self
    · split
      · exact List.mem_cons_self
      · exact List.mem_cons_of_mem _ ih

/-- An entry of a map stays when a key is set, or is what the map has held at that key. -/
theorem mem_fins_of_mem {β : Type} {m : FMap β} {e : Nat × β} (he : e ∈ m) (n : Nat) (v : β) : e ∈ fins m n v ∨ ffind m n = some e.2 := by
  induction m with
  | nil => cases he
  | cons a m ih =>
    obtain ⟨j, w⟩ := a
    rw [fins, ffind]
    by_cases hn : n = j
    · rw [if_pos hn, if_pos hn]
      rcases List.mem_cons.1 he with rfl | he
      · exact .inr rfl
      · exact .inl (List.mem_cons_of_mem _ he)
    · rw [if_neg hn, if_neg hn]
      split
      · exact .inl (List.mem_cons_of_mem _ he)
      · rcases List.mem_cons.1 he with rfl | he
        · exact .inl List.mem_cons_self
        · exact (ih he).imp_left (List.mem_cons_of_mem _)

/-- A hart that opens a sheaf to run keeps its place. -/
theorem Hart.ready_place {x y : Hart} {n : Nat} (h : x.ready n = some y) :
    y.gang = x.gang ∧ y.parked = x.parked ∧ y.gone = x.gone ∧ y.arch.grant = x.arch.grant := by
  unfold Hart.ready at h
  split at h
  · cases h
    exact ⟨rfl, rfl, rfl, rfl⟩
  · split at h
    · cases h
    · cases h
      refine ⟨rfl, rfl, rfl, ?_⟩
      unfold Hart.openHere
      dsimp only
      split <;> rfl

theorem gangHolds_withPlaced {s : State} {rs : List Nat} {y : Hart} {sh : Sheaf} (hv : s.VReady rs y sh) (k : Issue) (r : FMap Nat) (o : VOp) {gang c : Nat}
    (h : gangHolds s gang c = true) : gangHolds (s.withPlaced y sh k r o) gang c = true := by
  obtain ⟨x, hx, hcond⟩ := List.any_eq_true.1 h
  refine List.any_eq_true.2 ?_
  rcases mem_fins_of_mem hx s.cur (y.placed sh k r o) with hmem | hcur
  · exact ⟨x, hmem, hcond⟩
  · obtain ⟨⟨x', hx', hready, -⟩, -⟩ := hv
    obtain rfl : x' = x.2 := Option.some.inj (hx'.symm.trans hcur)
    obtain ⟨hgang, hparked, hgone, hgrant⟩ := Hart.ready_place hready
    refine ⟨_, mem_fins_self .., ?_⟩
    rw [← hgang, ← hparked, ← hgone, ← hgrant] at hcond
    exact hcond

/-! Accesses across clusters (R166, R167) -/

/-- The home address that the index `u` selects. -/
def vxclHome (e : QEntry) (u : Nat) : Nat := scratchHome (e.grant.base / 8 * 8 + u / 2 ^ 21 % 8) (u % 2 ^ 21)

/-- The access of the index `u` passes its checks. -/
structure VxclOk (s : State) (e : QEntry) (sh : Sheaf) (gang kind u : Nat) : Prop where
  aligned : u % 4 = 0
  lt : u < 2 ^ 24
  holds : gangHolds s gang (e.grant.base / 8 * 8 + u / 2 ^ 21 % 8) = true
  unwatched : watchHit e.csr (vxclHome e u) 4 kind = none
  clean : kind = kRead → readPoisoned s sh (e.reader true) (vxclHome e u) 4 = false

theorem vxclElt_ok {s : State} {e : QEntry} {sh : Sheaf} {gang kind u : Nat} (h : VxclOk s e sh gang kind u) (i : Nat) :
    vxclElt s e sh gang kind i u = .ok { home := vxclHome e u, hold := none } := by
  obtain ⟨haligned, hlt, hholds, hwatch, hclean⟩ := h
  have hhigh : bits u 31 24 = 0 := by rw [bits, Nat.div_eq_of_lt hlt, Nat.zero_mod]
  have hhome : scratchHome (e.grant.base / 8 * 8 + bits u 23 21) (bits u 20 0) = vxclHome e u := by
    rw [vxclHome, bits, bits, pow_zero, Nat.div_one]
    rfl
  have hcluster : gangHolds s gang (e.grant.base / 8 * 8 + bits u 23 21) = true := hholds
  have hpois : (decide (kind = kRead) && readPoisoned s sh (e.reader true) (vxclHome e u) 4) = false := by
    by_cases hk : kind = kRead
    · rw [hclean hk, Bool.and_false]
    · rw [decide_eq_false hk, Bool.false_and]
  have hmiss : (if e.sup = true then none else watchHit e.csr (vxclHome e u) 4 kind) = none := by rw [hwatch, ite_self]
  simp only [vxclElt, haligned, hhigh, hcluster, hhome, hmiss, hpois, Bool.not_true, Bool.false_eq_true, ne_eq, not_true, or_self, if_false]

theorem vxclAll_ok {s : State} {e : QEntry} {sh : Sheaf} {gang kind : Nat} {u : Nat → Nat} {l : List Nat} (hl : ∀ i ∈ l, VxclOk s e sh gang kind (u i)) :
    vxclAll s e sh gang kind (l.map fun i => (i, u i)) = .ok (l.map fun i => vxclHome e (u i), none) := by
  induction l with
  | nil => rfl
  | cons i l ih =>
    simp only [List.map_cons, vxclAll, vxclElt_ok (hl i List.mem_cons_self), ih fun j hj => hl j (List.mem_cons_of_mem _ hj)]

/-- The sites of an access across clusters. -/
def vxclSites (e : QEntry) (u : Nat → Nat) (act : List Nat) : List (Nat × Nat × Nat) := act.map fun i => (i, 0, vxclHome e (u i))

/-- VXCL where its checks pass. -/
theorem runVxcl_ok {s : State} {e : QEntry} {a : Arch} {sh : Sheaf} {gang d b m : Nat} (store : Bool) (hgrant : e.grant.clusters ≠ 0) (hsew : e.sew = 32)
    (hd : e.groupHere d = true) (hb : e.groupHere b = true)
    (hchecks : ∀ i ∈ e.active a m, VxclOk s e sh gang (if store then kWrite else kRead) (getElem a e.vb 32 b i)) :
    runVxcl s e a sh gang store d b m =
      let ps := vxclSites e (getElem a e.vb 32 b) (e.active a m)
      if store then .calm a a (storeElts e a (e.reader true) d ps sh) s.free
      else
        let r := loadElts s e (e.reader true) d ps (VAcc.start a) sh s.free
        .done { acc := r.1, sheaf := r.2.1, free := r.2.2, hold := none, cls := none } := by
  have hill : (decide (e.grant.clusters = 0) || decide (e.sew ≠ 32) || !e.groupHere d || !e.groupHere b) = false := by
    simp [hgrant, hsew, hd, hb]
  have hsites : ((e.active a m).zip ((e.active a m).map fun i => vxclHome e (getElem a e.vb 32 b i))).map (fun x => (x.1, 0, x.2)) =
      vxclSites e (getElem a e.vb 32 b) (e.active a m) := by
    rw [← List.map_prod_left_eq_zip, List.map_map]
    rfl
  simp only [runVxcl, hill, vxclAll_ok hchecks, hsites, Bool.false_eq_true, if_false]
  rfl

end Sys2Proof.Machine


namespace Sys2Proof.Machine

/-- What a gather leaves in the registers. -/
theorem gathered_regs {s : State} {e : QEntry} {a : Arch} {sh : Sheaf} {d m : Nat} {h : Nat → Nat} {ys : List ((Nat × Nat × Nat) × List Byte)}
    (hshape : e.shapeOk) (hsew : e.sew = 32) (hys : ys.map Prod.fst = (e.active a m).map fun i => (i, 0, h i))
    (hseen : ∀ y ∈ ys, y.2.length = 4 ∧ SeenFrom s sh (e.reader true) y.1.2.2 y.2) :
    ∃ z, a.setElems e.vb e.sew (e.writesOf d ys) = z ∧ z = { a with v := z.v } ∧
      ∃ f : Nat → List Byte, (∀ j ∈ e.active a m, (f j).length = 4 ∧ SeenFrom s sh (e.reader true) (h j) (f j)) ∧
        SetsElems e.vb 32 d e.lmul (fun j => given (e.isActive a m j) (leNat (f j))) a z := by
  have hwrite : ∀ q ∈ e.writesOf d ys, q.1 = d ∧ e.isActive a m q.2.1 = true ∧
      ∃ bs, q.2.2 = leNat bs ∧ bs.length = 4 ∧ SeenFrom s sh (e.reader true) (h q.2.1) bs := by
    intro q hq
    obtain ⟨y, hy, rfl⟩ := List.mem_map.1 hq
    obtain ⟨i, hi, hfst⟩ := List.mem_map.1 (hys ▸ List.mem_map_of_mem (f := Prod.fst) hy)
    obtain ⟨hlen, hfrom⟩ := hseen y hy
    rw [← hfst] at hfrom ⊢
    exact ⟨by rw [Nat.zero_mul, Nat.add_zero], QEntry.mem_active.1 hi, y.2, by rw [QEntry.loaded, if_neg (by omega)], hlen, hfrom⟩
  have hfind : ∀ i, e.isActive a m i = true → ∃ q ∈ e.writesOf d ys, q.2.1 = i := by
    intro i hi
    obtain ⟨y, hy, hfst⟩ := List.mem_map.1 (show (i, 0, h i) ∈ ys.map Prod.fst by rw [hys]; exact List.mem_map_of_mem (QEntry.mem_active.2 hi))
    exact ⟨_, List.mem_map_of_mem hy, by rw [hfst]⟩
  have hrow := hshape.elem.getElem_setElems (e.writesOf d ys) a d
  have hactive : ∀ j, e.isActive a m j = true → ∃ bs : List Byte, bs.length = 4 ∧ SeenFrom s sh (e.reader true) (h j) bs ∧
      getElem (a.setElems e.vb e.sew (e.writesOf d ys)) e.vb e.sew d j = leNat bs % 2 ^ e.sew := by
    intro j hj
    rcases hrow j with ⟨q, hq, hsame, hval⟩ | ⟨hnone, -⟩
    · obtain ⟨hgroup, -, bs, hbs, hlen, hfrom⟩ := hwrite q hq
      obtain rfl : q.2.1 = j := by
        rw [hgroup] at hsame
        exact Nat.add_left_cancel hsame
      exact ⟨bs, hlen, hfrom, by rw [hval, hbs]⟩
    · obtain ⟨q, hq, hplace⟩ := hfind j hj
      exact absurd (by rw [(hwrite q hq).1, hplace]) (hnone q hq)
  choose! f hlen hfrom hval using hactive
  refine ⟨_, rfl, Arch.setElems_eq .., f, fun j hj => ?_, ?_, fun j hj => ?_, fun k hk => ?_⟩
  · have hj := QEntry.mem_active.1 hj
    exact ⟨hlen j hj, hfrom j hj⟩
  · rw [Arch.setElems_eq]
    exact ⟨fun h => absurd List.mem_cons_self h, fun _ => rfl, fun _ => rfl, fun _ => rfl, fun _ => rfl, fun _ => rfl⟩
  · rw [← hsew]
    cases hact : e.isActive a m j with
    | true => simp only [hval j hact, given, hact, if_true, Option.map_some, Option.getD_some]
    | false =>
      simp only [given, hact, Bool.false_eq_true, if_false, Option.map_none, Option.getD_none]
      refine (hrow j).elim (fun ⟨q, hq, hsame, _⟩ => ?_) fun h => h.2
      obtain ⟨hgroup, hq, -⟩ := hwrite q hq
      rw [hgroup] at hsame
      rw [show q.2.1 = j from Nat.add_left_cancel hsame, hact] at hq
      cases hq
  · refine hshape.elem.fget_setElems a fun q hq => ?_
    obtain ⟨hgroup, hq, -⟩ := hwrite q hq
    exact ⟨e.lmul, hshape.active_lt hq, hgroup ▸ hk⟩

/-- The checks see the instruction as it is placed. -/
theorem VxclOk.placed {s : State} {rs : List Nat} {y : Hart} {sh sh₁ : Sheaf} {kind u : Nat} (hv : s.VReady rs y sh) (k : Issue) (r : FMap Nat) (o : VOp)
    (h : VxclOk s (y.entry sh) sh y.gang kind u) (hsh : sh₁.writes = sh.writes) :
    VxclOk (s.withPlaced y sh k r o) (y.entryOf sh k r o) sh₁ y.gang kind u := by
  obtain ⟨haligned, hlt, hholds, hwatch, hclean⟩ := h
  refine ⟨haligned, hlt, gangHolds_withPlaced hv k r o hholds, hwatch, fun hk => ?_⟩
  rw [← hclean hk, readPoisoned, readPoisoned, hsh]
  rfl

section Placed

variable (y : Hart) (sh : Sheaf) (k : Issue) (r : FMap Nat) (o : VOp)

theorem QEntry.active_placed : (y.entryOf sh k r o).active y.arch.next = (y.entry sh).active y.arch := rfl

theorem getElem_placed : getElem y.arch.next (y.entryOf sh k r o).vb = getElem y.arch (y.entry sh).vb := rfl

theorem vxclSites_placed : vxclSites (y.entryOf sh k r o) = vxclSites (y.entry sh) := rfl

theorem storeElts_placed : storeElts (y.entryOf sh k r o) y.arch.next = storeElts (y.entry sh) y.arch.next := by
  funext r' d xs
  induction xs with
  | nil => rfl
  | cons x xs ih =>
    funext sh'
    exact congrFun ih _

theorem reader_placed : (y.entryOf sh k r o).reader = (y.entry sh).reader := rfl

end Placed

theorem vxclG_completes (d b : Reg) (m : BitVec 3) {s : State} {y : Hart} {sh : Sheaf} (hv : s.VReady [] y sh) (htimed : s.ms.timed = false)
    (hshape : (y.entry sh).shapeOk) (hgrant : (y.entry sh).grant.clusters ≠ 0) (hsew : (y.entry sh).sew = 32)
    (hd : (y.entry sh).groupHere d.toNat = true) (hb : (y.entry sh).groupHere b.toNat = true)
    (hchecks : ∀ i ∈ (y.entry sh).active y.arch m.toNat, VxclOk s (y.entry sh) sh y.gang kRead (getElem y.arch (y.entry sh).vb 32 b.toNat i)) :
    let e := y.entry sh
    let h (j : Nat) : Nat := vxclHome e (getElem y.arch e.vb 32 b.toNat j)
    VecStep (.vxclG d b m) s y [] ((e.active y.arch m.toNat).foldl (fun x j => x.addRead (h j) 4) { sh with seq := sh.seq + 1 })
      (max 1 e.vl) none (y.arch.calm (fun z => ∃ f : Nat → List Byte,
        (∀ j ∈ e.active y.arch m.toNat, (f j).length = 4 ∧ SeenFrom s sh (e.reader true) (h j) (f j)) ∧
        SetsElems e.vb 32 d.toNat e.lmul (fun j => given (e.isActive y.arch m.toNat j) (leNat (f j))) y.arch z)) := by
  intro e h
  let k : Issue := ⟨[], .viq, none, packR 46#6 d 0#5 b m 0#8⟩
  let o : VOp := .vxcl false d.toNat b.toNat m.toNat
  have hrun := runVxcl_ok (s := s.withPlaced y sh k [] o) (e := y.entryOf sh k [] o) (a := y.arch.next) (sh := { sh.placed [] with asks := [] })
    (gang := y.gang) (d := d.toNat) (b := b.toNat) (m := m.toNat) false hgrant hsew hd hb (by
      rw [QEntry.active_placed, getElem_placed]
      exact fun i hi => (hchecks i hi).placed hv k [] o rfl)
  obtain ⟨ys, n, hys, hseen, hload⟩ := loadElts_eq (s := s.withPlaced y sh k [] o) (e := y.entryOf sh k [] o) (r := e.reader true) (d := d.toNat) (sh₀ := sh)
    (vxclSites e (getElem y.arch e.vb 32 b.toNat) (e.active y.arch m.toNat)) (VAcc.start y.arch.next) { sh.placed [] with asks := [] } s.free rfl
  have hbytes : (y.entryOf sh k [] o).eltBytes = 4 := by
    rw [show (y.entryOf sh k [] o).eltBytes = max 1 (e.sew / 8) from rfl, hsew]
    rfl
  rw [hbytes] at hseen
  obtain ⟨z, hz, hframe, f, hf, hsets⟩ := gathered_regs (s := s) (sh := sh) (e := e) (a := y.arch.next) (d := d.toNat) hshape hsew hys hseen
  rw [QEntry.active_placed, getElem_placed, vxclSites_placed, reader_placed] at hrun
  simp only [Bool.false_eq_true, if_false] at hrun
  have hload : loadElts (s.withPlaced y sh k [] o) (y.entryOf sh k [] o) (e.reader true) d.toNat
      (vxclSites e (getElem y.arch e.vb 32 b.toNat) (e.active y.arch m.toNat)) (VAcc.start y.arch.next) { sh.placed [] with asks := [] }
        (s.withPlaced y sh k [] o).free = ({ VAcc.start y.arch.next with arch := z }, Sheaf.addReads e
      (vxclSites e (getElem y.arch e.vb 32 b.toNat) (e.active y.arch m.toNat)) { sh.placed [] with asks := [] }, n) := by
    rw [← hz]
    exact hload
  rw [hload] at hrun
  have hplaced : s.placedRun y sh k [] o = .calm y.arch.next z (Sheaf.addReads e
      (vxclSites e (getElem y.arch e.vb 32 b.toNat) (e.active y.arch m.toNat)) { sh.placed [] with asks := [] }) n := hrun
  refine vecStep_of_calm hv (exec_vxclG d b m s) (r := []) rfl rfl rfl rfl rfl rfl hplaced (.inl htimed) (by rw [hframe]; rfl) ?_
    (Sheaf.addRead_marks h 4 (e.active y.arch m.toNat) { sh with seq := sh.seq + 1 }) fun csr => ⟨f, hf, hsets⟩
  have hreads := Sheaf.addReads_unasked (fun j => some (e.clusterOf j)) h 4 (e.active y.arch m.toNat)
    (sh := { sh.placed [] with asks := [] }) (sh' := { sh with seq := sh.seq + 1 }) rfl
  rw [← hreads, Sheaf.addReads, show e.eltBytes = 4 from hbytes, vxclSites, List.foldl_map]

/-- Byte `p` of the writes of one field each. -/
theorem recsAt_sites (e : QEntry) (idx : Bool) (n d : Nat) (val : Nat → Nat → Nat) (home : Nat → Nat) (act : List Nat) (p : Nat) :
    (e.reader idx).recsAt n (fun x => val (d + x.2.1 * e.lmul) x.1) p (act.map fun i => (i, 0, home i)) = act.filterMap (fun j =>
      if home j ≤ p ∧ p < home j + n then some (e.wrec idx (BitVec.ofNat 8 (val d j / 2 ^ (8 * (p - home j))))) else none) := by
  rw [Reader.recsAt, List.filterMap_map]
  simp only [Function.comp_def, Nat.zero_mul, Nat.add_zero]
  rfl

theorem vxclS_completes (d b : Reg) (m : BitVec 3) {s : State} {y : Hart} {sh : Sheaf} (hv : s.VReady [] y sh)
    (hgrant : (y.entry sh).grant.clusters ≠ 0) (hsew : (y.entry sh).sew = 32)
    (hd : (y.entry sh).groupHere d.toNat = true) (hb : (y.entry sh).groupHere b.toNat = true) (hfit : resvFits [sh] (scatterResv y) = true)
    (hchecks : ∀ i ∈ (y.entry sh).active y.arch m.toNat, VxclOk s (y.entry sh) sh y.gang kWrite (getElem y.arch (y.entry sh).vb 32 b.toNat i)) :
    let e := y.entry sh
    let h (j : Nat) : Nat := vxclHome e (getElem y.arch e.vb 32 b.toNat j)
    ∃ ws : FMap (List WRec),
      (∀ p, fget [] ws p = joinRecs ((e.active y.arch m.toNat).filterMap (fun j => if h j ≤ p ∧ p < h j + 4 then
        some (e.wrec true (BitVec.ofNat 8 (getElem y.arch e.vb 32 d.toNat j / 2 ^ (8 * (p - h j))))) else none)) (fget [] sh.writes p)) ∧
      VecStep (.vxclS d b m) s y [] { (e.active y.arch m.toNat).foldl (fun x j => x.addWriteAt (some (e.clusterOf j)) (h j) 4) { sh with seq := sh.seq + 1 } with
        writes := ws, resv := addResv sh.resv (scatterResv y) } (max 1 e.vl) none (y.arch.calm (fun z => y.arch.Only z [])) := by
  intro e h
  let k : Issue := ⟨[], .viq, none, packR 46#6 d 0#5 b m 1#8⟩
  let o : VOp := .vxcl true d.toNat b.toNat m.toNat
  let r := scatterResv y
  have hrun := runVxcl_ok (s := s.withPlaced y sh k r o) (e := y.entryOf sh k r o) (a := y.arch.next)
    (sh := Sheaf.reserving (addResv sh.resv r) { sh with seq := sh.seq + 1 }) (gang := y.gang) (d := d.toNat) (b := b.toNat) (m := m.toNat)
    true hgrant hsew hd hb (by
      rw [QEntry.active_placed, getElem_placed]
      exact fun i hi => (hchecks i hi).placed hv k r o rfl)
  rw [QEntry.active_placed, getElem_placed, vxclSites_placed, reader_placed] at hrun
  simp only [if_true] at hrun
  obtain ⟨ws, hstore, hws⟩ := storeElts_eq e y.arch.next (e.reader true) d.toNat (vxclSites e (getElem y.arch e.vb 32 b.toNat) (e.active y.arch m.toNat))
    (Sheaf.reserving (addResv sh.resv r) { sh with seq := sh.seq + 1 })
  have hbytes : e.sew / 8 = 4 := by rw [show e.sew = 32 from hsew]
  have hsites : (vxclSites e (getElem y.arch e.vb 32 b.toNat) (e.active y.arch m.toNat)).map (fun x => (e.clusterOf x.1, x.2.2)) =
      (e.active y.arch m.toNat).map (fun j => (e.clusterOf j, h j)) := List.map_map
  have hmarks := Sheaf.addWrites_marks 4 ((e.active y.arch m.toNat).map (fun j => (e.clusterOf j, h j))) { sh with seq := sh.seq + 1 }
  rw [hsites, hbytes, Sheaf.addWrites_comm (u := Sheaf.reserving (addResv sh.resv r)) fun _ _ _ _ => rfl] at hstore
  rw [storeElts_placed, hstore] at hrun
  have hplaced : s.placedRun y sh k r o = _ := hrun
  rw [Sheaf.addWrites, List.foldl_map] at hplaced hmarks
  refine ⟨ws, fun p => (hws p).trans ?_, ?_⟩
  · have hvalue : getElem y.arch.next e.vb e.sew = getElem y.arch e.vb 32 := by rw [show e.sew = 32 from hsew]; rfl
    rw [vxclSites, recsAt_sites, hbytes, hvalue]
    rfl
  · exact vecStep_of_calm hv (exec_vxclS d b m s) (r := r) rfl hfit rfl rfl rfl rfl hplaced (.inr rfl) rfl rfl hmarks fun _ => Arch.only_nil rfl

end Sys2Proof.Machine


namespace Sys2Proof.Machine

/-- Settles O34: each of the accesses completes where its checks pass. -/
theorem otherVectorAccesses : Obligations.OtherVectorAccesses := by
  intro d a b q k m o x
  refine ⟨?_, ?_, ?_, ?_, dbgTrmark_completes a⟩
  · intro s y sh h hv htimed e he hshape n hchecks
    subst he
    exact vldQld_completes q a hv htimed hshape hchecks
  · intro s y sh hs hv htimed e he hcheck seen hlegal
    subst he
    exact tamw_completes k a hv htimed hcheck (fun _ => Iff.rfl) hlegal
  · intro s y sh ty op h hv e he _ hty hop hd hgroup resv hfit w hchecks
    subst he
    by_cases hx : x = 1#1
    · have hresv : resv = scatterResv y := if_pos hx
      rw [hresv] at hfit ⊢
      exact vstRed_completes d a b m x o (idx := some b.toNat) (r := scatterResv y) hv (if_pos hx) (fun _ => by rw [if_pos hx]; rfl) hty hop hd
        (fun b' hb' => Option.some.inj hb' ▸ hgroup hx) hfit fun j hj => by
          have hcheck := hchecks j hj
          rw [if_pos (show x = 1 from hx)] at hcheck
          exact hcheck
    · have hresv : resv = storeResv 1 y := if_neg hx
      rw [hresv] at hfit ⊢
      exact vstRed_completes d a b m x o (idx := none) (r := storeResv 1 y) hv (if_neg hx) (fun _ => by rw [if_neg hx]; rfl) hty hop hd
        nofun hfit fun j hj => by
          have hcheck := hchecks j hj
          rw [if_neg (show ¬ x = 1 from hx)] at hcheck
          exact hcheck
  · intro s y sh hv e he hshape hgrant hsew hd hb u cl h ok
    subst he
    have hok {kind j : Nat} (hj : ok kind j) (hclean : kind = kRead → readPoisoned s sh ((y.entry sh).reader true) (h j) 4 = false) :
        VxclOk s (y.entry sh) sh y.gang kind (u j) := by
      obtain ⟨haligned, hlt, hholds, hwatch⟩ := hj
      exact ⟨haligned, hlt, hholds, hwatch, hclean⟩
    refine ⟨fun htimed hchecks => ?_, fun hfit hchecks => ?_⟩
    · exact vxclG_completes d b m hv htimed hshape hgrant hsew hd hb fun j hj => hok (hchecks j hj).1 fun _ => (hchecks j hj).2
    · exact vxclS_completes d b m hv hgrant hsew hd hb hfit fun j hj => hok (hchecks j hj) fun h => absurd h (by decide)

end Sys2Proof.Machine

/-! ### The turn of a strip (R298, R335) -/

namespace Sys2Proof.Machine

theorem mem_of_ffind_eq {β : Type} {m : FMap β} {k : Nat} {v : β} (h : ffind m k = some v) : (k, v) ∈ m := by
  induction m with
  | nil => cases h
  | cons e m ih =>
    obtain ⟨j, w⟩ := e
    rw [ffind] at h
    split at h
    · next hk =>
      cases h
      rw [hk]
      exact List.mem_cons_self
    · exact List.mem_cons_of_mem _ (ih h)

/-- While the strip of hart `h` waits for its turn, turns and deficits change, and no other hart of the package has an instruction queued. -/
structure State.AtTurn (s₀ : State) (h : Nat) (x : Hart) (c : Int) (s : State) : Prop where
  frame : s = { s₀ with harts := s.harts, disp := s.disp }
  self : s.hart h = some { x with dc := c }
  others : ∀ e ∈ s.harts, e.1 ≠ h → e.2.queue = []

section Turn

variable {s₀ s : State} {h : Nat} {x : Hart} {c : Int}

theorem Hart.weight_pos (x : Hart) : 1 ≤ x.weight := by
  unfold Hart.weight
  split
  · exact Nat.le_max_left ..
  · decide

theorem State.AtTurn.setHart {k : Nat} {y : Hart} (ht : State.AtTurn s₀ h x c s) (hk : k ≠ h) (hq : y.queue = []) :
    State.AtTurn s₀ h x c (s.setHart k y) where
  frame := by
    rw [ht.frame]
    rfl
  self := (State.hart_setHart_ne s y hk.symm).trans ht.self
  others e he hne := by
    rcases mem_fins (show e ∈ fins s.harts k y from he) with rfl | he
    · exact hq
    · exact ht.others e he hne

/-- Another hart of the package has nothing queued. -/
theorem State.AtTurn.queue_eq (ht : State.AtTurn s₀ h x c s) {k : Nat} {y : Hart} (hy : s.hart k = some y) (hk : k ≠ h) : y.queue = [] :=
  ht.others (k, y) (mem_of_ffind_eq hy) hk

/-- The turn goes to hart `h`, whose deficit grows. -/
theorem State.AtTurn.giveTurn (ht : State.AtTurn s₀ h x c s) : State.AtTurn s₀ h x (c + x.weight * 1024) (s.giveTurn h { x with dc := c }) ∧
    (s.giveTurn h { x with dc := c }).turnHolder x = some h := by
  obtain ⟨hframe, hself, hothers⟩ := ht
  have hgive : s.giveTurn h { x with dc := c } =
      ({ s with disp := { s.disp with turns := fset none s.disp.turns (x.arch.grant.base * 8 + x.effPrio) (some h) } } : State).setHart h
        { x with dc := c + x.weight * 1024 } := by
    rw [State.giveTurn, State.updHart]
    have hself' : ({ s with disp := { s.disp with turns := fset none s.disp.turns (x.arch.grant.base * 8 + x.effPrio) (some h) } } : State).hart h =
      some { x with dc := c } := hself
    dsimp only at hself' ⊢
    rw [hself']
    rfl
  rw [hgive]
  refine ⟨⟨?_, State.hart_setHart_self .., fun e he hne => ?_⟩, ?_⟩
  · rw [hframe]
    rfl
  · rcases mem_fins (show e ∈ fins s.harts h _ from he) with rfl | he
    · exact absurd rfl hne
    · exact hothers e he hne
  · exact fget_fset_self none s.disp.turns (x.arch.grant.base * 8 + x.effPrio) (some h)

/-- Only hart `h` has a strip queued. -/
theorem State.AtTurn.peers (ht : State.AtTurn s₀ h x c s) (k : Nat) (y : Hart) : ∀ p ∈ s.peers k y, p = h ∧ k ≠ h := by
  intro p hp
  unfold State.peers at hp
  dsimp only at hp
  split at hp
  · cases hp
  · obtain ⟨q, -, hp⟩ := List.mem_flatMap.1 hp
    obtain ⟨e, he, rfl⟩ := List.mem_map.1 hp
    obtain ⟨he, hcond⟩ := List.mem_filter.1 he
    simp only [Bool.and_eq_true, decide_eq_true_eq, Hart.stripQueued] at hcond
    have hself : e.1 = h := by
      by_contra hne
      simp [ht.others e he hne] at hcond
    exact ⟨hself, fun hk => hcond.1.1.1.1.1.1 (by rw [hself, hk])⟩

/-- A turn that leaves any hart goes to hart `h`. -/
theorem State.AtTurn.passTurn_self (ht : State.AtTurn s₀ h x c s) : s.passTurn h { x with dc := c } = s.giveTurn h { x with dc := c } := by
  have hnone : s.peers h { x with dc := c } = [] := List.eq_nil_iff_forall_not_mem.2 fun p hp => (ht.peers h _ p hp).2 rfl
  rw [State.passTurn, hnone]

theorem State.AtTurn.passTurn_other (ht : State.AtTurn s₀ h x c s) {k : Nat} {y : Hart} (hp : (s.peers k y).isEmpty = false) :
    s.passTurn k y = s.giveTurn h { x with dc := c } := by
  cases hpeers : s.peers k y with
  | nil => simp [hpeers] at hp
  | cons p ps =>
    obtain ⟨rfl, -⟩ := ht.peers k y p (by rw [hpeers]; exact List.mem_cons_self)
    rw [State.passTurn, hpeers]
    dsimp only
    rw [ht.self]

/-- The holder of the turn opens its strip once its deficit is made up. -/
theorem State.AtTurn.holder_opens {n : Nat} (ht : State.AtTurn s₀ h x c s) (hholder : s.turnHolder x = some h) (hc : -c < 1024 * n) :
    ∃ t c', State.turnAt h (n + 1) s = (t, true) ∧ State.AtTurn s₀ h x c' t := by
  induction n generalizing s c with
  | zero =>
    have hpos : 0 < c := by omega
    refine ⟨s, c, ?_, ht⟩
    have hholder' : s.turnHolder { x with dc := c } = some h := hholder
    rw [State.turnAt, ht.self]
    simp only [hholder', if_true, hpos]
  | succ n ih =>
    have hholder' : s.turnHolder { x with dc := c } = some h := hholder
    by_cases hpos : 0 < c
    · refine ⟨s, c, ?_, ht⟩
      rw [State.turnAt, ht.self]
      simp only [hholder', if_true, hpos]
    · obtain ⟨hgive, hturn⟩ := ht.giveTurn
      have hweight := x.weight_pos
      obtain ⟨t, c', hopen, ht'⟩ := ih hgive hturn (by push_cast at hc ⊢; omega)
      refine ⟨t, c', ?_, ht'⟩
      rw [State.turnAt, ht.self]
      simp only [hholder', if_true, hpos, if_false, ht.passTurn_self]
      exact hopen

/-- A strip opens at once, or after the turn has come to its hart. -/
theorem State.AtTurn.opens {n : Nat} (ht : State.AtTurn s₀ h x c s) (hc : -c < 1024 * n) :
    ∃ t c', State.turnAt h (n + 2) s = (t, true) ∧ State.AtTurn s₀ h x c' t := by
  have hgiven {u : State} (hu : State.AtTurn s₀ h x c u) :
      ∃ t c', State.turnAt h (n + 1) (u.giveTurn h { x with dc := c }) = (t, true) ∧ State.AtTurn s₀ h x c' t := by
    obtain ⟨hgive, hturn⟩ := hu.giveTurn
    have hweight := x.weight_pos
    exact hgive.holder_opens hturn (by omega)
  cases hholder : s.turnHolder { x with dc := c } with
  | none =>
    rw [State.turnAt, ht.self]
    simp only [hholder]
    exact hgiven ht
  | some k =>
    by_cases hk : k = h
    · subst hk
      exact ht.holder_opens hholder (by push_cast; omega)
    · rw [State.turnAt, ht.self]
      simp only [hholder, hk, if_false]
      cases hy : s.hart k with
      | none => exact hgiven ht
      | some y =>
        have hq := ht.queue_eq hy hk
        dsimp only
        split
        · exact hgiven ht
        · split
          · exact ⟨s, c, by simp [Hart.stripQueued, hq], ht⟩
          · have hready : y.stripReady = false := by simp [Hart.stripReady, hq]
            have hupd : s.updHart k (fun z => { z with dc := 0 }) = s.setHart k { y with dc := 0 } := by rw [State.updHart, hy]
            have hlost : State.AtTurn s₀ h x c (s.updHart k (fun z => { z with dc := 0 })) := by
              rw [hupd]
              exact ht.setHart hk hq
            simp only [hready, Bool.false_eq_true, if_false]
            split
            · exact hgiven hlost
            · next hpeers =>
              rw [hlost.passTurn_other (Bool.not_eq_true _ ▸ hpeers)]
              exact hgiven hlost

end Turn

/-- The deficit of a hart is one of those that bound how often turns pass. -/
theorem dc_lt_bound {l : List (Nat × Hart)} {e : Nat × Hart} (he : e ∈ l) (n : Nat) :
    n + e.2.dc.natAbs / 1024 + 3 ≤ l.foldl (fun n e => n + e.2.dc.natAbs / 1024 + 3) n := by
  have hmono (l : List (Nat × Hart)) (n : Nat) : n ≤ l.foldl (fun n e => n + e.2.dc.natAbs / 1024 + 3) n := by
    induction l generalizing n with
    | nil => exact Nat.le_refl n
    | cons a l ih => exact Nat.le_trans (by dsimp only; omega) (ih _)
  induction l generalizing n with
  | nil => cases he
  | cons a l ih =>
    rcases List.mem_cons.1 he with rfl | he
    · exact hmono l _
    · exact Nat.le_trans (by omega) (ih he (n + a.2.dc.natAbs / 1024 + 3))

/-- Where no other hart has an instruction queued, a strip's turn is its own. -/
theorem State.takeTurn_opens {s : State} {h : Nat} {x : Hart} (hx : s.hart h = some x) (hothers : ∀ e ∈ s.harts, e.1 ≠ h → e.2.queue = []) :
    ∃ t c, s.takeTurn h = (t, true) ∧ State.AtTurn s h x c t := by
  have hbound := dc_lt_bound (mem_of_ffind_eq hx) 3
  unfold State.takeTurn
  generalize s.harts.foldl (fun n e => n + e.2.dc.natAbs / 1024 + 3) 3 = n at hbound
  obtain ⟨n, rfl⟩ : ∃ m, n = m + 2 := ⟨n - 2, by omega⟩
  have hself : State.AtTurn s h x x.dc s := ⟨rfl, hx, hothers⟩
  exact hself.opens (by dsimp only at hbound; omega)

end Sys2Proof.Machine

/-! ### Strips open (R26, R27, R146 to R149, R271, R334, R335) -/

namespace Sys2Proof.Machine

/-! A strip completes -/

theorem Hart.joinBand_eq (x : Hart) : x.joinBand = { x with adv := x.joinBand.adv, effPrio := x.joinBand.effPrio, dc := x.joinBand.dc } := by
  unfold Hart.joinBand
  split
  · split <;> rfl
  · rfl

/-- The registers and CSRs after an instruction that raises no flag and takes no draw. -/
def Arch.unflagged (a : Arch) : Arch := (a.orFlags 0).wcsr cSRSEED (a.rcsr cSRSEED)

theorem Arch.unflagged_eq (a : Arch) : a.unflagged = { a with csr := a.unflagged.csr } := rfl

theorem Arch.rcsr_unflagged (a : Arch) (n : Nat) : a.unflagged.rcsr n = a.rcsr n := by
  rw [Arch.unflagged, Arch.rcsr_wcsr, Arch.orFlags, Arch.rcsr_wcsr]
  by_cases hseed : n = cSRSEED
  · rw [if_pos hseed, hseed]
  · rw [if_neg hseed]
    by_cases hfcsr : n = cFCSR
    · simp [hfcsr]
    · rw [if_neg hfcsr]

/-- The hart `p` waits at the sequencer with the strip `e` alone, whose sheaf `new` is its youngest, and the sheaf `ended` before it, if there is one. -/
structure Hart.Opening (p : Hart) (ended : List Sheaf) (new : Sheaf) (e : QEntry) : Prop where
  queue : p.queue = [e]
  strip : e.op = .strip
  sheaves : p.sheaves = ended ++ [new]
  young : e.young = !ended.isEmpty
  lone : ended.length ≤ 1
  fresh : e.fresh = false
  bq : e.bq = none
  trap : new.trap = none
  want : new.want = none
  asks : new.asks = []

/-- The hart `z` is `p` after its strip has issued in the ck `now`. -/
def Hart.StripDone (p z : Hart) (now : Nat) : Prop :=
  z = { p with adv := z.adv, effPrio := z.effPrio, dc := z.dc, queue := [], arch := p.arch.unflagged, issueAt := now + 1, noProg := 0 }

section Strip

variable {p : Hart} {ended : List Sheaf} {new : Sheaf} {e : QEntry}

/-- The place of the strip's sheaf. -/
theorem Hart.Opening.place (hp : p.Opening ended new e) : (if e.young then 1 else 0) = ended.length ∧ p.sheaves[ended.length]? = some new := by
  obtain ⟨-, -, hs, hyoung, hlone, -⟩ := hp
  refine ⟨?_, by simp [hs]⟩
  cases ended with
  | nil => simp [hyoung]
  | cons sh ended =>
    obtain rfl : ended = [] := List.eq_nil_of_length_eq_zero (by simpa using hlone)
    simp [hyoung]

/-- The strip leaves the sheaves as they are. -/
theorem Hart.Opening.finish (hp : p.Opening ended new e) (c : Int) (n free : Nat) :
    p.StripDone (({ p.joinBand with dc := c } : Hart).finish n (if e.young then 1 else 0) e
      { acc := VAcc.start p.arch, sheaf := { new with asks := [] }, free := free, hold := none, cls := none }) n := by
  obtain ⟨hplace, -⟩ := hp.place
  rw [hplace]
  obtain ⟨hq, hop, hs, hyoung, hlone, hfresh, hbq, htrap, hwant, hasks⟩ := hp
  have hnew : ({ new with want := none, asks := [] } : Sheaf) = new := by rw [← hwant, ← hasks]
  rw [Hart.joinBand_eq]
  have hset : p.sheaves.set ended.length new = p.sheaves := by
    rw [hs]
    simp
  unfold Hart.finish Hart.StripDone
  simp only [hbq, hwant, hq, hop, VOp.isStrip, List.drop_one, List.tail_cons, List.map_nil, if_true, hnew, hset]
  by_cases hzero : ended.length = 0
  · have hone : p.sheaves = [new] := by rw [hs, List.eq_nil_of_length_eq_zero hzero, List.nil_append]
    simp only [hone, List.map_nil, ite_self]
    rfl
  · simp only [hzero, false_and, if_false]
    rfl

/-- The strip issues at once. -/
theorem State.completeHead_strip {u : State} (hx : u.hart u.cur = some p) (hp : p.Opening ended new e) (hissue : p.issueAt ≠ u.now + 1)
    (hothers : ∀ f ∈ u.harts, f.1 ≠ u.cur → f.2.queue = []) :
    ∃ t z, u.completeHead u.cur = t ∧ t = { u with harts := t.harts, disp := t.disp, free := t.free, due := t.due } ∧ t.hart u.cur = some z ∧
      p.StripDone z u.now := by
  obtain ⟨hplace, hget⟩ := hp.place
  have hfinish := hp.finish
  obtain ⟨hq, hop, hs, hyoung, hlone, hfresh, hbq, htrap, hwant, hasks⟩ := hp
  have hfirst : u.issuesFirst u.cur p e = u.cur := State.issuesFirst_self u p e (.inr fun f hf hne _ => hothers f hf hne)
  have hstops : ({ new with asks := [] } : Sheaf).stops e = false := by simp [Sheaf.stops, htrap, hwant]
  obtain ⟨v, c, hturn, hframe, hself, -⟩ := State.takeTurn_opens (s := u.setHart u.cur p.joinBand) (h := u.cur) (x := p.joinBand) (State.hart_setHart_self ..)
    fun f hf hne => by
      rcases mem_fins (show f ∈ fins u.harts u.cur p.joinBand from hf) with rfl | hf
      · exact absurd rfl hne
      · exact hothers f hf hne
  have hnow : v.now = u.now := by rw [hframe]; rfl
  have hrun : runVOp v p.gang e p.arch { new with asks := [] } (new.byStrip && !e.sup) =
      .done { acc := VAcc.start p.arch, sheaf := { new with asks := [] }, free := v.free, hold := none, cls := none } := by
    rw [runVOp, hop]
    rfl
  have hgang : p.joinBand.gang = p.gang := by
    rw [Hart.joinBand_eq]
  have harch : p.joinBand.arch = p.arch := by
    rw [Hart.joinBand_eq]
  have hissued : p.joinBand.issued = p.issued := by
    rw [Hart.joinBand_eq]
  obtain ⟨w, hpipe, hw⟩ : ∃ w, ({ v with free := v.free } : State).runPipe u.cur e p.issued false = w ∧ v.Notes w := ⟨_, rfl, .runPipe ..⟩
  have hwself : w.hart u.cur = some { p.joinBand with dc := c } := by
    rw [hw]
    exact hself
  have hcomplete : u.completeHead u.cur = w.updHart u.cur (fun x => x.finish w.now (if e.young then 1 else 0) e
      { acc := VAcc.start p.arch, sheaf := { new with asks := [] }, free := v.free, hold := none, cls := none }) := by
    unfold State.completeHead
    rw [hx]
    dsimp only
    rw [hq]
    dsimp only
    rw [hfirst]
    unfold State.runHead
    rw [hx]
    dsimp only
    rw [hq]
    simp only [hplace, hget, hstops, hissue, decide_false, Bool.or_self, Bool.false_eq_true, if_false, hop, VOp.isStrip, if_true, hturn, hself, Bool.not_true,
      hgang, harch, hissued, hrun]
    have hasked : (Ran.done { acc := VAcc.start p.arch, sheaf := { new with asks := [] }, free := v.free, hold := none, cls := none }).asks.isEmpty = true := rfl
    have hflags : ¬ (VAcc.start p.arch).fl &&& e.fen ≠ 0 := not_not.2 (Nat.zero_and _)
    simp only [hasked, hflags, Bool.not_true, Bool.and_false, Bool.false_and, Bool.false_eq_true, if_false, hpipe]
  rw [hcomplete]
  refine ⟨_, _, rfl, ?_, ?_, hfinish c u.now v.free⟩
  · rw [State.updHart, hwself, hw, hframe]
    rfl
  · rw [State.hart_updHart_self, hwself, hw, ← hnow]
    rfl

end Strip

end Sys2Proof.Machine


namespace Sys2Proof.Machine

/-! A strip is placed -/

/-- The registers and CSRs as the scalar side goes on from a strip at `pc`, which has granted `vl` elements (R26, R27, R146). -/
def Arch.opened (a : Arch) (d : Nat) (pc vt : W64) (vl : Nat) (rb : Option W64) : Arch :=
  let b := ((a.wcsr cVTYPE vt).wcsr cVL (BitVec.ofNat 64 vl)).wcsr cSTRIP (a.rcsr cSTRIP + 1)
  let b := match rb with | some r => b.wcsr cRUNBASE r | none => b
  { (b.wx d (BitVec.ofNat 64 vl)).next with stripPc := pc, nextSplit := 1, bySplit := false }

/-- The sheaf that a strip opens, with the strip in it. -/
def Hart.stripSheaf (x : Hart) (now vl : Nat) : Sheaf :=
  ({ newSheaf (if x.sheaves.isEmpty then x.arch.shed x.granted.grant else x.arch) x.arch.pc (x.granted.rcsr cSTRIP + 1) x.arch.pc 0 true false
      (BitVec.ofNat 64 vl) now false with grant := x.granted.grant } : Sheaf).placed []

/-- What the sheaves of `x` are once a strip has ended the open one. -/
def Hart.Ending (x : Hart) (ended : List Sheaf) : Prop :=
  (x.sheaves = [] ∧ ended = []) ∨
    ∃ sh, x.sheaves = [sh] ∧ sh.closed = none ∧ sh.held = none ∧ ended = [{ sh with closed := some .ordinary }]

/-- The hart `x` as it goes on from a strip that is granted. -/
def Hart.opens (x : Hart) (b : Arch) (now vl : Nat) (cache : FMap W32) (w : W32) : Hart :=
  let y := x.close .ordinary
  let sh := { newSheaf (if x.sheaves.isEmpty then x.arch.shed x.granted.grant else x.arch) x.arch.pc (x.granted.rcsr cSTRIP + 1) x.arch.pc 0 true false
    (BitVec.ofNat 64 vl) now false with grant := x.granted.grant }
  let y := { y with arch := { b with pc := x.arch.pc }, sheaves := y.sheaves ++ [sh], btcache := cache, tableAt := none, bq := [] }
  (y.push .viq .strip w none []).withArch b

/-- A strip that is granted is placed, and the ck ends. -/
theorem stripOp_grant {s : State} {x : Hart} {d : Nat} {rs : List Nat} {w : W32} {bad : Arch → Bool} {ask : State → Hart → Arch → Nat → StripAsk}
    {vt : W64} {vl : Nat} {rb : Option W64} {cache : FMap W32} {free : Nat} {ended : List Sheaf} (hc : s.CanOpen x (d :: rs)) (hs : x.Ending ended)
    (hbad : bad x.arch = false) (hask : ask s x x.granted (if x.sheaves.isEmpty then x.cap else 0) = .grant vt vl rb cache free) :
    stripOp s d rs w bad ask = .next
      ((({ s with free := free } : State).setHart s.cur (x.opens (x.granted.opened d x.arch.pc vt vl rb) s.now vl cache w)).issue s.cur) := by
  obtain ⟨hx, hsup, -, -, hq, -, hbq, hwaits, -⟩ := hc
  have hwait : (d :: rs).any x.waitsOn = false := by
    rw [List.any_eq_false]
    exact fun r hr => by simp [hwaits r hr]
  have hhere : x.bq.any (fun b => !b.here) = false := by
    rw [List.any_eq_false]
    exact fun b hb => by simp [hbq b hb]
  have htaken : ¬ QUnit.viq.size ≤ x.taken .viq := by simp [QUnit.size, Hart.taken, hq]
  have hlength : ¬ 2 ≤ x.sheaves.length := by
    rcases hs with ⟨hs, -⟩ | ⟨sh, hs, -⟩ <;> simp [hs]
  unfold stripOp
  simp only [hx, hsup, hwait, hbad, hhere, hlength, hq, htaken, hask, List.isEmpty_nil, Bool.not_true, Bool.false_eq_true, if_false, Bool.false_and,
    Bool.and_false, Bool.or_false, decide_false]
  rfl

/-- The strip's entry in the queue. -/
def Hart.stripEntry (x : Hart) (b : Arch) (w : W32) (young : Bool) : QEntry :=
  { unit := .viq, op := .strip, word := w, pc := x.arch.pc, young := young, seq := 0, nSV := 0, nVS := 0, nVV := 0, x := b.x, csr := b.csr, grant := b.grant,
    sup := false, resv := [], fresh := false, bq := none, out := none }

theorem Hart.opens_eq {x : Hart} {ended : List Sheaf} (hs : x.Ending ended) (hq : x.queue = []) (hheld : x.held = none) (b : Arch) (now vl : Nat)
    (cache : FMap W32) (w : W32) : x.opens b now vl cache w =
      { x with arch := b, sheaves := ended ++ [x.stripSheaf now vl], queue := [x.stripEntry b w (!ended.isEmpty)], bq := [], btcache := cache, tableAt := none,
               blocked := false, noProg := 0 } := by
  rcases hs with ⟨hs, rfl⟩ | ⟨sh, hs, hclosed, hopen, rfl⟩
  · have hclose : x.close .ordinary = x := by simp [Hart.close, Hart.openSheaf, Hart.cur, hs]
    simp only [Hart.opens, hclose, hs, hq, Hart.push, Hart.entryFor, Hart.target, hheld, Hart.stripSheaf]
    rfl
  · have hclose : x.close .ordinary = { x with sheaves := [{ sh with closed := some .ordinary }] } := by
      simp [Hart.close, Hart.openSheaf, Hart.cur, Hart.setCur, hs, hclosed, hopen]
    simp only [Hart.opens, hclose, hs, hq, Hart.push, Hart.entryFor, Hart.target, hheld, Hart.stripSheaf]
    rfl

/-- The strip waits at the sequencer, alone. -/
theorem Hart.opens_opening {x : Hart} {ended : List Sheaf} (hs : x.Ending ended) (hq : x.queue = []) (hheld : x.held = none) (b : Arch) (now vl : Nat)
    (cache : FMap W32) (w : W32) : (x.opens b now vl cache w).Opening ended (x.stripSheaf now vl) (x.stripEntry b w (!ended.isEmpty)) := by
  rw [Hart.opens_eq hs hq hheld]
  exact ⟨rfl, rfl, rfl, rfl, by rcases hs with ⟨-, rfl⟩ | ⟨sh, -, -, -, rfl⟩ <;> simp, rfl, rfl, rfl, rfl, rfl⟩

end Sys2Proof.Machine


namespace Sys2Proof.Machine

/-! The registers after a strip -/

theorem Arch.wx_withCsr (a : Arch) (c : FMap W64) (d : Nat) (v : W64) : ({ a with csr := c } : Arch).wx d v = { a.wx d v with csr := c } := by
  unfold Arch.wx
  split <;> rfl

theorem Arch.opened_eq (a : Arch) (d : Nat) (pc vt : W64) (vl : Nat) (rb : Option W64) : ∃ c, a.opened d pc vt vl rb =
    { a.wx d (BitVec.ofNat 64 vl) with pc := a.pc + 4, csr := c, stripPc := pc, nextSplit := 1, bySplit := false } := by
  have hcsr (c : FMap W64) : ({ (({ a with csr := c } : Arch).wx d (BitVec.ofNat 64 vl)).next with stripPc := pc, nextSplit := 1, bySplit := false } : Arch) =
      { a.wx d (BitVec.ofNat 64 vl) with pc := a.pc + 4, csr := c, stripPc := pc, nextSplit := 1, bySplit := false } := by
    rw [Arch.wx_withCsr, ← Arch.wx_pc a d (BitVec.ofNat 64 vl)]
    rfl
  cases rb with
  | none => exact ⟨_, hcsr _⟩
  | some r => exact ⟨_, hcsr _⟩

theorem Arch.rcsr_opened (a : Arch) (d : Nat) (pc vt : W64) (vl : Nat) (rb : Option W64) (n : Nat) : (a.opened d pc vt vl rb).rcsr n =
    if n = cVTYPE then vt else if n = cVL then BitVec.ofNat 64 vl else if n = cSTRIP then a.rcsr cSTRIP + 1
    else if n = cRUNBASE then rb.getD (a.rcsr cRUNBASE) else a.rcsr n := by
  have hopened (b : Arch) : ({ (b.wx d (BitVec.ofNat 64 vl)).next with stripPc := pc, nextSplit := 1, bySplit := false } : Arch).rcsr n = b.rcsr n := by
    show ((b.wx d (BitVec.ofNat 64 vl)).next).rcsr n = _
    rw [Arch.rcsr_next, Arch.rcsr_wx]
  have hset (b : Arch) : (((b.wcsr cVTYPE vt).wcsr cVL (BitVec.ofNat 64 vl)).wcsr cSTRIP (a.rcsr cSTRIP + 1)).rcsr n =
      if n = cVTYPE then vt else if n = cVL then BitVec.ofNat 64 vl else if n = cSTRIP then a.rcsr cSTRIP + 1 else b.rcsr n := by
    rw [Arch.rcsr_wcsr, Arch.rcsr_wcsr, Arch.rcsr_wcsr]
    by_cases hvt : n = cVTYPE
    · rw [if_neg (by rw [hvt]; decide), if_neg (by rw [hvt]; decide), if_pos hvt, if_pos hvt]
    · rw [if_neg hvt, if_neg hvt]
      by_cases hvl : n = cVL
      · rw [if_neg (by rw [hvl]; decide), if_pos hvl, if_pos hvl]
      · rw [if_neg hvl, if_neg hvl]
  cases rb with
  | none =>
    refine (hopened _).trans ((hset a).trans ?_)
    rw [Option.getD_none]
    by_cases hbase : n = cRUNBASE
    · rw [if_pos hbase, hbase]
    · rw [if_neg hbase]
  | some r =>
    refine (hopened _).trans ?_
    rw [Arch.rcsr_wcsr, hset a, Option.getD_some]
    by_cases hbase : n = cRUNBASE
    · rw [if_pos hbase, if_pos hbase, if_neg (by rw [hbase]; decide), if_neg (by rw [hbase]; decide), if_neg (by rw [hbase]; decide)]
    · rw [if_neg hbase, if_neg hbase]

/-- A change of grant clears the banks of the vector side and sets CSRs. -/
theorem Arch.regrant_eq (a : Arch) (g : Grant) : a.regrant g = { a with grant := g, v := [], q := [], m := [], z := [], csr := (a.regrant g).csr } := by
  have hshapes : ∀ b : Arch, (List.range 8).foldl (fun b i => b.wcsr (cZCFG + i) (zcfgReset g)) b =
      { b with csr := ((List.range 8).foldl (fun b i => b.wcsr (cZCFG + i) (zcfgReset g)) b).csr } := fun b =>
    foldl_keeps (P := fun c : Arch => c = { b with csr := c.csr }) _ _ b rfl fun c i _ hc => by
      rw [hc]
      rfl
  unfold Arch.regrant
  dsimp only
  rw [hshapes]
  rfl

/-- A change of grant leaves the mode alone. -/
theorem Arch.sup_regrant (a : Arch) (g : Grant) : (a.regrant g).sup = a.sup := by
  have hstatus : (a.regrant g).rcsr cHSTATUS = a.rcsr cHSTATUS := by
    unfold Arch.regrant
    dsimp only
    rw [Arch.rcsr_wcsr, if_neg (by decide), Arch.rcsr_wcsr, if_neg (by decide)]
    refine foldl_keeps (P := fun b : Arch => b.rcsr cHSTATUS = a.rcsr cHSTATUS) _ _ _ rfl fun b i hi hb => ?_
    have hlt := List.mem_range.1 hi
    rw [Arch.rcsr_wcsr, if_neg, hb]
    simp only [cHSTATUS, cZCFG]
    omega
  rw [Arch.sup, Arch.sup, hstatus]

theorem Hart.granted_sup (x : Hart) : x.granted.sup = x.arch.sup := by
  unfold Hart.granted
  split
  · exact Arch.sup_regrant ..
  · rfl

theorem Hart.granted_scalar (x : Hart) : x.granted.pc = x.arch.pc ∧ x.granted.x = x.arch.x := by
  unfold Hart.granted
  split
  · rw [Arch.regrant_eq]
    exact ⟨rfl, rfl⟩
  · exact ⟨rfl, rfl⟩

/-! A strip where no sheaf is open -/

/-- A prompt hart whose sheaf is open has nothing to conclude. -/
theorem State.settle_open {s : State} {h : Nat} {x : Hart} {sh : Sheaf} (hx : s.hart h = some x) (hs : x.sheaves = [sh]) (hheld : x.held = none)
    (hclosed : sh.closed = none) (htrap : sh.trap = none) (hwant : sh.want = none) : s.settle h = s := by
  have hpark : x.parkReady = false := by simp [Hart.parkReady, hs, hwant]
  have hland : x.landReady = none := by simp [Hart.landReady, hheld, hs, htrap]
  have hready : x.commitReady = false := by
    unfold Hart.commitReady Hart.front
    rw [hs]
    cases hd : sh.held <;> simp [hd, hclosed]
  have htry : s.tryCommit h = s := by
    unfold State.tryCommit
    rw [hx]
    dsimp only
    split
    · rfl
    · simp [hready]
  simp [State.settle, State.conclude, hx, hpark, hland, htry]

/-- The hart after its strip has issued and a ck has passed. -/
def Hart.StripTicked (x z : Hart) (b : Arch) (sheaves : List Sheaf) : Prop :=
  z.arch = b.unflagged ∧ z.sheaves = sheaves ∧ z.queue = [] ∧ z.bq = [] ∧ z.held = none ∧ z.pend = x.pend ∧ z.ahead = x.ahead ∧
    z.preempt = x.preempt ∧ z.landing = x.landing

/-- A strip issues in the ck in which it is placed. -/
theorem State.CanOpen.issues {s : State} {x : Hart} {rs : List Nat} {ended : List Sheaf} (hc : s.CanOpen x rs) (hs : x.Ending ended) (b : Arch) (vl : Nat)
    (cache : FMap W32) (w : W32) (free : Nat) :
    ∃ (t : State) (z : Hart), (({ s with free := free } : State).setHart s.cur (x.opens b s.now vl cache w)).issue s.cur = t.settle s.cur ∧
      t.hart s.cur = some z ∧ x.StripTicked z b (ended ++ [x.stripSheaf s.now vl]) ∧ t.mem = s.mem ∧ t.stamp = s.stamp ∧ t.arb = s.arb := by
  obtain ⟨hx, -, hahead, hheld, hq, -, -, -, -, hissue, hothers⟩ := hc
  let u := ({ s with free := free } : State).setHart s.cur (x.opens b s.now vl cache w)
  have hu : u.hart u.cur = some (x.opens b s.now vl cache w) := State.hart_setHart_self ..
  have hp := Hart.opens_eq hs hq hheld b s.now vl cache w
  obtain ⟨t, z, hcomplete, ht, hz, hdone⟩ := State.completeHead_strip hu (Hart.opens_opening hs hq hheld b s.now vl cache w) (by rw [hp]; exact hissue)
    fun f hf hne => by
      rcases mem_fins (show f ∈ fins s.harts s.cur _ from hf) with rfl | hf
      · exact absurd rfl hne
      · exact hothers f hf hne
  have hzeq := Hart.tick_eq z 1
  refine ⟨t.tick 1, z.tick 1, ?_, ?_, ?_, ?_, ?_, ?_⟩
  · have hprompt : (x.opens b s.now vl cache w).ahead = false := by rw [hp]; exact hahead
    show u.issue u.cur = _
    unfold State.issue
    rw [hu]
    simp only [hprompt, Bool.false_eq_true, if_false, hcomplete]
    rfl
  · rw [State.hart_tick, show s.cur = u.cur from rfl, hz]
    rfl
  · rw [Hart.StripTicked, hzeq, hdone, hp]
    exact ⟨rfl, rfl, rfl, rfl, hheld, rfl, rfl, rfl, rfl⟩
  · show t.mem = s.mem
    rw [ht]
    rfl
  · show t.stamp = s.stamp
    rw [ht]
    rfl
  · show t.arb = s.arb
    rw [ht]
    rfl

/-- What a strip leaves of the registers. -/
theorem Hart.opened_regs {x z : Hart} {d : BitVec 5} {vt : W64} {vl : Nat} {rb : Option W64}
    (hz : z.arch = (x.granted.opened d.toNat x.arch.pc vt vl rb).unflagged) :
    z.arch = { x.granted.wx d.toNat (BitVec.ofNat 64 vl) with
      pc := x.arch.pc + 4, csr := z.arch.csr, stripPc := x.arch.pc, nextSplit := 1, bySplit := false } ∧
    ∀ n, z.arch.rcsr n = if n = cVTYPE then vt else if n = cVL then BitVec.ofNat 64 vl else if n = cSTRIP then x.granted.rcsr cSTRIP + 1
      else if n = cRUNBASE then rb.getD (x.granted.rcsr cRUNBASE) else x.granted.rcsr n := by
  refine ⟨?_, fun n => by rw [hz, Arch.rcsr_unflagged, Arch.rcsr_opened]⟩
  obtain ⟨c, hc⟩ := x.granted.opened_eq d.toNat x.arch.pc vt vl rb
  rw [hz, Arch.unflagged_eq, hc, x.granted_scalar.1]

/-- A strip that is granted where no sheaf is open. -/
theorem stripOp_opens {s : State} {x : Hart} {d : BitVec 5} {rs : List Nat} {w : W32} {bad : Arch → Bool} {ask : State → Hart → Arch → Nat → StripAsk}
    {vt : W64} {vl : Nat} {rb : Option W64} {cache : FMap W32} {free : Nat} (hc : s.CanOpen x (d.toNat :: rs)) (hs : x.sheaves = [])
    (hbad : bad x.arch = false) (hask : ask s x x.granted x.cap = .grant vt vl rb cache free) :
    ∃ t z, stripOp s d.toNat rs w bad ask = .next t ∧ t.hart s.cur = some z ∧ t.mem = s.mem ∧ x.Opened z x.granted d vt vl rb := by
  have hending : x.Ending [] := .inl ⟨hs, rfl⟩
  have hempty : x.sheaves.isEmpty = true := by rw [hs]; rfl
  obtain ⟨t, z, hissue, hz, ⟨harch, hsheaves, hqueue, hbq, hheld, -⟩, hmem, -⟩ :=
    hc.issues hending (x.granted.opened d.toNat x.arch.pc vt vl rb) vl cache w free
  have hsettle : t.settle s.cur = t := State.settle_open hz hsheaves hheld rfl rfl rfl
  obtain ⟨hregs, hcsrs⟩ := Hart.opened_regs harch
  refine ⟨t, z, ?_, hz, hmem, hregs, hcsrs, hqueue, hbq, x.stripSheaf s.now vl, hsheaves, ?_,
    rfl, rfl, rfl, rfl, rfl, rfl, rfl, rfl, rfl, rfl, rfl, rfl, rfl, rfl⟩
  · rw [stripOp_grant hc hending hbad (by rw [hempty]; exact hask), hissue, hsettle]
  · rw [Hart.stripSheaf, hempty]
    rfl

end Sys2Proof.Machine


namespace Sys2Proof.Machine

/-! What has read nothing is not squashed (R270, R272, R275) -/

theorem RecSet.empty_meets (w : Nat) (x : RecSet) : RecSet.empty.meets w x = false := by
  have hsig (r : Nat × Nat) : RecSet.empty.sigMeets 4096 r = false := if_pos (.inl rfl)
  have hranges : x.ranges.any (RecSet.empty.sigMeets 4096) = false := List.any_eq_false.2 fun r _ => by simp [hsig r]
  have hfold : foldSig RecSet.empty.sa = 0 := by
    rw [foldSig, show RecSet.empty.sa = 0 from rfl, Nat.zero_div, Nat.or_self, Nat.zero_mod]
  unfold RecSet.meets
  rw [hranges, hfold]
  simp [RecSet.empty]

/-- None of the hart's sheaves has read anything. -/
def Hart.Unread (x : Hart) : Prop := ∀ sh ∈ x.sheaves, sh.rset = RecSet.empty

/-- A test of a squash picks only sheaves that have read something. -/
def PicksReaders (p : Sheaf → Bool) : Prop := ∀ sh : Sheaf, sh.rset = RecSet.empty → p sh = false

theorem picksReaders_meets (w : Nat) (a : RecSet) : PicksReaders (fun sh => sh.rset.meets w a) := fun sh hsh => by
  dsimp only
  rw [hsh, RecSet.empty_meets]

theorem picksReaders_commit (w d : RecSet) : PicksReaders (fun sh => sh.rset.meets 4096 w || sh.rset.meets 2048 d) := fun sh hsh => by
  dsimp only
  rw [hsh, RecSet.empty_meets, RecSet.empty_meets, Bool.or_self]

section Unread

variable {k : Nat} {x : Hart}

theorem State.squash_hart_ne (s : State) {h k : Nat} (hk : k ≠ h) (i out : Nat) : (s.squash h i out).hart k = s.hart k := by
  unfold State.squash
  split
  · rfl
  · next y _ =>
    split
    · rfl
    · have htrace : ((y.sheaves.drop i).foldl (fun s r => s.traceSheaf h r out 0 0) s).hart k = s.hart k :=
        foldl_keeps (P := fun t : State => t.hart k = s.hart k) _ _ _ rfl fun t r _ ht => (State.traceSheaf_hart ..).trans ht
      generalize (y.sheaves.drop i).foldl (fun s r => s.traceSheaf h r out 0 0) s = t at htrace
      have hset (a : Arbiter) (z : Hart) : (({ t with arb := a } : State).setHart h z).hart k = s.hart k :=
        (State.hart_setHart_ne ({ t with arb := a } : State) z hk).trans htrace
      dsimp only
      split
      · exact htrace
      · split_ifs <;> exact hset _ _

theorem fillRangeWith_unread {sq : Squasher} (hsq : ∀ (t : State) h p, PicksReaders p → t.hart k = some x → (sq t h p).hart k = some x) (s : State)
    (g : Grant) (root : W64) (va len : Nat) (bytes : List (Nat × Byte)) (hx : s.hart k = some x) : (fillRangeWith sq s g root va len bytes).hart k = some x := by
  refine foldl_keeps (P := fun t : State => t.hart k = some x) _ _ _ hx fun t p _ ht => ?_
  dsimp only
  split
  · exact ht
  · split
    · exact ht
    · exact foldl_keeps (P := fun t : State => t.hart k = some x) _ _ _ ht fun u e _ hu => hsq u e.1 _ (picksReaders_meets _ _) hu

theorem State.squashIfN_unread (hunread : x.Unread) (n : Nat) (s : State) (h : Nat) (p : Sheaf → Bool) (hp : PicksReaders p) (hx : s.hart k = some x) :
    (State.squashIfN n s h p).hart k = some x := by
  induction n generalizing s h p with
  | zero => exact hx
  | succ n ih =>
    unfold State.squashIfN
    by_cases hk : k = h
    · subst hk
      have hnone : x.firstSheaf p = none := List.findIdx?_eq_none_iff.2 fun sh hsh => hp sh (hunread sh hsh)
      rw [hx]
      dsimp only
      rw [hnone]
      exact hx
    · have hsquash (i out : Nat) : (s.squash h i out).hart k = some x := (s.squash_hart_ne hk i out).trans hx
      split
      · exact hx
      · split
        · exact hx
        · split
          · exact hx
          · split
            · split
              · refine ih _ _ _ hp (fillRangeWith_unread (fun t h p => ih t h p) _ _ _ _ _ _ ?_)
                refine (State.hart_updHart_ne _ _ hk).trans ((State.traceSheaf_hart ..).trans hx)
              · exact hsquash _ _
            · exact hsquash _ _

/-- A commit squashes no hart that has read nothing. -/
theorem State.squashOthers_unread {s : State} (hunread : x.Unread) (hx : s.hart k = some x) (h : Nat) (w d : RecSet) :
    (s.squashOthers h w d).hart k = some x := by
  refine foldl_keeps (P := fun t : State => t.hart k = some x) _ _ _ hx fun t e _ ht => ?_
  split
  · exact ht
  · exact State.squashIfN_unread hunread _ t e.1 _ (picksReaders_commit _ _) ht

end Unread

/-! The sheaf that a strip has ended commits (R271) -/

/-- The commit of a hart's older sheaf, while no hart holds the solo token and the younger has read nothing. -/
theorem State.commit_older {s : State} {h : Nat} {x : Hart} {sh new : Sheaf} (hx : s.hart h = some x) (hs : x.sheaves = [sh, new]) (hheld : sh.held = none)
    (hread : new.rset = RecSet.empty) (ht : s.arb.token = none) :
    (s.commit h).hart h = some ((x.issueCmds sh.cmds).afterCommit sh) ∧ (s.commit h).stamp = s.stamp + 1 := by
  let y := (x.issueCmds sh.cmds).afterCommit sh
  have hfront : x.front = 0 := by simp [Hart.front, hs, hheld]
  obtain ⟨u, hu, hframe⟩ := s.commitEffects_eq h sh.grant.base (if sh.closed = some .split then outSplit else outCommit) (s.stamp + 1) sh sh.sends
  have hysheaves : y.sheaves = [{ new with cp := new.cp.shed new.grant }] := by
    simp only [y]
    rw [Hart.issueCmds_eq]
    simp [Hart.afterCommit, hs, Hart.front, hheld]
  have hunread : y.Unread := fun r hr => by
    rw [hysheaves, List.mem_singleton] at hr
    rw [hr]
    exact hread
  have huh : u.hart h = some x := by rw [hframe]; exact hx
  let v := u.updHart h fun x => (x.issueCmds sh.cmds).afterCommit sh
  have hv : v.hart h = some y := by rw [State.hart_updHart_self, huh]; rfl
  have hvframe : v = { u with harts := v.harts } := by
    simp only [v, State.updHart]
    split <;> rfl
  have hsq := v.squashOthers_squashes h sh.wset sh.dset
  have hw := State.squashOthers_unread hunread hv h sh.wset sh.dset
  generalize hweq : v.squashOthers h sh.wset sh.dset = w at hsq hw
  have hwt : w.arb.token = none := by rw [hsq.token, hvframe, hframe]; exact ht
  have hleave : w.leaveArbiter h = { w with arb := (w.arb.dropSlices h).dropToken h } := if_neg (by simp [hwt])
  have hmeets (n : Nat) (r : RecSet) : new.rset.meets n r = false := by rw [hread, RecSet.empty_meets]
  have hcommit : s.commit h = { w with arb := (w.arb.dropSlices h).dropToken h } := by
    have hz : ({ w with arb := (w.arb.dropSlices h).dropToken h } : State).hart h = some y := hw
    unfold State.commit
    simp only [hx, hfront, hs, List.getElem?_cons_zero, hu]
    change (u.updHart h _).squashOthers h sh.wset sh.dset = w at hweq
    simp only [if_true, hweq, hleave, hz, hysheaves, zero_ne_one, if_false, hmeets, Bool.or_self, Bool.false_eq_true]
  rw [hcommit]
  exact ⟨hw, hsq.stamp.trans (by rw [hvframe, hframe])⟩

/-- A prompt hart whose older sheaf a strip has ended, with nothing of it outstanding, commits that as it settles. -/
theorem State.settle_older {s : State} {h : Nat} {x : Hart} {sh new : Sheaf} (hx : s.hart h = some x) (hahead : x.ahead = false)
    (hq : x.queue = []) (hp : x.pend = []) (hs : x.sheaves = [sh, new]) (hclosed : sh.closed.isSome = true) (htrap : sh.trap = none)
    (hwant : sh.want = none) (hshHeld : sh.held = none) (hheld : x.held = none) (hpre : x.preempted = false) (hread : new.rset = RecSet.empty)
    (htok : s.arb.token = none) (hsl : s.arb.slices = []) (hslq : s.arb.slicesQ = []) :
    (s.settle h).hart h = some ((x.issueCmds sh.cmds).afterCommit sh) ∧ (s.settle h).stamp = s.stamp + 1 := by
  have hfront : x.front = 0 := by simp [Hart.front, hs, hshHeld]
  have hpark : x.parkReady = false := by simp [Hart.parkReady, hs, hwant]
  have hland : x.landReady = none := by simp [Hart.landReady, hheld, hs, htrap]
  have hready : x.commitReady = true := by simp [Hart.commitReady, hfront, hs, hclosed, htrap, hwant, hpre, hq, hp]
  have hblocks : s.tokenBlocks h sh = false := by simp [State.tokenBlocks, htok]
  have hserves : s.arb.Serves h := ⟨fun d => .inl (by rw [hsl]; rfl), fun r hr => by rw [hslq] at hr; cases hr⟩
  obtain ⟨a, htake, hatok, hnone⟩ := s.slicesWanted_served sh hserves
  have htry : s.tryCommit h = (s.takeSlices h (s.slicesWanted h sh)).commit h := by
    simp only [State.tryCommit, hx, hfront, hs, List.getElem?_cons_zero, hready, hblocks, hnone, Bool.not_true, Bool.false_eq_true, if_false, if_true]
  have hsettle : s.settle h = ({ s with arb := a } : State).commit h := by
    rw [← htake, ← htry]
    simp [State.settle, State.conclude, hx, hahead, hpark, hland]
  rw [hsettle]
  exact State.commit_older (s := { s with arb := a }) hx hs hshHeld hread (hatok.trans htok)

/-- The hart after the sheaf that a strip has ended has committed. -/
theorem Hart.afterCommit_older {x : Hart} {sh new : Sheaf} (hs : x.sheaves = [sh, new]) (hheld : sh.held = none) (hq : x.queue = []) :
    ∃ z, (x.issueCmds sh.cmds).afterCommit sh = z ∧ z.arch = x.arch ∧ z.sheaves = [{ new with cp := new.cp.shed new.grant }] ∧
      z.queue = [] ∧ z.bq = x.bq := by
  refine ⟨_, rfl, ?_⟩
  rw [Hart.issueCmds_eq]
  generalize (x.issueCmds sh.cmds).chans = c
  have hfront : ({ x with chans := c } : Hart).front = 0 := by simp [Hart.front, hs, hheld]
  simp only [Hart.afterCommit, hfront]
  split <;> simp [hs, hq, Hart.count]

/-- A strip that is granted where a sheaf is open: that ends and commits. -/
theorem stripOp_follows {s : State} {x : Hart} {sh : Sheaf} {d : BitVec 5} {rs : List Nat} {w : W32} {bad : Arch → Bool}
    {ask : State → Hart → Arch → Nat → StripAsk} {vt : W64} {vl : Nat} {rb : Option W64} {cache : FMap W32} {free : Nat}
    (hc : s.CanOpen x (d.toNat :: rs)) (hs : x.sheaves = [sh]) (hclosed : sh.closed = none) (htrap : sh.trap = none) (hwant : sh.want = none)
    (hheld : sh.held = none) (htok : s.arb.token = none) (hsl : s.arb.slices = []) (hslq : s.arb.slicesQ = [])
    (hbad : bad x.arch = false) (hask : ask s x x.granted 0 = .grant vt vl rb cache free) :
    ∃ t z, stripOp s d.toNat rs w bad ask = .next t ∧ t.hart s.cur = some z ∧ t.stamp = s.stamp + 1 ∧ x.Opened z x.granted d vt vl rb := by
  have hending : x.Ending [{ sh with closed := some .ordinary }] := .inr ⟨sh, hs, hclosed, hheld, rfl⟩
  have hempty : x.sheaves.isEmpty = false := by rw [hs]; rfl
  obtain ⟨t, z, hissue, hz, ⟨harch, hsheaves, hqueue, hbq, hzheld, hpend, hahead, hpreempt, hlanding⟩, -, hstamp, harb⟩ :=
    hc.issues hending (x.granted.opened d.toNat x.arch.pc vt vl rb) vl cache w free
  have hexec := stripOp_grant (w := w) hc hending hbad (by rw [hempty]; exact hask)
  obtain ⟨-, -, hxahead, -, -, hxpend, -, -, hpre, -⟩ := hc
  have hzpre : z.preempted = false := by rw [Hart.preempted, hpreempt, hlanding]; exact hpre
  obtain ⟨hsettled, hsettledStamp⟩ := State.settle_older hz (hahead.trans hxahead) hqueue (hpend.trans hxpend) hsheaves rfl htrap hwant hheld hzheld hzpre rfl
    (by rw [harb]; exact htok) (by rw [harb]; exact hsl) (by rw [harb]; exact hslq)
  obtain ⟨v, hv, hvarch, hvsheaves, hvqueue, hvbq⟩ := Hart.afterCommit_older hsheaves hheld hqueue
  obtain ⟨hregs, hcsrs⟩ := Hart.opened_regs (hvarch.trans harch)
  refine ⟨t.settle s.cur, v, ?_, hsettled.trans (congrArg some hv), hsettledStamp.trans (by rw [hstamp]), hregs, hcsrs, hvqueue, hvbq.trans hbq, _, hvsheaves,
    ?_, rfl, rfl, rfl, rfl, rfl, rfl, rfl, rfl, rfl, rfl, rfl, rfl, rfl, rfl⟩
  · rw [hexec, hissue]
  · rw [Hart.stripSheaf, hempty]
    rfl

end Sys2Proof.Machine


namespace Sys2Proof.Machine

/-! The strip-opening instructions (R146 to R149) -/

/-- A strip-opening instruction opens a strip where its rule grants a length. -/
theorem opens_of_strip {i : Instr} {rs : List Nat} {d : BitVec 5} {w : W32} {bad : Arch → Bool} {ask : State → Hart → Arch → Nat → StripAsk}
    {ok : State → Hart → Arch → Prop} {vt : Arch → W64} {vl : State → Arch → Nat} {rb : State → Arch → Option W64}
    (he : ∀ s, exec i s = stripOp s d.toNat rs w bad ask)
    (hgrant : ∀ s (x : Hart) cap, x.arch.sup = false → ok s x x.granted → bad x.arch = false ∧
      ∃ cache free, ask s x x.granted cap = .grant (vt x.granted) (capped cap (vl s x.granted)) (rb s x.granted) cache free) :
    Opens i rs d ok vt vl rb := by
  intro s x hc hok
  obtain ⟨-, hsup, -⟩ := id hc
  refine ⟨fun hs => ?_, fun sh hs hclosed htrap hwant hheld _ htok hsl hslq => ?_⟩
  · obtain ⟨hbad, cache, free, hask⟩ := hgrant s x x.cap hsup hok
    rw [he]
    exact stripOp_opens hc hs hbad hask
  · obtain ⟨hbad, cache, free, hask⟩ := hgrant s x 0 hsup hok
    rw [he]
    exact stripOp_follows hc hs hclosed htrap hwant hheld htok hsl hslq hbad hask

/-- A block-table entry that has passed its checks is that of memory, whether or not it is held (R148, R149). -/
theorem blockEntry_found {s : State} {x : Hart} {g : Arch} {t blk ea h : Nat} (hsup : g.sup = false) (hbounds : boundsOk s g.grant g.csr ea 4 kRead = true)
    (hhome : homeOf s g.grant (g.rcsr cPTROOT) ea kRead true = some h) (hpoison : poisoned s h = false) (htime : s.ms.timed = true → x.tableAt = some h)
    (hcache : ∀ c, ffind x.btcache (t * 2 ^ 64 + blk) = some c → c = BitVec.ofNat 32 (memNat s h 4)) :
    ∃ cache free, blockEntry s x g t blk ea = .found (BitVec.ofNat 32 (memNat s h 4)) cache free := by
  have hlate : (s.ms.timed && decide (x.tableAt ≠ some h)) = false := by
    cases hts : s.ms.timed with
    | false => rfl
    | true => simp [htime hts]
  unfold blockEntry
  simp only [hsup, hbounds, hhome, hpoison, hlate, Bool.not_false, Bool.not_true, Bool.and_false, Bool.false_eq_true, if_false]
  cases hheld : ffind x.btcache (t * 2 ^ 64 + blk) with
  | none => exact ⟨_, _, rfl⟩
  | some c =>
    rw [hcache c hheld]
    cases freeBit s.free
    · exact ⟨_, _, rfl⟩
    · exact ⟨_, _, rfl⟩

/-- SETVL and SETVLI grant the least of the request and VLMAX, and VLMAX where A is x0 (R146). -/
theorem askLength_eq (vt : W64) (a : Reg) (s : State) (x : Hart) (g : Arch) (cap : Nat) : askLength vt a s x g cap =
    .grant vt (capped cap (if a = 0 then vlmax g.grant vt else min (g.r a).toNat (vlmax g.grant vt))) none x.btcache s.free := by
  unfold askLength
  by_cases ha : a = 0
  · simp only [ha, if_true, Nat.min_self]
  · simp only [ha, if_false]

/-- The setting of block table `k`, the block that position `pos` of a run lies in, the place in it, and the address of its entry (R148). -/
def tableCfg (k : Nat) (g : Arch) : Nat := (g.rcsr (0x12 + 4 * k)).toNat
def tableBlock (k pos : Nat) (g : Arch) : Nat := pos / 2 ^ bits (tableCfg k g) 3 0
def tableOffset (k pos : Nat) (g : Arch) : Nat := pos % 2 ^ bits (tableCfg k g) 3 0
def tableAddr (k pos : Nat) (g : Arch) : Nat := ((g.rcsr (0x10 + 4 * k)).toNat + 4 * tableBlock k pos g) % 2 ^ 64

/-- SETVLRUN grants the rest of a run within its block where the entry is `w` (R148). -/
theorem askRun_found {k : Nat} {a b : Reg} {s : State} {x : Hart} {g : Arch} {w : W32} {cache : FMap W32} {free : Nat} (hb : g.r b ≠ 0)
    (haligned : tableAddr k (g.r a).toNat g % 4 = 0)
    (hentry : blockEntry s x g k (tableBlock k (g.r a).toNat g) (tableAddr k (g.r a).toNat g) = .found w cache free) (hw : w ≠ 0xFFFF_FFFF#32) (cap : Nat) :
    askRun k a b s x g cap = .grant (g.rcsr cVTYPE)
      (capped cap (min (min (g.r b).toNat (vlmax g.grant (g.rcsr cVTYPE))) (2 ^ bits (tableCfg k g) 3 0 - tableOffset k (g.r a).toNat g)))
      (some (BitVec.ofNat 64 ((g.rcsr (0x11 + 4 * k)).toNat +
        (w.toNat * 2 ^ bits (tableCfg k g) 3 0 + tableOffset k (g.r a).toNat g) * bits (tableCfg k g) 31 16))) cache free := by
  have hn : ¬ (g.rx b.toNat).toNat = 0 := fun h => hb (BitVec.eq_of_toNat_eq h)
  have haligned' :
      ¬ ((g.rcsr (0x10 + 4 * k)).toNat + 4 * ((g.rx a.toNat).toNat / 2 ^ bits (g.rcsr (0x12 + 4 * k)).toNat 3 0)) % 2 ^ 64 % 4 ≠ 0 := not_not.2 haligned
  have hentry' : blockEntry s x g k ((g.rx a.toNat).toNat / 2 ^ bits (g.rcsr (0x12 + 4 * k)).toNat 3 0)
    (((g.rcsr (0x10 + 4 * k)).toNat + 4 * ((g.rx a.toNat).toNat / 2 ^ bits (g.rcsr (0x12 + 4 * k)).toNat 3 0)) % 2 ^ 64) = .found w cache free := hentry
  unfold askRun
  simp only [hn, haligned', hentry', hw, if_false]
  rfl

/-- Settles O39: the three instructions open a strip alike, and differ in the length that they ask for. -/
theorem stripsOpen : Obligations.StripsOpen := by
  intro d a b v k len t cfg blk off ea entry
  refine ⟨?_, ?_, ?_, ?_⟩
  · refine opens_of_strip (w := packI 33#6 d a (0#5 ++ v)) (bad := fun _ => !vtLegal (v.setWidth 64)) (ask := askLength (v.setWidth 64) a) (exec_setvli d a v)
      fun s x cap _ hlegal => ⟨?_, _, _, askLength_eq ..⟩
    rw [Bool.not_eq_false']
    exact hlegal
  · refine opens_of_strip (w := packR 32#6 d a b 0#3 0#8) (bad := fun r => !vtLegal (r.rx b.toNat)) (ask := fun s x g cap => askLength (g.rx b.toNat) a s x g cap)
      (exec_vcfgSetvl d a b) fun s x cap _ hlegal => ⟨?_, _, _, askLength_eq ..⟩
    rw [Bool.not_eq_false']
    exact hlegal
  · refine opens_of_strip (w := packR 32#6 d a b (0#1 ++ k) 1#8) (bad := fun _ => false) (ask := askRun k.toNat a b) (exec_vcfgSetvlrun d a b k)
      fun s x cap hsup hok => ⟨rfl, ?_⟩
    obtain ⟨hb, haligned, hbounds, ⟨h, hhome, hpoison, htime⟩, hentry, hcache⟩ := hok
    have hword : entry s x.granted = memNat s h 4 := by simp only [entry, hhome, Option.getD_some]
    have hlt : memNat s h 4 < 2 ^ 32 := memNat_lt s h 4
    rw [hword] at hentry hcache
    obtain ⟨cache, free, hfound⟩ := blockEntry_found (t := k.toNat) (blk := blk x.granted) (x.granted_sup.trans hsup) hbounds hhome hpoison htime hcache
    refine ⟨cache, free, (askRun_found hb haligned hfound (fun hw => ?_) cap).trans ?_⟩
    · have hnat := congrArg BitVec.toNat hw
      rw [BitVec.toNat_ofNat, Nat.mod_eq_of_lt hlt] at hnat
      exact hentry hnat
    · rw [BitVec.toNat_ofNat, Nat.mod_eq_of_lt hlt, hword]
      rfl
  · refine opens_of_strip (w := packR 32#6 d a b (0#1 ++ k) 1#8) (bad := fun _ => false) (ask := askRun k.toNat a b) (exec_vcfgSetvlrun d a b k)
      fun s x cap _ hzero => ⟨rfl, x.btcache, s.free, ?_⟩
    have hn : (x.granted.rx b.toNat).toNat = 0 := by rw [show x.granted.rx b.toNat = 0 from hzero]; rfl
    simp only [askRun, hn, if_true, capped, Nat.zero_min, ite_self]

end Sys2Proof.Machine

/-! ### The element functions of VINT as bit vectors (R53, R177) -/

namespace Sys2Proof.Machine

theorem wrap_eq (w : Nat) (x : Int) : wrap w x = (BitVec.ofInt w x).toNat := by
  rw [BitVec.toNat_ofInt, wrap]

theorem toSigned_toNat {w : Nat} (a : BitVec w) : toSigned w a.toNat = a.toInt := by
  simp only [toSigned, Nat.mod_eq_of_lt a.isLt, BitVec.toInt_eq_toNat_cond]

theorem toSigned_eq (w x : Nat) : toSigned w x = (BitVec.ofNat w x).toInt := by
  rw [← toSigned_toNat, BitVec.toNat_ofNat]
  simp only [toSigned, Nat.mod_mod]

theorem clampInt_eq {lo hi : Int} (h : lo ≤ hi) (x : Int) : clampInt x lo hi = max lo (min hi x) := by
  unfold clampInt
  split_ifs <;> omega

/-- The signed numbers of `w` bits, as bounds of a clamp. -/
theorem clampInt_signed (w : Nat) (x : Int) :
    clampInt x (-(2 ^ (w - 1) : Nat)) ((2 ^ (w - 1) : Nat) - 1) = max (-2 ^ (w - 1)) (min (2 ^ (w - 1) - 1) x) := by
  have hpos := Nat.two_pow_pos (w - 1)
  rw [clampInt_eq (by omega)]
  push_cast
  rfl

/-- The unsigned numbers of `w` bits, as bounds of a clamp. -/
theorem clampInt_unsigned (w : Nat) (x : Int) : clampInt x 0 ((2 ^ w : Nat) - 1) = max 0 (min (2 ^ w - 1) x) := by
  have hpos := Nat.two_pow_pos w
  rw [clampInt_eq (by omega)]
  push_cast
  rfl

section ElementFunctions

variable {w : Nat} (a y d : BitVec w)

/-- A function whose value is that of an integer, wrapped. -/
theorem wrap_of_ofInt {x : Int} {r : BitVec w} (h : BitVec.ofInt w x = r) : wrap w x = r.toNat := by
  rw [wrap_eq, h]

theorem ofInt_tdiv : BitVec.ofInt w (a.toInt.tdiv y.toInt) = a.sdiv y :=
  BitVec.eq_of_toInt_eq (by rw [BitVec.toInt_ofInt, BitVec.toInt_sdiv])

theorem ofInt_tmod : BitVec.ofInt w (a.toInt.tmod y.toInt) = a.srem y := by
  rw [← BitVec.toInt_srem, BitVec.ofInt_toInt]

theorem ofInt_shiftRight (n : Nat) : BitVec.ofInt w (a.toInt / (2 ^ n : Nat)) = a.sshiftRight n := by
  rw [← Int.shiftRight_eq_div_pow, ← BitVec.toInt_sshiftRight, BitVec.ofInt_toInt]

theorem ofInt_natCast_toNat : BitVec.ofInt w (a.toNat : Int) = a := by
  rw [BitVec.ofInt_natCast, BitVec.ofNat_toNat, BitVec.setWidth_eq]

theorem ofInt_natCast_sub : BitVec.ofInt w ((a.toNat : Int) - y.toNat) = a - y := by
  rw [Int.sub_eq_add_neg, BitVec.ofInt_add, BitVec.ofInt_neg, ofInt_natCast_toNat, ofInt_natCast_toNat, ← BitVec.sub_eq_add_neg]

theorem toNat_eq_zero_iff : y.toNat = 0 ↔ y = 0 := by simp [BitVec.toNat_eq]

theorem two_pow_sub_one_eq_allOnes : 2 ^ w - 1 = (BitVec.allOnes w).toNat := (BitVec.toNat_allOnes).symm

/-- Sums, products and bitwise functions. -/
theorem intElem_ring :
    intElem .add w a.toNat y.toNat d.toNat = (a + y).toNat ∧ intElem .sub w a.toNat y.toNat d.toNat = (a - y).toNat ∧
    intElem .rsub w a.toNat y.toNat d.toNat = (y - a).toNat ∧ intElem .mul w a.toNat y.toNat d.toNat = (a * y).toNat ∧
    intElem .macc w a.toNat y.toNat d.toNat = (d + a * y).toNat := by
  refine ⟨wrap_of_ofInt ?_, wrap_of_ofInt (ofInt_natCast_sub a y), wrap_of_ofInt (ofInt_natCast_sub y a), ?_, ?_⟩
  · rw [BitVec.ofInt_add, ofInt_natCast_toNat, ofInt_natCast_toNat]
  · exact (BitVec.toNat_mul ..).symm
  · simp [intElem, BitVec.toNat_add, BitVec.toNat_mul]

theorem intElem_high :
    intElem .mulh w a.toNat y.toNat d.toNat = (BitVec.ofInt w (a.toInt * y.toInt / 2 ^ w)).toNat ∧
    intElem .mulhu w a.toNat y.toNat d.toNat = (BitVec.ofNat w (a.toNat * y.toNat / 2 ^ w)).toNat := by
  refine ⟨?_, (BitVec.toNat_ofNat ..).symm⟩
  simp only [intElem, toSigned_toNat, wrap_eq]
  push_cast
  rfl

/-- Quotients and remainders, with what they give for 0. -/
theorem intElem_quotient :
    intElem .div w a.toNat y.toNat d.toNat = (if y = 0 then BitVec.allOnes w else a.sdiv y).toNat ∧
    intElem .divu w a.toNat y.toNat d.toNat = (if y = 0 then BitVec.allOnes w else a / y).toNat ∧
    intElem .rem w a.toNat y.toNat d.toNat = (if y = 0 then a else a.srem y).toNat ∧
    intElem .remu w a.toNat y.toNat d.toNat = (if y = 0 then a else a % y).toNat := by
  simp only [intElem, toSigned_toNat, toNat_eq_zero_iff, wrap_eq, ofInt_tdiv, ofInt_tmod, two_pow_sub_one_eq_allOnes, apply_ite BitVec.toNat,
    BitVec.toNat_udiv, BitVec.toNat_umod, and_self]

theorem intElem_bitwise :
    intElem .and w a.toNat y.toNat d.toNat = (a &&& y).toNat ∧ intElem .or w a.toNat y.toNat d.toNat = (a ||| y).toNat ∧
    intElem .xor w a.toNat y.toNat d.toNat = (a ^^^ y).toNat :=
  ⟨(BitVec.toNat_and ..).symm, (BitVec.toNat_or ..).symm, (BitVec.toNat_xor ..).symm⟩

/-- Shifts by the amount modulo the width. -/
theorem intElem_shift :
    intElem .sll w a.toNat y.toNat d.toNat = (a <<< (y.toNat % w)).toNat ∧
    intElem .srl w a.toNat y.toNat d.toNat = (a >>> (y.toNat % w)).toNat ∧
    intElem .sra w a.toNat y.toNat d.toNat = (a.sshiftRight (y.toNat % w)).toNat := by
  refine ⟨?_, ?_, wrap_of_ofInt ?_⟩
  · rw [BitVec.toNat_shiftLeft, Nat.shiftLeft_eq]
    rfl
  · rw [BitVec.toNat_ushiftRight, Nat.shiftRight_eq_div_pow]
    rfl
  · rw [toSigned_toNat, ofInt_shiftRight]

theorem intElem_extremum :
    intElem .min w a.toNat y.toNat d.toNat = (if a.slt y then a else y).toNat ∧
    intElem .minu w a.toNat y.toNat d.toNat = (if a < y then a else y).toNat ∧
    intElem .max w a.toNat y.toNat d.toNat = (if y.slt a then a else y).toNat ∧
    intElem .maxu w a.toNat y.toNat d.toNat = (if y < a then a else y).toNat := by
  simp only [intElem, toSigned_toNat, apply_ite BitVec.toNat, BitVec.slt_iff_toInt_lt, BitVec.lt_def, and_self]

/-- Sums and differences clamped to the numbers of the width. -/
theorem intElem_saturating :
    intElem .sadd w a.toNat y.toNat d.toNat =
      (BitVec.ofInt w (max (-2 ^ (w - 1)) (min (2 ^ (w - 1) - 1) (a.toInt + y.toInt)))).toNat ∧
    intElem .ssub w a.toNat y.toNat d.toNat =
      (BitVec.ofInt w (max (-2 ^ (w - 1)) (min (2 ^ (w - 1) - 1) (a.toInt - y.toInt)))).toNat ∧
    intElem .saddu w a.toNat y.toNat d.toNat = (BitVec.ofNat w (min (2 ^ w - 1) (a.toNat + y.toNat))).toNat ∧
    intElem .ssubu w a.toNat y.toNat d.toNat = (BitVec.ofNat w (a.toNat - y.toNat)).toNat := by
  have hcast : ((2 ^ w : Nat) : Int) = 2 ^ w := by push_cast; rfl
  have hpos := Nat.two_pow_pos w
  have ha := a.isLt
  simp only [intElem, toSigned_toNat, clampInt_signed, clampInt_unsigned, wrap_eq, true_and]
  rw [← hcast]
  generalize 2 ^ w = n at hpos ha
  have hsum : max (0 : Int) (min ((n : Int) - 1) ((a.toNat : Int) + y.toNat)) = (min (n - 1) (a.toNat + y.toNat) : Nat) := by omega
  have hdiff : max (0 : Int) (min ((n : Int) - 1) ((a.toNat : Int) - y.toNat)) = (a.toNat - y.toNat : Nat) := by omega
  rw [hsum, hdiff, BitVec.ofInt_natCast, BitVec.ofInt_natCast]
  exact ⟨rfl, rfl⟩

end ElementFunctions

/-- Settles O24: each group of functions by its own law. -/
theorem integerFunctions : Obligations.IntegerFunctions := by
  intro w a y d _
  obtain ⟨hadd, hsub, hrsub, hmul, hmacc⟩ := intElem_ring a y d
  obtain ⟨hmulh, hmulhu⟩ := intElem_high a y d
  obtain ⟨hdiv, hdivu, hrem, hremu⟩ := intElem_quotient a y d
  obtain ⟨hand, hor, hxor⟩ := intElem_bitwise a y d
  obtain ⟨hsll, hsrl, hsra⟩ := intElem_shift a y d
  obtain ⟨hmin, hminu, hmax, hmaxu⟩ := intElem_extremum a y d
  obtain ⟨hsadd, hssub, hsaddu, hssubu⟩ := intElem_saturating a y d
  exact ⟨hadd, hsub, hrsub, hmul, hmulh, hmulhu, hdiv, hdivu, hrem, hremu, hand, hor, hxor, hsll, hsrl, hsra, hmin, hminu, hmax, hmaxu,
    hsadd, hssub, hsaddu, hssubu, hmacc, rfl, rfl⟩

end Sys2Proof.Machine

/-! ### Instructions of the vector side that work on registers alone (R22, R38, R60, R62, R335) -/

namespace Sys2Proof.Machine

/-- What an instruction that works on registers alone comes to; none is ILL. -/
def VOp.onRegs (e : QEntry) (a : Arch) : VOp → Option VAcc
  | .int f d x y m => runInt e a f d x y m
  | .fp f d x y m => runFp e a f d x y m
  | .cvt f d x m sat t => runCvt e a f d x m sat t
  | .red f d x y m q => runRed e a f d x y m q
  | .perm f d x y k m => runPerm e a f d x y k m
  | .cmp f d x y m => runCmp e a f d x y m
  | .mlogic f d x y => runMlogic e a f d x y
  | .popc x m => runPopc e a x m
  | .first x m => runFirst e a x m
  | .confl d x m => runConfl e a d x m
  | .vidx d start step => runVidx e a d start step
  | _ => none

theorem runVOp_onRegs {e : QEntry} {a : Arch} {v : VAcc} (h : e.op.onRegs e a = some v) (s : State) (gang : Nat) (sh : Sheaf) (canTrim : Bool) :
    runVOp s gang e a sh canTrim = Ran.regs s sh (some v) := by
  rw [← h]
  unfold runVOp VOp.onRegs
  unfold VOp.onRegs at h
  cases hop : e.op <;> simp only [hop, reduceCtorEq] at h ⊢

theorem VOp.onRegs_isStrip {o : VOp} {e : QEntry} {a : Arch} {v : VAcc} (h : o.onRegs e a = some v) : o.isStrip = false := by
  cases o with
  | strip => cases h
  | _ => rfl

/-- It is charged for its elements (R335). -/
theorem QEntry.charge_onRegs {e e' : QEntry} {a : Arch} {v : VAcc} (h : e.op.onRegs e' a = some v) : e.charge = max 1 e.vl := by
  unfold QEntry.charge
  cases hop : e.op <;> simp only [hop, VOp.onRegs, reduceCtorEq] at h ⊢

/-- What it does depends on the VTYPE, VL, FCSR and grant that the entry carries. -/
theorem VOp.onRegs_entryOf (y : Hart) (sh : Sheaf) (k : Issue) (r : FMap Nat) (o o' : VOp) (a : Arch) :
    o'.onRegs (y.entryOf sh k r o) a = o'.onRegs (y.entry sh) a := by
  cases o' <;> rfl

/-- What has run on the registers `a` has the effect `q`. -/
structure VAcc.Has (v : VAcc) (a : Arch) (q : VEffect) : Prop where
  fl : v.fl = q.fl
  seed : v.seed = q.seed
  zst : q.zst = a.rcsr cZSTATE
  bq : v.bq = q.out
  frame : a.VectorOnly v.arch
  regs : ∀ x csr, q.regs { v.arch with x := x, csr := csr }

theorem Arch.wx_eq (a : Arch) (r : Nat) (u : W64) : a.wx r u = { a with x := (a.wx r u).x } := by
  unfold Arch.wx
  split <;> rfl

theorem Arch.wx_x_congr {a b : Arch} (h : a.x = b.x) (r : Nat) (u : W64) : (a.wx r u).x = (b.wx r u).x := by
  unfold Arch.wx
  split <;> simp [h]

/-- The registers and CSRs that a run leaves, with its BQ result. -/
theorem VAcc.Has.after {v : VAcc} {a : Arch} {q : VEffect} (h : v.Has a.next q) (d : Option Nat) :
    a.After (match d, v.bq with
      | some r, some u => ((v.arch.orFlags v.fl).wcsr cSRSEED v.seed).wx r u
      | _, _ => (v.arch.orFlags v.fl).wcsr cSRSEED v.seed) q d := by
  obtain ⟨hfl, hseed, hzst, hbq, hframe, hregs⟩ := h
  have hread (n : Nat) : v.arch.rcsr n = a.rcsr n := by rw [hframe]; rfl
  obtain ⟨b, hb⟩ : ∃ b, (v.arch.orFlags v.fl).wcsr cSRSEED v.seed = b := ⟨_, rfl⟩
  have hplain : b = { v.arch with csr := b.csr } := by rw [← hb]; rfl
  have hcsr (n : Nat) : b.rcsr n = if n = cFCSR then a.rcsr cFCSR ||| BitVec.ofNat 64 (q.fl % 32) else if n = cSRSEED then q.seed
      else if n = cZSTATE then q.zst else a.rcsr n := by
    rw [← hb, Arch.rcsr_wcsr, Arch.orFlags, Arch.rcsr_wcsr, hread, hread, hfl, hseed, hzst]
    by_cases hs : n = cSRSEED
    · subst hs
      rfl
    · by_cases hf : n = cFCSR
      · simp only [hf, if_true]
        rfl
      · by_cases hz : n = cZSTATE
        · subst hz
          rfl
        · simp only [hs, hf, hz, if_false]
  have hnone : b = { a.next with v := b.v, m := b.m, q := b.q, z := b.z, tam := b.tam, mp := b.mp, csr := b.csr } := by
    rw [hplain, hframe]
  have hleaves : q.regs b := hplain ▸ hregs _ _
  rw [hb]
  cases d with
  | none => exact ⟨hnone, hcsr, hleaves⟩
  | some r =>
    cases hu : v.bq with
    | none =>
      simp only [Arch.After, ← hbq, hu]
      exact ⟨hnone, hcsr, hleaves⟩
    | some u =>
      simp only [Arch.After, ← hbq, hu]
      have hx : (b.wx r u).x = (a.wx r u).x := Arch.wx_x_congr (a := b) (b := a) (by rw [hnone]; rfl) r u
      refine ⟨?_, fun n => (Arch.rcsr_wx ..).trans (hcsr n), ?_⟩
      · rw [Arch.wx_eq b, hx, Arch.wx_eq a, hnone]
        rfl
      · rw [Arch.wx_eq, hplain]
        exact hregs _ _

/-- A queued instruction that works on registers alone completes with the effect of its run. -/
theorem vecStep_of_has {i : Instr} {s : State} {y : Hart} {sh : Sheaf} {k : Issue} {op : Arch → VOp} {v : VAcc} {q : VEffect}
    (hv : s.VReady k.regs y sh) (hexec : exec i s = issueV s k noResv op) (hbq : ∀ r, k.bq = some r → r ∈ k.regs)
    (hrun : (op y.arch).onRegs (y.entry sh) y.arch.next = some v) (hhas : v.Has y.arch.next q) (hfl : q.fl &&& (y.entry sh).fen = 0) :
    VecStep i s y k.regs { sh with seq := sh.seq + 1 } (max 1 (y.entry sh).vl) k.bq q := by
  obtain ⟨-, -, -, -, -, -, hclosed, htrap, hwant, -⟩ := id hv
  let e := y.entryOf sh k [] (op y.arch)
  have hplaced : s.placedRun y sh k [] (op y.arch) =
      .done { acc := v, sheaf := { sh.placed [] with asks := [] }, free := (s.withPlaced y sh k [] (op y.arch)).free, hold := none, cls := none } :=
    runVOp_onRegs (e := e) ((VOp.onRegs_entryOf y sh k [] (op y.arch) (op y.arch) y.arch.next).trans hrun) _ _ _ _
  have hcharge : e.charge = max 1 (y.entry sh).vl := QEntry.charge_onRegs (e := e) hrun
  have hfl' : v.fl &&& (y.entry sh).fen = 0 := by rw [hhas.fl, hfl]
  obtain ⟨t, z, hstep, halone, hz, hcnt, ⟨hdone, hcounts⟩, harch⟩ := issueV_runs (resv := noResv) hv (VOp.onRegs_isStrip hrun) rfl
    hplaced (.inr rfl) hfl' rfl hwant htrap hclosed hbq
  have ht : { t with mskcnt := s.mskcnt } = t := by
    have hcnt : t.mskcnt = s.mskcnt := hcnt
    rw [← hcnt]
  rw [ht] at halone
  refine ⟨t, z, hexec.trans hstep, halone, hz, ⟨hdone.trans ?_, hcounts⟩, ?_⟩
  · rw [show (y.entryOf sh k (noResv { y with bq := y.bqAfter k.regs }) (op y.arch)).charge = max 1 (y.entry sh).vl from hcharge, ← hhas.bq]
    rfl
  · rw [harch]
    exact hhas.after k.bq

/-- It does so wherever it can run, where its run has the effect that is stated. -/
theorem vecRuns_of_has {i : Instr} {k : Issue} {op : Arch → VOp} {ok : QEntry → Arch → Prop} {eff : QEntry → Arch → VEffect}
    {d : Option Nat} (hexec : ∀ s, exec i s = issueV s k noResv op) (hd : k.bq = d) (hbq : ∀ r, d = some r → r ∈ k.regs)
    (hrun : ∀ e x pc, e.shapeOk → ok e x → ∃ v, (op x).onRegs e { x with pc := pc } = some v ∧ v.Has { x with pc := pc } (eff e x)) : VecRuns i k.regs d ok eff := by
  subst hd
  rintro s y sh hv e rfl hshape hok hfl
  obtain ⟨v, hv', hhas⟩ := hrun _ y.arch _ hshape hok
  exact vecStep_of_has hv (hexec s) hbq hv' hhas hfl

/-- The same, for an instruction without a BQ result. -/
theorem vecRuns_of_has_none {i : Instr} {k : Issue} {op : Arch → VOp} {ok : QEntry → Arch → Prop} {eff : QEntry → Arch → VEffect}
    (hexec : ∀ s, exec i s = issueV s k noResv op) (hbq : k.bq = none)
    (hrun : ∀ e x pc, e.shapeOk → ok e x → ∃ v, (op x).onRegs e { x with pc := pc } = some v ∧ v.Has { x with pc := pc } (eff e x)) : VecRuns i k.regs none ok eff :=
  vecRuns_of_has hexec hbq (fun _ h => nomatch h) hrun

end Sys2Proof.Machine

/-! ### Elements written one after the other (R38, R58, R60, R62) -/

namespace Sys2Proof.Machine

/-- A register holds whole elements. -/
theorem ElemShape.dvd_register {vb w : Nat} (h : ElemShape vb w) : w ∣ vb * 8 := by
  by_cases hw : w = 4
  · rw [hw]
    exact Nat.dvd_mul_left_of_dvd (by decide) _
  · obtain ⟨k, hk, -, hdvd⟩ := h.bytes hw
    rw [hk, Nat.mul_comm 8]
    exact Nat.mul_dvd_mul_right hdvd 8

/-- The elements of a group are those of its registers (R21). -/
theorem ElemShape.groupElems {vb w : Nat} (h : ElemShape vb w) (g : Nat) : vb * 8 * g / w = g * regElems vb w := by
  rw [Nat.mul_comm, Nat.mul_div_assoc _ h.dvd_register]
  rfl

/-- Elements of a group that are written in turn, each with the value that `f` gives it; and `f` gives no others. -/
theorem ElemShape.setsElems {vb w : Nat} (h : ElemShape vb w) (a : Arch) {d g : Nat} {f : Nat → Option Nat} {ws : List (Nat × Nat)}
    (hws : ∀ q ∈ ws, q.1 < g * regElems vb w ∧ f q.1 = some q.2) (hall : ∀ i, (f i).isSome → ∃ q ∈ ws, q.1 = i) (x csr : FMap W64) :
    SetsElems vb w d g f a { ws.foldl (fun b q => setElem b vb w d q.1 q.2) a with x := x, csr := csr } := by
  let l := ws.map fun q => (d, q)
  have hfold : ws.foldl (fun b q => setElem b vb w d q.1 q.2) a = a.setElems vb w l := by rw [Arch.setElems, List.foldl_map]
  rw [hfold]
  refine ⟨?_, fun i hi => ?_, fun k hk => ?_⟩
  · rw [Arch.setElems_eq]
    simp [Arch.Only]
  · rw [h.groupElems] at hi
    show getElem (a.setElems vb w l) vb w d i = _
    rcases h.getElem_setElems l a d i with ⟨_, hq, hrow, hval⟩ | ⟨hnone, hval⟩
    · obtain ⟨q, hmem, rfl⟩ := List.mem_map.1 hq
      obtain ⟨-, hf⟩ := hws q hmem
      obtain rfl : q.1 = i := Nat.add_left_cancel hrow
      rw [hval, hf]
      rfl
    · cases hf : f i with
      | none => exact hval
      | some v =>
        obtain ⟨q, hq, rfl⟩ := hall i (by simp [hf])
        exact absurd rfl (hnone (d, q) (List.mem_map_of_mem hq))
  · refine h.fget_setElems a fun p hp => ?_
    obtain ⟨q, hq, rfl⟩ := List.mem_map.1 hp
    exact ⟨g, (hws q hq).1, hk⟩

/-- The elements of a list, each written with its value. -/
theorem ElemShape.setsElems_list {vb w : Nat} (h : ElemShape vb w) (a : Arch) {d g : Nat} {f : Nat → Option Nat} {l : List Nat} {val : Nat → Nat}
    (hl : ∀ i ∈ l, i < g * regElems vb w) (hf : ∀ i, f i = if i ∈ l then some (val i) else none) (x csr : FMap W64) :
    SetsElems vb w d g f a { l.foldl (fun b i => setElem b vb w d i (val i)) a with x := x, csr := csr } := by
  have hset := h.setsElems a (d := d) (g := g) (f := f) (ws := l.map fun i => (i, val i)) (fun q hq => ?_) (fun i hi => ?_) x csr
  · rwa [List.foldl_map] at hset
  · obtain ⟨i, hi, rfl⟩ := List.mem_map.1 hq
    exact ⟨hl i hi, by rw [hf, if_pos hi]⟩
  · rw [hf] at hi
    by_cases hmem : i ∈ l
    · exact ⟨_, List.mem_map_of_mem hmem, rfl⟩
    · rw [if_neg hmem] at hi
      cases hi

/-! Steps that only write -/

/-- Steps that only change registers. -/
theorem eachElem_writes {step : VAcc → Nat → VAcc} {put : Arch → Nat → Arch} (hstep : ∀ v i, step v i = { v with arch := put v.arch i })
    (l : List Nat) (v : VAcc) : eachElem l v step = { v with arch := l.foldl put v.arch } := by
  induction l generalizing v with
  | nil => rfl
  | cons i l ih => exact (congrArg (fun u => eachElem l u step) (hstep v i)).trans (ih _)

/-- They have an effect without flags and draws. -/
theorem VAcc.has_calm {a b : Arch} {R : Arch → Prop} (hb : a.VectorOnly b) (hR : ∀ x csr, R { b with x := x, csr := csr }) :
    ({ VAcc.start a with arch := b } : VAcc).Has a (a.calm R) :=
  ⟨rfl, rfl, rfl, rfl, hb, hR⟩

theorem foldl_setElem_vectorOnly {ι : Type} (vb w d : Nat) (key val : ι → Nat) (l : List ι) (a : Arch) :
    a.VectorOnly (l.foldl (fun b i => setElem b vb w d (key i) (val i)) a) :=
  foldl_keeps (P := a.VectorOnly) _ l a rfl fun b i _ hb => by
    unfold Arch.VectorOnly at hb ⊢
    rw [setElem_eq, hb]

section Shape

variable {e : QEntry} (hshape : e.shapeOk) (a : Arch)
include hshape

/-- A run that writes one element for each place of a list. -/
theorem QEntry.shapeOk.has_writes {step : VAcc → Nat → VAcc} {l : List Nat} {d : Nat} {key val : Nat → Nat} {f : Nat → Option Nat}
    (hstep : ∀ v i, step v i = v.set e.vb e.sew d (key i) (val i))
    (hl : ∀ i ∈ l, key i < e.lmul * regElems e.vb e.sew ∧ f (key i) = some (val i)) (hall : ∀ j, (f j).isSome → ∃ i ∈ l, key i = j) :
    (eachElem l (VAcc.start a) step).Has a (a.calm (SetsElems e.vb e.sew d e.lmul f a)) := by
  rw [eachElem_writes (put := fun b i => setElem b e.vb e.sew d (key i) (val i)) hstep]
  have hset := hshape.elem.setsElems a (d := d) (g := e.lmul) (f := f) (ws := l.map fun i => (key i, val i)) (fun q hq => ?_) fun j hj => ?_
  · rw [List.foldl_map] at hset
    exact VAcc.has_calm (foldl_setElem_vectorOnly ..) hset
  · obtain ⟨i, hi, rfl⟩ := List.mem_map.1 hq
    exact hl i hi
  · obtain ⟨i, hi, hij⟩ := hall j hj
    exact ⟨_, List.mem_map_of_mem hi, hij⟩

/-- A run that writes the elements of a list, each with its value. -/
theorem QEntry.shapeOk.has_elems {step : VAcc → Nat → VAcc} {l : List Nat} {d : Nat} {val : Nat → Nat} {f : Nat → Option Nat}
    (hstep : ∀ v i, step v i = v.set e.vb e.sew d i (val i)) (hl : ∀ i ∈ l, i < e.vl)
    (hf : ∀ i, f i = if i ∈ l then some (val i) else none) :
    (eachElem l (VAcc.start a) step).Has a (a.calm (SetsElems e.vb e.sew d e.lmul f a)) := by
  obtain ⟨-, -, hvl⟩ := id hshape
  rw [hshape.vlmax_eq] at hvl
  refine hshape.has_writes a hstep (fun i hi => ⟨(hl i hi).trans_le hvl, by rw [hf, if_pos hi]⟩) fun j hj => ?_
  rw [hf] at hj
  by_cases hmem : j ∈ l
  · exact ⟨j, hmem, rfl⟩
  · rw [if_neg hmem] at hj
    cases hj

end Shape

theorem QEntry.active_lt_vl {e : QEntry} {a : Arch} {m i : Nat} (hi : i ∈ e.active a m) : i < e.vl := by
  have h := QEntry.mem_active.1 hi
  simp only [QEntry.isActive, Bool.and_eq_true, decide_eq_true_eq] at h
  exact h.1

/-- What is given to active elements is what is given to those of the list. -/
theorem QEntry.given_active (e : QEntry) (a : Arch) (m : Nat) (val : Nat → Nat) (i : Nat) :
    given (e.isActive a m i) (val i) = if i ∈ e.active a m then some (val i) else none := by
  simp only [given, QEntry.mem_active]

theorem given_below (n : Nat) (val : Nat → Nat) (i : Nat) : given (i < n) (val i) = if i ∈ List.range n then some (val i) else none := by
  simp only [given, List.mem_range]

end Sys2Proof.Machine

/-! ### VINT, VINTX, VINTI and VIDX (R174, R176 to R178, R200) -/

namespace Sys2Proof.Machine

section VectorInt

variable {e : QEntry} (hshape : e.shapeOk) (x : Arch) {d a m : Nat} {b : VSrc}
include hshape

/-- A function of active elements. -/
theorem runInt_has {f : IntFn} (hf : f ≠ .merge) (hint : e.isInt = true) (hd : e.groupHere d = true) (ha : e.groupHere a = true)
    (hb : e.srcOk b = true) :
    ∃ v, runInt e x f d a b m = some v ∧ v.Has x (x.calm (SetsElems e.vb e.sew d e.lmul (fun j => given (e.isActive x m j)
      (intElem f e.sew (getElem x e.vb e.sew a j) (e.src x b j) (getElem x e.vb e.sew d j))) x)) := by
  refine ⟨_, ?_, hshape.has_elems x (fun _ _ => rfl) (fun i hi => QEntry.active_lt_vl hi) (e.given_active x m _)⟩
  have hok : (e.isInt && e.groupHere d && e.groupHere a && e.srcOk b) = true := by simp [hint, hd, ha, hb]
  unfold runInt
  rw [if_pos hok]
  cases f with
  | merge => exact absurd rfl hf
  | _ => rfl

/-- MERGE writes every element below VL. -/
theorem runInt_merge_has (hint : e.isInt = true) (hd : e.groupHere d = true) (ha : e.groupHere a = true) (hb : e.srcOk b = true) :
    ∃ v, runInt e x .merge d a b m = some v ∧ v.Has x (x.calm (SetsElems e.vb e.sew d e.lmul (fun j => given (j < e.vl)
      (if getMask x m j then e.src x b j else getElem x e.vb e.sew a j)) x)) := by
  refine ⟨_, ?_, hshape.has_elems x (fun _ _ => rfl) (fun i hi => List.mem_range.1 hi) (given_below e.vl _)⟩
  have hok : (e.isInt && e.groupHere d && e.groupHere a && e.srcOk b) = true := by simp [hint, hd, ha, hb]
  rw [runInt, if_pos hok]

theorem runVidx_has (start step : Int) (hint : e.isInt = true) (hd : e.groupHere d = true) :
    ∃ v, runVidx e x d start step = some v ∧ v.Has x (x.calm (SetsElems e.vb e.sew d e.lmul (fun j => given (j < e.vl)
      (BitVec.ofInt e.sew (start + j * step)).toNat) x)) := by
  refine ⟨_, ?_, hshape.has_elems x (val := fun j => (BitVec.ofInt e.sew (start + j * step)).toNat)
    (fun v i => congrArg (v.set e.vb e.sew d i) (wrap_eq ..)) (fun i hi => List.mem_range.1 hi) (given_below e.vl _)⟩
  have hok : (e.isInt && e.groupHere d) = true := by simp [hint, hd]
  rw [runVidx, if_pos hok]

end VectorInt

/-- Every group has a register 0 (R37). -/
theorem QEntry.groupHere_zero (e : QEntry) : e.groupHere 0 = true := by
  have hbits : bits e.vt.toNat 6 5 ≤ 3 := Nat.le_of_lt_succ (Nat.mod_lt _ (by decide))
  have hpos : 1 ≤ e.lmul := Nat.one_le_two_pow
  have hle : e.lmul ≤ 8 := Nat.pow_le_pow_right (by decide : 0 < 2) hbits
  simp only [QEntry.groupHere, groupOk, Bool.and_eq_true, decide_eq_true_eq]
  exact ⟨⟨⟨hpos, hle⟩, Nat.zero_mod _⟩, by omega⟩

section Issued

variable {i : Instr} {k : Issue} {d a m : Nat} {src : Arch → VSrc}

/-- A function of active elements, placed and run. -/
theorem vecRuns_int {f : IntFn} (hexec : ∀ s, exec i s = issueV s k noResv (fun x => .int f d a (src x) m)) (hbq : k.bq = none := by rfl)
    (hf : f ≠ .merge := by decide) :
    VecRuns i k.regs none (fun e x => e.isInt ∧ e.groupHere d ∧ (true → e.groupHere a) ∧ e.srcOk (src x))
      (fun e x => x.calm (SetsElems e.vb e.sew d e.lmul (fun j => given (e.isActive x m j)
        (intElem f e.sew (getElem x e.vb e.sew a j) (e.src x (src x) j) (getElem x e.vb e.sew d j))) x)) :=
  vecRuns_of_has_none hexec hbq fun _ x pc hshape ⟨hint, hd, ha, hb⟩ => runInt_has hshape { x with pc := pc } hf hint hd (ha rfl) hb

/-- MV of a scalar or an immediate reads no group. -/
theorem vecRuns_int_mv (hexec : ∀ s, exec i s = issueV s k noResv (fun x => .int .mv d 0 (src x) m)) (hbq : k.bq = none := by rfl) :
    VecRuns i k.regs none (fun e x => e.isInt ∧ e.groupHere d ∧ (false → e.groupHere a) ∧ e.srcOk (src x))
      (fun e x => x.calm (SetsElems e.vb e.sew d e.lmul (fun j => given (e.isActive x m j)
        (intElem .mv e.sew (getElem x e.vb e.sew a j) (e.src x (src x) j) (getElem x e.vb e.sew d j))) x)) := by
  refine vecRuns_of_has_none hexec hbq fun e x pc hshape ⟨hint, hd, _, hb⟩ => ?_
  have hrun := runInt_has (m := m) hshape { x with pc := pc } (f := .mv) (by decide) hint hd e.groupHere_zero hb
  simp only [intElem] at hrun ⊢
  exact hrun

theorem vecRuns_merge (hexec : ∀ s, exec i s = issueV s k noResv (fun x => .int .merge d a (src x) m)) (hbq : k.bq = none := by rfl) :
    VecRuns i k.regs none (fun e x => e.isInt ∧ e.groupHere d ∧ e.groupHere a ∧ e.srcOk (src x))
      (fun e x => x.calm (SetsElems e.vb e.sew d e.lmul (fun j => given (j < e.vl)
        (if getMask x m j then e.src x (src x) j else getElem x e.vb e.sew a j)) x)) :=
  vecRuns_of_has_none hexec hbq fun _ x pc hshape ⟨hint, hd, ha, hb⟩ => runInt_merge_has hshape { x with pc := pc } hint hd ha hb

end Issued

theorem vidx_runs (d : Reg) (st : BitVec 11) (sp : BitVec 10) : VecRuns (.vidx d st sp) [] none (fun e _ => e.isInt ∧ e.groupHere d.toNat)
    (fun e x => x.calm (SetsElems e.vb e.sew d.toNat e.lmul (fun j => given (j < e.vl) (BitVec.ofInt e.sew (st.toInt + j * sp.toInt)).toNat) x)) :=
  vecRuns_of_has_none (exec_vidx d st sp) rfl fun _ x pc hshape ⟨hint, hd⟩ => runVidx_has hshape { x with pc := pc } _ _ hint hd

/-- Settles O25: the functions of active elements, those that write every element below VL, and VIDX. -/
theorem vectorIntegers : Obligations.VectorIntegers := fun d a b i5 m st sp =>
  ⟨vecRuns_int (exec_vintAdd d a b m), vecRuns_int (exec_vintSub d a b m), vecRuns_int (exec_vintMul d a b m), vecRuns_int (exec_vintMulh d a b m),
    vecRuns_int (exec_vintMulhu d a b m), vecRuns_int (exec_vintDiv d a b m), vecRuns_int (exec_vintDivu d a b m),
    vecRuns_int (exec_vintRem d a b m), vecRuns_int (exec_vintRemu d a b m), vecRuns_int (exec_vintAnd d a b m), vecRuns_int (exec_vintOr d a b m),
    vecRuns_int (exec_vintXor d a b m), vecRuns_int (exec_vintSll d a b m), vecRuns_int (exec_vintSrl d a b m), vecRuns_int (exec_vintSra d a b m),
    vecRuns_int (exec_vintMin d a b m), vecRuns_int (exec_vintMinu d a b m), vecRuns_int (exec_vintMax d a b m), vecRuns_int (exec_vintMaxu d a b m),
    vecRuns_int (exec_vintSadd d a b m), vecRuns_int (exec_vintSaddu d a b m), vecRuns_int (exec_vintSsub d a b m),
    vecRuns_int (exec_vintSsubu d a b m), vecRuns_int (exec_vintMacc d a b m), vecRuns_merge (exec_vintMerge d a b m),
    vecRuns_int (exec_vintMv d a m), vecRuns_int (exec_vintxAdd d a b m), vecRuns_int (exec_vintxSub d a b m), vecRuns_int (exec_vintxRsub d a b m),
    vecRuns_int (exec_vintxMul d a b m), vecRuns_int (exec_vintxMulh d a b m), vecRuns_int (exec_vintxMulhu d a b m),
    vecRuns_int (exec_vintxDiv d a b m), vecRuns_int (exec_vintxDivu d a b m), vecRuns_int (exec_vintxRem d a b m),
    vecRuns_int (exec_vintxRemu d a b m), vecRuns_int (exec_vintxAnd d a b m), vecRuns_int (exec_vintxOr d a b m),
    vecRuns_int (exec_vintxXor d a b m), vecRuns_int (exec_vintxSll d a b m), vecRuns_int (exec_vintxSrl d a b m),
    vecRuns_int (exec_vintxSra d a b m), vecRuns_int (exec_vintxMin d a b m), vecRuns_int (exec_vintxMinu d a b m),
    vecRuns_int (exec_vintxMax d a b m), vecRuns_int (exec_vintxMaxu d a b m), vecRuns_int (exec_vintxSadd d a b m),
    vecRuns_int (exec_vintxSaddu d a b m), vecRuns_int (exec_vintxSsub d a b m), vecRuns_int (exec_vintxSsubu d a b m),
    vecRuns_int (exec_vintxMacc d a b m), vecRuns_merge (exec_vintxMerge d a b m), vecRuns_int_mv (exec_vintxMv d b m),
    vecRuns_int (exec_vintiAdd d a i5 m), vecRuns_int (exec_vintiRsub d a i5 m), vecRuns_int (exec_vintiAnd d a i5 m),
    vecRuns_int (exec_vintiOr d a i5 m), vecRuns_int (exec_vintiXor d a i5 m), vecRuns_int (exec_vintiSadd d a i5 m),
    vecRuns_int (exec_vintiSaddu d a i5 m), vecRuns_int (exec_vintiSll d a i5 m), vecRuns_int (exec_vintiSrl d a i5 m),
    vecRuns_int (exec_vintiSra d a i5 m), vecRuns_merge (exec_vintiMerge d a i5 m), vecRuns_int_mv (exec_vintiMv d i5 m), vidx_runs d st sp⟩

end Sys2Proof.Machine

/-! ### Elements that raise flags and take draws in turn (R58, R60, R62) -/

namespace Sys2Proof.Machine

/-- How many elements of a list are below one. -/
def countBelow (l : List Nat) (i : Nat) : Nat := (l.filter (· < i)).length

/-- In an ascending list the elements before one are those below it. -/
theorem countBelow_append {l : List Nat} {i : Nat} (hl : (l ++ [i]).Pairwise (· < ·)) :
    countBelow (l ++ [i]) i = l.length ∧ ∀ j ∈ l, countBelow (l ++ [i]) j = countBelow l j := by
  have hlt : ∀ j ∈ l, j < i := fun j hj => (List.pairwise_append.1 hl).2.2 j hj i List.mem_cons_self
  refine ⟨?_, fun j hj => ?_⟩
  · simp only [countBelow, List.filter_append, List.length_append]
    rw [List.filter_eq_self.2 (by simpa using hlt)]
    simp
  · have hnot : ¬ i < j := Nat.lt_asymm (hlt j hj)
    simp [countBelow, List.filter_append, hnot]

theorem QEntry.active_pairwise (e : QEntry) (a : Arch) (m : Nat) : (e.active a m).Pairwise (· < ·) :=
  List.pairwise_lt_range.filter _

/-- Steps that write, raise flags and take draws one after the other: `c` gives the value and the flags of an element from the generator before its
step, which `next` moves on. -/
theorem eachElem_draws {β : Type} {step : VAcc → Nat → VAcc} {put : Arch → Nat → β → Arch} {next : W64 → W64} {c : W64 → Nat → β × Nat}
    (hstep : ∀ v i, step v i = { v with
      arch := put v.arch i (c v.seed i).1, seed := next v.seed, fl := fOr v.fl (c v.seed i).2, fpe := (step v i).fpe })
    {l : List Nat} (hl : l.Pairwise (· < ·)) (v : VAcc) :
    ∃ p, eachElem l v step = { v with
      arch := l.foldl (fun b i => put b i (c (next^[countBelow l i] v.seed) i).1) v.arch
      seed := next^[l.length] v.seed
      fl := (l.map fun i => (c (next^[countBelow l i] v.seed) i).2).foldl fOr v.fl
      fpe := p } := by
  induction l using List.reverseRecOn with
  | nil => exact ⟨v.fpe, rfl⟩
  | append_singleton l i ih =>
    obtain ⟨p, hp⟩ := ih (List.pairwise_append.1 hl).1
    obtain ⟨hi, hbelow⟩ := countBelow_append hl
    refine ⟨(step (eachElem l v step) i).fpe, ?_⟩
    have hlast : eachElem (l ++ [i]) v step = step (eachElem l v step) i := by simp [eachElem]
    have harch : l.foldl (fun b j => put b j (c (next^[countBelow (l ++ [i]) j] v.seed) j).1) v.arch =
        l.foldl (fun b j => put b j (c (next^[countBelow l j] v.seed) j).1) v.arch :=
      List.foldl_ext _ _ _ fun b j hj => by rw [hbelow j hj]
    have hflags : (l.map fun j => (c (next^[countBelow (l ++ [i]) j] v.seed) j).2) = l.map fun j => (c (next^[countBelow l j] v.seed) j).2 :=
      List.map_congr_left fun j hj => by rw [hbelow j hj]
    rw [hlast, hstep, hp]
    simp only [List.foldl_append, List.map_append, harch, hflags, List.foldl_cons, List.foldl_nil, List.map_cons, List.map_nil, hi,
      List.length_append, List.length_singleton, Function.iterate_succ_apply']

/-- The generator after a rounding step, where the steps round at all. -/
def drawNext (rounds : Bool) (mode : Nat) (s : W64) : W64 := if rounds then (draw mode s).2 else s

theorem iterate_drawNext (rounds : Bool) (mode : Nat) (k : Nat) (s : W64) :
    (drawNext rounds mode)^[k] s = if rounds then seedAt mode s k else s := by
  cases rounds with
  | false => exact Function.iterate_fixed rfl k
  | true =>
    by_cases hmode : mode = 4
    · have hnext : drawNext true mode = srStep := by
        funext s
        simp [drawNext, draw, hmode]
      rw [hnext, if_pos rfl, seedAt, if_pos hmode]
    · rw [if_pos rfl, seedAt, if_neg hmode]
      exact Function.iterate_fixed (by simp [drawNext, draw, hmode]) k

theorem ElemShape.exists_two_pow {vb w : Nat} (h : ElemShape vb w) : ∃ c, w = 2 ^ c := by
  rcases h.width with rfl | rfl | rfl | rfl | rfl
  · exact ⟨2, rfl⟩
  · exact ⟨3, rfl⟩
  · exact ⟨4, rfl⟩
  · exact ⟨5, rfl⟩
  · exact ⟨6, rfl⟩

/-- The group that R183 gives to elements of another width holds VLMAX of them. -/
theorem QEntry.shapeOk.vlmax_le_groupOf {e : QEntry} (h : e.shapeOk) {w : Nat} (hw : ElemShape e.vb w) :
    e.vlmax ≤ e.groupOf w * regElems e.vb w := by
  obtain ⟨c, hc⟩ := hw.exists_two_pow
  obtain ⟨b, hb⟩ := h.elem.exists_two_pow
  have hwpos : 0 < w := hc ▸ Nat.two_pow_pos c
  have hspos : 0 < e.sew := hb ▸ Nat.two_pow_pos b
  show e.vb * 8 * e.lmul / e.sew ≤ max 1 (e.lmul * w / e.sew) * (e.vb * 8 / w)
  by_cases hle : e.sew ≤ e.lmul * w
  · have hdvd : e.sew ∣ e.lmul * w := by
      have hpow : e.lmul * w = 2 ^ (bits e.vt.toNat 6 5 + c) := by rw [Nat.pow_add, ← hc]; rfl
      rw [hpow, hb] at hle ⊢
      exact Nat.pow_dvd_pow 2 ((Nat.pow_le_pow_iff_right (by decide)).1 hle)
    calc e.vb * 8 * e.lmul / e.sew = e.lmul * w * (e.vb * 8) / (e.sew * w) := by
          rw [← Nat.mul_div_mul_right _ _ hwpos]
          ring_nf
      _ = e.lmul * w / e.sew * (e.vb * 8 / w) := (Nat.div_mul_div_comm hdvd hw.dvd_register).symm
      _ ≤ _ := Nat.mul_le_mul_right _ (Nat.le_max_right ..)
  · have hone : e.vb * 8 * e.lmul / e.sew * w ≤ e.vb * 8 := by
      refine Nat.le_of_mul_le_mul_right ?_ hspos
      calc e.vb * 8 * e.lmul / e.sew * w * e.sew = e.vb * 8 * e.lmul / e.sew * e.sew * w := Nat.mul_right_comm ..
        _ ≤ e.vb * 8 * e.lmul * w := Nat.mul_le_mul_right _ (Nat.div_mul_le_self ..)
        _ = e.vb * 8 * (e.lmul * w) := Nat.mul_assoc ..
        _ ≤ e.vb * 8 * e.sew := Nat.mul_le_mul_left _ (Nat.le_of_not_le hle)
    exact ((Nat.le_div_iff_mul_le hwpos).2 hone).trans (Nat.le_mul_of_pos_left _ (by omega))

theorem QEntry.shapeOk.groupOf_sew {e : QEntry} (h : e.shapeOk) : e.groupOf e.sew = e.lmul := by
  obtain ⟨b, hb⟩ := h.elem.exists_two_pow
  have hpos : 1 ≤ e.lmul := Nat.one_le_two_pow
  rw [QEntry.groupOf, Nat.mul_div_cancel _ (hb ▸ Nat.two_pow_pos b), Nat.max_eq_right hpos]

section Shape

variable {e : QEntry} (hshape : e.shapeOk) (a : Arch)
include hshape

/-- A run that writes active elements of width `w`, each with the value and the flags that `c` gives. -/
theorem QEntry.shapeOk.has_elementwise {w d m : Nat} (hw : ElemShape e.vb w) {rounds : Bool} {step : VAcc → Nat → VAcc} {c : W64 → Nat → Nat × Nat}
    (hstep : ∀ v i, step v i = { v with
      arch := setElem v.arch e.vb w d i (c v.seed i).1, seed := drawNext rounds e.frm v.seed, fl := fOr v.fl (c v.seed i).2
      fpe := (step v i).fpe }) :
    (eachElem (e.active a m) (VAcc.start a) step).Has a (e.elementwise a m rounds w d c) := by
  obtain ⟨p, hp⟩ := eachElem_draws (put := fun b i x => setElem b e.vb w d i x) hstep (e.active_pairwise a m) (VAcc.start a)
  have hseed (k : Nat) : (drawNext rounds e.frm)^[k] (VAcc.start a).seed =
      if rounds then seedAt e.frm (a.rcsr cSRSEED) k else a.rcsr cSRSEED := iterate_drawNext ..
  rw [hp]
  simp only [hseed]
  refine ⟨rfl, rfl, rfl, rfl, foldl_setElem_vectorOnly _ _ _ (fun i => i) .., hw.setsElems_list a (fun i hi => ?_) fun i => ?_⟩
  · obtain ⟨-, -, hvl⟩ := id hshape
    exact (QEntry.active_lt_vl hi).trans_le (hvl.trans (hshape.vlmax_le_groupOf hw))
  · simp only [QEntry.mem_active]
    rfl

end Shape

end Sys2Proof.Machine

/-! ### VFP and VFPX (R60 to R62, R179, R180) -/

namespace Sys2Proof.Machine

/-- A rounding step of a run is that of its element. -/
theorem VAcc.round_eq (v : VAcc) (f : Fmt) (mode : Nat) (sat : Bool) (n i : Nat) (x : FV × Nat) :
    v.round f mode sat n i x = ((roundsTo f mode sat v.seed x).1,
      { v with seed := (draw mode v.seed).2, fl := fOr v.fl (roundsTo f mode sat v.seed x).2, fpe := (v.round f mode sat n i x).2.fpe }) := rfl

section VectorFp

variable {e : QEntry} (hshape : e.shapeOk) (x : Arch) {d a m : Nat} {b : VSrc}
include hshape

/-- A function that rounds. -/
theorem runFp_rounds_has {f : FpFn} {F : Nat → FV → FV → FV → FV × Nat} (hF : ∀ r u v w, fpExact f r u v w = some (F r u v w))
    (hfloat : e.isFloat = true) (hsew : 16 ≤ e.sew) (hd : e.groupHere d = true) (ha : e.groupHere a = true) (hb : e.srcOk b = true) :
    ∃ v, runFp e x f d a b m = some v ∧ v.Has x (e.elementwise x m true e.sew d (fun g j =>
      roundsTo e.fmt e.frm false g (F e.frm (e.fmt.decode (getElem x e.vb e.sew a j)) (e.fmt.decode (e.src x b j))
        (e.fmt.decode (getElem x e.vb e.sew d j))))) := by
  have hok : (e.isFloat && (!f.wide || decide (16 ≤ e.sew)) && e.groupHere d && e.groupHere a && e.srcOk b) = true := by
    simp [hfloat, hsew, hd, ha, hb]
  refine ⟨_, if_pos hok, hshape.has_elementwise x hshape.elem fun v i => ?_⟩
  simp only [hF]
  rfl

/-- A function that does not round. -/
theorem runFp_moves_has {f : FpFn} {F : Fmt → Nat → Nat → Nat × Nat} (hwide : f.wide = false) (hexact : ∀ r u v w, fpExact f r u v w = none)
    (hF : ∀ t u v, fpMoved f t u v = F t u v)
    (hfloat : e.isFloat = true) (hd : e.groupHere d = true) (ha : e.groupHere a = true) (hb : e.srcOk b = true) :
    ∃ v, runFp e x f d a b m = some v ∧ v.Has x (e.elementwise x m false e.sew d (fun _ j =>
      F e.fmt (getElem x e.vb e.sew a j) (e.src x b j))) := by
  have hok : (e.isFloat && (!f.wide || decide (16 ≤ e.sew)) && e.groupHere d && e.groupHere a && e.srcOk b) = true := by
    simp [hfloat, hwide, hd, ha, hb]
  refine ⟨_, if_pos hok, hshape.has_elementwise x hshape.elem fun v i => ?_⟩
  simp only [hexact, hF]
  rfl

end VectorFp

section Issued

variable {i : Instr} {k : Issue} {d a m : Nat} {src : Arch → VSrc}

theorem vecRuns_fp_rounds {f : FpFn} (F : Nat → FV → FV → FV → FV × Nat)
    (hexec : ∀ s, exec i s = issueV s k noResv (fun x => .fp f d a (src x) m)) (hbq : k.bq = none := by rfl)
    (hF : ∀ r u v w, fpExact f r u v w = some (F r u v w) := by intros; rfl) :
    VecRuns i k.regs none (fun e x => e.isFloat ∧ 16 ≤ e.sew ∧ e.groupHere d ∧ e.groupHere a ∧ e.srcOk (src x))
      (fun e x => e.elementwise x m true e.sew d (fun g j =>
        roundsTo e.fmt e.frm false g (F e.frm (e.fmt.decode (getElem x e.vb e.sew a j)) (e.fmt.decode (e.src x (src x) j))
          (e.fmt.decode (getElem x e.vb e.sew d j))))) :=
  vecRuns_of_has_none hexec hbq fun _ x pc hshape ⟨hfloat, hsew, hd, ha, hb⟩ =>
    runFp_rounds_has hshape { x with pc := pc } hF hfloat hsew hd ha hb

theorem vecRuns_fp_moves {f : FpFn} (F : Fmt → Nat → Nat → Nat × Nat)
    (hexec : ∀ s, exec i s = issueV s k noResv (fun x => .fp f d a (src x) m)) (hbq : k.bq = none := by rfl)
    (hwide : f.wide = false := by rfl) (hexact : ∀ r u v w, fpExact f r u v w = none := by intros; rfl)
    (hF : ∀ t u v, fpMoved f t u v = F t u v := by intros; rfl) :
    VecRuns i k.regs none (fun e x => e.isFloat ∧ e.groupHere d ∧ (true → e.groupHere a) ∧ e.srcOk (src x))
      (fun e x => e.elementwise x m false e.sew d (fun _ j => F e.fmt (getElem x e.vb e.sew a j) (e.src x (src x) j))) :=
  vecRuns_of_has_none hexec hbq fun _ x pc hshape ⟨hfloat, hd, ha, hb⟩ =>
    runFp_moves_has hshape { x with pc := pc } hwide hexact hF hfloat hd (ha rfl) hb

/-- MV of a scalar reads no group. -/
theorem vecRuns_fp_mv (hexec : ∀ s, exec i s = issueV s k noResv (fun x => .fp .mv d 0 (src x) m)) (hbq : k.bq = none := by rfl) :
    VecRuns i k.regs none (fun e x => e.isFloat ∧ e.groupHere d ∧ (false → e.groupHere a) ∧ e.srcOk (src x))
      (fun e x => e.elementwise x m false e.sew d (fun _ j => (e.src x (src x) j, 0))) :=
  vecRuns_of_has_none hexec hbq fun e x pc hshape ⟨hfloat, hd, _, hb⟩ =>
    runFp_moves_has hshape { x with pc := pc } (F := fun _ _ y => (y, 0)) rfl (fun _ _ _ _ => rfl) (fun _ _ _ => rfl) hfloat hd e.groupHere_zero hb

end Issued

/-- A code with another sign, and the sign of a code (R180). -/
def copySign (t : Fmt) (neg : Bool) (x : Nat) : Nat × Nat := (t.withSign neg (x % 2 ^ (t.w - 1)), 0)
def signOf (t : Fmt) (x : Nat) : Bool := x.testBit (t.w - 1)

/-- Settles O26: the functions that round, and those that move codes. -/
theorem vectorFloats : Obligations.VectorFloats := fun d a b m =>
  ⟨vecRuns_fp_rounds (fun r x y _ => sumFV r [x, y]) (exec_vfpAdd d a b m),
    vecRuns_fp_rounds (fun r x y _ => sumFV r [x, y.negate]) (exec_vfpSub d a b m),
    vecRuns_fp_rounds (fun _ x y _ => mulFV x y) (exec_vfpMul d a b m), vecRuns_fp_rounds (fun _ x y _ => divFV x y) (exec_vfpDiv d a b m),
    vecRuns_fp_rounds (fun r x y z => fmaFV r x y z) (exec_vfpMacc d a b m),
    vecRuns_fp_rounds (fun r x y z => fmaFV r x.negate y z) (exec_vfpNmacc d a b m),
    vecRuns_fp_rounds (fun _ x _ _ => sqrtFV x) (exec_vfpSqrt d a m), vecRuns_fp_rounds (fun _ x _ _ => exp2FV x) (exec_vfpExp2 d a m),
    vecRuns_fp_moves (fun t x y => minmax t false x y) (exec_vfpMin d a b m),
    vecRuns_fp_moves (fun t x y => minmax t true x y) (exec_vfpMax d a b m),
    vecRuns_fp_moves (fun t x y => copySign t (signOf t y) x) (exec_vfpSgnj d a b m),
    vecRuns_fp_moves (fun t x y => copySign t (!signOf t y) x) (exec_vfpSgnjn d a b m),
    vecRuns_fp_moves (fun t x y => copySign t (signOf t x != signOf t y) x) (exec_vfpSgnjx d a b m),
    vecRuns_fp_moves (fun t x _ => (Nat.log2 (classOf t x), 0)) (exec_vfpClass d a m), vecRuns_fp_moves (fun _ _ y => (y, 0)) (exec_vfpMv d a m),
    vecRuns_fp_rounds (fun r x y _ => sumFV r [x, y]) (exec_vfpxAdd d a b m),
    vecRuns_fp_rounds (fun r x y _ => sumFV r [x, y.negate]) (exec_vfpxSub d a b m),
    vecRuns_fp_rounds (fun _ x y _ => mulFV x y) (exec_vfpxMul d a b m), vecRuns_fp_rounds (fun _ x y _ => divFV x y) (exec_vfpxDiv d a b m),
    vecRuns_fp_rounds (fun r x y z => fmaFV r x y z) (exec_vfpxMacc d a b m),
    vecRuns_fp_rounds (fun r x y z => fmaFV r x.negate y z) (exec_vfpxNmacc d a b m),
    vecRuns_fp_moves (fun t x y => minmax t false x y) (exec_vfpxMin d a b m),
    vecRuns_fp_moves (fun t x y => minmax t true x y) (exec_vfpxMax d a b m),
    vecRuns_fp_moves (fun t x y => copySign t (signOf t y) x) (exec_vfpxSgnj d a b m),
    vecRuns_fp_moves (fun t x y => copySign t (!signOf t y) x) (exec_vfpxSgnjn d a b m),
    vecRuns_fp_moves (fun t x y => copySign t (signOf t x != signOf t y) x) (exec_vfpxSgnjx d a b m), vecRuns_fp_mv (exec_vfpxMv d b m)⟩

end Sys2Proof.Machine

/-! ### VCVT (R52, R55, R56, R181 to R187) -/

namespace Sys2Proof.Machine

/-- Another width of elements in the same registers. -/
theorem ElemShape.withWidth {vb w w' : Nat} (h : ElemShape vb w) (hw : w' = 4 ∨ w' = 8) : ElemShape vb w' :=
  { h with width := hw.imp id .inl }

theorem narrowCode_inl {t : Nat} {f : Fmt} (h : narrowCode t = some (.inl f)) : t ≤ 2 ∧ (f.w = 4 ∨ f.w = 8) := by
  unfold narrowCode at h
  split at h
  all_goals cases h
  all_goals decide

theorem narrowCode_inr {t w : Nat} {sg : Bool} (h : narrowCode t = some (.inr (w, sg))) : w = 4 ∨ w = 8 := by
  unfold narrowCode at h
  split at h
  all_goals cases h
  all_goals decide

theorem decide_sat (sat : BitVec 1) : decide (sat.toNat = 1) = (sat == 1) := by
  revert sat
  decide

/-- A value converted to an integer of `w` bits, as its code, and the flags. -/
def toIntCode (w : Nat) (sg : Bool) (mode : Nat) (g : W64) (x : FV) : Nat × Nat :=
  ((BitVec.ofInt w (toIntFV w sg mode (draw mode g).1 x).1).toNat, (toIntFV w sg mode (draw mode g).1 x).2)

theorem VAcc.roundInt_eq (v : VAcc) (w : Nat) (sg : Bool) (mode n i : Nat) (x : FV) :
    v.roundInt w sg mode n i x = ((toIntCode w sg mode v.seed x).1,
      { v with seed := (draw mode v.seed).2, fl := fOr v.fl (toIntCode w sg mode v.seed x).2, fpe := (v.roundInt w sg mode n i x).2.fpe }) := by
  simp only [VAcc.roundInt, toIntCode, wrap_eq]
  rfl

/-- A write of an element that raises no flag and takes no draw. -/
theorem VAcc.set_eq (v : VAcc) (vb w d i x mode : Nat) : v.set vb w d i x =
    { v with arch := setElem v.arch vb w d i x, seed := drawNext false mode v.seed, fl := fOr v.fl 0, fpe := (v.set vb w d i x).fpe } := by
  simp [VAcc.set, fOr, drawNext]

/-- The numbers of VTYPE's class and width nearest to one. -/
def QEntry.clampCode (e : QEntry) (k : Int) : Nat :=
  (BitVec.ofInt e.sew (if e.isSigned then max (-2 ^ (e.sew - 1)) (min (2 ^ (e.sew - 1) - 1) k) else min (2 ^ e.sew - 1) k)).toNat

theorem QEntry.clampCode_signed {e : QEntry} (h : e.isSigned = true) (k : Int) :
    wrap e.sew (clampInt k (-(2 ^ (e.sew - 1) : Nat)) ((2 ^ (e.sew - 1) : Nat) - 1)) = e.clampCode k := by
  rw [wrap_eq, clampInt_signed, clampCode, if_pos h]

theorem QEntry.clampCode_unsigned {e : QEntry} (h : e.isSigned = false) (k : Nat) : min k (2 ^ e.sew - 1) = e.clampCode k := by
  have hpos := Nat.two_pow_pos e.sew
  have hcast : (2 ^ e.sew - 1 : Int) = (2 ^ e.sew - 1 : Nat) := by
    rw [Nat.cast_sub hpos]
    push_cast
    rfl
  have hlt : min k (2 ^ e.sew - 1) < 2 ^ e.sew := by omega
  simp only [clampCode, h, Bool.false_eq_true, if_false]
  rw [hcast, ← Nat.cast_min, BitVec.ofInt_natCast, BitVec.toNat_ofNat, Nat.min_comm (2 ^ e.sew - 1), Nat.mod_eq_of_lt hlt]

/-- An integer of VTYPE's class from a code of `w` bits. -/
def QEntry.intOf (e : QEntry) (w k : Nat) : Int := if e.isSigned then (BitVec.ofNat w k).toInt else k

theorem QEntry.narrowed (e : QEntry) (w k : Nat) :
    (if e.isSigned then wrap e.sew (clampInt (toSigned w k) (-(2 ^ (e.sew - 1) : Nat)) ((2 ^ (e.sew - 1) : Nat) - 1)) else min k (2 ^ e.sew - 1)) =
      e.clampCode (e.intOf w k) := by
  unfold QEntry.intOf
  cases h : e.isSigned with
  | true => simp only [if_true, toSigned_eq, QEntry.clampCode_signed h]
  | false => simp only [Bool.false_eq_true, if_false, QEntry.clampCode_unsigned h]

/-- The test of DEQ, QUANT and DS8D. -/
theorem QEntry.isFloat_half {e : QEntry} (hfloat : e.isFloat = true) (hsew : e.sew = 16 ∨ e.sew = 32) :
    (e.isFloat && (decide (e.sew = 16) || decide (e.sew = 32))) = true := by
  simpa [hfloat] using hsew

/-! Places of one register, written in turn -/

/-- Places in ascending order hold what is written to them, and the others what they held. -/
theorem fget_foldl_places {β : Type} [DecidableEq β] (z : β) (base : Nat) {l : List Nat} (hl : l.Pairwise (· < ·)) (val : Nat → β) (m : FMap β)
    (j : Nat) : fget z (l.foldl (fun s i => fset z s (base + i) (val i)) m) (base + j) = if j ∈ l then val j else fget z m (base + j) := by
  have hnodup : (l.map fun i => base + i).Nodup := List.Nodup.map (fun _ _ => Nat.add_left_cancel) (hl.imp Nat.ne_of_lt)
  split
  · next hj => exact fget_foldl_fset_of_nodup z (fun i => base + i) val l hnodup m hj
  · next hj =>
      refine fget_foldl_fset_of_notMem z (fun i => base + i) val l m fun hmem => ?_
      obtain ⟨i, hi, hij⟩ := List.mem_map.1 hmem
      exact hj (Nat.add_left_cancel hij ▸ hi)

theorem fget_foldl_places_ne {β : Type} [DecidableEq β] (z : β) {base k : Nat} {l : List Nat} (val : Nat → β) (m : FMap β)
    (hk : ∀ i ∈ l, k ≠ base + i) : fget z (l.foldl (fun s i => fset z s (base + i) (val i)) m) k = fget z m k :=
  fget_foldl_fset_of_notMem z (fun i => base + i) val l m fun hmem => by
    obtain ⟨i, hi, hik⟩ := List.mem_map.1 hmem
    exact hk i hi hik.symm

theorem foldl_setScale (q : Nat) (val : Nat → Nat) (l : List Nat) (a : Arch) :
    l.foldl (fun b i => setScale b q i (val i)) a =
      { a with q := l.foldl (fun s i => fset 0 s (q * 131072 + i) (BitVec.ofNat 8 (val i))) a.q } := by
  induction l generalizing a with
  | nil => rfl
  | cons i l ih => exact ih _

theorem setsScales_list {l : List Nat} {q : Nat} {val : Nat → Nat} {f : Nat → Option Nat} (a : Arch) (hl : l.Pairwise (· < ·))
    (hin : ∀ i ∈ l, i < 131072) (hf : ∀ i, f i = if i ∈ l then some (val i) else none) (x csr : FMap W64) :
    SetsScales q f a { a with q := l.foldl (fun s i => fset 0 s (q * 131072 + i) (BitVec.ofNat 8 (val i))) a.q, x := x, csr := csr } := by
  refine ⟨by simp [Arch.Only], fun j _ => ?_, fun k hk => fget_foldl_places_ne (0 : Byte) _ a.q fun i hi => ?_⟩
  · rw [hf, getScale, fget_foldl_places (0 : Byte) _ hl]
    by_cases hj : j ∈ l
    · rw [if_pos hj, if_pos hj]
      exact BitVec.toNat_ofNat ..
    · rw [if_neg hj, if_neg hj]
      rfl
  · have := hin i hi
    omega

section VectorCvt

variable {e : QEntry} (hshape : e.shapeOk) (x : Arch) {d a m t : Nat} {f : Fmt}
include hshape

theorem runCvt_ff_has (sat : BitVec 1) (hcode : floatCode t = some f) (hfloat : e.isFloat = true) (hok : e.cvtOk d a f.w = true)
    (hsat : satOk sat.toNat e.fmt = true) :
    ∃ v, runCvt e x .ff d a m sat.toNat t = some v ∧ v.Has x (e.elementwise x m true e.sew d (fun g j =>
      roundsTo e.fmt e.frm (sat == 1) g (f.decode (getElem x e.vb f.w a j), if (f.decode (getElem x e.vb f.w a j)).isSig then fNV else 0))) := by
  have hlegal : (e.isFloat && e.cvtOk d a f.w && satOk sat.toNat e.fmt) = true := by simp [hfloat, hok, hsat]
  simp only [runCvt, hcode, hlegal, if_true, decide_sat]
  exact ⟨_, rfl, hshape.has_elementwise x hshape.elem fun _ _ => rfl⟩

theorem runCvt_fi_has (hcode : floatCode t = some f) (hint : e.isInt = true) (hsew : 8 ≤ e.sew) (hok : e.cvtOk d a f.w = true) :
    ∃ v, runCvt e x .fi d a m 0 t = some v ∧ v.Has x (e.elementwise x m true e.sew d (fun g j =>
      toIntCode e.sew e.isSigned e.frm g (f.decode (getElem x e.vb f.w a j)))) := by
  have hlegal : (e.isInt && decide (8 ≤ e.sew) && e.cvtOk d a f.w) = true := by simp [hint, hsew, hok]
  simp only [runCvt, hcode, hlegal, if_true]
  refine ⟨_, rfl, hshape.has_elementwise x hshape.elem fun v i => ?_⟩
  rw [VAcc.roundInt_eq]
  rfl

theorem runCvt_ds8e_has (hcode : floatCode t = some f) (hlo : 1 ≤ t) (hhi : t ≤ 3) (hcls : vtCls e.vt = 3) (hok : e.cvtOk d a f.w = true) :
    ∃ v, runCvt e x .ds8e d a m 0 t = some v ∧ v.Has x (e.elementwise x m false 8 d (fun _ j =>
      ((roundDs8 e.frm (f.decode (getElem x e.vb f.w a j))).1,
        fOr (roundDs8 e.frm (f.decode (getElem x e.vb f.w a j))).2 (if (f.decode (getElem x e.vb f.w a j)).isSig then fNV else 0)))) := by
  have hlegal : (decide (vtCls e.vt = 3) && decide (1 ≤ t) && decide (t ≤ 3) && e.cvtOk d a f.w) = true := by simp [hcls, hlo, hhi, hok]
  simp only [runCvt, hcode, hlegal, if_true]
  exact ⟨_, rfl, hshape.has_elementwise x (hshape.elem.withWidth (.inr rfl)) fun _ _ => rfl⟩

theorem runCvt_if_has (sat : BitVec 1) (hfloat : e.isFloat = true) (hok : e.cvtOk d a (8 * 2 ^ (t / 2)) = true)
    (hsat : satOk sat.toNat e.fmt = true) :
    ∃ v, runCvt e x .int d a m sat.toNat t = some v ∧ v.Has x (e.elementwise x m true e.sew d (fun g j =>
      roundsTo e.fmt e.frm (sat == 1) g (ofIntFV (if t % 2 = 0 then (BitVec.ofNat (8 * 2 ^ (t / 2)) (getElem x e.vb (8 * 2 ^ (t / 2)) a j)).toInt
        else getElem x e.vb (8 * 2 ^ (t / 2)) a j), 0))) := by
  have hlegal : (e.isFloat && e.cvtOk d a (8 * 2 ^ (t / 2)) && satOk sat.toNat e.fmt) = true := by simp [hfloat, hok, hsat]
  simp only [runCvt, hlegal, if_true, decide_sat, toSigned_eq]
  exact ⟨_, rfl, hshape.has_elementwise x hshape.elem fun _ _ => rfl⟩

theorem runCvt_narrow_has (hint : e.isInt = true) (hw : e.sew < 4 * 2 ^ t) (ht : t ≤ 4) (hok : e.cvtOk d a (4 * 2 ^ t) = true) :
    ∃ v, runCvt e x .narrow d a m 0 t = some v ∧ v.Has x (e.elementwise x m false e.sew d (fun _ j =>
      (e.clampCode (e.intOf (4 * 2 ^ t) (getElem x e.vb (4 * 2 ^ t) a j)), 0))) := by
  have hlegal : (e.isInt && decide (e.sew < 4 * 2 ^ t) && decide (t ≤ 4) && e.cvtOk d a (4 * 2 ^ t)) = true := by simp [hint, hw, ht, hok]
  simp only [runCvt, hlegal, if_true, QEntry.narrowed]
  exact ⟨_, rfl, hshape.has_elementwise x hshape.elem fun _ _ => VAcc.set_eq ..⟩

theorem runCvt_widen_has (hint : e.isInt = true) (hw : 4 * 2 ^ t < e.sew) (ht : t ≤ 4) (hok : e.cvtOk d a (4 * 2 ^ t) = true) :
    ∃ v, runCvt e x .widen d a m 0 t = some v ∧ v.Has x (e.elementwise x m false e.sew d (fun _ j =>
      (if e.isSigned then (BitVec.ofInt e.sew (BitVec.ofNat (4 * 2 ^ t) (getElem x e.vb (4 * 2 ^ t) a j)).toInt).toNat
        else getElem x e.vb (4 * 2 ^ t) a j, 0))) := by
  have hlegal : (e.isInt && decide (4 * 2 ^ t < e.sew) && decide (t ≤ 4) && e.cvtOk d a (4 * 2 ^ t)) = true := by simp [hint, hw, ht, hok]
  simp only [runCvt, hlegal, if_true, wrap_eq, toSigned_eq]
  exact ⟨_, rfl, hshape.has_elementwise x hshape.elem fun _ _ => VAcc.set_eq ..⟩

theorem runCvt_deq_float_has (hcode : narrowCode t = some (.inl f)) (hfloat : e.isFloat = true) (hsew : e.sew = 16 ∨ e.sew = 32)
    (hok : e.cvtOk d a f.w = true) :
    ∃ v, runCvt e x .deq d a m 0 t = some v ∧ v.Has x (e.elementwise x m true e.sew d (fun g j =>
      roundsTo e.fmt e.frm false g (mulFV (f.decode (getElem x e.vb f.w a j)) (scaleFV (getScale x (a % 8) (j / vtBlk e.vt)))))) := by
  simp only [runCvt, QEntry.isFloat_half hfloat hsew, hcode, Bool.not_true, hok, Bool.false_eq_true, if_false, if_true]
  exact ⟨_, rfl, hshape.has_elementwise x hshape.elem fun _ _ => rfl⟩

theorem runCvt_deq_int_has {w : Nat} {sg : Bool} (hcode : narrowCode t = some (.inr (w, sg))) (hfloat : e.isFloat = true)
    (hsew : e.sew = 16 ∨ e.sew = 32) (hok : e.cvtOk d a w = true) :
    ∃ v, runCvt e x .deq d a m 0 t = some v ∧ v.Has x (e.elementwise x m true e.sew d (fun g j =>
      roundsTo e.fmt e.frm false g (mulFV (ofIntFV (if sg then (BitVec.ofNat w (getElem x e.vb w a j)).toInt else getElem x e.vb w a j))
        (scaleFV (getScale x (a % 8) (j / vtBlk e.vt)))))) := by
  simp only [runCvt, QEntry.isFloat_half hfloat hsew, hcode, Bool.not_true, hok, Bool.false_eq_true, if_false, if_true, toSigned_eq]
  exact ⟨_, rfl, hshape.has_elementwise x hshape.elem fun _ _ => rfl⟩

theorem runCvt_quant_float_has (sat : BitVec 1) (hcode : narrowCode t = some (.inl f)) (hfloat : e.isFloat = true)
    (hsew : e.sew = 16 ∨ e.sew = 32) (hok : e.cvtOk a d f.w = true) :
    ∃ v, runCvt e x .quant d a m sat.toNat t = some v ∧ v.Has x (e.elementwise x m true f.w d (fun g j =>
      roundsTo f e.frm (sat == 1) g
        (if (e.fmt.decode (getElem x e.vb e.sew a j)).isNan ∨ getScale x (d % 8) (j / vtBlk e.vt) = 255 then (.nan false, fNV)
          else (unscale (e.fmt.decode (getElem x e.vb e.sew a j)) (getScale x (d % 8) (j / vtBlk e.vt)), 0)))) := by
  obtain ⟨ht, hw⟩ := narrowCode_inl hcode
  have hlegal : (e.cvtOk a d f.w && (decide (sat.toNat = 0) || decide (t ≤ 2))) = true := by simp [hok, ht]
  simp only [runCvt, QEntry.isFloat_half hfloat hsew, hcode, Bool.not_true, hlegal, Bool.false_eq_true, if_false, if_true, decide_sat]
  refine ⟨_, rfl, hshape.has_elementwise x (hshape.elem.withWidth hw) fun v i => ?_⟩
  by_cases hbad : (e.fmt.decode (getElem x e.vb e.sew a i)).isNan = true ∨ getScale x (d % 8) (i / vtBlk e.vt) = 255
  · simp only [Bool.or_eq_true, decide_eq_true_eq, if_pos hbad]
    rfl
  · simp only [Bool.or_eq_true, decide_eq_true_eq, if_neg hbad]
    rfl

theorem runCvt_quant_int_has {w : Nat} {sg : Bool} (hcode : narrowCode t = some (.inr (w, sg))) (hfloat : e.isFloat = true)
    (hsew : e.sew = 16 ∨ e.sew = 32) (hok : e.cvtOk a d w = true) :
    ∃ v, runCvt e x .quant d a m 0 t = some v ∧ v.Has x (e.elementwise x m true w d (fun g j =>
      toIntCode w sg e.frm g
        (if (e.fmt.decode (getElem x e.vb e.sew a j)).isNan ∨ getScale x (d % 8) (j / vtBlk e.vt) = 255 then .nan false
          else unscale (e.fmt.decode (getElem x e.vb e.sew a j)) (getScale x (d % 8) (j / vtBlk e.vt))))) := by
  simp only [runCvt, QEntry.isFloat_half hfloat hsew, hcode, Bool.not_true, hok, decide_true, Bool.true_or, Bool.and_true, Bool.false_eq_true, if_false, if_true,
    Bool.or_eq_true, decide_eq_true_eq]
  refine ⟨_, rfl, hshape.has_elementwise x (hshape.elem.withWidth (narrowCode_inr hcode)) fun v i => ?_⟩
  rw [VAcc.roundInt_eq]
  rfl

theorem runCvt_ds8d_has (hfloat : e.isFloat = true) (hsew : e.sew = 16 ∨ e.sew = 32) (hok : e.cvtOk d a 8 = true) :
    ∃ v, runCvt e x .ds8d d a m 0 0 = some v ∧ v.Has x (e.elementwise x m false e.sew d (fun _ j =>
      ((roundTo e.fmt 0 false 0 (ds8FV (getElem x e.vb 8 a j))).1, 0))) := by
  have hlegal : (e.isFloat && (decide (e.sew = 16) || decide (e.sew = 32)) && e.cvtOk d a 8) = true := by
    rw [QEntry.isFloat_half hfloat hsew, hok]
    rfl
  simp only [runCvt, hlegal, if_true]
  exact ⟨_, rfl, hshape.has_elementwise x hshape.elem fun _ _ => VAcc.set_eq ..⟩

theorem runCvt_qrd_has {q : Nat} (hq : q < 8) (hsew : e.sew = 8) (hcls : vtCls e.vt = 1) (hlmul : e.lmul = 1) :
    ∃ v, runCvt e x .qrd d q m 0 0 = some v ∧ v.Has x (x.calm (SetsElems e.vb 8 d 1 (fun j => given (e.isActive x m j) (getScale x q j)) x)) := by
  have hlegal : (decide (e.sew = 8) && decide (vtCls e.vt = 1) && decide (e.lmul = 1) && decide (q < 8)) = true := by simp [hsew, hcls, hlmul, hq]
  have hrun := hshape.has_elems x (f := fun j => given (e.isActive x m j) (getScale x q j)) (d := d) (val := getScale x q)
    (fun _ _ => rfl) (fun i hi => QEntry.active_lt_vl hi) (e.given_active x m _)
  rw [hsew, hlmul] at hrun
  simp only [runCvt, hlegal, if_true]
  exact ⟨_, rfl, hrun⟩

/-- The scales of active elements go to one register. -/
theorem runCvt_qmv_has {q : Nat} (hq : q < 8) (hsew : e.sew = 8) (hcls : vtCls e.vt = 1) (hlmul : e.lmul = 1) :
    ∃ v, runCvt e x .qmv q a m 0 0 = some v ∧ v.Has x (x.calm (SetsScales q (fun j => given (e.isActive x m j) (getElem x e.vb 8 a j)) x)) := by
  have hlegal : (decide (e.sew = 8) && decide (vtCls e.vt = 1) && decide (e.lmul = 1) && decide (q < 8)) = true := by simp [hsew, hcls, hlmul, hq]
  have hone : e.vlmax ≤ 131072 := by
    rw [hshape.vlmax_eq, hlmul, hsew, regElems_bytes (k := 1), Nat.one_mul, Nat.div_one]
    exact hshape.elem.le
  obtain ⟨-, -, hvl⟩ := id hshape
  simp only [runCvt, hlegal, if_true]
  refine ⟨_, rfl, ?_⟩
  rw [eachElem_writes (put := fun b i => setScale b q i (getElem x e.vb 8 a i)) fun _ _ => rfl, foldl_setScale]
  exact VAcc.has_calm rfl (setsScales_list x (e.active_pairwise x m) (fun i hi => by have := QEntry.active_lt_vl hi; omega) (e.given_active x m _))

end VectorCvt

/-- Settles O27: each conversion by the law of its run. -/
theorem vectorConversions : Obligations.VectorConversions := by
  intro d a q m sat t
  refine ⟨fun f hf => ⟨?_, ?_, fun hlo hhi => ?_⟩, ?_, ?_, ?_, fun f hf => ⟨?_, ?_⟩, fun w sg hw => ⟨?_, ?_⟩, ?_, ?_, ?_⟩
  · exact vecRuns_of_has_none (exec_vcvtFf d a m sat t) rfl fun _ x pc hshape ⟨hfloat, hok, hsat⟩ =>
      runCvt_ff_has hshape { x with pc := pc } sat hf hfloat hok hsat
  · exact vecRuns_of_has_none (exec_vcvtFi d a m t) rfl fun _ x pc hshape ⟨hint, hsew, hok⟩ =>
      runCvt_fi_has hshape { x with pc := pc } hf hint hsew hok
  · exact vecRuns_of_has_none (exec_vcvtDs8e d a m t) rfl fun _ x pc hshape ⟨hcls, hok⟩ =>
      runCvt_ds8e_has hshape { x with pc := pc } hf hlo hhi hcls hok
  · exact vecRuns_of_has_none (exec_vcvtIf d a m sat t) rfl fun _ x pc hshape ⟨hfloat, hok, hsat⟩ =>
      runCvt_if_has hshape { x with pc := pc } sat hfloat hok hsat
  · exact vecRuns_of_has_none (exec_vcvtNarrow d a m t) rfl fun _ x pc hshape ⟨hint, hw, ht, hok⟩ =>
      runCvt_narrow_has hshape { x with pc := pc } hint hw ht hok
  · exact vecRuns_of_has_none (exec_vcvtWiden d a m t) rfl fun _ x pc hshape ⟨hint, hw, ht, hok⟩ =>
      runCvt_widen_has hshape { x with pc := pc } hint hw ht hok
  · exact vecRuns_of_has_none (exec_vcvtDeq d a m t) rfl fun _ x pc hshape ⟨⟨hfloat, hsew⟩, hok⟩ =>
      runCvt_deq_float_has hshape { x with pc := pc } hf hfloat hsew hok
  · exact vecRuns_of_has_none (exec_vcvtQuant d a m sat t) rfl fun _ x pc hshape ⟨⟨hfloat, hsew⟩, hok⟩ =>
      runCvt_quant_float_has hshape { x with pc := pc } sat hf hfloat hsew hok
  · exact vecRuns_of_has_none (exec_vcvtDeq d a m t) rfl fun _ x pc hshape ⟨⟨hfloat, hsew⟩, hok⟩ =>
      runCvt_deq_int_has hshape { x with pc := pc } hw hfloat hsew hok
  · exact vecRuns_of_has_none (exec_vcvtQuant d a m 0 t) rfl fun _ x pc hshape ⟨⟨hfloat, hsew⟩, hok⟩ =>
      runCvt_quant_int_has hshape { x with pc := pc } hw hfloat hsew hok
  · exact vecRuns_of_has_none (exec_vcvtDs8d d a m) rfl fun _ x pc hshape ⟨⟨hfloat, hsew⟩, hok⟩ =>
      runCvt_ds8d_has hshape { x with pc := pc } hfloat hsew hok
  · exact vecRuns_of_has_none (exec_vcvtQmv q a m) rfl fun _ x pc hshape ⟨hsew, hcls, hlmul⟩ =>
      runCvt_qmv_has hshape { x with pc := pc } q.isLt hsew hcls hlmul
  · exact vecRuns_of_has_none (exec_vcvtQrd d q m) rfl fun _ x pc hshape ⟨hsew, hcls, hlmul⟩ =>
      runCvt_qrd_has hshape { x with pc := pc } q.isLt hsew hcls hlmul

end Sys2Proof.Machine

/-! ### VMASK (R196 to R199) -/

namespace Sys2Proof.Machine

theorem ElemShape.getElem_lt {vb w : Nat} (h : ElemShape vb w) (a : Arch) (n i : Nat) : getElem a vb w n i < 2 ^ w := by
  by_cases hw : w = 4
  · subst hw
    have hbyte := (fget 0 a.v (vKey vb n (i / 2))).isLt
    rw [getElem_nibble]
    split <;> omega
  · obtain ⟨k, rfl, -, -⟩ := h.bytes hw
    rw [getElem_bytes]
    refine (leNat_lt _).trans_eq ?_
    rw [length_fgetMany]

theorem ElemShape.toNat_getElem {vb w : Nat} (h : ElemShape vb w) (a : Arch) (n i : Nat) :
    (BitVec.ofNat w (getElem a vb w n i)).toNat = getElem a vb w n i :=
  (BitVec.toNat_ofNat ..).trans (Nat.mod_eq_of_lt (h.getElem_lt a n i))

theorem QEntry.shapeOk.vl_le {e : QEntry} (h : e.shapeOk) : e.vl ≤ 2097152 := by
  obtain ⟨-, -, hvl⟩ := id h
  have hbits : bits e.vt.toNat 6 5 ≤ 3 := Nat.le_of_lt_succ (Nat.mod_lt _ (by decide))
  have hlmul : e.lmul ≤ 8 := Nat.pow_le_pow_right (by decide : 0 < 2) hbits
  have hregs : regElems e.vb e.sew ≤ 262144 :=
    (Nat.div_le_div_right (Nat.mul_le_mul_right 8 h.elem.le)).trans (Nat.div_le_div_left (Nat.le_mul_of_pos_right 4 (Nat.two_pow_pos _)) (by decide))
  exact hvl.trans (h.vlmax_eq ▸ Nat.mul_le_mul hlmul hregs)

/-! Bits of one register, written in turn -/

theorem foldl_setMask {d : Nat} (hd : d ≠ 0) (val : Nat → Bool) (l : List Nat) (a : Arch) :
    l.foldl (fun b i => setMask b d i (val i)) a = { a with m := l.foldl (fun s i => fset false s (d * 2097152 + i) (val i)) a.m } := by
  induction l generalizing a with
  | nil => rfl
  | cons i l ih =>
    rw [List.foldl_cons, ih, setMask, if_neg hd]
    rfl

theorem setsMask_list {l : List Nat} {d : Nat} {val : Nat → Bool} {f : Nat → Option Bool} (a : Arch) (hd : d ≠ 0) (hl : l.Pairwise (· < ·))
    (hin : ∀ i ∈ l, i < 2097152) (hf : ∀ i, f i = if i ∈ l then some (val i) else none) (x csr : FMap W64) :
    SetsMask d f a { a with m := l.foldl (fun s i => fset false s (d * 2097152 + i) (val i)) a.m, x := x, csr := csr } := by
  refine ⟨by simp [Arch.Only], fun j _ => ?_, fun k hk => fget_foldl_places_ne false _ a.m fun i hi => ?_⟩
  · rw [hf, getMask, if_neg hd, fget_foldl_places false _ hl]
    by_cases hj : j ∈ l
    · rw [if_pos hj, if_pos hj, Option.getD_some]
    · rw [if_neg hj, if_neg hj, Option.getD_none, getMask, if_neg hd]
  · have := hin i hi
    omega

/-- The function of two bits (R197). -/
def MaskFn.bits : MaskFn → Bool → Bool → Bool
  | .and, u, v => u && v
  | .or, u, v => u || v
  | .xor, u, v => u != v
  | .andn, u, v => u && !v

section VectorMask

variable {e : QEntry} (hshape : e.shapeOk) (x : Arch) {d : Nat} (hd : d ≠ 0)
include hshape hd

/-- A run that writes the bits of the elements of a list. -/
theorem QEntry.shapeOk.has_mask {step : VAcc → Nat → VAcc} {l : List Nat} (hl : l.Pairwise (· < ·)) (hin : ∀ i ∈ l, i < e.vl) {val : Nat → Bool}
    {f : Nat → Option Bool} (hstep : ∀ v i, step v i = { v with arch := setMask v.arch d i (val i) })
    (hf : ∀ i, f i = if i ∈ l then some (val i) else none) : (eachElem l (VAcc.start x) step).Has x (x.calm (SetsMask d f x)) := by
  have hvl := hshape.vl_le
  rw [eachElem_writes (put := fun b i => setMask b d i (val i)) hstep, foldl_setMask hd]
  exact VAcc.has_calm rfl (setsMask_list x hd hl (fun i hi => (hin i hi).trans_le hvl) hf)

/-- A run that writes the bits of active elements and raises flags. -/
theorem QEntry.shapeOk.has_compare {step : VAcc → Nat → VAcc} {m : Nat} {o : Nat → Bool × Nat}
    (hstep : ∀ v i, step v i = { v with arch := setMask v.arch d i (o i).1, fl := fOr v.fl (o i).2, fpe := (step v i).fpe }) :
    (eachElem (e.active x m) (VAcc.start x) step).Has x
      { x.calm (SetsMask d (fun j => if e.isActive x m j then some (o j).1 else none) x) with fl := unionFlags ((e.active x m).map fun j => (o j).2) } := by
  have hvl := hshape.vl_le
  obtain ⟨p, hp⟩ := eachElem_draws (put := fun b i y => setMask b d i y) (next := id) (c := fun _ i => o i) hstep (e.active_pairwise x m) (VAcc.start x)
  rw [hp]
  simp only [foldl_setMask hd, Function.iterate_id, id_eq]
  refine ⟨rfl, rfl, rfl, rfl, rfl, setsMask_list x hd (e.active_pairwise x m) (fun i hi => (QEntry.active_lt_vl hi).trans_le hvl) fun i => ?_⟩
  simp only [QEntry.mem_active]

theorem runMlogic_has (g : MaskFn) {a b : Nat} :
    ∃ v, runMlogic e x g d a b = some v ∧
      v.Has x (x.calm (SetsMask d (fun j => if j < e.vl then some (g.bits (getMask x a j) (getMask x b j)) else none) x)) := by
  refine ⟨_, if_neg hd, hshape.has_mask x hd List.pairwise_lt_range (fun i hi => List.mem_range.1 hi)
    (val := fun j => g.bits (getMask x a j) (getMask x b j)) (fun v i => ?_) fun i => ?_⟩
  · cases g <;> rfl
  · simp only [List.mem_range]

theorem runConfl_has {a m : Nat} (ha : e.groupHere a = true) :
    ∃ v, runConfl e x d a m = some v ∧ v.Has x (x.calm (SetsMask d (fun j => if e.isActive x m j then
      some (decide (∃ i < j, e.isActive x m i ∧ getElem x e.vb e.sew a i = getElem x e.vb e.sew a j)) else none) x)) := by
  have hok : ¬ (d = 0 ∨ (!e.groupHere a) = true) := by simp [hd, ha]
  refine ⟨_, if_neg hok, hshape.has_mask x hd (e.active_pairwise x m) (fun i hi => QEntry.active_lt_vl hi)
    (val := fun j => decide (∃ i < j, e.isActive x m i ∧ getElem x e.vb e.sew a i = getElem x e.vb e.sew a j)) (fun v j => ?_) fun i => ?_⟩
  · have hany : (e.active x m).any (fun i => decide (i < j) && decide (getElem x e.vb e.sew a i = getElem x e.vb e.sew a j)) =
        decide (∃ i < j, e.isActive x m i ∧ getElem x e.vb e.sew a i = getElem x e.vb e.sew a j) := by
      rw [Bool.eq_iff_iff]
      simp only [List.any_eq_true, Bool.and_eq_true, decide_eq_true_eq, QEntry.mem_active]
      exact ⟨fun ⟨i, hact, hlt, heq⟩ => ⟨i, hlt, hact, heq⟩, fun ⟨i, hlt, hact, heq⟩ => ⟨i, hact, hlt, heq⟩⟩
    simp only [hany]
  · simp only [QEntry.mem_active]

end VectorMask

theorem bit_eq_zero_of_ne {s : BitVec 1} (h : ¬ s = 1#1) : s = 0 := by
  revert s
  decide

/-- The second operand of a comparison, as a bit vector: an element, or a scalar cut to SEW (R173). -/
theorem QEntry.shapeOk.toNat_operand {e : QEntry} (h : e.shapeOk) (x : Arch) (s : BitVec 1) (b : Reg) (j : Nat) :
    e.src x (if s = 1#1 then .scal (x.rx b.toNat) else .vec b.toNat) j =
      (if s = 1 then (x.r b).setWidth e.sew else BitVec.ofNat e.sew (getElem x e.vb e.sew b.toNat j)).toNat := by
  by_cases hs : s = 1#1
  · subst hs
    exact (BitVec.toNat_setWidth ..).symm
  · have hs' : ¬ s = 1 := hs
    rw [if_neg hs, if_neg hs']
    exact (h.elem.toNat_getElem ..).symm

/-! Comparisons of integers are those of bit vectors -/

section Compared

variable (t : Fmt) (w : Nat) (u v : BitVec w)

theorem cmpElem_eq : cmpElem .eq t w u.toNat v.toNat = (u == v, 0) := by
  refine congrArg (·, 0) ?_
  rw [Bool.eq_iff_iff, decide_eq_true_eq, beq_iff_eq, BitVec.toNat_eq]

theorem cmpElem_ne : cmpElem .ne t w u.toNat v.toNat = (u != v, 0) := by
  refine congrArg (·, 0) ?_
  rw [Bool.eq_iff_iff, decide_eq_true_eq, bne_iff_ne, BitVec.toNat_ne]

theorem cmpElem_lt : cmpElem .lt t w u.toNat v.toNat = (u.slt v, 0) := by
  simp only [cmpElem, toSigned_toNat]
  rfl

theorem cmpElem_ltu : cmpElem .ltu t w u.toNat v.toNat = (u.ult v, 0) := rfl

theorem cmpElem_le : cmpElem .le t w u.toNat v.toNat = (u.sle v, 0) := by
  simp only [cmpElem, toSigned_toNat]
  rfl

theorem cmpElem_leu : cmpElem .leu t w u.toNat v.toNat = (u.ule v, 0) := rfl

theorem cmpElem_gt : cmpElem .gt t w u.toNat v.toNat = (v.slt u, 0) := by
  simp only [cmpElem, toSigned_toNat]
  rfl

end Compared

section Issued

variable {i : Instr} {k : Issue} {d : BitVec 3} {a b : Reg} {m : Nat} {s : BitVec 1}

/-- A comparison, placed and run. -/
theorem vecRuns_cmp {g : CmpFn} (f : Fmt → (w : Nat) → BitVec w → BitVec w → Bool × Nat)
    (hexec : ∀ t, exec i t = issueV t k noResv (fun x => .cmp g d.toNat a.toNat (if s = 1#1 then .scal (x.rx b.toNat) else .vec b.toNat) m))
    (hf : ∀ t w (u v : BitVec w), cmpElem g t w u.toNat v.toNat = f t w u v) (hbq : k.bq = none := by rfl) :
    VecRuns i k.regs none
      (fun e _ => (if g.isFloat then e.isFloat else e.isInt) ∧ e.groupHere a.toNat ∧ (s = 0 → e.groupHere b.toNat) ∧ d ≠ 0)
      (fun e x =>
        let y (j : Nat) : BitVec e.sew := if s = 1 then (x.r b).setWidth e.sew else BitVec.ofNat e.sew (getElem x e.vb e.sew b.toNat j)
        let o (j : Nat) : Bool × Nat := f e.fmt e.sew (BitVec.ofNat e.sew (getElem x e.vb e.sew a.toNat j)) (y j)
        { x.calm (SetsMask d.toNat (fun j => if e.isActive x m j then some (o j).1 else none) x) with
          fl := unionFlags ((e.active x m).map (fun j => (o j).2)) }) := by
  refine vecRuns_of_has_none hexec hbq fun e x pc hshape ⟨hcls, ha, hb, hd⟩ => ?_
  have hd' : d.toNat ≠ 0 := fun h => hd (BitVec.eq_of_toNat_eq h)
  have hsrc : e.srcOk (if s = 1#1 then .scal (x.rx b.toNat) else .vec b.toNat) = true := by
    by_cases hs : s = 1#1
    · rw [if_pos hs]
      rfl
    · rw [if_neg hs]
      exact hb (bit_eq_zero_of_ne hs)
  have hlegal : ((if g.isFloat then e.isFloat else e.isInt) && e.groupHere a.toNat &&
      e.srcOk (if s = 1#1 then .scal (x.rx b.toNat) else .vec b.toNat) && decide (d.toNat ≠ 0)) = true := by
    rw [ha, hsrc, Bool.and_true, Bool.and_true, Bool.and_eq_true, decide_eq_true_eq]
    refine ⟨?_, hd'⟩
    cases hg : g.isFloat
    all_goals simpa [hg] using hcls
  refine ⟨_, if_pos hlegal, hshape.has_compare { x with pc := pc } hd' fun v j => ?_⟩
  have hval := hf e.fmt e.sew (BitVec.ofNat e.sew (getElem x e.vb e.sew a.toNat j))
      (if s = 1 then (x.r b).setWidth e.sew else BitVec.ofNat e.sew (getElem x e.vb e.sew b.toNat j))
  rw [← hshape.toNat_operand, hshape.elem.toNat_getElem] at hval
  rw [← hval]
  rfl

theorem vecRuns_mlogic (g : MaskFn) {p q : Nat} (hexec : ∀ t, exec i t = issueV t k noResv (fun _ => .mlogic g d.toNat p q))
    (hbq : k.bq = none := by rfl) :
    VecRuns i k.regs none (fun _ _ => d ≠ 0) (fun e x =>
      x.calm (SetsMask d.toNat (fun j => if j < e.vl then some (g.bits (getMask x p j) (getMask x q j)) else none) x)) :=
  vecRuns_of_has_none hexec hbq fun _ x pc hshape hd => runMlogic_has hshape { x with pc := pc } (fun h => hd (BitVec.eq_of_toNat_eq h)) g

/-- A run that changes no register and delivers `u`. -/
theorem VAcc.has_out (x : Arch) (u : W64) :
    ({ VAcc.start x with bq := some u } : VAcc).Has x { x.calm (fun z => x.Only z []) with out := some u } :=
  ⟨rfl, rfl, rfl, rfl, rfl, fun _ _ => Arch.only_nil rfl⟩

theorem vmaskPopc_runs (r : Reg) (p m : BitVec 3) : VecRuns (.vmaskPopc r p m) [r.toNat] (some r.toNat) (fun _ _ => True)
    (fun e x => { x.calm (fun z => x.Only z []) with out := some (BitVec.ofNat 64 ((e.active x m.toNat).countP (getMask x p.toNat))) }) := by
  refine vecRuns_of_has (exec_vmaskPopc r p m) rfl (by simp) fun e x pc _ _ => ⟨_, rfl, ?_⟩
  rw [List.countP_eq_length_filter]
  exact VAcc.has_out ..

theorem vmaskFirst_runs (r : Reg) (p m : BitVec 3) : VecRuns (.vmaskFirst r p m) [r.toNat] (some r.toNat) (fun _ _ => True)
    (fun e x => { x.calm (fun z => x.Only z []) with
      out := some (match (e.active x m.toNat).find? (getMask x p.toNat) with
        | some i => BitVec.ofNat 64 i
        | none => 0xFFFF_FFFF_FFFF_FFFF#64) }) :=
  vecRuns_of_has (exec_vmaskFirst r p m) rfl (by simp) fun _ _ _ _ _ => ⟨_, rfl, VAcc.has_out ..⟩

theorem vmaskConfl_runs (d : BitVec 3) (a : Reg) (m : BitVec 3) : VecRuns (.vmaskConfl d a m) [] none (fun e _ => d ≠ 0 ∧ e.groupHere a.toNat)
    (fun e x => x.calm (SetsMask d.toNat (fun j => if e.isActive x m.toNat j then some (decide (∃ i < j, e.isActive x m.toNat i ∧
      getElem x e.vb e.sew a.toNat i = getElem x e.vb e.sew a.toNat j)) else none) x)) :=
  vecRuns_of_has_none (exec_vmaskConfl d a m) rfl fun _ x pc hshape ⟨hd, ha⟩ =>
    runConfl_has hshape { x with pc := pc } (fun h => hd (BitVec.eq_of_toNat_eq h)) ha

end Issued

/-- Settles O30: comparisons of bit vectors and of codes, functions of bits, the two deliveries, and CONFL. -/
theorem vectorMasks : Obligations.VectorMasks := fun d a b r m p q x =>
  ⟨vecRuns_cmp (fun _ _ u v => (u == v, 0)) (exec_vmaskEq d a b m x) cmpElem_eq,
    vecRuns_cmp (fun _ _ u v => (u != v, 0)) (exec_vmaskNe d a b m x) cmpElem_ne,
    vecRuns_cmp (fun _ _ u v => (u.slt v, 0)) (exec_vmaskLt d a b m x) cmpElem_lt,
    vecRuns_cmp (fun _ _ u v => (u.ult v, 0)) (exec_vmaskLtu d a b m x) cmpElem_ltu,
    vecRuns_cmp (fun _ _ u v => (u.sle v, 0)) (exec_vmaskLe d a b m x) cmpElem_le,
    vecRuns_cmp (fun _ _ u v => (u.ule v, 0)) (exec_vmaskLeu d a b m x) cmpElem_leu,
    vecRuns_cmp (fun _ _ u v => (v.slt u, 0)) (exec_vmaskGt d a b m x) cmpElem_gt,
    vecRuns_cmp (fun t _ u v => relate t 0 u.toNat v.toNat) (exec_vmaskFeq d a b m x) fun _ _ _ _ => rfl,
    vecRuns_cmp (fun t _ u v => relate t 1 u.toNat v.toNat) (exec_vmaskFlt d a b m x) fun _ _ _ _ => rfl,
    vecRuns_cmp (fun t _ u v => relate t 2 u.toNat v.toNat) (exec_vmaskFle d a b m x) fun _ _ _ _ => rfl,
    vecRuns_mlogic .and (exec_vmaskAnd d p q), vecRuns_mlogic .or (exec_vmaskOr d p q), vecRuns_mlogic .xor (exec_vmaskXor d p q),
    vecRuns_mlogic .andn (exec_vmaskAndn d p q), vmaskPopc_runs r p m, vmaskFirst_runs r p m, vmaskConfl_runs d a m⟩

end Sys2Proof.Machine

/-! ### VPERM (R191 to R195) -/

namespace Sys2Proof.Machine

/-! Domains -/

theorem QEntry.rank_le (e : QEntry) (i : Nat) : e.rank i ≤ i := by
  unfold QEntry.rank
  split
  · exact le_rfl
  · exact (Nat.mod_le ..).trans (Nat.mod_le ..)

theorem QEntry.domBase_add_rank (e : QEntry) (i : Nat) : e.domBase i + e.rank i = i := Nat.sub_add_cancel (e.rank_le i)

theorem div_eq_div_of_floor_le {z i j : Nat} (hij : i ≤ j) (h : z * (j / z) ≤ i) : i / z = j / z := by
  refine Nat.le_antisymm (Nat.div_le_div_right hij) ?_
  rcases Nat.eq_zero_or_pos z with rfl | hz
  · simp
  · exact (Nat.le_div_iff_mul_le hz).2 (Nat.mul_comm z _ ▸ h)

/-- A domain holds the elements from its base on, up to the base of the next. -/
theorem QEntry.domBase_eq_of_le {e : QEntry} {i j : Nat} (hij : i ≤ j) (h : e.domBase j ≤ i) : e.domBase i = e.domBase j := by
  unfold QEntry.domBase QEntry.rank at *
  by_cases hone : e.dieCount = 1
  · simp [hone]
  · simp only [hone, if_false] at h ⊢
    generalize e.perReg / e.dieCount = z at h ⊢
    have hi := Nat.div_add_mod i e.perReg
    have hj := Nat.div_add_mod j e.perReg
    have hi' := Nat.div_add_mod (i % e.perReg) z
    have hj' := Nat.div_add_mod (j % e.perReg) z
    have hreg : i / e.perReg = j / e.perReg := div_eq_div_of_floor_le hij (by omega)
    rw [hreg] at hi
    have hseg : i % e.perReg / z = j % e.perReg / z := div_eq_div_of_floor_le (by omega) (by omega)
    rw [hseg] at hi'
    omega

/-- The place in its domain to which COMPRESS moves an element (R193). -/
def QEntry.placeOf (e : QEntry) (x : Arch) (m i : Nat) : Nat := e.domBase i + selBelow e x m i

theorem QEntry.placeOf_le (e : QEntry) (x : Arch) (m i : Nat) : e.placeOf x m i ≤ i := by
  have hsel : selBelow e x m i ≤ i - e.domBase i := (List.length_filter_le ..).trans_eq List.length_range
  have := e.domBase_add_rank i
  unfold QEntry.placeOf
  omega

/-- Selected elements keep their order. -/
theorem QEntry.placeOf_lt {e : QEntry} {x : Arch} {m i j : Nat} (hi : e.isActive x m i = true) (hij : i < j) : e.placeOf x m i < e.placeOf x m j := by
  by_cases hbase : e.domBase j ≤ i
  · have hsame := QEntry.domBase_eq_of_le hij.le hbase
    have hsub : ((List.range (i - e.domBase j)) ++ [i - e.domBase j]).Sublist (List.range (j - e.domBase j)) := by
      rw [← List.range_succ]
      exact List.range_sublist.2 (by omega)
    have hlen := (hsub.filter fun k => getMask x m (e.domBase j + k) && decide (e.domBase j + k < e.vl)).length_le
    have hself : e.domBase j + (i - e.domBase j) = i := Nat.add_sub_cancel' hbase
    simp only [QEntry.isActive, Bool.and_eq_true, decide_eq_true_eq] at hi
    obtain ⟨hvl, hmask⟩ := hi
    simp only [List.filter_append, List.length_append, List.filter_cons, hself, hmask, hvl, decide_true, Bool.and_self, if_true, List.filter_nil,
      List.length_singleton] at hlen
    simp only [QEntry.placeOf, selBelow, hsame]
    omega
  · exact (e.placeOf_le x m i).trans_lt ((Nat.lt_of_not_le hbase).trans_le (Nat.le_add_right ..))

theorem QEntry.placeOf_inj {e : QEntry} {x : Arch} {m i j : Nat} (hi : e.isActive x m i = true) (hj : e.isActive x m j = true)
    (h : e.placeOf x m i = e.placeOf x m j) : i = j := by
  rcases Nat.lt_trichotomy i j with hlt | heq | hlt
  · exact absurd h (QEntry.placeOf_lt hi hlt).ne
  · exact heq
  · exact absurd h (QEntry.placeOf_lt hj hlt).ne'

/-! Runs -/

/-- The step of an element, which keeps its contents where no value is given. -/
def permStep (e : QEntry) (x : Arch) (f : PermFn) (d a b : Nat) (u : W64) (v : VAcc) (i : Nat) : VAcc :=
  match permElem e x f a b u i with
  | some y => v.set e.vb e.sew d i y
  | none => v

/-- Elements of a list that are written where `g` gives a value. -/
theorem foldl_elim {α β : Type} (g : Nat → Option α) (put : β → Nat → α → β) (l : List Nat) (b : β) :
    l.foldl (fun b i => (g i).elim b (put b i)) b = (l.filterMap fun i => (g i).map (i, ·)).foldl (fun b q => put b q.1 q.2) b := by
  induction l generalizing b with
  | nil => rfl
  | cons i l ih =>
    cases hg : g i with
    | none => simp [hg, ih]
    | some y => simp [hg, ih]

section VectorPerm

variable {e : QEntry} (hshape : e.shapeOk) (x : Arch) {d a b' m : Nat}
include hshape

theorem permStep_has (f : PermFn) (u : W64) : (eachElem (e.active x m) (VAcc.start x) (permStep e x f d a b' u)).Has x
    (x.calm (SetsElems e.vb e.sew d e.lmul (fun j => if e.isActive x m j then permElem e x f a b' u j else none) x)) := by
  have hstep (v : VAcc) (i : Nat) : permStep e x f d a b' u v i =
      { v with arch := (permElem e x f a b' u i).elim v.arch (setElem v.arch e.vb e.sew d i) } := by
    unfold permStep
    cases permElem e x f a b' u i <;> rfl
  rw [eachElem_writes (put := fun b i => (permElem e x f a b' u i).elim b (setElem b e.vb e.sew d i)) hstep,
    foldl_elim _ fun b i y => setElem b e.vb e.sew d i y]
  refine VAcc.has_calm (foldl_setElem_vectorOnly _ _ _ Prod.fst Prod.snd ..) (hshape.elem.setsElems x (fun q hq => ?_) fun i hi => ?_)
  · obtain ⟨i, hi, hq⟩ := List.mem_filterMap.1 hq
    obtain ⟨y, hy, rfl⟩ := Option.map_eq_some_iff.1 hq
    have hact := QEntry.mem_active.1 hi
    exact ⟨hshape.active_lt hact, by rw [if_pos hact, hy]⟩
  · obtain ⟨y, hy⟩ := Option.isSome_iff_exists.1 hi
    rw [Option.ite_none_right_eq_some] at hy
    obtain ⟨hact, hy⟩ := hy
    exact ⟨(i, y), List.mem_filterMap.2 ⟨i, QEntry.mem_active.2 hact, by rw [hy]; rfl⟩, rfl⟩

theorem runPerm_compress_has (hd : e.groupHere d = true) (ha : e.groupHere a = true) :
    ∃ v, runPerm e x .compress d a 0 0 m = some v ∧ v.Has x (x.calm (SetsElems e.vb e.sew d e.lmul (fun j =>
      ((e.active x m).find? (fun i => e.domBase i + selBelow e x m i = j)).map (getElem x e.vb e.sew a)) x)) := by
  have hok : ¬ (!(e.groupHere d && e.groupHere a)) = true := by simp [hd, ha]
  refine ⟨_, if_neg hok, ?_⟩
  refine hshape.has_writes x (key := e.placeOf x m) (val := getElem x e.vb e.sew a) (fun _ _ => rfl) (fun i hi => ?_) fun j hj => ?_
  · have hact := QEntry.mem_active.1 hi
    refine ⟨(e.placeOf_le x m i).trans_lt (hshape.active_lt hact), ?_⟩
    obtain ⟨k, hk⟩ : ∃ k, (e.active x m).find? (fun k => e.domBase k + selBelow e x m k = e.placeOf x m i) = some k :=
      Option.isSome_iff_exists.1 (List.find?_isSome.2 ⟨i, hi, decide_eq_true rfl⟩)
    have hfound := List.find?_some hk
    have hplace : e.placeOf x m k = e.placeOf x m i := of_decide_eq_true hfound
    have hki := QEntry.placeOf_inj (QEntry.mem_active.1 (List.mem_of_find?_eq_some hk)) hact hplace
    rw [hk, hki]
    rfl
  · obtain ⟨i, hi⟩ := Option.isSome_iff_exists.1 (Option.isSome_map.symm.trans hj)
    have hfound := List.find?_some hi
    have hplace : e.placeOf x m i = j := of_decide_eq_true hfound
    exact ⟨i, List.mem_of_find?_eq_some hi, hplace⟩

theorem runPerm_expand_has (hd : e.groupHere d = true) (ha : e.groupHere a = true) :
    ∃ v, runPerm e x .expand d a 0 0 m = some v ∧ v.Has x (x.calm (SetsElems e.vb e.sew d e.lmul (fun j => if e.isActive x m j then
      some (getElem x e.vb e.sew a (e.domBase j + selBelow e x m j)) else none) x)) := by
  have hok : ¬ (!(e.groupHere d && e.groupHere a)) = true := by simp [hd, ha]
  refine ⟨_, if_neg hok, hshape.has_elems x (fun _ _ => rfl) (fun i hi => QEntry.active_lt_vl hi) fun j => ?_⟩
  simp only [QEntry.mem_active]

end VectorPerm

section Issued

variable {i : Instr} {k : Issue} {d a b m : Nat} {u : Arch → W64}

/-- A permutation whose elements each take a value or keep their contents, placed and run. -/
theorem vecRuns_perm {f : PermFn} {ok : QEntry → Prop} (F : QEntry → Arch → (Nat → Nat) → Nat → Option Nat)
    (hexec : ∀ s, exec i s = issueV s k noResv (fun x => .perm f d a b (u x) m))
    (hrun : ∀ e x w, ok e → runPerm e x f d a b w m = some (eachElem (e.active x m) (VAcc.start x) (permStep e x f d a b w)))
    (hF : ∀ e x pc j, permElem e { x with pc := pc } f a b (u x) j = F e x (getElem x e.vb e.sew a) j) (hbq : k.bq = none := by rfl) :
    VecRuns i k.regs none (fun e _ => ok e) (fun e x => x.calm (SetsElems e.vb e.sew d e.lmul
      (fun j => if e.isActive x m j then F e x (getElem x e.vb e.sew a) j else none) x)) := by
  refine vecRuns_of_has_none hexec hbq fun e x pc hshape hok => ⟨_, hrun e _ (u x) hok, ?_⟩
  have hhas := permStep_has hshape { x with pc := pc } (d := d) (a := a) (b' := b) (m := m) f (u x)
  simp only [hF] at hhas
  exact hhas

end Issued

/-- Both groups are legal, which is what most permutations check (R191). -/
def QEntry.bothHere (e : QEntry) (d a : Nat) : Prop := e.groupHere d = true ∧ e.groupHere a = true

theorem QEntry.bothHere.checked {e : QEntry} {d a : Nat} (h : e.bothHere d a) : ¬ (!(e.groupHere d && e.groupHere a)) = true := by
  obtain ⟨hd, ha⟩ := h
  simp [hd, ha]

theorem vpermSlup_runs (d a b : Reg) (m : BitVec 3) : VecRuns (.vpermSlup d a b m) [b.toNat] none (fun e _ => e.bothHere d.toNat a.toNat)
    (fun e x => x.calm (SetsElems e.vb e.sew d.toNat e.lmul (fun j => if e.isActive x m.toNat j then
      given ((x.r b).toNat ≤ e.rank j) (getElem x e.vb e.sew a.toNat (j - (x.r b).toNat)) else none) x)) := by
  refine vecRuns_perm (fun e x v j => given ((x.r b).toNat ≤ e.rank j) (v (j - (x.r b).toNat))) (exec_vpermSlup d a b m)
    (fun _ _ _ h => if_neg h.checked) fun e x pc j => ?_
  have hj := e.domBase_add_rank j
  show (if (x.r b).toNat ≤ e.rank j then some (getElem x e.vb e.sew a.toNat (e.domBase j + (e.rank j - (x.r b).toNat))) else none) = _
  unfold given
  split
  · next hle => rw [show e.domBase j + (e.rank j - (x.r b).toNat) = j - (x.r b).toNat by omega]
  · rfl

theorem vpermSldn_runs (d a b : Reg) (m : BitVec 3) : VecRuns (.vpermSldn d a b m) [b.toNat] none (fun e _ => e.bothHere d.toNat a.toNat)
    (fun e x => x.calm (SetsElems e.vb e.sew d.toNat e.lmul (fun j => if e.isActive x m.toNat j then
      some (if e.rank j + (x.r b).toNat < e.domSize then getElem x e.vb e.sew a.toNat (j + (x.r b).toNat) else 0) else none) x)) := by
  refine vecRuns_perm (fun e x v j => some (if e.rank j + (x.r b).toNat < e.domSize then v (j + (x.r b).toNat) else 0)) (exec_vpermSldn d a b m)
    (fun _ _ _ h => if_neg h.checked) fun e x pc j => ?_
  show some (if e.rank j + (x.r b).toNat < e.domSize then getElem x e.vb e.sew a.toNat (e.domBase j + (e.rank j + (x.r b).toNat)) else 0) = _
  rw [← Nat.add_assoc, e.domBase_add_rank]

theorem vpermMvxs_runs (d a b : Reg) : VecRuns (.vpermMvxs d a b) [d.toNat, b.toNat] (some d.toNat) (fun e _ => e.groupHere a.toNat)
    (fun e x => { x.calm (fun z => x.Only z []) with
      out := some (e.extend (if (x.r b).toNat < e.vlmax then getElem x e.vb e.sew a.toNat (x.r b).toNat else 0)) }) := by
  refine vecRuns_of_has (exec_vpermMvxs d a b) rfl (by simp) fun e x pc _ ha => ⟨_, if_neg ?_, VAcc.has_out ..⟩
  simpa using ha

/-- Settles O29: the elements that each take a value, and COMPRESS, EXPAND and MVXS. -/
theorem vectorPermutations : Obligations.VectorPermutations := by
  intro d a b m
  refine ⟨vpermSlup_runs d a b m, vpermSldn_runs d a b m, ?_, ?_, ?_, ?_, ?_, ?_, vpermMvxs_runs d a b⟩
  · refine vecRuns_perm (fun e x v j => some (if getElem x e.vb e.sew b.toNat j < e.domSize then v (e.domBase j + getElem x e.vb e.sew b.toNat j) else 0))
      (exec_vpermGather d a b m) (fun e _ _ ⟨⟨hd, ha⟩, hb⟩ => if_neg ?_) fun _ _ _ _ => rfl
    simp [hd, ha, hb]
  · exact vecRuns_perm (fun e x v j => some (if (x.r b).toNat < e.domSize then v (e.domBase j + (x.r b).toNat) else 0)) (exec_vpermBcast d a b m)
      (fun _ _ _ h => if_neg (QEntry.bothHere.checked h)) fun _ _ _ _ => rfl
  · refine vecRuns_perm (fun e x _ _ => some ((x.r b).toNat % 2 ^ e.sew)) (exec_vpermMvsx d b m) (fun e _ _ hd => if_neg ?_) fun _ _ _ _ => rfl
    simpa using hd
  · exact vecRuns_perm (fun e x v j => some (v (j / e.perReg * e.perReg + (j % e.perReg / (e.perReg / e.dieCount) ^^^ (x.r b).toNat % e.dieCount) *
        (e.perReg / e.dieCount) + j % (e.perReg / e.dieCount)))) (exec_vpermXchg d a b m)
      (fun _ _ _ h => if_neg (QEntry.bothHere.checked h)) fun _ _ _ _ => rfl
  · exact vecRuns_of_has_none (exec_vpermCompress d a m) rfl fun _ x pc hshape ⟨hd, ha⟩ => runPerm_compress_has hshape { x with pc := pc } hd ha
  · exact vecRuns_of_has_none (exec_vpermExpand d a m) rfl fun _ x pc hshape ⟨hd, ha⟩ => runPerm_expand_has hshape { x with pc := pc } hd ha

end Sys2Proof.Machine

/-! ### VRED (R66 to R68, R188 to R190) -/

namespace Sys2Proof.Machine

/-! Codes that a reduction gives fit their format (R47 to R49) -/

theorem Fmt.infCode_lt (f : Fmt) : f.infCode < 2 ^ (f.w - 1) :=
  Nat.sub_lt (Nat.two_pow_pos _) (Nat.two_pow_pos _)

section Codes

variable {f : Fmt} (hf : f.Regular)
include hf

theorem Fmt.Regular.nanCode_lt : f.nanCode < 2 ^ f.w := by
  have hquiet : 2 ^ (f.fb - 1) < 2 ^ f.fb := Nat.pow_lt_pow_right (by decide) (Nat.sub_lt hf.fb_pos one_pos)
  have hroom := hf.two_pow_fb_lt
  have hsign : 2 ^ (f.w - 1) ≤ 2 ^ f.w := Nat.pow_le_pow_right (by decide) (Nat.sub_le ..)
  rcases hf.kinds with hk | ⟨hk, hw⟩ | ⟨hk, hw⟩
  · simp only [Fmt.nanCode, Fmt.infCode, hk]
    norm_num
    omega
  all_goals simp [Fmt.nanCode, hk, hw]

theorem Fmt.Regular.roundTo_inf_lt (mode : Nat) (sat : Bool) (u : Nat) (neg : Bool) : (roundTo f mode sat u (.inf neg)).1 < 2 ^ f.w := by
  simp only [roundTo]
  split_ifs with hmax h1
  · exact hf.withSign_lt hf.maxCode_lt
  · have hw : f.w = 8 := by
      rcases hf.kinds with hk | ⟨-, hw⟩ | ⟨hk, -⟩
      · omega
      · exact hw
      · omega
    simp [hw]
  · exact hf.withSign_lt f.infCode_lt

theorem Fmt.Regular.roundTo_fin_lt (mode : Nat) (sat : Bool) (u : Nat) (neg : Bool) (m : Nat) (x : Int) :
    (roundTo f mode sat u (.fin neg m x false)).1 < 2 ^ f.w := by
  obtain ⟨-, g, _, _, -, -, hround⟩ := hf.roundTo_chosen mode sat u neg m x
  rw [hround]
  by_cases hbig : f.maxCode < g
  · obtain ⟨c, -, hlt, hover⟩ := hf.overflowCode_eq mode sat neg
    rw [if_pos hbig, hover]
    exact hf.withSign_lt hlt
  · rw [if_neg hbig]
    exact hf.withSign_lt ((Nat.le_of_not_lt hbig).trans_lt hf.maxCode_lt)

end Codes

/-- A sum is a NaN, an infinity, or a multiple of a power of two. -/
theorem sumFV_cases (mode : Nat) (xs : List FV) :
    (∃ sig, (sumFV mode xs).1 = .nan sig) ∨ (∃ neg, (sumFV mode xs).1 = .inf neg) ∨ ∃ neg m x, (sumFV mode xs).1 = .fin neg m x false := by
  simp only [sumFV]
  split_ifs
  · exact .inl ⟨_, rfl⟩
  · exact .inl ⟨_, rfl⟩
  · exact .inl ⟨_, rfl⟩
  · exact .inr (.inl ⟨_, rfl⟩)
  · exact .inr (.inl ⟨_, rfl⟩)
  all_goals exact .inr (.inr ⟨_, _, _, rfl⟩)

theorem Fmt.Regular.roundsTo_sum_lt {f : Fmt} (hf : f.Regular) (mode : Nat) (sat : Bool) (g : W64) (xs : List FV) :
    (roundsTo f mode sat g (sumFV mode xs)).1 < 2 ^ f.w := by
  show (roundTo f mode sat (draw mode g).1 (sumFV mode xs).1).1 < 2 ^ f.w
  rcases sumFV_cases mode xs with ⟨_, hsum⟩ | ⟨_, hsum⟩ | ⟨_, _, _, hsum⟩
  · rw [hsum]
    exact hf.nanCode_lt
  · rw [hsum]
    exact hf.roundTo_inf_lt ..
  · rw [hsum]
    exact hf.roundTo_fin_lt ..

theorem Fmt.Regular.minmax_lt {f : Fmt} (hf : f.Regular) (big : Bool) {x y : Nat} (hx : x < 2 ^ f.w) (hy : y < 2 ^ f.w) :
    (minmax f big x y).1 < 2 ^ f.w := by
  simp only [minmax, apply_ite Prod.fst]
  split_ifs
  · exact hf.nanCode_lt
  all_goals assumption

theorem QEntry.shapeOk.sew_le {e : QEntry} (h : e.shapeOk) : vtSew e.vt ≤ 4 := by
  obtain ⟨-, hlegal, -⟩ := h
  simp only [vtLegal, Bool.and_eq_true, decide_eq_true_eq] at hlegal
  obtain ⟨⟨⟨⟨⟨hsew, -⟩, -⟩, -⟩, -⟩, -⟩ := hlegal
  exact hsew

/-- The float format of VTYPE is one of R48, of the width of the elements. -/
theorem QEntry.shapeOk.fmt_spec {e : QEntry} (h : e.shapeOk) : e.fmt.Regular ∧ e.fmt.w = e.sew := by
  have hle := h.sew_le
  simp only [QEntry.fmt, fmtOf, QEntry.sew, vtBits]
  generalize vtSew e.vt = n at hle
  suffices hn : _ ∈ [fp64, fp32, fp16, bf16, e5m2, e4m3, fp4] ∧ _ from ⟨Fmt.regular_of_mem hn.1, hn.2⟩
  interval_cases n
  all_goals cases vtAlt e.vt
  all_goals decide

/-- An integer function that reductions combine with gives a number of the width. -/
theorem intElem_lt_of_int {f : RedFn} {k : IntFn} (hk : f.int = some k) {w x y : Nat} (hx : x < 2 ^ w) (hy : y < 2 ^ w) :
    intElem k w x y 0 < 2 ^ w := by
  let u := BitVec.ofNatLT x hx
  let v := BitVec.ofNatLT y hy
  obtain ⟨hand, hor, hxor⟩ := intElem_bitwise u v 0
  obtain ⟨hmin, hminu, hmax, hmaxu⟩ := intElem_extremum u v 0
  suffices h : ∃ r : BitVec w, intElem k w x y 0 = r.toNat by
    obtain ⟨r, hr⟩ := h
    exact hr ▸ r.isLt
  cases f with
  | sum => exact Option.some.inj hk ▸ ⟨_, (intElem_ring u v 0).1⟩
  | min => exact Option.some.inj hk ▸ ⟨_, hmin⟩
  | minu => exact Option.some.inj hk ▸ ⟨_, hminu⟩
  | max => exact Option.some.inj hk ▸ ⟨_, hmax⟩
  | maxu => exact Option.some.inj hk ▸ ⟨_, hmaxu⟩
  | and => exact Option.some.inj hk ▸ ⟨_, hand⟩
  | or => exact Option.some.inj hk ▸ ⟨_, hor⟩
  | xor => exact Option.some.inj hk ▸ ⟨_, hxor⟩
  | fsumo | fsumt | fmin | fmax => exact nomatch hk

/-! What a reduction leaves -/

/-- The effect of a reduction to `o`, a value with its flags and the generator after it, where `start` is what it starts from. -/
def QEntry.reduced (e : QEntry) (x : Arch) (d : Nat) (q : BitVec 1) (start : Nat) (o : Nat × Nat × W64) : VEffect :=
  let some? := decide (1 ≤ e.vl)
  { fl := if some? then o.2.1 else 0
    seed := if some? then o.2.2 else x.rcsr cSRSEED
    zst := x.rcsr cZSTATE
    out := if q = 1 then some (if e.isSigned then BitVec.ofInt 64 (BitVec.ofNat e.sew (if some? then o.1 else start)).toInt
        else BitVec.ofNat 64 (if some? then o.1 else start)) else none
    regs := SetsElems e.vb e.sew d 1 (fun j => given (some? ∧ j = 0) o.1) x }

/-- A run over the elements has come to the value, the flags and the generator of `o`, and has changed no register. -/
structure QEntry.Reduced (e : QEntry) (x : Arch) (r : Nat × VAcc) (o : Nat × Nat × W64) : Prop where
  value : r.1 = o.1
  fl : r.2.fl = o.2.1
  seed : r.2.seed = o.2.2
  arch : r.2.arch = x
  lt : r.1 < 2 ^ e.sew

/-- What a reduction is after its run over the elements. -/
def QEntry.deliver (e : QEntry) (x : Arch) (d q start : Nat) (r : Nat × VAcc) : VAcc :=
  { (if 1 ≤ e.vl then r.2.set e.vb e.sew d 0 r.1 else VAcc.start x) with
    bq := if q = 1 then some (e.extend (if 1 ≤ e.vl then r.1 else start)) else none }

/-- The element extended to 64 bits (R190). -/
theorem QEntry.extend_eq {e : QEntry} {y : Nat} (hy : y < 2 ^ e.sew) :
    e.extend y = if e.isSigned then BitVec.ofInt 64 (BitVec.ofNat e.sew y).toInt else BitVec.ofNat 64 y := by
  rw [QEntry.extend, toSigned_eq, Nat.mod_eq_of_lt hy]

theorem ElemShape.regElems_pos {vb w : Nat} (h : ElemShape vb w) : 0 < regElems vb w := by
  obtain ⟨c, hc⟩ := h.exists_two_pow
  exact Nat.div_pos (Nat.le_of_dvd (Nat.mul_pos h.pos (by decide)) h.dvd_register) (hc ▸ Nat.two_pow_pos c)

theorem bit_toNat_eq_one_iff (q : BitVec 1) : q.toNat = 1 ↔ q = 1 := by
  revert q
  decide

/-- What it writes of the registers: element 0, where there are elements. -/
def QEntry.resultAt (e : QEntry) (y : Nat) : List (Nat × Nat) := if 1 ≤ e.vl then [(0, y)] else []

section Shape

variable {e : QEntry} (hshape : e.shapeOk) (x : Arch) {d : Nat}
include hshape

theorem QEntry.shapeOk.setsElems_resultAt (y : Nat) (u csr : FMap W64) :
    SetsElems e.vb e.sew d 1 (fun j => given (decide (1 ≤ e.vl) ∧ j = 0) y) x
      { (e.resultAt y).foldl (fun b p => setElem b e.vb e.sew d p.1 p.2) x with x := u, csr := csr } := by
  unfold QEntry.resultAt
  by_cases hvl : 1 ≤ e.vl
  · exact hshape.elem.setsElems x (by simp [given, hvl, hshape.elem.regElems_pos]) (by simp [given, hvl]) u csr
  · exact hshape.elem.setsElems x (by simp [hvl]) (by simp [given, hvl]) u csr

theorem QEntry.shapeOk.deliver_has {q : BitVec 1} {start : Nat} (hstart : start < 2 ^ e.sew) {r : Nat × VAcc} {o : Nat × Nat × W64}
    (h : e.Reduced x r o) : (e.deliver x d q.toNat start r).Has x (e.reduced x d q start o) := by
  obtain ⟨hval, hfl, hseed, harch, hlt⟩ := h
  have hregs : (e.deliver x d q.toNat start r).arch = (e.resultAt r.1).foldl (fun b p => setElem b e.vb e.sew d p.1 p.2) x := by
    by_cases hvl : 1 ≤ e.vl
    · simp only [QEntry.deliver, QEntry.resultAt, if_pos hvl, VAcc.set, harch, List.foldl_cons, List.foldl_nil]
    · simp only [QEntry.deliver, QEntry.resultAt, if_neg hvl, VAcc.start, List.foldl_nil]
  refine ⟨?_, ?_, rfl, ?_, ?_, fun u csr => ?_⟩
  · simp only [QEntry.deliver, QEntry.reduced, VAcc.set, VAcc.start, apply_ite VAcc.fl, hfl, decide_eq_true_eq]
  · simp only [QEntry.deliver, QEntry.reduced, VAcc.set, VAcc.start, apply_ite VAcc.seed, hseed, decide_eq_true_eq]
  · have hle : (if 1 ≤ e.vl then o.1 else start) < 2 ^ e.sew := by
      rw [hval] at hlt
      split_ifs <;> assumption
    simp only [QEntry.deliver, QEntry.reduced, bit_toNat_eq_one_iff, hval, QEntry.extend_eq hle, decide_eq_true_eq]
  · rw [hregs]
    exact foldl_setElem_vectorOnly e.vb e.sew d Prod.fst Prod.snd (e.resultAt r.1) x
  · rw [hregs, hval]
    exact hshape.setsElems_resultAt x o.1 u csr

end Shape

/-! The runs over the elements -/

/-- The reduction to the least or to the greatest code. -/
def RedFn.extremum (big : Bool) : RedFn := if big then .fmax else .fmin

/-- The lesser or the greater of two codes, with the flags that this adds to a run. -/
def VAcc.minmax (v : VAcc) (t : Fmt) (big : Bool) (n y z : Nat) : Nat × VAcc :=
  let o := Machine.minmax t big y z
  (o.1, v.flag n 0 o.2)

/-- The rounded sum of two codes, in a run. -/
def VAcc.addCodes (v : VAcc) (t : Fmt) (mode n y z : Nat) : Nat × VAcc :=
  v.round t mode false n 0 (sumFV mode [t.decode y, t.decode z])

/-- The start value, with what the tree has come to. -/
def treeResult (t : Fmt) (mode n start : Nat) (s : Option Nat × VAcc) : Nat × VAcc :=
  match s.1 with
  | some y => s.2.addCodes t mode n start y
  | none => (start, s.2)

/-- The first `n` leaves of the tree; those of inactive elements are absent (R68). -/
def QEntry.leaves (e : QEntry) (x : Arch) (a m n : Nat) : List (Option Nat) :=
  (List.range n).map fun j => given (e.isActive x m j) (getElem x e.vb e.sew a j)

section Runs

variable {e : QEntry} {x : Arch} {d a b m q : Nat} (ha : e.groupHere a = true)
include ha

theorem runRed_int {f : RedFn} {k : IntFn} (hk : f.int = some k) (hint : e.isInt = true) :
    runRed e x f d a b m q = some (e.deliver x d q (getElem x e.vb e.sew b 0)
      ((e.active x m).foldl (fun r i => intElem k e.sew r (getElem x e.vb e.sew a i) 0) (getElem x e.vb e.sew b 0), VAcc.start x)) := by
  cases f with
  | fsumo | fsumt | fmin | fmax => exact nomatch hk
  | _ =>
    obtain rfl := Option.some.inj hk
    exact if_pos (by simp [redOk, hint, ha])

theorem runRed_extremum (big : Bool) (hfloat : e.isFloat = true) :
    runRed e x (.extremum big) d a b m q = some (e.deliver x d q (getElem x e.vb e.sew b 0)
      ((e.active x m).foldl (fun r i => r.2.minmax e.fmt big e.fen r.1 (getElem x e.vb e.sew a i)) (getElem x e.vb e.sew b 0, VAcc.start x))) := by
  cases big with
  | false => exact if_pos (by simp [redOk, RedFn.extremum, hfloat, ha])
  | true => exact if_pos (by simp [redOk, RedFn.extremum, hfloat, ha])

theorem runRed_fsumo (hfloat : e.isFloat = true) (hsew : 16 ≤ e.sew) :
    runRed e x .fsumo d a b m q = some (e.deliver x d q (getElem x e.vb e.sew b 0)
      ((e.active x m).foldl (fun r i => r.2.addCodes e.fmt e.frm e.fen r.1 (getElem x e.vb e.sew a i)) (getElem x e.vb e.sew b 0, VAcc.start x))) :=
  if_pos (by simp [redOk, hfloat, hsew, ha])

theorem runRed_fsumt (hfloat : e.isFloat = true) (hsew : 16 ≤ e.sew) :
    runRed e x .fsumt d a b m q = some (e.deliver x d q (getElem x e.vb e.sew b 0) (treeResult e.fmt e.frm e.fen (getElem x e.vb e.sew b 0)
      (treeSum e.fmt e.frm e.fen 32 (e.leaves x a m (pow2At e.vl 32 1)) (VAcc.start x)))) :=
  if_pos (by simp [redOk, hfloat, hsew, ha])

end Runs

/-- A number doubled until it is no less than `n` (R68). -/
theorem pow2At_eq {n k : Nat} : ∀ {j : Nat}, j ≤ Nat.clog 2 n → Nat.clog 2 n ≤ j + k → pow2At n k (2 ^ j) = 2 ^ Nat.clog 2 n := by
  induction k with
  | zero =>
    intro j hlow hhigh
    rw [pow2At, Nat.le_antisymm hlow hhigh]
  | succ k ih =>
    intro j hlow hhigh
    rw [pow2At]
    by_cases hlt : 2 ^ j < n
    · have hlog : j < Nat.clog 2 n := (Nat.lt_clog_iff_pow_lt one_lt_two).2 hlt
      rw [if_pos hlt, ← pow_succ', ih hlog (by omega)]
    · have hlog : Nat.clog 2 n ≤ j := (Nat.clog_le_iff_le_pow one_lt_two).2 (Nat.le_of_not_lt hlt)
      rw [if_neg hlt, Nat.le_antisymm hlow hlog]

theorem QEntry.shapeOk.pow2At_vl {e : QEntry} (h : e.shapeOk) : pow2At e.vl 32 1 = 2 ^ Nat.clog 2 e.vl := by
  have hlog : Nat.clog 2 e.vl ≤ 32 := (Nat.clog_le_iff_le_pow one_lt_two).2 (h.vl_le.trans (by decide))
  exact pow2At_eq (j := 0) (Nat.zero_le _) (by omega)

/-! The tree works on no register -/

/-- What has been done so far, with other registers. -/
def VAcc.on (v : VAcc) (a : Arch) : VAcc := { v with arch := a }

theorem treeLevel_on (t : Fmt) (mode n : Nat) (l : List (Option Nat)) (v : VAcc) (a : Arch) :
    treeLevel t mode n l (v.on a) = ((treeLevel t mode n l v).1, (treeLevel t mode n l v).2.on a) := by
  induction l, v using treeLevel.induct t mode n with
  | case1 x y r v o ih =>
    have hround : (v.on a).round t mode false n 0 (sumFV mode [t.decode x, t.decode y]) = (o.1, o.2.on a) := rfl
    simp only [treeLevel, hround, ih, o]
  | case2 x r v ih => simp only [treeLevel, ih]
  | case3 y r v ih => simp only [treeLevel, ih]
  | case4 y v => cases y <;> rfl
  | case5 v => rfl

theorem treeSum_on (t : Fmt) (mode n k : Nat) (l : List (Option Nat)) (v : VAcc) (a : Arch) :
    treeSum t mode n k l (v.on a) = ((treeSum t mode n k l v).1, (treeSum t mode n k l v).2.on a) := by
  induction k generalizing l v with
  | zero => rfl
  | succ k ih =>
    unfold treeSum
    split_ifs
    · rfl
    · rw [treeLevel_on]
      exact ih ..

/-! What the runs come to -/

/-- The lesser or the greater of two codes, with the flags so far. -/
def QEntry.extremum (e : QEntry) (big : Bool) (o : Nat × Nat) (y : Nat) : Nat × Nat :=
  let r := minmax e.fmt big o.1 y
  (r.1, fOr o.2 r.2)

/-- The rounded sum of two codes, as an addition to what has been done. -/
def QEntry.addCodes (e : QEntry) (o : Nat × Nat × W64) (y : Nat) : Nat × Nat × W64 :=
  let r := roundsTo e.fmt e.frm false o.2.2 (sumFV e.frm [e.fmt.decode o.1, e.fmt.decode y])
  (r.1, fOr o.2.1 r.2, (draw e.frm o.2.2).2)

/-- What a sum over the tree comes to with the start value. -/
def QEntry.addTree (e : QEntry) (start : Nat) (t : Option Nat × VAcc) : Nat × Nat × W64 :=
  match t.1 with
  | none => (start, t.2.fl, t.2.seed)
  | some y => e.addCodes (start, t.2.fl, t.2.seed) y

section Reduced

variable {e : QEntry} (hshape : e.shapeOk) (x : Arch) {a start : Nat} (hstart : start < 2 ^ e.sew)
include hshape hstart

theorem reduced_int {f : RedFn} {k : IntFn} (hk : f.int = some k) (l : List Nat) :
    e.Reduced x (l.foldl (fun r i => intElem k e.sew r (getElem x e.vb e.sew a i) 0) start, VAcc.start x)
      (l.foldl (fun r i => intElem k e.sew r (getElem x e.vb e.sew a i) 0) start, 0, x.rcsr cSRSEED) :=
  ⟨rfl, rfl, rfl, rfl, foldl_keeps (P := (· < 2 ^ e.sew)) _ l start hstart fun _ i _ hr => intElem_lt_of_int hk hr (hshape.elem.getElem_lt x a i)⟩

theorem reduced_extremum (big : Bool) (l : List Nat) :
    let r := l.foldl (fun r i => e.extremum big r (getElem x e.vb e.sew a i)) (start, 0)
    e.Reduced x (l.foldl (fun r i => r.2.minmax e.fmt big e.fen r.1 (getElem x e.vb e.sew a i)) (start, VAcc.start x)) (r.1, r.2, x.rcsr cSRSEED) := by
  obtain ⟨hf, hw⟩ := hshape.fmt_spec
  refine List.foldl_rel (r := fun r (o : Nat × Nat) => e.Reduced x r (o.1, o.2, x.rcsr cSRSEED)) ⟨rfl, rfl, rfl, rfl, hstart⟩ fun i _ r o h => ?_
  obtain ⟨hval, hfl, hseed, harch, hlt⟩ := h
  refine ⟨?_, ?_, hseed, harch, ?_⟩
  · simp only [VAcc.minmax, QEntry.extremum, hval]
  · simp only [VAcc.minmax, VAcc.flag, QEntry.extremum, hval, hfl]
  · rw [← hw] at hlt ⊢
    exact hf.minmax_lt big hlt (hw ▸ hshape.elem.getElem_lt x a i)

omit hstart in
theorem reduced_addCodes {r : Nat × VAcc} {o : Nat × Nat × W64} (h : e.Reduced x r o) (y : Nat) :
    e.Reduced x (r.2.addCodes e.fmt e.frm e.fen r.1 y) (e.addCodes o y) := by
  obtain ⟨hval, hfl, hseed, harch, -⟩ := h
  obtain ⟨hf, hw⟩ := hshape.fmt_spec
  have hsum : r.2.addCodes e.fmt e.frm e.fen r.1 y = _ := VAcc.round_eq ..
  rw [hsum, QEntry.addCodes, ← hval, ← hfl, ← hseed]
  exact ⟨rfl, rfl, rfl, harch, hw ▸ hf.roundsTo_sum_lt ..⟩

theorem reduced_fsumo (l : List Nat) :
    e.Reduced x (l.foldl (fun r i => r.2.addCodes e.fmt e.frm e.fen r.1 (getElem x e.vb e.sew a i)) (start, VAcc.start x))
      (l.foldl (fun o i => e.addCodes o (getElem x e.vb e.sew a i)) (start, 0, x.rcsr cSRSEED)) :=
  List.foldl_rel (r := e.Reduced x) ⟨rfl, rfl, rfl, rfl, hstart⟩ fun _ _ _ _ h => reduced_addCodes hshape x h _

theorem reduced_addTree (t : Option Nat × VAcc) :
    e.Reduced x (treeResult e.fmt e.frm e.fen start (t.1, t.2.on x)) (e.addTree start t) := by
  obtain ⟨y, v⟩ := t
  have hv : e.Reduced x (start, v.on x) (start, v.fl, v.seed) := ⟨rfl, rfl, rfl, rfl, hstart⟩
  cases y with
  | none => exact hv
  | some y => exact reduced_addCodes hshape x hv y

end Reduced

section Issued

variable {i : Instr} {k : Issue} {f : RedFn} {d a b m : Nat} {q : BitVec 1}

theorem vecRuns_red {ok : QEntry → Prop} {o : QEntry → Arch → (Nat → Nat) → Nat → Nat × Nat × W64}
    (hexec : ∀ s, exec i s = issueV s k noResv (fun _ => .red f d a b m q.toNat)) (hregs : k.regs = if q = 1 then [d] else [])
    (hbq : k.bq = if q = 1 then some d else none)
    (hrun : ∀ e x pc, e.shapeOk → ok e → e.groupHere a = true → getElem x e.vb e.sew b 0 < 2 ^ e.sew →
      ∃ r, runRed e { x with pc := pc } f d a b m q.toNat = some (e.deliver { x with pc := pc } d q.toNat (getElem x e.vb e.sew b 0) r) ∧
        e.Reduced { x with pc := pc } r (o e x (getElem x e.vb e.sew a) (getElem x e.vb e.sew b 0))) :
    VecRuns i (if q = 1 then [d] else []) (if q = 1 then some d else none) (fun e _ => ok e ∧ e.groupHere a)
      (fun e x => e.reduced x d q (getElem x e.vb e.sew b 0) (o e x (getElem x e.vb e.sew a) (getElem x e.vb e.sew b 0))) := by
  have hmem : ∀ r, (if q = 1 then some d else none) = some r → r ∈ k.regs := by
    rw [hregs]
    split_ifs <;> simp
  rw [← hregs]
  refine vecRuns_of_has hexec hbq hmem fun e x pc hshape ⟨hok, ha⟩ => ?_
  have hstart := hshape.elem.getElem_lt x b 0
  obtain ⟨r, hr, hreduced⟩ := hrun e x pc hshape hok ha hstart
  exact ⟨_, hr, hshape.deliver_has { x with pc := pc } hstart hreduced⟩

theorem vecRuns_red_int {g : IntFn} (hexec : ∀ s, exec i s = issueV s k noResv (fun _ => .red f d a b m q.toNat))
    (hg : f.int = some g := by rfl) (hregs : k.regs = (if q = 1 then [d] else []) := by rfl)
    (hbq : k.bq = (if q = 1 then some d else none) := by rfl) :
    VecRuns i (if q = 1 then [d] else []) (if q = 1 then some d else none) (fun e _ => e.isInt ∧ e.groupHere a)
      (fun e x => e.reduced x d q (getElem x e.vb e.sew b 0)
        ((e.active x m).foldl (fun r j => intElem g e.sew r (getElem x e.vb e.sew a j) 0) (getElem x e.vb e.sew b 0), 0, x.rcsr cSRSEED)) :=
  vecRuns_red (ok := fun e => e.isInt = true)
    (o := fun e x v start => ((e.active x m).foldl (fun r j => intElem g e.sew r (v j) 0) start, 0, x.rcsr cSRSEED)) hexec hregs hbq
    fun _ x pc hshape hint ha hstart => ⟨_, runRed_int ha hg hint, reduced_int hshape { x with pc := pc } hstart hg _⟩

theorem vecRuns_red_extremum (big : Bool) (hexec : ∀ s, exec i s = issueV s k noResv (fun _ => .red (.extremum big) d a b m q.toNat))
    (hregs : k.regs = (if q = 1 then [d] else []) := by rfl) (hbq : k.bq = (if q = 1 then some d else none) := by rfl) :
    VecRuns i (if q = 1 then [d] else []) (if q = 1 then some d else none) (fun e _ => e.isFloat ∧ e.groupHere a)
      (fun e x =>
        let r := (e.active x m).foldl (fun r j => e.extremum big r (getElem x e.vb e.sew a j)) (getElem x e.vb e.sew b 0, 0)
        e.reduced x d q (getElem x e.vb e.sew b 0) (r.1, r.2, x.rcsr cSRSEED)) :=
  vecRuns_red (ok := fun e => e.isFloat = true)
    (o := fun e x v start =>
      let r := (e.active x m).foldl (fun r j => e.extremum big r (v j)) (start, 0)
      (r.1, r.2, x.rcsr cSRSEED)) hexec hregs hbq
    fun _ x pc hshape hfloat ha hstart => ⟨_, runRed_extremum ha big hfloat, reduced_extremum hshape { x with pc := pc } hstart big _⟩

end Issued

section Sums

variable (d a b : Reg) (m : BitVec 3) (q : BitVec 1)

theorem vredFsumo_runs :
    VecRuns (.vredFsumo d a b m q) (if q = 1 then [d.toNat] else []) (if q = 1 then some d.toNat else none)
      (fun e _ => (e.isFloat ∧ 16 ≤ e.sew) ∧ e.groupHere a.toNat)
      (fun e x => e.reduced x d.toNat q (getElem x e.vb e.sew b.toNat 0)
        ((e.active x m.toNat).foldl (fun o j => e.addCodes o (getElem x e.vb e.sew a.toNat j)) (getElem x e.vb e.sew b.toNat 0, 0, x.rcsr cSRSEED))) :=
  vecRuns_red (ok := fun e => e.isFloat = true ∧ 16 ≤ e.sew)
    (o := fun e x v start => (e.active x m.toNat).foldl (fun o j => e.addCodes o (v j)) (start, 0, x.rcsr cSRSEED)) (exec_vredFsumo d a b m q) rfl rfl
    fun _ x pc hshape ⟨hfloat, hsew⟩ ha hstart =>
      ⟨_, runRed_fsumo ha hfloat hsew, reduced_fsumo hshape { x with pc := pc } hstart _⟩

theorem vredFsumt_runs :
    VecRuns (.vredFsumt d a b m q) (if q = 1 then [d.toNat] else []) (if q = 1 then some d.toNat else none)
      (fun e _ => (e.isFloat ∧ 16 ≤ e.sew) ∧ e.groupHere a.toNat)
      (fun e x => e.reduced x d.toNat q (getElem x e.vb e.sew b.toNat 0) (e.addTree (getElem x e.vb e.sew b.toNat 0)
        (treeSum e.fmt e.frm e.fen 32 (e.leaves x a.toNat m.toNat (2 ^ Nat.clog 2 e.vl)) (VAcc.start x)))) := by
  refine vecRuns_red (ok := fun e => e.isFloat = true ∧ 16 ≤ e.sew)
    (o := fun e x v start => e.addTree start (treeSum e.fmt e.frm e.fen 32
      ((List.range (2 ^ Nat.clog 2 e.vl)).map fun j => given (e.isActive x m.toNat j) (v j)) (VAcc.start x)))
    (exec_vredFsumt d a b m q) rfl rfl fun _ x pc hshape ⟨hfloat, hsew⟩ ha hstart => ⟨_, runRed_fsumt ha hfloat hsew, ?_⟩
  have hon : VAcc.start { x with pc := pc } = (VAcc.start x).on { x with pc := pc } := rfl
  rw [hshape.pow2At_vl, hon, treeSum_on]
  exact reduced_addTree hshape { x with pc := pc } hstart _

end Sums

/-- Settles O28: the functions of integers, the least and the greatest code, and the sums in order and over the tree. -/
theorem vectorReductions : Obligations.VectorReductions := fun d a b m q =>
  ⟨vecRuns_red_int (exec_vredSum d a b m q), vecRuns_red_int (exec_vredMin d a b m q), vecRuns_red_int (exec_vredMinu d a b m q),
    vecRuns_red_int (exec_vredMax d a b m q), vecRuns_red_int (exec_vredMaxu d a b m q), vecRuns_red_int (exec_vredAnd d a b m q),
    vecRuns_red_int (exec_vredOr d a b m q), vecRuns_red_int (exec_vredXor d a b m q),
    vecRuns_red_extremum false (exec_vredFmin d a b m q), vecRuns_red_extremum true (exec_vredFmax d a b m q),
    vredFsumo_runs d a b m q, vredFsumt_runs d a b m q⟩

end Sys2Proof.Machine

/-! ### A class computed by intervals is sound (R226 to R228) -/
namespace Sys2Proof.Machine

/-- A class is true of a value: full only of 1, and empty only of 0. -/
def ClassHolds (c : Nat) (b : Bool) : Prop := c ≤ 2 ∧ (c = 2 → b = true) ∧ (c = 0 → b = false)

/-- A partial class promises nothing. -/
theorem classHolds_partial (b : Bool) : ClassHolds 1 b :=
  ⟨by decide, fun h => absurd h (by decide), fun h => absurd h (by decide)⟩

/-- An interval test holds of its primitive where its two tests are sound. -/
theorem classHolds_classOf2 {full empty : Bool} {b : Bool} (hfull : full = true → b = true) (hempty : empty = true → b = false) :
    ClassHolds (classOf2 full empty) b := by
  cases full with
  | true => exact ⟨Nat.le_refl 2, fun _ => hfull rfl, fun h => nomatch h⟩
  | false =>
    cases empty with
    | true => exact ⟨Nat.zero_le 2, fun h => absurd h (by decide), fun _ => hempty rfl⟩
    | false => exact classHolds_partial b

/-- NOT, AND and OR of classes (R227). -/
theorem ClassHolds.not {c : Nat} {b : Bool} (h : ClassHolds c b) : ClassHolds (2 - c) (!b) := by
  obtain ⟨hle, hfull, hempty⟩ := h
  refine ⟨Nat.sub_le .., fun hc => ?_, fun hc => ?_⟩
  · rw [hempty (by omega)]
    rfl
  · rw [hfull (by omega)]
    rfl

theorem ClassHolds.and {c d : Nat} {a b : Bool} (h : ClassHolds c a) (h' : ClassHolds d b) : ClassHolds (min c d) (a && b) := by
  obtain ⟨hle, hfull, hempty⟩ := h
  obtain ⟨hle', hfull', hempty'⟩ := h'
  refine ⟨by omega, fun hm => ?_, fun hm => ?_⟩
  · rw [hfull (by omega), hfull' (by omega)]
    rfl
  · rcases (by omega : c = 0 ∨ d = 0) with hc | hd
    · rw [hempty hc, Bool.false_and]
    · rw [hempty' hd, Bool.and_false]

theorem ClassHolds.or {c d : Nat} {a b : Bool} (h : ClassHolds c a) (h' : ClassHolds d b) : ClassHolds (max c d) (a || b) := by
  obtain ⟨hle, hfull, hempty⟩ := h
  obtain ⟨hle', hfull', hempty'⟩ := h'
  refine ⟨by omega, fun hm => ?_, fun hm => ?_⟩
  · rcases (by omega : c = 2 ∨ d = 2) with hc | hd
    · rw [hfull hc, Bool.true_or]
    · rw [hfull' hd, Bool.or_true]
  · rw [hempty (by omega), hempty' (by omega)]
    rfl

section Tile

variable (tab : List Nat) {q0 q1 k0 k1 q k : Nat} (hq0 : q0 ≤ q) (hq1 : q ≤ q1) (hk0 : k0 ≤ k) (hk1 : k ≤ k1)

/-- The document of a position is among those of an interval that holds it. -/
theorem doc_mem_interval (hk0 : k0 ≤ k) (hk1 : k ≤ k1) : doc tab k ∈ (List.range (k1 + 1 - k0)).map (fun i => doc tab (k0 + i)) :=
  List.mem_map.2 ⟨k - k0, List.mem_range.2 (by omega), by rw [Nat.add_sub_cancel' hk0]⟩

include hq0 hq1 hk0 hk1

/-- The class of a primitive holds of its value at each cell of the tile (R226). -/
theorem primClass_holds (w : Nat) : ClassHolds (primClass tab w q0 q1 k0 k1) (primAt tab w q k) := by
  unfold primClass primAt
  dsimp only
  generalize toSigned 24 (w % 2 ^ 24) = sc
  generalize w % 2 ^ 24 * 2 ^ (w / 2 ^ 24 % 16) = t
  split
  iterate 6 exact classHolds_classOf2 (by simp only [decide_eq_true_eq]; omega) (by simp only [decide_eq_true_eq, decide_eq_false_iff_not]; omega)
  · have hq := doc_mem_interval tab hq0 hq1
    have hk := doc_mem_interval tab hk0 hk1
    generalize (List.range (q1 + 1 - q0)).map (fun i => doc tab (q0 + i)) = dq at hq ⊢
    generalize (List.range (k1 + 1 - k0)).map (fun i => doc tab (k0 + i)) = dk at hk ⊢
    refine classHolds_classOf2 (fun hfull => ?_) fun hempty => ?_
    · simp only [Bool.and_eq_true, List.all_eq_true, decide_eq_true_eq] at hfull ⊢
      rw [hfull.1 _ hq, hfull.2 _ hk]
    · simp only [List.all_eq_true, Bool.not_eq_true', List.contains_eq_mem, decide_eq_false_iff_not] at hempty ⊢
      exact fun h => hempty _ hq (h ▸ hk)

/-- The stacks of classes and of values go together along the program, and so do the results (R227). -/
theorem evalClass_holds (prog : List Nat) {cs : List Nat} {bs : List Bool} (hst : List.Forall₂ ClassHolds cs bs) :
    ClassHolds (evalClass tab q0 q1 k0 k1 prog cs) (evalAt tab q k prog bs) := by
  induction prog generalizing cs bs with
  | nil =>
    cases hst with
    | nil => exact classHolds_partial false
    | cons h _ => exact h
  | cons w ws ih =>
    have hprim := primClass_holds tab hq0 hq1 hk0 hk1 w
    unfold evalClass evalAt
    generalize w / 2 ^ 28 = opc
    split
    · obtain _ | ⟨h₁, _ | ⟨h₂, hrest⟩⟩ := hst
      exact ih (.cons (h₁.and h₂) hrest)
    · obtain _ | ⟨h₁, _ | ⟨h₂, hrest⟩⟩ := hst
      exact ih (.cons (h₁.or h₂) hrest)
    · obtain _ | ⟨h₁, hrest⟩ := hst
      exact ih (.cons h₁.not hrest)
    · next hand hor hnot =>
      split
      · obtain _ | ⟨-, _ | -⟩ := hst
        exact absurd rfl (hand _ _ _ rfl)
      · obtain _ | ⟨-, _ | -⟩ := hst
        exact absurd rfl (hor _ _ _ rfl)
      · obtain _ | - := hst
        exact absurd rfl (hnot _ _ rfl)
      · exact ih (.cons hprim hst)

end Tile

/-- Settles O38: the result of the classes is true of the result of the values. -/
theorem maskClassSound : Obligations.MaskClassSound := by
  intro tab prog q0 q1 k0 k1 q k hq0 hq1 hk0 hk1
  obtain ⟨-, hfull, hempty⟩ := evalClass_holds tab hq0 hq1 hk0 hk1 prog .nil
  exact ⟨hfull, hempty⟩
end Sys2Proof.Machine

/-! ### Instructions of the vector side that may mark tile state as dirty (R22, R38, R42, R335) -/

namespace Sys2Proof.Machine

/-- What has run on the registers `a` has the effect `q`, and of the CSRs only ZSTATE may differ, where a write of a tile sets DIRTY (R42). -/
def VAcc.HasZ (v : VAcc) (a : Arch) (q : VEffect) : Prop :=
  ∃ csr : FMap W64, v.Has { a with csr := csr } q ∧ ∀ n, n ≠ cZSTATE → fget 0 csr n = a.rcsr n

theorem VAcc.Has.hasZ {v : VAcc} {a : Arch} {q : VEffect} (h : v.Has a q) : v.HasZ a q := ⟨a.csr, h, fun _ _ => rfl⟩

/-- What an instruction leaves of the CSRs does not depend on what ZSTATE was. -/
theorem Arch.After.of_withCsr {a b : Arch} {q : VEffect} {d : Option Nat} {csr : FMap W64} (h : ({ a with csr := csr } : Arch).After b q d)
    (hcsr : ∀ n, n ≠ cZSTATE → fget 0 csr n = a.rcsr n) : a.After b q d := by
  obtain ⟨hframe, hread, hregs⟩ := h
  have hother (n : Nat) (hn : n ≠ cZSTATE) : ({ a with csr := csr } : Arch).rcsr n = a.rcsr n := hcsr n hn
  refine ⟨?_, fun n => ?_, hregs⟩
  · cases d with
    | none => exact hframe
    | some r =>
      cases hout : q.out with
      | none =>
        simp only [hout] at hframe ⊢
        exact hframe
      | some u =>
        simp only [hout, Arch.wx_withCsr] at hframe ⊢
        exact hframe
  · rw [hread, hother cFCSR (by decide)]
    by_cases hz : n = cZSTATE
    · subst hz
      rfl
    · rw [hother n hz]

/-- The registers and CSRs that such a run leaves, with its BQ result. -/
theorem VAcc.HasZ.after {v : VAcc} {a : Arch} {q : VEffect} (h : v.HasZ a.next q) (d : Option Nat) :
    a.After (match d, v.bq with
      | some r, some u => ((v.arch.orFlags v.fl).wcsr cSRSEED v.seed).wx r u
      | _, _ => (v.arch.orFlags v.fl).wcsr cSRSEED v.seed) q d := by
  obtain ⟨csr, hhas, hcsr⟩ := h
  exact (VAcc.Has.after (a := { a with csr := csr }) hhas d).of_withCsr hcsr

section Issued

variable {i : Instr} {s : State} {y : Hart} {sh sh' : Sheaf} {k : Issue} {op : Arch → VOp} {d : Done} {q : VEffect} {c : Nat}
  (hv : s.VReady k.regs y sh) (hexec : exec i s = issueV s k noResv op) (hop : (op y.arch).isStrip = false)
  (hcharge : (y.entryOf sh k [] (op y.arch)).charge = c) (hbq : ∀ r, k.bq = some r → r ∈ k.regs)
  (hrun : s.placedRun y sh k [] (op y.arch) = .done d) (hhold : d.hold = none) (hsh : { d.sheaf with asks := [] } = { sh' with asks := [] })
  (hmarks : sh'.closed = sh.closed ∧ sh'.trap = sh.trap ∧ sh'.want = sh.want) (htime : s.ms.timed = false ∨ d.sheaf.asks = [])
  (hhas : d.acc.HasZ y.arch.next q) (hfl : q.fl &&& (y.entry sh).fen = 0)
include hv hexec hop hcharge hbq hrun hhold hsh hmarks htime hhas hfl

/-- A queued instruction completes with the effect of its run, and counts its class (R228). -/
theorem issueV_completes : ∃ t z, exec i s = .next t ∧ s.VAlone { t with mskcnt := s.mskcnt } ∧ t.hart s.cur = some z ∧
    t.mskcnt = (match d.cls with
      | some c => fset 0 s.mskcnt (y.arch.grant.base * 3 + c) (fget 0 s.mskcnt (y.arch.grant.base * 3 + c) + 1)
      | none => s.mskcnt) ∧
    y.VDone z s.now k.regs sh' c (match k.bq with | some r => [{ d := r, here := q.out.isSome }] | none => []) ∧ y.arch.After z.arch q k.bq := by
  subst hcharge
  obtain ⟨-, -, -, -, -, -, hclosed, htrap, hwant, -⟩ := id hv
  obtain ⟨hc, ht, hw⟩ := hmarks
  have hwant' : d.sheaf.want = none := (congrArg Sheaf.want hsh).trans (hw.trans hwant)
  have htrap' : d.sheaf.trap = none := (congrArg Sheaf.trap hsh).trans (ht.trans htrap)
  have hclosed' : d.sheaf.closed = none := (congrArg Sheaf.closed hsh).trans (hc.trans hclosed)
  have hbqOut : d.acc.bq = q.out := by
    obtain ⟨_, h, -⟩ := hhas
    exact h.bq
  have hflOut : d.acc.fl = q.fl := by
    obtain ⟨_, h, -⟩ := hhas
    exact h.fl
  obtain ⟨t, z, hstep, halone, hz, hcnt, ⟨hdone, hcounts⟩, harch⟩ := issueV_runs (resv := noResv) hv hop rfl hrun htime (by rw [hflOut, hfl]) hhold
    hwant' htrap' hclosed' hbq
  refine ⟨t, z, hexec.trans hstep, halone, hz, hcnt, ⟨hdone.trans ?_, hcounts⟩, harch ▸ hhas.after k.bq⟩
  rw [hsh, hbqOut]
  rfl

/-- One that counts no class changes nothing else of the package. -/
theorem vecStep_of_hasZ (hcls : d.cls = none) : VecStep i s y k.regs sh' c k.bq q := by
  obtain ⟨t, z, hstep, halone, hz, hcnt, hdone, hafter⟩ :=
    issueV_completes hv hexec hop hcharge hbq hrun hhold hsh hmarks htime hhas hfl
  have hsame : t.mskcnt = s.mskcnt := by simpa only [hcls] using hcnt
  rw [← hsame] at halone
  exact ⟨t, z, hstep, halone, hz, hdone, hafter⟩

end Issued

/-- An instruction of which nothing but the registers is to be said completes wherever it can run, where its run has the effect that is stated. -/
theorem vecRuns_of_hasZ {i : Instr} {k : Issue} {op : Arch → VOp} {run : Arch → State → QEntry → Arch → Sheaf → Ran} {ok : QEntry → Arch → Prop}
    {eff : QEntry → Arch → VEffect} {charge : QEntry → Nat} (hexec : ∀ s, exec i s = issueV s k noResv op) (hbq : k.bq = none)
    (hop : ∀ a, (op a).isStrip = false) (hcharge : ∀ y sh, (Hart.entryOf y sh k [] (op y.arch)).charge = charge (y.entry sh))
    (hrun : ∀ s y sh x u trims g, runVOp s g (Hart.entryOf y sh k [] (op y.arch)) x u trims = run y.arch s (y.entry sh) x u)
    (hhas : ∀ s e x pc u, e.shapeOk → ok e x →
      ∃ v n, run x s e { x with pc := pc } u = .done { acc := v, sheaf := u, free := n, hold := none, cls := none } ∧
        v.HasZ { x with pc := pc } (eff e x)) : VecRuns i k.regs none ok eff charge := by
  rintro s y sh hv e rfl hshape hok hfl
  obtain ⟨v, n, hv', hhas⟩ := hhas (s.withPlaced y sh k [] (op y.arch)) (y.entry sh) y.arch y.arch.next.pc { sh.placed [] with asks := [] } hshape hok
  rw [← hbq]
  exact vecStep_of_hasZ hv (hexec s) (hop _) (hcharge y sh) (by simp [hbq]) ((hrun ..).trans hv') rfl rfl ⟨rfl, rfl, rfl⟩ (.inr rfl) hhas hfl rfl

end Sys2Proof.Machine

/-! ### Cells of tiles written one after the other (R42, R62, R201, R203) -/

namespace Sys2Proof.Machine

/-- A place in a tile: the tile, the row and the column. -/
abbrev CellAt := Nat × Nat × Nat

/-- The place lies in the 64 rows of a tile and in the columns that any grant has (R201). -/
def CellAt.ok (p : CellAt) : Prop := p.2.1 < 64 ∧ p.2.2 < 8192

def CellAt.key (p : CellAt) : Nat := zKey p.1 p.2.1 p.2.2

theorem CellAt.key_inj {p q : CellAt} (hp : p.ok) (hq : q.ok) (h : p.key = q.key) : p = q := by
  obtain ⟨t, i, j⟩ := p
  obtain ⟨t', i', j'⟩ := q
  obtain ⟨hi, hj⟩ := hp
  obtain ⟨hi', hj'⟩ := hq
  simp only [CellAt.key, zKey] at hi hj hi' hj' h
  obtain ⟨rfl, rfl, rfl⟩ : t = t' ∧ i = i' ∧ j = j' := by omega
  rfl

/-- A cell by its place. -/
def Arch.cellAt (a : Arch) (p : CellAt) : W32 := fget 0 a.z p.key

/-- ZSTATE once cells have been written, where any have been (R42). -/
def zstAfter (zst : W64) (cells : Bool) : W64 := if cells then zst ||| 2 else zst

theorem zstAfter_twice (zst : W64) : zstAfter (zst ||| 2) true = zst ||| 2 := by
  simp only [zstAfter, if_true, BitVec.or_assoc, BitVec.or_self]

section Cells

variable {ι : Type} (at_ : ι → CellAt) (new : ι → W32 → Nat × Nat)

/-- The cells after each element of a list has written its own, which becomes what `new` makes of it. -/
def Arch.cellsAfter (a : Arch) (l : List ι) (z : FMap W32) : FMap W32 :=
  l.foldl (fun z i => fset 0 z (at_ i).key (BitVec.ofNat 32 (new i (a.cellAt (at_ i))).1)) z

variable {at_ new} {step : VAcc → ι → VAcc}
  (hstep : ∀ v i, step v i = { v with
    arch := v.arch.cell (at_ i).1 (at_ i).2.1 (at_ i).2.2 (new i (v.arch.cellAt (at_ i))).1
    fl := fOr v.fl (new i (v.arch.cellAt (at_ i))).2
    fpe := (step v i).fpe })
include hstep

/-- Steps that each write a cell of their own, which none has written before, raise their flags and set DIRTY. -/
theorem foldl_cells {a : Arch} {l : List ι} (hnodup : (l.map fun i => (at_ i).key).Nodup) {v : VAcc}
    (hold : ∀ i ∈ l, v.arch.cellAt (at_ i) = a.cellAt (at_ i)) :
    ∃ csr p, l.foldl step v = { v with
        arch := { v.arch with z := a.cellsAfter at_ new l v.arch.z, csr := csr }
        fl := (l.map fun i => (new i (a.cellAt (at_ i))).2).foldl fOr v.fl
        fpe := p } ∧
      ∀ n, fget 0 csr n = if n = cZSTATE then zstAfter (v.arch.rcsr cZSTATE) (!l.isEmpty) else v.arch.rcsr n := by
  induction l generalizing v with
  | nil => exact ⟨v.arch.csr, v.fpe, rfl, fun n => by split <;> simp_all [zstAfter, Arch.rcsr]⟩
  | cons i l ih =>
    obtain ⟨hi, hl⟩ := List.nodup_cons.1 hnodup
    have hcell := hold i List.mem_cons_self
    obtain ⟨csr, p, hrest, hcsr⟩ := ih (v := step v i) hl fun j hj => by
      have hne : (at_ j).key ≠ (at_ i).key := fun h => hi (List.mem_map.2 ⟨j, hj, h⟩)
      rw [← hold j (List.mem_cons_of_mem i hj), hstep]
      exact fget_fset_ne 0 v.arch.z _ hne
    refine ⟨csr, p, ?_, fun n => ?_⟩
    · rw [List.foldl_cons, hrest, hstep, hcell]
      rfl
    · rw [hcsr, hstep]
      simp only [Arch.cell, Arch.rcsr_wcsr, if_true]
      by_cases hn : n = cZSTATE
      · rw [if_pos hn, if_pos hn]
        cases l with
        | nil => rfl
        | cons => exact zstAfter_twice _
      · rw [if_neg hn, if_neg hn, if_neg hn]
        rfl

/-- The effect of a run that writes the cells of a list. -/
theorem cells_hasZ (x : Arch) {l : List ι} (hin : ∀ i ∈ l, (at_ i).ok) (hnodup : (l.map at_).Nodup) {f : Nat → Nat → Nat → Option Nat}
    (hf : ∀ i ∈ l, f (at_ i).1 (at_ i).2.1 (at_ i).2.2 = some (new i (x.cellAt (at_ i))).1)
    (hnone : ∀ p : CellAt, p ∉ l.map at_ → f p.1 p.2.1 p.2.2 = none) :
    (l.foldl step (VAcc.start x)).HasZ x
      { fl := unionFlags (l.map fun i => (new i (x.cellAt (at_ i))).2), seed := x.rcsr cSRSEED, zst := zstAfter (x.rcsr cZSTATE) (!l.isEmpty)
        out := none, regs := SetsCells f x } := by
  have hkeys : (l.map fun i => (at_ i).key).Nodup := by
    have hmap : (l.map fun i => (at_ i).key) = (l.map at_).map CellAt.key := by
      rw [List.map_map]
      rfl
    have hok : ∀ p ∈ l.map at_, p.ok := List.forall_mem_map.2 hin
    rw [hmap]
    exact hnodup.map_on fun p hp q hq h => CellAt.key_inj (hok p hp) (hok q hq) h
  obtain ⟨csr, p, hrun, hcsr⟩ := foldl_cells hstep (a := x) (v := VAcc.start x) hkeys fun _ _ => rfl
  rw [hrun]
  refine ⟨csr, ⟨rfl, rfl, ((hcsr cZSTATE).trans (if_pos rfl)).symm, rfl, rfl, fun _ _ => ⟨by simp [Arch.Only, VAcc.start], fun t _ i hi j hj => ?_⟩⟩,
    fun n hn => (hcsr n).trans (if_neg hn)⟩
  show fget 0 (x.cellsAfter at_ new l x.z) (zKey t i j) = _
  by_cases hmem : (t, i, j) ∈ l.map at_
  · obtain ⟨u, hu, hplace⟩ := List.mem_map.1 hmem
    have hval := fget_foldl_fset_of_nodup (0 : W32) (fun i => (at_ i).key) (fun i => BitVec.ofNat 32 (new i (x.cellAt (at_ i))).1) l hkeys x.z hu
    have hgiven := hf u hu
    rw [hplace] at hval hgiven
    rw [hgiven]
    exact hval
  · have hnot : zKey t i j ∉ l.map fun i => (at_ i).key := fun hkey => by
      obtain ⟨u, hu, hsame⟩ := List.mem_map.1 hkey
      exact hmem (List.mem_map.2 ⟨u, hu, CellAt.key_inj (hin u hu) (q := (t, i, j)) ⟨hi, hj⟩ hsame⟩)
    rw [hnone (t, i, j) hmem]
    exact fget_foldl_fset_of_notMem (0 : W32) (fun i => (at_ i).key) (fun i => BitVec.ofNat 32 (new i (x.cellAt (at_ i))).1) l x.z hnot

end Cells

end Sys2Proof.Machine

/-! ### Outer products (R206 to R209) -/

namespace Sys2Proof.Machine

/-- A list made of pieces has no element twice, where a piece has none twice and each element tells which piece it is of. -/
theorem nodup_flatMap_of_leftInverse {α β : Type} {l : List α} {f : α → List β} {g : β → α} (hl : l.Nodup) (hf : ∀ a ∈ l, (f a).Nodup)
    (hg : ∀ a ∈ l, ∀ b ∈ f a, g b = a) : (l.flatMap f).Nodup := by
  rw [List.nodup_flatMap]
  exact ⟨hf, hl.pairwise_of_forall_ne fun a ha a' ha' hne b hb hb' => hne ((hg a ha b hb).symm.trans (hg a' ha' b hb'))⟩

/-- A legal shape has 1 to 64 rows, and columns that the grant has (R41, R201, R202). -/
theorem zcfgOk_bounds {g : Grant} {v : W64} (h : zcfgOk g v = true) :
    1 ≤ bits v.toNat 14 8 ∧ bits v.toNat 14 8 ≤ 64 ∧ 1 ≤ bits v.toNat 29 16 ∧ bits v.toNat 29 16 ≤ 64 * g.clusters := by
  simp only [zcfgOk, Bool.and_eq_true, decide_eq_true_eq] at h
  omega

/-- A grant has at most 128 clusters (R17). -/
theorem QEntry.shapeOk.clusters_le {e : QEntry} (h : e.shapeOk) : e.grant.clusters ≤ 128 := by
  have hvb : e.vb ≤ 131072 := h.elem.le
  unfold QEntry.vb Grant.vlenb at hvb
  split at hvb <;> omega

/-- The shape that an instruction carries lies inside its tile. -/
theorem QEntry.shapeOk.tile_bounds {e : QEntry} (h : e.shapeOk) {t : Nat} (hcfg : zcfgOk e.grant (fget 0 e.csr (cZCFG + t)) = true) :
    1 ≤ e.zrows t ∧ e.zrows t ≤ 64 ∧ 1 ≤ e.zcols t ∧ e.zcols t ≤ 8192 := by
  have hclusters := h.clusters_le
  have hbounds := zcfgOk_bounds hcfg
  unfold QEntry.zrows QEntry.zcols
  omega

/-- The new value of a cell depends on the tiles through the cell alone. -/
theorem mopCell_congr {e : QEntry} {x cur cur' : Arch} {neg : Bool} {t va vb form i j : Nat} (h : getCell cur t i j = getCell cur' t i j) :
    mopCell e x cur neg t va vb form i j = mopCell e x cur' neg t va vb form i j := by
  unfold mopCell
  rw [h]

theorem getCell_setCell_self (a : Arch) (t i j : Nat) (w : W32) : getCell (setCell a t i j w) t i j = w := fget_fset_self 0 a.z _ w

/-- The cells that an outer product of `r` + 1 repetitions updates, each with its repetition, row and column. -/
def mopCells (e : QEntry) (x : Arch) (d m r : Nat) : List (Nat × Nat × Nat) :=
  (List.range (r + 1)).flatMap (fun k => (List.range (e.zrows (d + k))).flatMap (fun i =>
    (List.range (min e.vl (e.zcols (d + k)))).filterMap (fun j => if getMask x m (64 * k + i) then some (k, i, j) else none)))

theorem zstAfter_isEmpty {ι : Type} (zst : W64) (l : List ι) : zstAfter zst (!l.isEmpty) = if l = [] then zst else zst ||| 2 := by
  cases l <;> rfl

section Mop

variable {e : QEntry} (x : Arch) {d a b m r form : Nat}

theorem mem_mopCells {c : Nat × Nat × Nat} (h : c ∈ mopCells e x d m r) :
    c.1 ≤ r ∧ c.2.1 < e.zrows (d + c.1) ∧ c.2.2 < e.zcols (d + c.1) := by
  simp only [mopCells, List.mem_flatMap, List.mem_filterMap, List.mem_range, Option.ite_none_right_eq_some, Option.some.injEq] at h
  obtain ⟨k, hk, i, hi, j, hj, -, rfl⟩ := h
  exact ⟨Nat.le_of_lt_succ hk, hi, hj.trans_le (Nat.min_le_right ..)⟩

theorem mopCells_nodup : (mopCells e x d m r).Nodup := by
  refine nodup_flatMap_of_leftInverse (g := Prod.fst) List.nodup_range (fun k _ => ?_) fun k _ c hc => ?_
  · refine nodup_flatMap_of_leftInverse (g := fun c => c.2.1) List.nodup_range (fun i _ => ?_) fun i _ c hc => ?_
    · refine List.nodup_range.filterMap fun j j' c hj hj' => ?_
      simp only [Option.mem_def, Option.ite_none_right_eq_some, Option.some.injEq] at hj hj'
      obtain ⟨-, rfl⟩ := hj
      simpa using hj'.2.symm
    · simp only [List.mem_filterMap, Option.ite_none_right_eq_some, Option.some.injEq] at hc
      obtain ⟨_, _, _, rfl⟩ := hc
      rfl
  · simp only [List.mem_flatMap, List.mem_filterMap, Option.ite_none_right_eq_some, Option.some.injEq] at hc
    obtain ⟨_, _, _, _, _, rfl⟩ := hc
    rfl

/-- The loops of the rule go over these cells (R209). -/
theorem foldl_mopCells {σ : Type} (f : σ → Nat → Nat → Nat → σ) (s : σ) :
    (List.range (r + 1)).foldl (fun v k => (List.range (e.zrows (d + k))).foldl (fun v i =>
        if getMask x m (64 * k + i) then (List.range (min e.vl (e.zcols (d + k)))).foldl (fun v j => f v k i j) v else v) v) s =
      (mopCells e x d m r).foldl (fun v c => f v c.1 c.2.1 c.2.2) s := by
  simp only [mopCells, List.foldl_flatMap, List.foldl_filterMap]
  refine List.foldl_ext _ _ _ fun v k _ => List.foldl_ext _ _ _ fun v i _ => ?_
  cases getMask x m (64 * k + i) with
  | true => rfl
  | false => exact (List.foldl_fixed _).symm

/-- The place of a cell of an outer product. -/
def mopAt (d : Nat) (c : Nat × Nat × Nat) : CellAt := (d + c.1, c.2)

/-- What a cell that holds `w` becomes, and the flags. -/
def mopNew (e : QEntry) (x : Arch) (neg : Bool) (d a b form : Nat) (c : Nat × Nat × Nat) (w : W32) : Nat × Nat :=
  mopCell e x (setCell x (d + c.1) c.2.1 c.2.2 w) neg (d + c.1) (mopA form a c.1) b form c.2.1 c.2.2

theorem mopCell_eq_mopNew (cur : Arch) (neg : Bool) (c : Nat × Nat × Nat) :
    mopCell e x cur neg (d + c.1) (mopA form a c.1) b form c.2.1 c.2.2 = mopNew e x neg d a b form c (cur.cellAt (mopAt d c)) :=
  mopCell_congr (getCell_setCell_self ..).symm

/-- One cell is updated. -/
def mopStep (e : QEntry) (x : Arch) (neg : Bool) (d a b form : Nat) (v : VAcc) (c : Nat × Nat × Nat) : VAcc :=
  let y := mopCell e x v.arch neg (d + c.1) (mopA form a c.1) b form c.2.1 c.2.2
  (v.flag e.fen 0 y.2).cell (d + c.1) c.2.1 c.2.2 y.1

/-- The updates of an outer product, one after the other. -/
theorem runMop_eq (s : State) (u : Sheaf) {neg : Bool} (hz : e.hasZ = true) (hok : mopOk d a b r form = true) (hen : x.zen = true)
    (hew : ∀ k ≤ r, e.zew (d + k) = (mopForm form).ew) :
    runMop s e x u neg d a b m r form =
      Ran.regs s u (some ((mopCells e x d m r).foldl (mopStep e x neg d a b form) (VAcc.start x))) := by
  have hfind : (List.range (r + 1)).find? (fun k => e.zew (d + k) != (mopForm form).ew) = none := by
    refine List.find?_eq_none.2 fun k hk => ?_
    simp [hew k (Nat.le_of_lt_succ (List.mem_range.1 hk))]
  simp only [runMop, hz, hok, hen, hfind, Bool.not_true, Bool.or_self, Bool.false_eq_true, if_false]
  exact congrArg (fun v => Ran.regs s u (some v)) (foldl_mopCells x (fun v k i j => mopStep e x neg d a b form v (k, i, j)) _)

/-- An outer product where its checks pass. -/
theorem runMop_hasZ {neg : Bool} (hshape : e.shapeOk) (hcfg : ∀ k ≤ r, zcfgOk e.grant (fget 0 e.csr (cZCFG + (d + k))) = true) :
    ((mopCells e x d m r).foldl (mopStep e x neg d a b form) (VAcc.start x)).HasZ x
        { fl := unionFlags ((mopCells e x d m r).map (fun c => (mopCell e x x neg (d + c.1) (mopA form a c.1) b form c.2.1 c.2.2).2))
          seed := x.rcsr cSRSEED
          zst := if mopCells e x d m r = [] then x.rcsr cZSTATE else x.rcsr cZSTATE ||| 2
          out := none
          regs := SetsCells (fun n i j => if d ≤ n ∧ (n - d, i, j) ∈ mopCells e x d m r then
            some (mopCell e x x neg (d + (n - d)) (mopA form a (n - d)) b form i j).1 else none) x } := by
  have hcells := cells_hasZ (at_ := mopAt d) (new := mopNew e x neg d a b form) (l := mopCells e x d m r) (step := mopStep e x neg d a b form)
    (f := fun n i j => if d ≤ n ∧ (n - d, i, j) ∈ mopCells e x d m r then
            some (mopCell e x x neg (d + (n - d)) (mopA form a (n - d)) b form i j).1 else none)
    (fun v c => ?_) x (fun c hc => ?_) ?_ (fun c hc => ?_) fun p hp => ?_
  · simp only [← mopCell_eq_mopNew, zstAfter_isEmpty] at hcells
    exact hcells
  · simp only [← mopCell_eq_mopNew]
    rfl
  · obtain ⟨hk, hi, hj⟩ := mem_mopCells x hc
    obtain ⟨-, hrows, -, hcols⟩ := hshape.tile_bounds (hcfg c.1 hk)
    exact ⟨hi.trans_le hrows, hj.trans_le hcols⟩
  · refine (mopCells_nodup x).map fun c c' h => ?_
    simp only [mopAt, Prod.mk.injEq, Nat.add_left_cancel_iff] at h
    exact Prod.ext h.1 h.2
  · have hrep : (mopAt d c).1 - d = c.1 := Nat.add_sub_cancel_left ..
    have hmem : d ≤ d + c.1 ∧ ((mopAt d c).1 - d, c.2) ∈ mopCells e x d m r := ⟨Nat.le_add_right .., by rwa [hrep]⟩
    exact (if_pos hmem).trans (by rw [hrep, ← mopCell_eq_mopNew]; rfl)
  · exact if_neg fun ⟨hd, hmem⟩ => hp (List.mem_map.2 ⟨_, hmem, Prod.ext (Nat.add_sub_cancel' hd) rfl⟩)

end Mop

theorem foldl_add_eq_sum {ι : Type} (f : ι → Int) (l : List ι) (n : Int) : l.foldl (fun s i => s + f i) n = n + (l.map f).sum := by
  induction l generalizing n with
  | nil => simp
  | cons i l ih => rw [List.foldl_cons, ih, List.map_cons, List.sum_cons, Int.add_assoc]

theorem subInt_inr (w : Nat) (sg : Bool) (n : Nat) : subInt (some (.inr (w, sg))) n = if sg then (BitVec.ofNat w n).toInt else n := by
  rw [← toSigned_eq]
  rfl

/-- A cell of an integer form gains or loses the sum of its products, and raises no flag (R207, R209). -/
theorem mopCell_int {form : Nat} (e : QEntry) (x cur : Arch) (neg : Bool) (t va vb i j : Nat) {w w' : Nat} {sg sg' : Bool}
    (hew : (mopForm form).ew = true) (ha : (mopForm form).fa = some (.inr (w, sg))) (hb : (mopForm form).fb = some (.inr (w', sg'))) {p : Int}
    (hp : ((List.range (mopForm form).n).map fun g =>
      subInt (some (.inr (w, sg))) (subElem x e.vb w va i g) * subInt (some (.inr (w', sg'))) (subElem x e.vb w' vb j g)).sum = p) :
    mopCell e x cur neg t va vb form i j = ((getCell cur t i j + BitVec.ofInt 32 (if neg then -p else p)).toNat, 0) := by
  have hold : BitVec.ofInt 32 ((getCell cur t i j).toNat : Int) = getCell cur t i j := by
    rw [BitVec.ofInt_natCast, BitVec.ofNat_toNat, BitVec.setWidth_eq]
  simp only [mopCell, hew, if_true, ha, hb, operandBits, List.foldl_map, foldl_add_eq_sum, hp, Int.zero_add, wrap_eq, BitVec.ofInt_add, hold]

/-- MOP.OP and MOP.OPN, placed and run. -/
theorem vecRuns_mop {i : Instr} {k : Issue} {neg : Bool} {d m r : BitVec 3} {a b : Reg} {f : BitVec 4}
    (hexec : ∀ s, exec i s = issueV s k noResv (fun _ => .mop neg d.toNat a.toNat b.toNat m.toNat r.toNat f.toNat)) (hbq : k.bq = none) :
    VecRuns i k.regs none
      (fun e x => e.hasZ ∧ mopOk d.toNat a.toNat b.toNat r.toNat f.toNat ∧ x.zen ∧
        ∀ k ≤ r.toNat, zcfgOk e.grant (fget 0 e.csr (cZCFG + (d.toNat + k))) ∧ e.zew (d.toNat + k) = (mopForm f.toNat).ew)
      (fun e x =>
        let new (k i j : Nat) : Nat × Nat := mopCell e x x neg (d.toNat + k) (mopA f.toNat a.toNat k) b.toNat f.toNat i j
        { fl := unionFlags ((mopCells e x d.toNat m.toNat r.toNat).map (fun c => (new c.1 c.2.1 c.2.2).2))
          seed := x.rcsr cSRSEED
          zst := if mopCells e x d.toNat m.toNat r.toNat = [] then x.rcsr cZSTATE else x.rcsr cZSTATE ||| 2
          out := none
          regs := SetsCells (fun n i j => if d.toNat ≤ n ∧ (n - d.toNat, i, j) ∈ mopCells e x d.toNat m.toNat r.toNat then
            some (new (n - d.toNat) i j).1 else none) x })
      (fun e => max 1 ((r.toNat + 1) * e.vl)) :=
  vecRuns_of_hasZ (run := fun _ s e x u => runMop s e x u neg d.toNat a.toNat b.toNat m.toNat r.toNat f.toNat) hexec hbq (fun _ => rfl)
    (fun _ _ => rfl) (fun _ _ _ _ _ _ _ => rfl) fun s _ x pc u hshape ⟨hz, hok, hen, htiles⟩ =>
      ⟨_, _, runMop_eq { x with pc := pc } s u hz hok hen fun k hk => (htiles k hk).2,
        runMop_hasZ { x with pc := pc } hshape fun k hk => (htiles k hk).1⟩

/-- Settles O35: the two runs over the cells of the mask, and the cells of the integer forms. -/
theorem outerProducts : Obligations.OuterProducts := by
  intro d a b m r f
  refine ⟨vecRuns_mop (exec_mopOp d a b m r f) rfl, vecRuns_mop (exec_mopOpn d a b m r f) rfl, ?_⟩
  intro e x cur neg t va vb form i j w w' sg sg' hew ha hb
  have hcell := mopCell_int e x cur neg t va vb i j hew ha hb rfl
  simp only [subInt_inr] at hcell
  simp only [hcell]
  exact ⟨by rw [BitVec.ofNat_toNat, BitVec.setWidth_eq], BitVec.isLt _, trivial⟩

end Sys2Proof.Machine

/-! ### ZOP.RD (R211 to R213) -/

namespace Sys2Proof.Machine

/-- In an ascending list the picked elements before one are those below it. -/
theorem countBelow_filter_append {l : List Nat} {i : Nat} (hl : (l ++ [i]).Pairwise (· < ·)) (r : Nat → Bool) :
    countBelow ((l ++ [i]).filter r) i = (l.filter r).length ∧ ∀ j ∈ l, countBelow ((l ++ [i]).filter r) j = countBelow (l.filter r) j := by
  have hlt : ∀ j ∈ l, j < i := fun j hj => (List.pairwise_append.1 hl).2.2 j hj i List.mem_cons_self
  have hsingle (j : Nat) (hj : j ≤ i) : ([i].filter r).filter (fun k => decide (k < j)) = [] :=
    List.filter_eq_nil_iff.2 fun k hk => by
      obtain rfl := List.mem_singleton.1 (List.mem_of_mem_filter hk)
      simpa using hj
  refine ⟨?_, fun j hj => ?_⟩
  · have hall : (l.filter r).filter (fun k => decide (k < i)) = l.filter r :=
      List.filter_eq_self.2 fun k hk => by simpa using hlt k (List.mem_of_mem_filter hk)
    rw [countBelow, List.filter_append, List.filter_append, hall, hsingle i (Nat.le_refl i), List.append_nil]
  · rw [countBelow, List.filter_append, List.filter_append, hsingle j (hlt j hj).le, List.append_nil]
    rfl

/-- Steps that write, raise flags, and take a draw where `r` says so: as `eachElem_draws`. -/
theorem eachElem_draws_where {β : Type} {step : VAcc → Nat → VAcc} {put : Arch → Nat → β → Arch} {next : W64 → W64} {c : W64 → Nat → β × Nat}
    {r : Nat → Bool}
    (hstep : ∀ v i, step v i = { v with
      arch := put v.arch i (c v.seed i).1, seed := if r i then next v.seed else v.seed, fl := fOr v.fl (c v.seed i).2, fpe := (step v i).fpe })
    {l : List Nat} (hl : l.Pairwise (· < ·)) (v : VAcc) :
    ∃ p, eachElem l v step = { v with
      arch := l.foldl (fun b i => put b i (c (next^[countBelow (l.filter r) i] v.seed) i).1) v.arch
      seed := next^[(l.filter r).length] v.seed
      fl := (l.map fun i => (c (next^[countBelow (l.filter r) i] v.seed) i).2).foldl fOr v.fl
      fpe := p } := by
  induction l using List.reverseRecOn with
  | nil => exact ⟨v.fpe, rfl⟩
  | append_singleton l i ih =>
    obtain ⟨p, hp⟩ := ih (List.pairwise_append.1 hl).1
    obtain ⟨hi, hbelow⟩ := countBelow_filter_append hl r
    refine ⟨(step (eachElem l v step) i).fpe, ?_⟩
    have hlast : eachElem (l ++ [i]) v step = step (eachElem l v step) i := by simp [eachElem]
    have harch : l.foldl (fun b j => put b j (c (next^[countBelow ((l ++ [i]).filter r) j] v.seed) j).1) v.arch =
        l.foldl (fun b j => put b j (c (next^[countBelow (l.filter r) j] v.seed) j).1) v.arch :=
      List.foldl_ext _ _ _ fun b j hj => by rw [hbelow j hj]
    have hflags : (l.map fun j => (c (next^[countBelow ((l ++ [i]).filter r) j] v.seed) j).2) =
        l.map fun j => (c (next^[countBelow (l.filter r) j] v.seed) j).2 := List.map_congr_left fun j hj => by rw [hbelow j hj]
    have hseed : next^[((l ++ [i]).filter r).length] v.seed =
        if r i then next (next^[(l.filter r).length] v.seed) else next^[(l.filter r).length] v.seed := by
      cases hr : r i with
      | true => simp [List.filter_append, hr, Function.iterate_succ_apply']
      | false => simp [List.filter_append, hr]
    rw [hlast, hstep, hp, hseed]
    simp only [List.foldl_append, List.map_append, harch, hflags, List.foldl_cons, List.foldl_nil, List.map_cons, List.map_nil, hi]

/-- The place of element `j` of row or column `k` of a tile (R213). -/
def slicePlace (col : Bool) (k j : Nat) : Nat × Nat := if col then (j, k) else (k, j)

/-- A place lies inside the shape of tile `t` (R203). -/
def QEntry.insideTile (e : QEntry) (t : Nat) (p : Nat × Nat) : Bool := decide (p.1 < e.zrows t) && decide (p.2 < e.zcols t)

/-- The code of a cell as an element, and its flags, where the generator holds `g` (R212). -/
def cellCode (e : QEntry) (x : Arch) (cvt sat : Bool) (g : W64) (j n : Nat) : Nat × Nat :=
  let o := cellToElem e { VAcc.start x with seed := g } cvt sat j n
  (o.1, o.2.fl)

theorem QEntry.isFloat_of_isInt {e : QEntry} (h : e.isInt = true) : e.isFloat = false := by
  have hcls : vtCls e.vt ≤ 1 := by simpa [QEntry.isInt] using h
  simp only [QEntry.isFloat, vtFloat, decide_eq_false_iff_not]
  omega

/-- A conversion raises its flags, and takes a draw where it rounds to a float format. -/
theorem cellToElem_eq (e : QEntry) (x : Arch) (v : VAcc) (cvt sat : Bool) (j n : Nat) :
    cellToElem e v cvt sat j n = ((cellCode e x cvt sat v.seed j n).1,
      { v with
        seed := if cvt && e.isFloat then drawNext true e.frm v.seed else v.seed
        fl := fOr v.fl (cellCode e x cvt sat v.seed j n).2
        fpe := (cellToElem e v cvt sat j n).2.fpe }) := by
  have hzero (n : Nat) : fOr 0 n = n := Nat.zero_or n
  have hor (n : Nat) : fOr n 0 = n := Nat.or_zero n
  unfold cellCode cellToElem
  cases cvt with
  | false => simp [VAcc.start, hor]
  | true =>
    by_cases hint : e.isInt = true
    · have hfloat := QEntry.isFloat_of_isInt hint
      by_cases hs : e.isSigned = true
      · simp [hint, hfloat, hs, VAcc.start, hor]
      · simp [hint, hfloat, hs, VAcc.start, hor]
    · by_cases hfloat : e.isFloat = true
      · simp [hint, hfloat, VAcc.round, VAcc.flag, roundStep, VAcc.start, hzero, drawNext]
      · simp [hint, hfloat, VAcc.flag, VAcc.start, hzero]

/-- They do not depend on the registers. -/
theorem cellCode_congr (e : QEntry) (x y : Arch) (cvt sat : Bool) (g : W64) (j n : Nat) : cellCode e y cvt sat g j n = cellCode e x cvt sat g j n := by
  have h := cellToElem_eq e x { VAcc.start y with seed := g } cvt sat j n
  unfold cellCode at h ⊢
  rw [h]
  exact congrArg (Prod.mk _) (Nat.zero_or _)

section Rd

variable {e : QEntry} (x : Arch) (t g m : Nat) (sat cvt col : Bool) (k : W64)

/-- What element `j` receives, and its flags, where the generator holds `s`: zero bits outside the shape (R213). -/
def rdCode (e : QEntry) (s : W64) (j : Nat) : Nat × Nat :=
  let p := slicePlace col k.toNat j
  if e.insideTile t p then cellCode e x cvt sat s j (getCell x t p.1 p.2).toNat else (0, 0)

/-- Element `j` takes a draw (R60, R213). -/
def rdRounds (e : QEntry) (j : Nat) : Bool := cvt && e.isFloat && e.insideTile t (slicePlace col k.toNat j)

/-- One element is read. -/
def rdStep (e : QEntry) (v : VAcc) (j : Nat) : VAcc :=
  let p := slicePlace col k.toNat j
  if e.insideTile t p then
    let y := cellToElem e v cvt sat j (getCell x t p.1 p.2).toNat
    y.2.set e.vb e.sew g j y.1
  else v.set e.vb e.sew g j 0

theorem rdStep_eq (v : VAcc) (j : Nat) : rdStep x t g sat cvt col k e v j = { v with
    arch := setElem v.arch e.vb e.sew g j (rdCode x t sat cvt col k e v.seed j).1
    seed := if rdRounds t cvt col k e j then drawNext true e.frm v.seed else v.seed
    fl := fOr v.fl (rdCode x t sat cvt col k e v.seed j).2
    fpe := (rdStep x t g sat cvt col k e v j).fpe } := by
  unfold rdStep rdCode rdRounds
  by_cases hin : e.insideTile t (slicePlace col k.toNat j) = true
  · simp only [hin, if_true, Bool.and_true]
    rw [cellToElem_eq e x]
    rfl
  · simp [hin, VAcc.set, fOr]

theorem runZrd_eq (s : State) (u : Sheaf) (hz : e.hasZ = true) (hcheck : sliceCheck e t g sat cvt = .ok) (hen : x.zen = true)
    (hk : k.toNat < if col then e.zcols t else e.zrows t) :
    runZrd s e x u t g k m sat cvt col = Ran.regs s u (some (eachElem (e.active x m) (VAcc.start x) (rdStep x t g sat cvt col k e))) := by
  simp only [runZrd, hz, hcheck, hen, Nat.not_le.2 hk, Bool.not_true, Bool.false_eq_true, if_false, reduceCtorEq]
  refine congrArg (fun v => Ran.regs s u (some v)) (List.foldl_ext _ _ _ fun v j _ => ?_)
  cases col
  all_goals simp [rdStep, slicePlace, QEntry.insideTile]

/-- The elements that a slice is read into (R213). -/
theorem runZrd_has (hshape : e.shapeOk) : (eachElem (e.active x m) (VAcc.start x) (rdStep x t g sat cvt col k e)).Has x
    (let draws (j : Nat) : W64 := seedAt e.frm (x.rcsr cSRSEED)
      ((e.active x m).filter (fun i => decide (i < j) && rdRounds t cvt col k e i)).length
    { fl := unionFlags ((e.active x m).map (fun j => (rdCode x t sat cvt col k e (draws j) j).2))
      seed := seedAt e.frm (x.rcsr cSRSEED) ((e.active x m).filter (rdRounds t cvt col k e)).length
      zst := x.rcsr cZSTATE
      out := none
      regs := SetsElems e.vb e.sew g e.lmul (fun j => given (e.isActive x m j) (rdCode x t sat cvt col k e (draws j) j).1) x }) := by
  obtain ⟨p, hp⟩ := eachElem_draws_where (put := fun b j n => setElem b e.vb e.sew g j n) (rdStep_eq x t g sat cvt col k) (e.active_pairwise x m)
    (VAcc.start x)
  have hseed (n : Nat) : (drawNext true e.frm)^[n] (VAcc.start x).seed = seedAt e.frm (x.rcsr cSRSEED) n := iterate_drawNext true e.frm n _
  rw [hp]
  simp only [hseed, countBelow, List.filter_filter]
  refine ⟨rfl, rfl, rfl, rfl, foldl_setElem_vectorOnly _ _ _ (fun j => j) .., hshape.elem.setsElems_list x (fun j hj => ?_) fun j => ?_⟩
  · exact hshape.active_lt (QEntry.mem_active.1 hj)
  · simp only [given, QEntry.mem_active]

theorem rdCode_withPc (pc : W64) : rdCode { x with pc := pc } t sat cvt col k e = rdCode x t sat cvt col k e := by
  funext s j
  unfold rdCode
  simp only [cellCode_congr e x { x with pc := pc }]
  rfl

end Rd

/-- ZOP.RD, placed and run. -/
theorem zopRd_runs (d : BitVec 3) (a b : Reg) (m : BitVec 3) (sat c l : BitVec 1) :
    VecRuns (.zopRd d a b m sat c l) [b.toNat] none
      (fun e y => (e.hasZ ∧ zcfgOk e.grant (fget 0 e.csr (cZCFG + d.toNat))) ∧ sliceCheck e d.toNat a.toNat (sat == 1) (c == 1) = .ok ∧ y.zen ∧
        (y.r b).toNat < if l == 1 then e.zcols d.toNat else e.zrows d.toNat)
      (fun e y =>
        let draws (j : Nat) : W64 := seedAt e.frm (y.rcsr cSRSEED)
          ((e.active y m.toNat).filter (fun i => decide (i < j) && rdRounds d.toNat (c == 1) (l == 1) (y.r b) e i)).length
        let new (j : Nat) : Nat × Nat := rdCode y d.toNat (sat == 1) (c == 1) (l == 1) (y.r b) e (draws j) j
        { fl := unionFlags ((e.active y m.toNat).map (fun j => (new j).2))
          seed := seedAt e.frm (y.rcsr cSRSEED) ((e.active y m.toNat).filter (rdRounds d.toNat (c == 1) (l == 1) (y.r b) e)).length
          zst := y.rcsr cZSTATE
          out := none
          regs := SetsElems e.vb e.sew a.toNat e.lmul (fun j => given (e.isActive y m.toNat j) (new j).1) y }) := by
  refine vecRuns_of_hasZ (run := fun y s e x u => runZrd s e x u d.toNat a.toNat (y.r b) m.toNat (sat == 1) (c == 1) (l == 1)) (exec_zopRd d a b m sat c l)
    rfl (fun _ => rfl) (fun _ _ => rfl) (fun s y sh x u trims g => ?_) fun s e x pc u hshape ⟨⟨hz, _⟩, hcheck, hen, hk⟩ => ⟨_, _,
      runZrd_eq { x with pc := pc } _ _ _ _ _ _ _ s u hz hcheck hen hk, ?_⟩
  · simp only [← decide_sat]
    rfl
  · have hhas := runZrd_has { x with pc := pc } d.toNat a.toNat m.toNat (sat == 1) (c == 1) (l == 1) (x.r b) hshape
    rw [rdCode_withPc] at hhas
    exact hhas.hasZ

end Sys2Proof.Machine

/-! ### ZOP.WR and ZOP.PATCH (R213, R214) -/

namespace Sys2Proof.Machine

theorem slicePlace_injective (col : Bool) (k : Nat) : Function.Injective (slicePlace col k) := by
  cases col with
  | true => exact fun _ _ h => congrArg Prod.fst h
  | false => exact fun _ _ h => congrArg Prod.snd h

/-- The place of element `j` of a patch from row `r0` and column `c0` (R214). -/
def patchPlace (col : Bool) (r0 c0 j : Nat) : Nat × Nat := if col then (r0 + j, c0) else (r0, c0 + j)

theorem patchPlace_injective (col : Bool) (r0 c0 : Nat) : Function.Injective (patchPlace col r0 c0) := by
  cases col with
  | true => exact fun _ _ h => Nat.add_left_cancel (congrArg Prod.fst h)
  | false => exact fun _ _ h => Nat.add_left_cancel (congrArg Prod.snd h)

theorem find?_place {l : List Nat} {pl : Nat → Nat × Nat} (hpl : Function.Injective pl) {j : Nat} (hj : j ∈ l) :
    l.find? (fun i => pl i = pl j) = some j := by
  obtain ⟨i, hi⟩ : ∃ i, l.find? (fun i => pl i = pl j) = some i := Option.isSome_iff_exists.1 (List.find?_isSome.2 ⟨j, hj, by simp⟩)
  have hsame := List.find?_some (p := fun i => decide (pl i = pl j)) hi
  rw [hi, hpl (of_decide_eq_true hsame)]

/-- ZSTATE as the statements write it. -/
theorem zstAfter_ne_nil {ι : Type} [DecidableEq ι] (zst : W64) (l : List ι) : zstAfter zst (!l.isEmpty) = if l != [] then zst ||| 2 else zst := by
  cases l <;> rfl

section Placed

variable {e : QEntry} {t : Nat} (pl : Nat → Nat × Nat) (new : Nat → Nat × Nat)

/-- Element `j` writes its cell, where that lies inside the shape. -/
def placeStep (e : QEntry) (t : Nat) (v : VAcc) (j : Nat) : VAcc :=
  if e.insideTile t (pl j) then (v.flag e.fen j (new j).2).cell t (pl j).1 (pl j).2 (new j).1 else v

variable {pl} in
/-- The cells that active elements write, each its own. -/
theorem placed_hasZ (hpl : Function.Injective pl) (hshape : e.shapeOk) (hcfg : zcfgOk e.grant (fget 0 e.csr (cZCFG + t)) = true) (x : Arch) (m : Nat) :
    (eachElem (e.active x m) (VAcc.start x) (placeStep pl new e t)).HasZ x
      (let js := (e.active x m).filter (fun j => e.insideTile t (pl j))
       { fl := unionFlags (js.map (fun j => (new j).2)), seed := x.rcsr cSRSEED
         zst := if js != [] then x.rcsr cZSTATE ||| 2 else x.rcsr cZSTATE, out := none
         regs := SetsCells (fun n i p => if n = t then (js.find? (fun j => pl j = (i, p))).map (fun j => (new j).1) else none) x }) := by
  let js := (e.active x m).filter (fun j => e.insideTile t (pl j))
  have hcells := cells_hasZ (at_ := fun j => (t, pl j)) (new := fun j _ => new j) (l := js)
    (step := fun v j => (v.flag e.fen j (new j).2).cell t (pl j).1 (pl j).2 (new j).1)
    (f := fun n i p => if n = t then (js.find? (fun j => pl j = (i, p))).map (fun j => (new j).1) else none) (fun _ _ => rfl) x
    (fun j hj => ?_) ?_ (fun j hj => ?_) fun p hp => ?_
  · rw [List.foldl_filter, zstAfter_ne_nil] at hcells
    exact hcells
  · obtain ⟨hrow, hcol⟩ : (pl j).1 < e.zrows t ∧ (pl j).2 < e.zcols t := by simpa [QEntry.insideTile] using (List.mem_filter.1 hj).2
    obtain ⟨-, hrows, -, hcols⟩ := hshape.tile_bounds hcfg
    exact ⟨hrow.trans_le hrows, hcol.trans_le hcols⟩
  · have hjs : js.Nodup := ((e.active_pairwise x m).imp Nat.ne_of_lt).filter _
    exact hjs.map fun i j h => hpl (congrArg Prod.snd h)
  · exact (if_pos rfl).trans (congrArg (Option.map _) (find?_place hpl hj))
  · by_cases ht : p.1 = t
    · refine (if_pos ht).trans (Option.map_eq_none_iff.2 (List.find?_eq_none.2 fun j hj h => hp (List.mem_map.2 ⟨j, hj, ?_⟩)))
      exact Prod.ext ht.symm (of_decide_eq_true h)
    · exact if_neg ht

end Placed

section Write

variable {e : QEntry} (x : Arch) (t g m : Nat) (cvt col : Bool)

/-- What ZOP.WR writes to the cell of an element, and the flags (R212). -/
def wrNew (e : QEntry) (j : Nat) : Nat × Nat := elemToCell e cvt (getElem x e.vb e.sew g j)

theorem runZwr_eq (s : State) (u : Sheaf) {k : W64} (hz : e.hasZ = true) (hcheck : sliceCheck e t g false cvt = .ok) (hen : x.zen = true)
    (hk : k.toNat < if col then e.zcols t else e.zrows t) :
    runZwr s e x u t g k m cvt col =
      Ran.regs s u (some (eachElem (e.active x m) (VAcc.start x) (placeStep (slicePlace col k.toNat) (wrNew x g cvt e) e t))) := by
  simp only [runZwr, hz, hcheck, hen, Nat.not_le.2 hk, Bool.not_true, Bool.false_eq_true, if_false, reduceCtorEq]
  refine congrArg (fun v => Ran.regs s u (some v)) (List.foldl_ext _ _ _ fun v j _ => ?_)
  cases col
  all_goals simp [placeStep, wrNew, slicePlace, QEntry.insideTile]

/-- What ZOP.PATCH leaves in the cell of an element, which lies at `pl`, and the flags (R214). -/
def patchNew (add : Bool) (pl : Nat → Nat × Nat) (e : QEntry) (j : Nat) : Nat × Nat :=
  let o := elemToCell e cvt (getElem x e.vb e.sew g j)
  let r := patchCell (e.zew t) add (getCell x t (pl j).1 (pl j).2).toNat o.1
  (r.1, fOr o.2 r.2)

theorem runZpatch_eq (s : State) (u : Sheaf) (add : Bool) {p : W64} (hz : e.hasZ = true) (hcheck : sliceCheck e t g false cvt = .ok)
    (hen : x.zen = true) (hp : p.toNat < 2 ^ 32) (hrow : p.toNat % 2 ^ 16 < e.zrows t) (hcol : p.toNat / 2 ^ 16 < e.zcols t) :
    runZpatch s e x u t g p m add cvt col =
      (let pl := patchPlace col (p.toNat % 2 ^ 16) (p.toNat / 2 ^ 16)
       Ran.regs s u (some (eachElem (e.active x m) (VAcc.start x) (placeStep pl (patchNew x t g cvt add pl e) e t)))) := by
  have hlow : bits p.toNat 15 0 = p.toNat % 2 ^ 16 := by simp [bits]
  have hmid : bits p.toNat 31 16 = p.toNat / 2 ^ 16 := by
    unfold bits
    omega
  have hhigh : bits p.toNat 63 32 = 0 := by
    unfold bits
    omega
  simp only [runZpatch, hz, hcheck, hen, hlow, hmid, hhigh, Nat.not_le.2 hrow, Nat.not_le.2 hcol, Bool.not_true, Bool.false_eq_true, if_false,
    reduceCtorEq, ne_eq, not_true_eq_false, or_self]
  refine congrArg (fun v => Ran.regs s u (some v)) (List.foldl_ext _ _ _ fun v j _ => ?_)
  cases col
  all_goals simp [placeStep, patchNew, patchPlace, QEntry.insideTile]

end Write

/-- ZOP.WR, placed and run. -/
theorem zopWr_runs (d : BitVec 3) (a b : Reg) (m : BitVec 3) (c l : BitVec 1) :
    VecRuns (.zopWr d a b m c l) [b.toNat] none
      (fun e y => (e.hasZ ∧ zcfgOk e.grant (fget 0 e.csr (cZCFG + d.toNat))) ∧ sliceCheck e d.toNat a.toNat false (c == 1) = .ok ∧ y.zen ∧
        (y.r b).toNat < if l == 1 then e.zcols d.toNat else e.zrows d.toNat)
      (fun e y =>
        let pl := slicePlace (l == 1) (y.r b).toNat
        let js := (e.active y m.toNat).filter (fun j => e.insideTile d.toNat (pl j))
        let new := wrNew y a.toNat (c == 1) e
        { fl := unionFlags (js.map (fun j => (new j).2)), seed := y.rcsr cSRSEED
          zst := if js != [] then y.rcsr cZSTATE ||| 2 else y.rcsr cZSTATE, out := none
          regs := SetsCells (fun n i p => if n = d.toNat then (js.find? (fun j => pl j = (i, p))).map (fun j => (new j).1) else none) y }) := by
  refine vecRuns_of_hasZ (run := fun y s e x u => runZwr s e x u d.toNat a.toNat (y.r b) m.toNat (c == 1) (l == 1)) (exec_zopWr d a b m c l) rfl
    (fun _ => rfl) (fun _ _ => rfl) (fun s y sh x u trims g => ?_) fun s e x pc u hshape ⟨⟨hz, hcfg⟩, hcheck, hen, hk⟩ => ⟨_, _,
      runZwr_eq { x with pc := pc } _ _ _ _ _ s u hz hcheck hen hk, placed_hasZ _ (slicePlace_injective ..) hshape hcfg _ _⟩
  simp only [← decide_sat]
  rfl

/-- ZOP.PATCH, placed and run. -/
theorem zopPatch_runs (d : BitVec 3) (a b : Reg) (m : BitVec 3) (x c l : BitVec 1) :
    VecRuns (.zopPatch d a b m x c l) [b.toNat] none
      (fun e y => (e.hasZ ∧ zcfgOk e.grant (fget 0 e.csr (cZCFG + d.toNat))) ∧ sliceCheck e d.toNat a.toNat false (c == 1) = .ok ∧ y.zen ∧
        (y.r b).toNat < 2 ^ 32 ∧ (y.r b).toNat % 2 ^ 16 < e.zrows d.toNat ∧ (y.r b).toNat / 2 ^ 16 < e.zcols d.toNat)
      (fun e y =>
        let pl := patchPlace (l == 1) ((y.r b).toNat % 2 ^ 16) ((y.r b).toNat / 2 ^ 16)
        let js := (e.active y m.toNat).filter (fun j => e.insideTile d.toNat (pl j))
        let new := patchNew y d.toNat a.toNat (c == 1) (x == 1) pl e
        { fl := unionFlags (js.map (fun j => (new j).2)), seed := y.rcsr cSRSEED
          zst := if js != [] then y.rcsr cZSTATE ||| 2 else y.rcsr cZSTATE, out := none
          regs := SetsCells (fun n i p => if n = d.toNat then (js.find? (fun j => pl j = (i, p))).map (fun j => (new j).1) else none) y }) := by
  refine vecRuns_of_hasZ (run := fun y s e z u => runZpatch s e z u d.toNat a.toNat (y.r b) m.toNat (x == 1) (c == 1) (l == 1))
    (exec_zopPatch d a b m x c l) rfl (fun _ => rfl) (fun _ _ => rfl) (fun s y sh z u trims g => ?_)
    fun s e z pc u hshape ⟨⟨hz, hcfg⟩, hcheck, hen, hp, hrow, hcol⟩ => ⟨_, _,
      runZpatch_eq { z with pc := pc } _ _ _ _ _ s u _ hz hcheck hen hp hrow hcol, placed_hasZ _ (patchPlace_injective ..) hshape hcfg _ _⟩
  simp only [← decide_sat]
  rfl

end Sys2Proof.Machine

/-! ### ZOP.SCALE, ZERO, ENABLE and DISABLE (R204, R216, R217) -/

namespace Sys2Proof.Machine

/-- Under a mode other than SR a rounding step gives what it gives with any generator, and leaves the generator alone. -/
theorem VAcc.round_nearest {mode : Nat} (hmode : mode ≠ 4) (v : VAcc) (f : Fmt) (sat : Bool) (n i : Nat) (x : FV × Nat) :
    v.round f mode sat n i x = ((roundsTo f mode sat 0 x).1, v.flag n i (roundsTo f mode sat 0 x).2) := by
  refine Prod.ext ?_ (VAcc.round_flag hmode ..)
  simp [VAcc.round, roundStep, roundsTo, draw, hmode]

section Scale

variable {e : QEntry} (x : Arch) (t g m : Nat)

/-- A cell times the element of its row, and the flags (R216). -/
def scaleNew (e : QEntry) (c : Nat × Nat) : Nat × Nat :=
  roundsTo fp32 0 false 0 (mulFV (fp32.decode (getCell x t c.1 c.2).toNat) (fp32.decode (getElem x e.vb 32 g c.1)))

/-- The rows that ZOP.SCALE scales. -/
def scaleRows (e : QEntry) : List Nat := (e.active x m).filter (fun i => decide (i < e.zrows t))

/-- Their cells. -/
def scaleCells (e : QEntry) : List (Nat × Nat) := (scaleRows x t m e).flatMap (fun i => (List.range (e.zcols t)).map (i, ·))

/-- A cell is scaled. -/
def scaleStep (e : QEntry) (v : VAcc) (c : Nat × Nat) : VAcc :=
  (v.flag e.fen 0 (scaleNew x t g e c).2).cell t c.1 c.2 (scaleNew x t g e c).1

theorem runZscale_eq (s : State) (u : Sheaf) (hz : e.hasZ = true) (hfloat : e.isFloat = true) (hsew : e.sew = 32) (hgroup : e.groupHere g = true)
    (hen : x.zen = true) (hew : e.zew t = false) :
    runZscale s e x u t g m = Ran.regs s u (some ((scaleCells x t m e).foldl (scaleStep x t g e) (VAcc.start x))) := by
  simp only [runZscale, hz, hfloat, hsew, hgroup, hen, hew, Bool.not_true, decide_true, Bool.and_self, Bool.or_self, Bool.false_eq_true, if_false,
    VAcc.round_nearest (mode := 0) (by decide), scaleCells, scaleRows, List.foldl_flatMap, List.foldl_filter, List.foldl_map, decide_eq_true_eq]
  rfl

theorem mem_scaleCells {c : Nat × Nat} : c ∈ scaleCells x t m e ↔ c.1 ∈ scaleRows x t m e ∧ c.2 < e.zcols t := by
  simp only [scaleCells, List.mem_flatMap, List.mem_map, List.mem_range]
  constructor
  · rintro ⟨i, hi, j, hj, rfl⟩
    exact ⟨hi, hj⟩
  · exact fun ⟨hi, hj⟩ => ⟨c.1, hi, c.2, hj, rfl⟩

theorem scaleCells_nodup : (scaleCells x t m e).Nodup := by
  have hrows : (scaleRows x t m e).Nodup := ((e.active_pairwise x m).imp Nat.ne_of_lt).filter _
  refine nodup_flatMap_of_leftInverse (g := Prod.fst) hrows (fun i _ => ?_) fun i _ c hc => ?_
  · exact List.nodup_range.map fun _ _ h => congrArg Prod.snd h
  · obtain ⟨_, _, rfl⟩ := List.mem_map.1 hc
    rfl

theorem scaleCells_isEmpty (hcols : 1 ≤ e.zcols t) : (scaleCells x t m e).isEmpty = (scaleRows x t m e).isEmpty := by
  unfold scaleCells
  cases scaleRows x t m e with
  | nil => rfl
  | cons i l =>
    have hmem : (i, 0) ∈ (i :: l).flatMap fun i => (List.range (e.zcols t)).map (i, ·) :=
      List.mem_flatMap.2 ⟨i, List.mem_cons_self, List.mem_map.2 ⟨0, List.mem_range.2 hcols, rfl⟩⟩
    simpa using List.ne_nil_of_mem hmem

theorem runZscale_hasZ (hshape : e.shapeOk) (hcfg : zcfgOk e.grant (fget 0 e.csr (cZCFG + t)) = true) :
    ((scaleCells x t m e).foldl (scaleStep x t g e) (VAcc.start x)).HasZ x
      { fl := unionFlags ((scaleCells x t m e).map (fun c => (scaleNew x t g e c).2)), seed := x.rcsr cSRSEED
        zst := if scaleRows x t m e != [] then x.rcsr cZSTATE ||| 2 else x.rcsr cZSTATE, out := none
        regs := SetsCells (fun n i p => if n = t ∧ i ∈ scaleRows x t m e ∧ p < e.zcols t then some (scaleNew x t g e (i, p)).1 else none) x } := by
  obtain ⟨-, hrows, hcols, hcols'⟩ := hshape.tile_bounds hcfg
  have hcells := cells_hasZ (at_ := fun c => (t, c)) (new := fun c _ => scaleNew x t g e c) (l := scaleCells x t m e) (step := scaleStep x t g e)
    (f := fun n i p => if n = t ∧ i ∈ scaleRows x t m e ∧ p < e.zcols t then some (scaleNew x t g e (i, p)).1 else none) (fun _ _ => rfl) x
    (fun c hc => ?_) ?_ (fun c hc => ?_) fun p hp => ?_
  · rwa [scaleCells_isEmpty x t m hcols, zstAfter_ne_nil] at hcells
  · obtain ⟨hi, hj⟩ := (mem_scaleCells x t m).1 hc
    have hrow : c.1 < e.zrows t := of_decide_eq_true (List.mem_filter.1 hi).2
    exact ⟨hrow.trans_le hrows, hj.trans_le hcols'⟩
  · exact (scaleCells_nodup x t m).map fun _ _ h => congrArg Prod.snd h
  · exact if_pos ⟨rfl, (mem_scaleCells x t m).1 hc⟩
  · exact if_neg fun ⟨ht, hmem⟩ => hp (List.mem_map.2 ⟨p.2, (mem_scaleCells x t m).2 hmem, Prod.ext ht.symm rfl⟩)

end Scale

/-- ZOP.SCALE, placed and run. -/
theorem zopScale_runs (d : BitVec 3) (a : Reg) (m : BitVec 3) :
    VecRuns (.zopScale d a m) [] none
      (fun e y => (e.hasZ ∧ zcfgOk e.grant (fget 0 e.csr (cZCFG + d.toNat))) ∧ e.isFloat ∧ e.sew = 32 ∧ e.groupHere a.toNat ∧ y.zen ∧
        e.zew d.toNat = false)
      (fun e y =>
        { fl := unionFlags ((scaleCells y d.toNat m.toNat e).map (fun c => (scaleNew y d.toNat a.toNat e c).2)), seed := y.rcsr cSRSEED
          zst := if scaleRows y d.toNat m.toNat e != [] then y.rcsr cZSTATE ||| 2 else y.rcsr cZSTATE, out := none
          regs := SetsCells (fun n i p => if n = d.toNat ∧ i ∈ scaleRows y d.toNat m.toNat e ∧ p < e.zcols d.toNat then
            some (scaleNew y d.toNat a.toNat e (i, p)).1 else none) y }) :=
  vecRuns_of_hasZ (run := fun _ s e x u => runZscale s e x u d.toNat a.toNat m.toNat) (exec_zopScale d a m) rfl (fun _ => rfl) (fun _ _ => rfl)
    (fun _ _ _ _ _ _ _ => rfl) fun s _ x pc u hshape ⟨⟨hz, hcfg⟩, hfloat, hsew, hgroup, hen, hew⟩ => ⟨_, _,
      runZscale_eq { x with pc := pc } _ _ _ s u hz hfloat hsew hgroup hen hew, runZscale_hasZ { x with pc := pc } _ _ _ hshape hcfg⟩

/-- A write of ZSTATE alone changes no other CSR. -/
theorem rcsr_wcsr_zstate (x : Arch) (v : W64) {n : Nat} (hn : n ≠ cZSTATE) : fget 0 (x.wcsr cZSTATE v).csr n = x.rcsr n :=
  (Arch.rcsr_wcsr x cZSTATE n v).trans (if_neg hn)

/-- A run that leaves the tiles and ZSTATE as given has no flag and no draw. -/
theorem hasZ_tiles (x : Arch) (z : FMap W32) (v : W64) {R : Arch → Prop} (hR : ∀ r csr, R { x with z := z, x := r, csr := csr }) :
    (VAcc.start ({ x with z := z }.wcsr cZSTATE v)).HasZ x { x.calm R with zst := v } := by
  refine ⟨(x.wcsr cZSTATE v).csr, ⟨rfl, ?_, ?_, rfl, rfl, hR⟩, fun n hn => rcsr_wcsr_zstate x v hn⟩
  · exact rcsr_wcsr_zstate x v (by decide)
  · exact ((Arch.rcsr_wcsr x cZSTATE cZSTATE v).trans (if_pos rfl)).symm

/-- The cleared tile holds zeros, and the other tiles are as they were (R217). -/
theorem setsCells_fclear (x : Arch) (t : Nat) (r : FMap W64) (csr : FMap W64) :
    SetsCells (fun n _ _ => given (n = t) 0) x { x with z := fclear x.z (t * 64 * 8192) (64 * 8192), x := r, csr := csr } := by
  refine ⟨by simp [Arch.Only], fun n hn i hi j hj => ?_⟩
  have hread := fget_fclear (0 : W32) x.z (t * 64 * 8192) (64 * 8192) (zKey n i j)
  refine hread.trans ?_
  have hrange : t * 64 * 8192 ≤ zKey n i j ∧ zKey n i j < t * 64 * 8192 + 64 * 8192 ↔ n = t := by
    unfold zKey
    omega
  by_cases h : n = t
  · rw [if_pos (hrange.2 h)]
    simp [given, h]
  · rw [if_neg fun hin => h (hrange.1 hin)]
    simp [given, h, getCell]

/-- ZOP.ZERO, placed and run. -/
theorem zopZero_runs (d : BitVec 3) :
    VecRuns (.zopZero d) [] none (fun e y => e.hasZ ∧ y.zen)
      (fun _ y => { y.calm (SetsCells (fun n _ _ => given (n = d.toNat) 0) y) with zst := y.rcsr cZSTATE ||| 2 }) := by
  refine vecRuns_of_hasZ (run := fun _ s e x u => runZzero s e x u d.toNat) (exec_zopZero d) rfl (fun _ => rfl) (fun _ _ => rfl)
    (fun _ _ _ _ _ _ _ => rfl) fun s e x pc u _ ⟨hz, hen⟩ => ⟨_, s.free, ?_,
      hasZ_tiles { x with pc := pc } _ _ fun r csr => setsCells_fclear { x with pc := pc } d.toNat r csr⟩
  have hen' : ({ x with pc := pc } : Arch).zen = true := hen
  simp only [runZzero, hz, hen', Bool.not_true, Bool.false_eq_true, if_false]
  rfl

/-- ZOP.ENABLE where tile state is enabled, placed and run. -/
theorem zopEnable_runs : VecRuns .zopEnable [] none (fun e y => e.hasZ ∧ y.zen) (fun _ y => y.calm (fun z => y.Only z [])) := by
  refine vecRuns_of_hasZ (run := fun _ s e x u => runZenable s e x u) exec_zopEnable rfl (fun _ => rfl) (fun _ _ => rfl)
    (fun _ _ _ _ _ _ _ => rfl) fun s e x pc u _ ⟨hz, hen⟩ => ⟨_, s.free, ?_,
      (VAcc.has_calm rfl fun _ _ => Arch.only_nil rfl : (VAcc.start { x with pc := pc }).Has _ _).hasZ⟩
  have hen' : ({ x with pc := pc } : Arch).zen = true := hen
  simp only [runZenable, hz, hen', Bool.not_true, Bool.false_eq_true, if_false, if_true]
  rfl

/-- ZOP.DISABLE, placed and run. -/
theorem zopDisable_runs :
    VecRuns .zopDisable [] none (fun e _ => e.hasZ)
      (fun _ y => { y.calm (fun z => y.Only z [.z] ∧ (y.zen = false → z.z = y.z)) with
        zst := if y.zen then setBits (y.rcsr cZSTATE) 0 0 0 else y.rcsr cZSTATE }) := by
  refine vecRuns_of_hasZ (run := fun _ s e x u => runZdisable s e x u) exec_zopDisable rfl (fun _ => rfl) (fun _ _ => rfl)
    (fun _ _ _ _ _ _ _ => rfl) fun s e x pc u _ hz => ?_
  have hsame : ({ x with pc := pc } : Arch).zen = x.zen := rfl
  cases hen : x.zen with
  | true =>
    refine ⟨_, s.free + 64 * 8 * 8192, ?_, hasZ_tiles { x with pc := pc } (freeTiles e.grant.clusters s.free) _ fun r csr => ⟨by simp [Arch.Only], nofun⟩⟩
    simp only [runZdisable, hz, hsame, hen, Bool.not_true, Bool.false_eq_true, if_false, if_true]
    rfl
  | false =>
    have hhas : (VAcc.start { x with pc := pc }).Has { x with pc := pc } (x.calm fun z => x.Only z [.z] ∧ (false = false → z.z = x.z)) :=
      VAcc.has_calm rfl fun _ _ => ⟨by simp [Arch.Only], fun _ => rfl⟩
    refine ⟨VAcc.start { x with pc := pc }, s.free, ?_, hhas.hasZ⟩
    simp only [runZdisable, hz, hsame, hen, Bool.not_true, Bool.false_eq_true, if_false]
    rfl

end Sys2Proof.Machine

/-! ### ZOP.CFG (R202) -/

namespace Sys2Proof.Machine

/-- The hart `p` waits at the sequencer with the ZOP.CFG `e` alone, in its only sheaf `sh`, which is open. -/
structure Hart.Shaping (p : Hart) (sh : Sheaf) (e : QEntry) : Prop where
  queue : p.queue = [e]
  sheaves : p.sheaves = [sh]
  op : ∃ t v, e.op = .zcfg t v
  hasZ : e.hasZ = true
  young : e.young = false
  bq : e.bq = none
  clusters : p.arch.grant.clusters ≠ 0
  ahead : p.ahead = false
  held : p.held = none
  closed : sh.closed = none
  trap : sh.trap = none
  want : sh.want = none

/-- What remains of the hart once it has issued in the ck `now`. -/
def Hart.shaped (p : Hart) (now : Nat) (sh : Sheaf) (e : QEntry) : Hart :=
  { p with arch := p.arch.unflagged, sheaves := [{ sh with asks := [] }], queue := [], issued := p.issued + 1, issueAt := now + 1
           dc := p.dc - (e.charge : Int), noProg := 0 }

section Shaping

variable {s : State} {p : Hart} {sh : Sheaf} {e : QEntry} (hx : s.hart s.cur = some p) (hp : p.Shaping sh e)
include hp

theorem Hart.Shaping.finish (now free : Nat) :
    p.finish now 0 e { acc := VAcc.start p.arch, sheaf := { sh with asks := [] }, free := free, hold := none, cls := none } = p.shaped now sh e := by
  obtain ⟨hq, hs, ⟨t, v, hop⟩, -, -, hbq, -, -, -, -, -, hwant⟩ := hp
  have hopen : ({ sh with want := none, asks := [] } : Sheaf) = { sh with asks := [] } := by rw [← hwant]
  unfold Hart.finish Hart.shaped
  simp only [hq, hs, hop, hbq, hwant, hopen, VOp.isStrip, List.drop_one, List.tail_cons, List.map_nil, List.set_cons_zero, ite_self,
    Bool.false_eq_true, if_false]
  rfl

include hx

/-- It issues at once. -/
theorem State.completeHead_shaping (hissue : p.issueAt ≠ s.now + 1) :
    ∃ w, s.Notes w ∧ s.completeHead s.cur = w.updHart s.cur fun x => x.finish s.now 0 e
      { acc := VAcc.start p.arch, sheaf := { sh with asks := [] }, free := s.free, hold := none, cls := none } := by
  obtain ⟨hq, hs, ⟨t, v, hop⟩, hz, hyoung, -, hclusters, -, -, -, htrap, hwant⟩ := hp
  have hfirst : s.issuesFirst s.cur p e = s.cur := State.issuesFirst_self s p e (.inl hclusters)
  have hstops : ({ sh with asks := [] } : Sheaf).stops e = false := by simp [Sheaf.stops, htrap, hwant]
  have hrun (b : Bool) : runVOp s p.gang e p.arch { sh with asks := [] } b =
      .done { acc := VAcc.start p.arch, sheaf := { sh with asks := [] }, free := s.free, hold := none, cls := none } := by
    rw [runVOp, hop]
    simp only [runZcfg, hz, Bool.not_true, Bool.false_eq_true, if_false]
    rfl
  obtain ⟨w, hpipe, hw⟩ : ∃ w, ({ s with free := s.free } : State).runPipe s.cur e p.issued false = w ∧ s.Notes w := ⟨_, rfl, .runPipe ..⟩
  have hnow : w.now = s.now := by
    rw [hw]
  refine ⟨w, hw, ?_⟩
  unfold State.completeHead
  rw [hx]
  dsimp only
  rw [hq]
  dsimp only
  rw [hfirst]
  unfold State.runHead
  rw [hx]
  dsimp only
  rw [hq]
  have hasked : (Ran.done { acc := VAcc.start p.arch, sheaf := { sh with asks := [] }, free := s.free, hold := none, cls := none }).asks.isEmpty = true := rfl
  have hflags : ¬ (VAcc.start p.arch).fl &&& e.fen ≠ 0 := not_not.2 (Nat.zero_and _)
  simp only [hyoung, hs, List.getElem?_cons_zero, hstops, hissue, decide_false, Bool.or_self, Bool.false_eq_true, if_false, hop, VOp.isStrip, Bool.not_true,
    hx, hrun, hasked, hflags, Bool.and_false, Bool.false_and, hpipe]
  rw [← hnow]

/-- A ck in which it issues. -/
theorem State.issue_shaping (hissue : p.issueAt ≠ s.now + 1) : ∃ u, s.issue s.cur = u ∧ s.VAlone u ∧
    u.hart s.cur = some ((p.shaped s.now sh e).tick 1) := by
  obtain ⟨w, hw, hcomplete⟩ := State.completeHead_shaping hx hp hissue
  let v := w.updHart s.cur fun x => x.finish s.now 0 e
    { acc := VAcc.start p.arch, sheaf := { sh with asks := [] }, free := s.free, hold := none, cls := none }
  have hharts : w.harts = s.harts := by
    rw [hw]
  have hwx : w.hart s.cur = some p := (congrArg (ffind · s.cur) hharts).trans hx
  have hself : (v.tick 1).hart s.cur = some ((p.shaped s.now sh e).tick 1) := by
    rw [State.hart_tick, State.hart_updHart_self, hwx, ← hp.finish s.now s.free]
    rfl
  have hframe : v = { s with harts := v.harts, free := v.free, due := v.due } := by
    simp only [v, State.updHart, hwx]
    rw [hw]
    rfl
  have hsettle : (v.tick 1).settle s.cur = v.tick 1 :=
    State.settle_open hself (Hart.tick_sheaves ..) ((Hart.tick_held ..).trans hp.held) hp.closed hp.trap hp.want
  refine ⟨v.tick 1, ?_, ⟨?_, ?_, fun h hne => ?_⟩, hself⟩
  · simp only [State.issue, hx, hp.ahead, Bool.false_eq_true, if_false, hcomplete]
    exact hsettle
  · unfold State.tick
    rw [hframe]
  · refine (State.SetsOff.refl s).of_eq ?_
    show v.ms = s.ms
    rw [hframe]
  · rw [State.hart_tick, State.hart_updHart_ne _ _ hne]
    exact congrArg (fun m : FMap Hart => (ffind m h).map (Hart.tick 1)) hharts

end Shaping

/-- The entry of a ZOP.CFG. -/
def Hart.zcfgEntry (y : Hart) (sh : Sheaf) (d : BitVec 3) (a : Reg) : QEntry :=
  y.entryOf sh ⟨[a.toNat], .mq, none, packR 49#6 (0#2 ++ d) a 0#5 0#3 0#8⟩ [] (.zcfg d.toNat (y.arch.r a))

/-- The hart with its ZOP.CFG placed, whose shape the scalar side has set. -/
def Hart.zcfgPlaced (y : Hart) (sh : Sheaf) (d : BitVec 3) (a : Reg) : Hart :=
  { y with arch := (y.arch.wcsr (cZCFG + d.toNat) (y.arch.r a)).next, sheaves := [sh.placed []], queue := [y.zcfgEntry sh d a], bq := y.bqAfter [a.toNat]
           blocked := false, noProg := 0 }

section Cfg

variable {s : State} {y : Hart} {sh : Sheaf} {a : Reg} (d : BitVec 3) (hv : s.VReady [a.toNat] y sh) (hz : (y.entry sh).hasZ = true)

theorem QEntry.hasZ_iff {e : QEntry} : e.hasZ = true ↔ e.grant.clusters ≠ 0 ∧ needsZ e.csr = true := by
  simp only [QEntry.hasZ, Bool.and_eq_true, decide_eq_true_eq, Nat.one_le_iff_ne_zero]

include hv hz

theorem State.VReady.zcfgPlaced_shaping : (y.zcfgPlaced sh d a).Shaping (sh.placed []) (y.zcfgEntry sh d a) := by
  obtain ⟨-, -, hahead, hheld, -, -, hclosed, htrap, hwant, -, -, -⟩ := hv
  exact ⟨rfl, rfl, ⟨_, _, rfl⟩, hz, rfl, rfl, (QEntry.hasZ_iff.1 hz).1, hahead, hheld, hclosed, htrap, hwant⟩

/-- A legal shape is set, and the instruction placed. -/
theorem execZopCfg_placed (hok : zcfgOk y.arch.grant (y.arch.r a) = true) :
    exec (.zopCfg d a) s = .next ((s.setHart s.cur (y.zcfgPlaced sh d a)).issue s.cur) := by
  obtain ⟨hr, hsup, -, hheld, hq, hs, -⟩ := hv
  obtain ⟨hclusters, hneeds⟩ := QEntry.hasZ_iff.1 hz
  have hclusters' : y.arch.grant.clusters ≠ 0 := hclusters
  have hneeds' : needsZ y.arch.csr = true := hneeds
  have htaken : ¬ QUnit.mq.size ≤ ({ y with bq := y.bqAfter [a.toNat] } : Hart).taken .mq := by simp [QUnit.size, Hart.taken, hq]
  have htarget : ({ y with bq := y.bqAfter [a.toNat] } : Hart).target = { i := 0, csr := y.arch.csr, sup := false } := by simp [Hart.target, hheld, hs]
  have hok' : zcfgOk y.arch.grant (y.arch.rx a.toNat) = true := hok
  rw [exec_zopCfg, execZopCfg, withHart_canRun hr]
  simp only [hsup, hclusters', htarget, hneeds', htaken, hok', Bool.false_and, decide_false, Bool.not_true, Bool.or_self, Bool.false_eq_true, if_false]
  congr 3
  simp [Hart.push, Hart.entryFor, Hart.target, hheld, Hart.zcfgPlaced, Hart.withArch, Hart.zcfgEntry, Hart.entryOf, Hart.entry, Sheaf.placed, hs, hq, Arch.r]

/-- ZOP.CFG sets ZCFGd (R202). -/
theorem zopCfg_completes (hok : zcfgOk y.arch.grant (y.arch.r a) = true) :
    ∃ u z, exec (.zopCfg d a) s = .next u ∧ s.VAlone u ∧ u.hart s.cur = some z ∧
      y.VDone z s.now [a.toNat] { sh with seq := sh.seq + 1 } (max 1 (y.entry sh).vl) [] ∧
      z.arch = { y.arch.next with csr := z.arch.csr } ∧
      ∀ n, z.arch.rcsr n = if n = cZCFG + d.toNat then y.arch.r a else y.arch.rcsr n := by
  let t := s.setHart s.cur (y.zcfgPlaced sh d a)
  let z := (y.zcfgPlaced sh d a).shaped s.now (sh.placed []) (y.zcfgEntry sh d a)
  have hissue : (y.zcfgPlaced sh d a).issueAt ≠ s.now + 1 := by
    obtain ⟨-, -, -, -, -, -, -, -, -, -, hissue, -⟩ := hv
    exact hissue
  obtain ⟨u, hu, ⟨hframe, hms, hothers⟩, hself⟩ :=
    State.issue_shaping (s := t) (State.hart_setHart_self ..) (hv.zcfgPlaced_shaping d hz) hissue
  have hticked : z.tick 1 = { z with cnt := (z.tick 1).cnt } := Hart.tick_eq ..
  have harch : (z.tick 1).arch = ((y.arch.wcsr (cZCFG + d.toNat) (y.arch.r a)).next).unflagged := Hart.tick_arch ..
  refine ⟨u, z.tick 1, (execZopCfg_placed d hv hz hok).trans (congrArg _ hu), ⟨hframe, hms, fun h hne => ?_⟩, hself, ⟨?_, fun n h1 h2 => ?_⟩, ?_, fun n => ?_⟩
  · exact (hothers h hne).trans (congrArg (Option.map (Hart.tick 1)) (State.hart_setHart_ne s _ hne))
  · obtain ⟨-, -, -, -, hq, -⟩ := hv
    have hbq : y.bqAfter [a.toNat] ++ [] = y.bqAfter [a.toNat] := List.append_nil _
    rw [hbq, hticked]
    simp only [z, Hart.shaped, Hart.zcfgPlaced, hq]
    rfl
  · exact Hart.tick_cnt_other z 1 n h1 h2 (.inl rfl)
  · rw [harch]
    rfl
  · rw [harch, Arch.rcsr_unflagged, Arch.rcsr_next, Arch.rcsr_wcsr]

end Cfg

end Sys2Proof.Machine

/-! ### The ZOP instructions together (R202, R204, R211 to R217) -/

namespace Sys2Proof.Machine

/-- The flags of the scaled cells, row by row (R62). -/
theorem map_scaleCells (x : Arch) (t m : Nat) (e : QEntry) (f : Nat × Nat → Nat) :
    (scaleCells x t m e).map f = (scaleRows x t m e).flatMap fun i => (List.range (e.zcols t)).map fun p => f (i, p) := by
  simp only [scaleCells, List.map_flatMap, List.map_map]
  rfl

/-- Settles O36: each instruction with its own rule. -/
theorem tileOperations : Obligations.TileOperations := by
  intro d a b m sat x c l
  have hscale := zopScale_runs d a m
  simp only [map_scaleCells] at hscale
  refine ⟨?_, ?_, ?_, hscale, zopZero_runs d, zopEnable_runs, zopDisable_runs, fun _ _ _ hv hz hok => zopCfg_completes d hv hz hok⟩
  · rcases BitVec.eq_zero_or_eq_one l with rfl | rfl
    · exact zopRd_runs d a b m sat c 0
    · exact zopRd_runs d a b m sat c 1
  · rcases BitVec.eq_zero_or_eq_one l with rfl | rfl
    · exact zopWr_runs d a b m c 0
    · exact zopWr_runs d a b m c 1
  · rcases BitVec.eq_zero_or_eq_one l with rfl | rfl
    · exact zopPatch_runs d a b m x c 0
    · exact zopPatch_runs d a b m x c 1

end Sys2Proof.Machine

/-! ### ZOP.MASK and a tile too wide for the rows of its cells (R17, R201, R202, R230) -/

namespace Sys2Proof.Machine

/-- A program without SAMEDOC reads no document table (R224). -/
theorem readDocs_of_noDoc {prog : List Nat} (hdoc : usesDoc prog = false) (s : State) (e : QEntry) (sh : Sheaf) :
    readDocs s e sh prog = .ok { tab := [], sheaf := sh, free := s.free, hold := none } := by
  simp only [readDocs, hdoc, Bool.false_eq_true, if_false, List.range_zero, List.foldl_nil]

/-- What ZOP.MASK puts in a cell. -/
def maskedValue (zero : Bool) : Nat := if zero then 0 else 0xFF80_0000

/-- The registers after ZOP.MASK has gone over the cells of tile `t`, with `kept i j` where the program is 1 (R230). -/
def Arch.masked (a : Arch) (e : QEntry) (t : Nat) (kept : Nat → Nat → Bool) (zero : Bool) : Arch :=
  (List.range (e.zrows t)).foldl (fun a i => (List.range (e.zcols t)).foldl (fun (a : Arch) j =>
    if kept i j then a else a.cell t i j (maskedValue zero)) a) a

/-- The cell of key `n` holds the value `v`. -/
def Arch.HoldsAt (n v : Nat) (a : Arch) : Prop := fget 0 a.z n = BitVec.ofNat 32 v

/-- A write of the same value, to whatever cell, keeps it. -/
theorem Arch.HoldsAt.cell {n v : Nat} {a : Arch} (h : a.HoldsAt n v) (t i j : Nat) : (a.cell t i j v).HoldsAt n v := by
  have hread := fget_fset 0 a.z (zKey t i j) n (BitVec.ofNat 32 v)
  exact hread.trans (by rw [h, ite_self])

/-- Whatever cell has the key of a cell that the program masks holds the value after it. -/
theorem Arch.masked_overwrites (a : Arch) {e : QEntry} {t i j : Nat} {kept : Nat → Nat → Bool} (zero : Bool) (hi : i < e.zrows t) (hj : j < e.zcols t)
    (hmask : kept i j = false) : (a.masked e t kept zero).HoldsAt (zKey t i j) (maskedValue zero) := by
  have hkeep (i' j' : Nat) (a : Arch) (h : a.HoldsAt (zKey t i j) (maskedValue zero)) :
      (if kept i' j' then a else a.cell t i' j' (maskedValue zero)).HoldsAt (zKey t i j) (maskedValue zero) := by
    cases kept i' j' with
    | true => exact h
    | false => exact h.cell t i' j'
  refine foldl_establishes (P := Arch.HoldsAt (zKey t i j) (maskedValue zero)) _ _ _ (List.mem_range.2 hi) (fun a => ?_) fun a i' _ ha =>
    foldl_keeps (P := Arch.HoldsAt (zKey t i j) (maskedValue zero)) _ _ _ ha fun a j' _ => hkeep i' j' a
  refine foldl_establishes (P := Arch.HoldsAt (zKey t i j) (maskedValue zero)) _ _ _ (List.mem_range.2 hj) (fun a => ?_) fun a j' _ => hkeep i j' a
  simp only [hmask, Bool.false_eq_true, if_false]
  exact fget_fset_self 0 a.z _ _

section Masks

variable {s : State} {y : Hart} {sh : Sheaf} (d : BitVec 3) (a : Reg) (k : BitVec 2) (x : BitVec 1)

/-- The cells at which a program without SAMEDOC is 1. -/
def Arch.keeps (y : Arch) (a : Reg) (k : BitVec 2) (i j : Nat) : Bool :=
  evalAt [] (bits (y.r a).toNat 31 0 + i) (bits (y.r a).toNat 63 32 + j) (maskProgram y k.toNat) []

/-- The tiles after ZOP.MASK with a program that reads no table. -/
theorem zopMask_tiles (hv : s.VReady [a.toNat] y sh) (hz : (y.entry sh).hasZ = true) (hen : y.arch.zen = true)
    (hew : x = 0 → (y.entry sh).zew d.toNat = false) (hprog : maskProgram y.arch k.toNat ≠ []) (hdoc : usesDoc (maskProgram y.arch k.toNat) = false) :
    ∃ t z, exec (.zopMask d a k x) s = .next t ∧ t.hart s.cur = some z ∧
      z.arch.z = (y.arch.next.masked (y.entry sh) d.toNat (y.arch.keeps a k) (decide (x.toNat = 1))).z := by
  let issue : Issue := ⟨[a.toNat], .mq, none, packR 49#6 (0#2 ++ d) a (0#3 ++ k) 0#3 (0#3 ++ x ++ 8#4)⟩
  let u : Sheaf := { sh.placed [] with asks := [] }
  have hshape : (!decide (x.toNat = 1) && (y.entry sh).zew d.toNat) = false := by
    rcases BitVec.eq_zero_or_eq_one x with rfl | rfl
    · exact hew rfl
    · rfl
  have hnext : maskProgram y.arch.next k.toNat = maskProgram y.arch k.toNat := rfl
  have hnonempty : (maskProgram y.arch k.toNat).isEmpty = false := by simpa using hprog
  have hen' : y.arch.next.zen = true := hen
  have hrun (t : State) : runZmask t (y.entry sh) y.arch.next u d.toNat (y.arch.r a) k.toNat (decide (x.toNat = 1)) =
      .done { acc := { VAcc.start y.arch.next with
                arch := y.arch.next.masked (y.entry sh) d.toNat (y.arch.keeps a k) (decide (x.toNat = 1)) }
              sheaf := u, free := t.free, hold := none, cls := none } := by
    unfold runZmask
    simp only [hz, hen', hshape, hnext, hnonempty, readDocs_of_noDoc hdoc, Bool.not_true, Bool.false_eq_true, if_false]
    rfl
  obtain ⟨-, -, -, -, -, -, hclosed, htrap, hwant, -⟩ := id hv
  obtain ⟨t, z, hstep, -, hself, -, -, harch⟩ := issueV_runs (k := issue) (resv := noResv)
    (op := fun a0 => .zmask d.toNat (a0.rx a.toNat) k.toNat x.toNat) hv rfl rfl (hrun _) (.inr rfl) (Nat.zero_and _) rfl hwant htrap hclosed nofun
  refine ⟨t, z, hstep, hself, ?_⟩
  rw [harch]
  rfl

end Masks

/-- A cell that is not given is as it was. -/
theorem SetsCells.unchanged {f : Nat → Nat → Nat → Option Nat} {a b : Arch} (h : SetsCells f a b) {t i j : Nat} (ht : t < 8) (hi : i < 64) (hj : j < 8192)
    (hf : f t i j = none) : getCell b t i j = getCell a t i j := by
  obtain ⟨-, hcells⟩ := h
  rw [hcells t ht i hi j hj, hf]
  rfl

/-- O37 for a cell of tile 0 that the program keeps, under ZOP.MASK at position 0 with the program in slot 0. -/
theorem maskUnit_keeps (h : Obligations.MaskUnit) {s : State} {y : Hart} {sh : Sheaf} {a : Reg} (hv : s.VReady [a.toNat] y sh) (htimed : s.ms.timed = false)
    (hneeds : needsMask (y.entry sh).csr = true) (hz : (y.entry sh).hasZ = true)
    (hcfg : zcfgOk (y.entry sh).grant (fget 0 (y.entry sh).csr (cZCFG + 0)) = true) (hen : y.arch.zen = true) (hew : (y.entry sh).zew 0 = false)
    (hprog : maskProgram y.arch 0 ≠ []) (hdoc : usesDoc (maskProgram y.arch 0) = false) {i j : Nat} (hi : i < 64) (hj : j < 8192)
    (hkept : evalAt [] ((y.arch.r a).toNat % 2 ^ 32 + i) ((y.arch.r a).toNat / 2 ^ 32 + j) (maskProgram y.arch 0) [] = true) :
    ∃ t z, exec (.zopMask 0 a 0 0) s = .next t ∧ t.hart s.cur = some z ∧ getCell z.arch 0 i j = getCell y.arch 0 i j := by
  obtain ⟨-, hprograms, -⟩ := h 0 0 a 0 0
  obtain ⟨-, -, hmask⟩ := hprograms s y sh _ _ rfl hneeds hprog (readDocs_of_noDoc hdoc s _ _) rfl (.inl htimed)
  obtain ⟨t, z, hstep, -, hself, -, -, -, hcells⟩ := hmask hv hz hcfg hen fun _ => hew
  refine ⟨t, z, hstep, hself, hcells.unchanged (by decide) hi hj (if_neg ?_)⟩
  rintro ⟨-, hmem⟩
  simp only [List.mem_flatMap, List.mem_filterMap, Option.ite_none_left_eq_some, Option.some.injEq, Prod.mk.injEq] at hmem
  obtain ⟨i', -, j', -, hmasked, rfl, rfl⟩ := hmem
  exact hmasked hkept

/-! The package of the counterexample.  Its hart has a grant of 129 clusters, of which a tile of 8193 columns is legal by R202's check. -/

namespace MaskCase

/-- A grant that R17 does not know, and a hart as it starts. -/
def grant : Grant := { EretCase.grant with clusters := 129 }
def user : Hart := newHart State.reset.disp 0 0 EretCase.packet grant 0

/-- Tile state is enabled, tile 0 has 2 rows and 8193 columns of FP32, and slot 0 holds one word, which keeps the keys below 8192. -/
def arch : Arch :=
  { ((user.arch.wcsr cHSTATUS 0x600).wcsr cZSTATE 1).wcsr cZCFG 0x2001_0200 with mp := [(0, 1), (9, 0x20), (11, 0x40)], z := [] }

def sheaf : Sheaf := newSheaf arch arch.pc 0 arch.pc 0 false false 0 0 false
def hart : Hart := { user with arch := arch, sheaves := [sheaf] }
def start : State := State.reset.setHart 0 hart

theorem start_vReady : start.VReady [0] hart sheaf :=
  ⟨⟨hart, rfl, by decide +kernel, by decide +kernel⟩, by decide +kernel, rfl, rfl, rfl, rfl, rfl, rfl, rfl, by decide +kernel, by decide +kernel,
    .inl (by decide +kernel)⟩

theorem start_timed : start.ms.timed = false := by decide +kernel
theorem program_ne_nil : maskProgram arch 0 ≠ [] := by decide +kernel
theorem program_noDoc : usesDoc (maskProgram arch 0) = false := by decide +kernel
theorem entry_legal : (hart.entry sheaf).hasZ = true ∧ needsMask (hart.entry sheaf).csr = true ∧ hart.arch.zen = true ∧
    zcfgOk (hart.entry sheaf).grant (fget 0 (hart.entry sheaf).csr (cZCFG + 0)) = true ∧ (hart.entry sheaf).zew 0 = false ∧
    0 < (hart.entry sheaf).zrows 0 ∧ 8192 < (hart.entry sheaf).zcols 0 := by decide +kernel

/-- The program keeps cell (1, 0), which holds 0, and masks cell (0, 8192). -/
theorem program_cells : evalAt [] ((arch.r 0).toNat % 2 ^ 32 + 1) ((arch.r 0).toNat / 2 ^ 32 + 0) (maskProgram arch 0) [] = true ∧
    arch.keeps 0 0 0 8192 = false ∧ getCell arch 0 1 0 = 0 := by decide +kernel

/-- The two cells have one key. -/
theorem same_key : zKey 0 1 0 = zKey 0 0 8192 := rfl

end MaskCase

/-- Refutes O37: the clause of ZOP.MASK does not ask for a grant of R17 (`QEntry.shapeOk`, which the clause of MSK.GEN and the statements about the other tile
instructions have).  In a grant of 129 clusters R202's check passes a tile of 8193 columns, and the model's cell (0, 8192) is then its cell (1, 0): masking the
one overwrites the other, which the program keeps. -/
theorem not_maskUnit : ¬ Obligations.MaskUnit := by
  intro h
  obtain ⟨hz, hneeds, hen, hcfg, hew, hrow, hcol⟩ := MaskCase.entry_legal
  obtain ⟨hkept, hmasked, hold⟩ := MaskCase.program_cells
  obtain ⟨t, z, hstep, hself, hcell⟩ := maskUnit_keeps h (a := 0) MaskCase.start_vReady MaskCase.start_timed hneeds hz hcfg hen hew MaskCase.program_ne_nil
    MaskCase.program_noDoc (i := 1) (j := 0) (by decide) (by decide) hkept
  obtain ⟨t', z', hstep', hself', htiles⟩ := zopMask_tiles 0 0 0 0 MaskCase.start_vReady hz hen (fun _ => hew) MaskCase.program_ne_nil MaskCase.program_noDoc
  obtain rfl : t = t' := by simpa using hstep.symm.trans hstep'
  obtain rfl : z = z' := by simpa using hself.symm.trans hself'
  have hover := MaskCase.hart.arch.next.masked_overwrites (decide ((0 : BitVec 1).toNat = 1)) hrow hcol hmasked
  have hread : getCell z.arch 0 1 0 = BitVec.ofNat 32 (maskedValue false) := by
    unfold getCell
    rw [htiles, MaskCase.same_key]
    exact hover
  exact absurd (hread.symm.trans (hcell.trans hold)) (by decide)

end Sys2Proof.Machine
